-- ==== Sys2Proof/Word.lean ====
section
/-! DEFINITION. The words of the HG6480 model: bytes, 32-bit register words, 64-bit values, and nothing else. -/

namespace Sys2Proof

/-- One byte of a frame, a record, a page or a structure (R13, R14). -/
abbrev Byte := BitVec 8

/-- A 32-bit register word: BAR0 registers (R93), working registers of an engine (R148). -/
abbrev Word32 := BitVec 32

/-- A 64-bit word: the state of a random generator (R299). -/
abbrev Word64 := BitVec 64

/-- A 128-bit micro-word (R149). -/
abbrev MicroWord := BitVec 128

end Sys2Proof
end

