-- ==== Sys2Proof/Syntax.lean ====
section
/-! DEFINITION. The commands of the HG6480: one constructor of `Instr` for each row of spec/opcode_table.json,
with the operands that the row's rule gives it. A command is a register access from outside, an operation of a
protocol, an event on a pin, or one of the part's own steps (an engine's step, a timer running out); see
spec/95_what_each_step_holds.md. Where the spec bounds a happening but does not fix it (which frames arrive, when a
bounded step ends, how credits are grouped), the operand carries what happened. -/

namespace Sys2Proof

/-- A front port, 0 to 127 (R6). -/
abbrev FrontPort := Fin 128
/-- Any port: front ports, host port 128, loopback ports 129 to 136 (R7). -/
abbrev Port := Fin 137
/-- A pipe, 0 to 7 (R3). -/
abbrev Pipe := Fin 8
/-- A deck, its Pilot, or its HBM stack, 0 to 3 (R2). -/
abbrev Deck := Fin 4
/-- A parse engine by instance, pipe × 128 + engine (R8, R10). -/
abbrev EngineId := Fin 1024
/-- A parse cluster by instance, pipe × 8 + cluster (R10). -/
abbrev ClusterId := Fin 64
/-- A chain-link direction (R10, R21). -/
abbrev Direction := Fin 12
/-- A pseudo-channel by instance, stack × 32 + pseudo-channel (R10). -/
abbrev Pc := Fin 128
/-- A ring by instance (R101). -/
abbrev Ring := Fin 29
/-- A gangway by instance, deck × 128 + local number (R480). -/
abbrev Gangway := Fin 512
/-- The handle by which the model names a frame in the device. -/
abbrev FrameId := Nat

/-- The path, and with it the session, a dictionary request comes by (R60, R61). -/
inductive Path where
  /-- The PCIe mailbox; its slot holds the request (R93). -/
  | mailbox (slot : Fin 16)
  /-- ACP: source device and key slot of the session; `seq` is SESSION_SEQ of the request (R457). -/
  | acp (device : BitVec 16) (keySlot : Fin 256) (seq : Word32)
  /-- The two-wire target (R64). -/
  | twoWire
  /-- The boot session, which applies the configuration section (R499). -/
  | boot
  deriving DecidableEq, Repr

/-- A dictionary request record (R57) without its RESP bit, its reserved byte and the value's own length. -/
structure Request where
  /-- OPCODE, 7 bits. -/
  opcode : BitVec 7
  /-- FLAGS[7] STAGED. -/
  staged : Bool := false
  /-- FLAGS[6] LAST. -/
  last : Bool := false
  /-- TAG. -/
  tag : BitVec 16 := 0
  /-- INDEX. -/
  index : BitVec 16
  /-- SUBINDEX. -/
  sub : BitVec 8 := 0
  /-- INSTANCE. -/
  inst : BitVec 16 := 0
  /-- LENGTH: value bytes that follow, or the bytes wanted of a READ_SEG. -/
  length : BitVec 16 := 0
  /-- OFFSET. -/
  offset : Word32 := 0
  /-- VALUE. -/
  value : List Byte := []
  deriving DecidableEq, Repr

/-- Who writes a register that has a row of its own: the path and the request's TAG, which the response returns. -/
structure Client where
  path : Path
  tag : BitVec 16 := 0
  deriving DecidableEq, Repr

/-- What resets the PCIe endpoint (R92). -/
inductive PcieResetKind where
  | functionLevel | hotReset | linkLoss
  deriving DecidableEq, Repr

/-- A register of the endpoint's configuration space that the rules name (R90, R584). -/
inductive ConfigReg where
  /-- Device ID and vendor ID. -/
  | ids
  /-- Class code and revision. -/
  | classCode
  /-- Message Control of the MSI-X capability: enable, function mask, table size. -/
  | msixControl
  /-- Link status: negotiated width and rate. -/
  | linkStatus
  deriving DecidableEq, Repr

/-- Where a host access beside BAR2 goes: a byte offset of BAR0 with the bytes of the access (R93), or a register of
configuration space. -/
inductive HostPlace where
  | bar0 (offset : BitVec 23) (bytes : Nat)
  | config (r : ConfigReg)
  deriving DecidableEq, Repr

/-- Causes of a fault of a receive path: ARG0 of LINK_DOWN (R143). -/
inductive RxFault where
  | lossOfSignal | lossOfAlignment | localFault | remoteFault | trainingFailed
  deriving DecidableEq, Repr

/-- Result of the code check of a word or burst read from a protected memory (R168, R397, R523). -/
inductive EccResult where
  | clean | corrected | uncorrectable
  deriving DecidableEq, Repr

/-- A requester of a pseudo-channel, with its code rr (R388). -/
inductive Requester where
  | lookup | writeback | insert | dma | exporter | scrub
  deriving DecidableEq, Repr

/-- A column operation of the memory controller (R267). -/
inductive ColumnOp where
  /-- Allocate a binding for the inside endpoint (R268). -/
  | allocate (pool : Fin 4096) (hash : Word32) (insideAddr : Word32) (insidePort : BitVec 16) (service : Option (Fin 4096))
  /-- Add a reference to the binding of a public port (R268, R272, R273). -/
  | reference (pool : Fin 4096) (publicPort : BitVec 16)
  /-- Release one use of the binding of a public port (R269). -/
  | release (pool : Fin 4096) (publicPort : BitVec 16)
  deriving DecidableEq, Repr

/-- Causes of a wake (R471). -/
inductive WakeCause where
  | frame | eeeWake | host | pilot | policy | internal
  deriving DecidableEq, Repr

/-- Causes of a Pilot's declaration as failed (R510). -/
inductive PilotFailCause where
  | watchdog | heartbeat | gangway | memory
  deriving DecidableEq, Repr

/-- A PLL of a deck (R488): the chain-link PLL names the direction it clocks. -/
inductive Pll where
  | core | hbmPhy | chainLink (k : Fin 3)
  deriving DecidableEq, Repr

/-- On-die SRAM arrays by the handling an uncorrectable error gets (R523). `index` locates the entry. -/
inductive SramArray where
  | bufferCell (frame : FrameId)
  | quayLine (slot : BitVec 24)
  | flowBerth (berth : Fin 65536)
  | macBerth (anchorage : Bool) (berth : Fin 262144)
  | route (six : Bool) (entry : Fin 524288)
  | service (entry : Fin 4096)
  | spread (table : Fin 16) (entry : Fin 4096)
  | controlStore (cluster : Fin 16) (bank : Bool) (addr : BitVec 13)
  | descriptor (frame : FrameId)
  deriving DecidableEq, Repr

/-- The state of a cluster's, Pilot's or slot's check made outside the model: which check of an image failed, if any. -/
abbrev CheckFailure := Option (Fin 9)

/-- What a boot stage found (R492, R495, R500). -/
structure BootFinding where
  /-- Pseudo-channels that failed training or the pattern test (stage 5). -/
  badPcs : List Pc := []
  /-- Chain-link directions that failed training (stage 6). -/
  badDirections : List Direction := []
  /-- Clusters that failed read-back (stage 7). -/
  badClusters : List ClusterId := []
  /-- Pilots 1 to 3 that did not start (stage 3). -/
  badPilots : List Deck := []
  /-- Keel values whose check fails, as (object index, instance) (stage 4, R504). -/
  badKeel : List (Nat × Nat) := []
  deriving DecidableEq, Repr

/-- A PTP message as the engine takes it (R422, R424): the fields of IEEE 1588-2019 that the rules read. -/
inductive PtpMessage where
  /-- An Announce: whether it makes the port the clock's time source (the outcome of the best master clock algorithm). -/
  | announce (domain : BitVec 8) (portState : BitVec 4)
  /-- A Sync whose offset from the source has been measured, in ns. -/
  | sync (domain : BitVec 8) (offsetNs : Int) (servoIncrement : Word64)
  /-- A completed delay measurement: the mean path delay in ns. -/
  | delay (domain : BitVec 8) (meanNs : Int)
  deriving DecidableEq, Repr

/-- A power loss by its cause (R565). -/
inductive PowerCause where
  | pwrGoodLow (ns : Nat)
  | vinCore (millivolt : Nat) (ns : Nat)
  deriving DecidableEq, Repr

/-- The commands: one constructor for each row of spec/opcode_table.json, in the table's order. -/
inductive Instr where
  -- object dictionary and commit groups (02)
  | read (p : Path) (q : Request)
  | write (p : Path) (q : Request)
  | readSeg (p : Path) (q : Request)
  | writeSeg (p : Path) (q : Request)
  | describe (p : Path) (q : Request)
  | nop (p : Path) (q : Request)
  | commitNow (c : Client) (g : BitVec 8) (inst : BitVec 16)
  | commitAtSchedTime (c : Client) (g : BitVec 8) (inst : BitVec 16)
  | commitValidated (g : BitVec 8) (inst : BitVec 16)
  | commitSwitchover (g : BitVec 8) (inst : BitVec 16)
  | abort (c : Client) (g : BitVec 8) (inst : BitVec 16) (value : Byte)
  | stageExpired (g : BitVec 8) (inst : BitVec 16)
  | vendorUnlock (c : Client) (token : List Byte)
  | vendorLock (c : Client) (value : Byte)
  | eventsSuppressed
  -- host paths (03, 02)
  | mbDoorbell (value : Word32) (area : List Byte)
  | mbRelease (value : Word32)
  | mbResponseReady (slot : Fin 16)
  | mailboxUnserved (slot : Fin 16)
  | twoWireRequest (bytes : List Byte)
  | twoWireResponse
  | twoWireUnserved
  | sclStuckTimeout
  | alertResponseRead
  | bollardGive (value : Word32)
  | hostBar2Read (offset : BitVec 28)
  | hostBar2Write (offset : BitVec 28) (data : Word32)
  | pcieReset (kind : PcieResetKind)
  | pcieLinkDown
  | pciePerst (high : Bool)
  | vectorCauseClear (upper : Bool) (value : Word32)
  | msixUnmask (v : Fin 64)
  | ringFlush (r : Ring)
  | ringDisable (c : Client) (r : Ring)
  | injectRecord (k : Fin 4)
  | tableRequest (k : Fin 4)
  | lockBroken (table : BitVec 8) (inst : BitVec 16) (index : Word32)
  -- emergency window and flash engine (17)
  | rawWindowOpen (value : Word32)
  | rawWindowClose
  | restartWarm
  | restartCold
  | restartColdConfig
  | rawWindowAccess (place : HostPlace) (data : Option Word32)
  | feErase
  | feProgram
  | feDone (ok : Bool)
  -- ports (04)
  | rxFaultBegin (port : FrontPort) (cause : RxFault)
  | alignmentAcquired (port : FrontPort)
  | trainingFailed (port : FrontPort)
  | linkDown (port : FrontPort)
  | linkUp (port : FrontPort)
  | holdExpired (port : FrontPort)
  | linkHoldNsWrite (c : Client) (port : FrontPort) (value : Word64)
  | fecUncorrected (port : FrontPort) (corrected uncorrected : Nat)
  | frameFirstCell (port : FrontPort) (data : List Byte)
  | frameCell (f : FrameId) (data : List Byte)
  | frameTailRx (f : FrameId) (fcs : Word32)
  | macControlRx (port : FrontPort) (data : List Byte)
  | pfcPauseExpired (port : FrontPort) (priority : Fin 8)
  | lpiEnter (port : FrontPort)
  | lpiWakeDone (port : FrontPort)
  -- parse engines (05)
  | parseDispatch (f : FrameId) (e : EngineId)
  | microNop (e : EngineId)
  | extract (e : EngineId)
  | movi (e : EngineId)
  | movhi (e : EngineId)
  | add (e : EngineId)
  | addi (e : EngineId)
  | sub (e : EngineId)
  | and (e : EngineId)
  | or (e : EngineId)
  | xor (e : EngineId)
  | andi (e : EngineId)
  | ori (e : EngineId)
  | shl (e : EngineId)
  | shr (e : EngineId)
  | cmp (e : EngineId)
  | cmpi (e : EngineId)
  | lookup (e : EngineId)
  | hashadd (e : EngineId)
  | keyL3 (e : EngineId)
  | keyL4 (e : EngineId)
  | setres (e : EngineId)
  | mark (e : EngineId)
  | rewrite (e : EngineId)
  | push (e : EngineId)
  | pop (e : EngineId)
  | csum4 (e : EngineId)
  | curset (e : EngineId)
  | xwin (e : EngineId)
  | rdsave (e : EngineId)
  | wrsave (e : EngineId)
  | punt (e : EngineId)
  | drop (e : EngineId)
  | branch (e : EngineId)
  | call (e : EngineId)
  | ret (e : EngineId)
  | end_ (e : EngineId)
  | trapReturn (e : EngineId)
  | restart (e : EngineId)
  | lookupResult (e : EngineId) (first : Fin 16)
  | lookupTimeout (e : EngineId) (first : Fin 16)
  | trapEntry (e : EngineId)
  | cycleLimit (e : EngineId)
  | controlStoreRepair (cl : ClusterId) (aft : Bool) (addr : BitVec 13)
  | scrubPass (p : Pipe)
  | ucodeLoad (c : Client) (p : Pipe) (range : Word64)
  /-- The copies that read back different (R173): clusters of the pipe; one of another pipe stands for the golden copy
  (DESIGN CHOICE: log entry 90). -/
  | ucodeLoaded (p : Pipe) (readBackFails : List ClusterId)
  | clusterFence (c : Option Client) (cl : ClusterId)
  | clusterUnfence (c : Client) (cl : ClusterId)
  | clusterRestored (cl : ClusterId)
  -- forwarding tables (06)
  | homeLearn (p : Pipe)
  | fdbSweep (p : Pipe)
  | rehashPass (p : Pipe)
  -- flow table (07, 08)
  | homeStageFrame (p : Pipe) (f : FrameId)
  | homeLookupData (p : Pipe) (f : FrameId)
  | steeredResolve (p : Pipe) (f : FrameId)
  | frameTailHome (p : Pipe) (f : FrameId)
  | natColumnOperation (op : ColumnOp)
  | eviction (p : Pipe)
  | relocationPass (p : Pipe)
  | groupFlipFinish (p : Pipe)
  | flowSweepPass (p : Pipe)
  | consultRequest (p : Pipe) (f : FrameId)
  | recordTransfer (p : Pipe) (slot : BitVec 24)
  | transferAck (p : Pipe) (slot : BitVec 24)
  | migrationWalk (p : Pipe)
  -- export (09)
  | exportFlush (p : Pipe)
  | exportTemplate (p : Pipe)
  -- crossings and resequencer (10)
  | slotSend (d : Direction)
  | slotRetry (d : Direction)
  | cellLand (src dst : Pipe) (f : FrameId)
  | freeCountReport
  | reseqHead (f : FrameId)
  | holeNotice (port : Port) (index : Nat)
  | reseqTimeout (port : Port) (redirect : Bool) (stampPipe : Pipe) (cls : Fin 16)
  | creditSend (port : Port) (redirect : Bool) (stampPipe : Pipe) (cls : Fin 16) (n : Fin 65)
  | credit (p : Pipe) (index : Nat)
  | mcastCopyArrive (f : FrameId) (d : Deck)
  | residueServe (d : Deck) (index : Nat)
  | residueAged (d : Deck) (index : Nat)
  -- traffic manager (11)
  | enqueue (f : FrameId)
  | selection (port : Port)
  | txStartBoundary (port : Port)
  | txEnd (port : Port)
  | gateEntryChange (port : Port)
  | gateConfigChanged (port : Port)
  | pfcRefresh (port : FrontPort)
  -- memory controller (12)
  | hbmRequest (pc : Pc) (r : Requester) (write : Bool) (burst : BitVec 28)
  | burstComplete (pc : Pc) (ecc : EccResult)
  | writeDrainTimeout (pc : Pc)
  | refreshDue (pc : Pc)
  | hbmTempRead (d : Deck) (celsius : Int)
  | reqPriorityWrite (c : Client) (limit : Bool) (rr : BitVec 8) (d : Deck) (value : Byte)
  | patrolScrub (d : Deck) (ecc : EccResult)
  | spareRequest (c : Client) (pc : Pc)
  | spareDone (pc : Pc)
  | retrainStep (pc : Pc) (failedLane : Option (BitVec 8)) (redundantLeft : Nat)
  -- time (13)
  | timeIncrementWrite (c : Client) (value : Word64)
  | timeStep (c : Client) (value : Word64)
  | timeHoldEnd
  | timeForcedStep (c : Client) (value : Word64)
  | timeSet (c : Client) (value : BitVec 80)
  | ptpMessageRx (port : FrontPort) (m : PtpMessage)
  | ptpMessageTx (port : FrontPort)
  | timeSourceResumed (port : FrontPort)
  | triggerEdge (n : Fin 4)
  | triggerPulseEnd (n : Fin 4)
  | captureEdge (n : Fin 4) (falling : Bool)
  | captureRead (c : Client) (n : Fin 4)
  -- fabric (14)
  | helloTx (port : FrontPort)
  | helloRx (port : FrontPort) (frame : List Byte)
  | adjDead (port : FrontPort)
  | claimRx (port : FrontPort) (frame : List Byte)
  | defendRx (port : FrontPort) (frame : List Byte)
  | claimWaitEnd
  | lsaRx (port : FrontPort) (frame : List Byte)
  | lsaOriginate
  | lsaAgeOut (origin : BitVec 16)
  | routeCompute
  | acpRequest (port : FrontPort) (frame : List Byte)
  | acpResponse (port : FrontPort) (frame : List Byte)
  | acpProxyRequest (c : Client) (j : Fin 64) (value : List Byte)
  | acpProxyTimeout (j : Fin 64)
  | acpKeyGraceEnd (slot : Fin 256)
  -- clocks, sleep, gangways (15)
  | refclkLost (bit : Fin 10) (returned : Bool)
  | dozeEnter
  | moorEnter
  | moorEntryStepDone
  | wake (cause : WakeCause)
  | wakeStepDone
  | landingPfcRefresh (d : Deck)
  | gangwayEventAck (g : Gangway)
  | gangwayTimeout (g : Gangway) (destinationSilent : Bool) (handshake : Fin 3)
  | gangwaySideReset (g : Gangway) (destination : Bool)
  | gangwayResync (g : Gangway)
  -- start-up (16)
  | bootStart (straps : Byte)
  | sysReset (lowNs : Nat)
  | bootStageDone (found : BootFinding)
  | configRecord
  | rollbackAdvance (c : Client) (value : Byte)
  | keelWrite (c : Client) (index : BitVec 16) (inst : BitVec 16) (value : Word32)
  | keelWritten
  -- availability (17)
  | heartbeat (d : Deck)
  | pilotFailed (d : Deck) (cause : PilotFailCause)
  | deckAdopt (d : Deck)
  | pilotRelease (d : Deck)
  | pilotRestarted (d : Deck)
  | pilotRestart (c : Client) (d : Deck) (value : Byte)
  | allPilotsDown
  | fwLoad (c : Client) (range : Word64)
  | fwCheckDone
  | fwFlashDone
  | fwUpdateAbort (c : Client) (value : Byte)
  | sramScrub (p : Pipe) (a : SramArray) (ecc : EccResult)
  | poisonRepair (d : Deck)
  | directionRetrain (d : Direction)
  | directionRetrainDone (d : Direction) (ok : Bool)
  | directionRetry (d : Direction)
  | pllUnlock (d : Deck) (pll : Pll)
  | pllRelockTimeout (d : Deck) (pll : Pll)
  | deckRetire (c : Client) (d : Deck) (value : Byte)
  | lostDeckRehome
  -- counters and perturbation (18)
  | snapshot (c : Client) (value : Word32)
  | chain (c : Client) (d : Deck) (code : BitVec 16) (value : Byte)
  | bwWindowEnd
  | testChallenge (c : Client)
  | testUnlock (c : Client) (value : Word32)
  | testLocked
  -- package, pins, power (19)
  | powerLoss (cause : PowerCause)
  | supplyOutOfRange (rail : Fin 6) (millivolt : Nat)
  | junctionTempRead (milliC : List Int)
  | thermalShutdown
  | intPinCauseClear (c : Client) (value : Byte)
  | bypass
  | idcode
  | samplePreload
  | extest (lanes : List (Fin 128))
  | extestPulse (lanes : List (Fin 128))
  | extestTrain (lanes : List (Fin 128))
  | clamp (lanes : List (Fin 128))
  | highz (lanes : List (Fin 128))
  -- rows added at the table's end
  | acpUnserved (index : Nat)
  | fwRestartTimeout (d : Deck)
  | pllRelocked (d : Deck) (pll : Pll)
  | twoWireResponseReady
  | rollbackAdvanced
  | vddioReturned
  deriving DecidableEq, Repr

end Sys2Proof
end

