-- ==== Sys2Proof/Machine/Maps.lean ====
section
/-! DEFINITION. Sparse maps in one canonical form: a list of (key, value) pairs whose keys rise strictly. What an
unlisted key reads as is the caller's. Every store of the device (registers, tables, pages, queues by number) is one. -/

namespace Sys2Proof.Machine

/-- A sparse map from numbers: pairs with strictly rising keys (`NMap.wf`). -/
abbrev NMap (α : Type) := List (Nat × α)

/-- The value listed at `k`. -/
def NMap.find {α : Type} : NMap α → Nat → Option α
  | [], _ => none
  | (j, v) :: m, k => if j = k then some v else NMap.find m k

/-- The value at `k`, with `d` where nothing is listed.
(DESIGN CHOICE: log entry 71.) -/
def NMap.getD {α : Type} (m : NMap α) (k : Nat) (d : α) : α := (m.find k).getD d

/-- `m` with `v` listed at `k`. -/
def NMap.put {α : Type} : NMap α → Nat → α → NMap α
  | [], k, v => [(k, v)]
  | (j, w) :: m, k, v =>
    if k < j then (k, v) :: (j, w) :: m
    else if k = j then (k, v) :: m
    else (j, w) :: NMap.put m k v

/-- `m` with nothing listed at `k`. -/
def NMap.del {α : Type} : NMap α → Nat → NMap α
  | [], _ => []
  | (j, w) :: m, k => if j = k then NMap.del m k else (j, w) :: NMap.del m k

/-- Write `v` at `k` where an unlisted key reads as `d`: the canonical form lists no entry equal to `d`. -/
def NMap.set {α : Type} [DecidableEq α] (d : α) (m : NMap α) (k : Nat) (v : α) : NMap α :=
  if v = d then m.del k else m.put k v

/-- Change the value at `k` by `f`, where an unlisted key reads as `d`. -/
def NMap.modify {α : Type} [DecidableEq α] (d : α) (m : NMap α) (k : Nat) (f : α → α) : NMap α :=
  NMap.set d m k (f (m.getD k d))

/-- Keys strictly above `lo` and strictly rising. -/
def NMap.risingFrom {α : Type} : Nat → NMap α → Bool
  | _, [] => true
  | lo, (j, _) :: m => decide (lo < j) && NMap.risingFrom j m

/-- The canonical form: keys strictly rising. -/
def NMap.wf {α : Type} : NMap α → Bool
  | [] => true
  | (j, _) :: m => NMap.risingFrom j m

/-- No entry equals what an unlisted key reads as. -/
def NMap.lean {α : Type} [DecidableEq α] (d : α) (m : NMap α) : Bool := m.all fun p => decide (p.2 ≠ d)

/-- The keys listed. -/
def NMap.keys {α : Type} (m : NMap α) : List Nat := m.map (·.1)

/-- Drop every entry whose key is in [lo, lo + n). -/
def NMap.delRange {α : Type} (m : NMap α) (lo n : Nat) : NMap α :=
  m.filter fun p => !(decide (lo ≤ p.1) && decide (p.1 < lo + n))

/-- The entries whose key is in [lo, lo + n). -/
def NMap.inRange {α : Type} (m : NMap α) (lo n : Nat) : NMap α :=
  m.filter fun p => decide (lo ≤ p.1) && decide (p.1 < lo + n)

/-- The entries in [lo, lo + n) replaced by the values `vs`, one for each key from `lo` on, `d` where they end. -/
def NMap.fill {α : Type} [DecidableEq α] (d : α) (m : NMap α) (lo n : Nat) (vs : List α) : NMap α :=
  m.filter (fun p => decide (p.1 < lo)) ++
  (((List.range n).zip vs).map fun p => (lo + p.1, p.2)).filter (fun p => decide (p.2 ≠ d)) ++
  m.filter (fun p => decide (lo + n ≤ p.1))

end Sys2Proof.Machine
end

