-- ==== Sys2Proof/Machine/State.lean ====
section
/-! DEFINITION. The state of the HG6480 as plain data. Every numbered object of the dictionary (settings, statuses and
counters alike) has its one home in `Dict.active`, keyed by its address; what is no object has a field of its own in
the structure of its chapter. Times of the model are counts of 1.25 GHz ticks of the residence counter (R420). -/

namespace Sys2Proof.Machine

/-! ### Object dictionary and commit groups (02) -/

/-- A dictionary response (R57). -/
structure Response where
  opcode : Nat
  /-- Status code (R51). -/
  status : Nat
  tag : BitVec 16
  index : BitVec 16
  sub : BitVec 8
  inst : BitVec 16
  offset : Nat := 0
  value : List Byte := []
  deriving DecidableEq, Repr

/-- A COMMIT whose validation runs (R75, R581). -/
structure Validation where
  /-- Mode 2: commit at SCHED_TIME. -/
  scheduled : Bool
  /-- Who waits for the response; none once the path has dropped it (R92, R512). -/
  path : Option Path
  tag : BitVec 16
  /-- Tick of the COMMIT's acceptance: the staging idle time does not run from then on (R72). -/
  since : Nat := 0
  deriving DecidableEq, Repr

/-- A group instance's control state (R68 to R83). -/
structure GroupInst where
  /-- STATE: 0 CLEAN, 1 STAGED, 2 PENDING. -/
  state : Nat := 0
  /-- CLAIM_OWNER: session ID, 0 for none. -/
  owner : Nat := 0
  generation : Nat := 0
  lastResult : Nat := 0
  lastFail : Nat := 0
  /-- COMMIT_TIME, TIME80. -/
  commitTime : Nat := 0
  /-- SCHED_TIME, TIME80. -/
  schedTime : Nat := 0
  /-- Tick of the last accepted staged write, or of the last refusal of a COMMIT (R72). -/
  idleFrom : Nat := 0
  validating : Option Validation := none
  /-- t_c of the armed commit, TIME80 (R76). -/
  tc : Nat := 0
  /-- A step has moved device time past t_c: the commit takes effect at this tick (R83). -/
  passed : Bool := false
  /-- Who waits for the response of a mode 1 commit (R76). -/
  replyTo : Option (Path × BitVec 16) := none
  deriving DecidableEq, Repr

/-- A DOMAIN write in segments, not yet complete (R58). -/
structure Partial where
  session : Nat
  bytes : List Byte
  deriving DecidableEq, Repr

/-- The object dictionary: active and staged copies, group instances, session levels. -/
structure Dict where
  /-- Active values of scalar objects by address; an unlisted object holds its default (R19). -/
  active : NMap Nat := []
  /-- Active values of DOMAINs; unlisted: the default. -/
  domains : NMap (List Byte) := []
  /-- Staged values that were written; an unlisted member's staged value is its active value (R69). -/
  staged : NMap Nat := []
  stagedDoms : NMap (List Byte) := []
  /-- Partial DOMAIN writes by address. -/
  partials : NMap Partial := []
  /-- Group instances, keyed g × 65,536 + instance. -/
  groups : NMap GroupInst := []
  /-- Sessions at VENDOR with the Pilot that serves them (R54). -/
  vendor : List (Nat × Nat) := []
  deriving DecidableEq, Repr

/-! ### Events (02) -/

/-- An event log record without its reserved bytes (R84). -/
structure LogRec where
  time : Nat
  code : Nat
  inst : Nat
  severity : Nat
  seq : Nat
  arg0 : Nat
  arg1 : Nat
  deriving DecidableEq, Repr

/-- Event logging: rate limits, suppressed counts, drops, and the decks' event stores. -/
structure Events where
  /-- Records logged in the running rate-limit second, by code (R86). -/
  inSecond : NMap Nat := []
  /-- Events suppressed and not yet reported: by second, then by code (R86). -/
  suppressed : NMap (NMap Nat) := []
  /-- Tick at which the running rate-limit second began. -/
  secondStart : Nat := 0
  /-- Records dropped since the log was last full (R87). -/
  dropped : Nat := 0
  /-- Event stores by deck, oldest record first (R467); at most 64 each. -/
  stores : NMap (List LogRec) := []
  /-- Decks whose events go to their store (R467, R493). -/
  storing : Bool := true
  deriving DecidableEq, Repr

/-! ### Host interface (03, 17) -/

/-- A mailbox slot (R93 to R96). -/
structure MbSlot where
  /-- 0 FREE, 1 TAKEN, 2 DONE. -/
  state : Nat := 0
  /-- The request as copied at the doorbell. -/
  area : List Byte := []
  /-- The response made by the serving Pilot, not yet in the response area. -/
  answer : Option Response := none
  /-- Response area. -/
  response : List Byte := []
  /-- Tick of the doorbell. -/
  since : Nat := 0
  /-- The request has been taken by a Pilot. -/
  taken : Option Nat := none
  deriving DecidableEq, Repr

/-- The device's own position in a ring, as producer or consumer (R101 to R105). -/
structure RingPos where
  /-- Page offset from the first page. -/
  page : Nat := 0
  /-- Byte offset in that page. -/
  byte : Nat := 0
  /-- Tick at which the first record was written into the page. -/
  firstAt : Option Nat := none
  /-- A stall has begun (R104). -/
  stalled : Bool := false
  /-- Records dropped in the stall, and the size of the record that began it. -/
  dropped : Nat := 0
  need : Nat := 0
  deriving DecidableEq, Repr

/-- A lock of a table entry (R114, R115, R240). -/
structure TableLock where
  ring : Nat
  since : Nat
  /-- The snapshot of the record, for a flow record slot (R240). -/
  snapshot : List Byte := []
  deriving DecidableEq, Repr

/-- Flash-engine registers (R517). -/
structure FlashEngine where
  addr : Nat := 0
  data : NMap Byte := []
  /-- 0 IDLE, 1 BUSY, 2 DONE, 3 ERROR. -/
  status : Nat := 0
  /-- The command that runs: 1 erase, 2 program. -/
  cmd : Nat := 0
  /-- An operation waits for VDDIO (R577). -/
  waiting : Bool := false
  deriving DecidableEq, Repr

/-- The host's side: BAR0, BAR2, MSI-X, rings, locks, the raw window, flash. -/
structure HostIf where
  slots : NMap MbSlot := []
  /-- Request areas, keyed slot × 256 + byte (R93). -/
  areas : NMap Byte := []
  /-- Requests that were TAKEN, and by no Pilot yet, when an endpoint reset freed their slots (R92): slot, request and
  tick of the doorbell, oldest first. -/
  orphans : List (Nat × List Byte × Nat) := []
  /-- Slots whose requests wait, in doorbell order (R94). -/
  order : List Nat := []
  /-- MB_IGNORED, saturating. -/
  ignored : Nat := 0
  /-- VECTOR_CAUSE. -/
  vectorCause : Nat := 0
  msixEnabled : Bool := false
  functionMask : Bool := false
  /-- Vectors whose mask bit is clear, as a bit set; PCIe leaves every vector masked at reset. -/
  unmasked : Nat := 0
  /-- Message address, upper address and data of the MSI-X table, keyed vector × 4 + word. -/
  msixTable : NMap Nat := []
  /-- MSI-X PBA. -/
  pba : Nat := 0
  /-- MSI-X messages sent, by vector. -/
  messages : NMap Nat := []
  /-- Device-owned pages: bollard 1 (R97). -/
  bollards : NMap Nat := []
  /-- Quay-window memory by BAR2 offset; an unlisted byte reads 0 (R492: HBM is written with zero), or a free value. -/
  quay : List Host.Cell := []
  /-- Stacks whose quay-window bytes a map-order change left undefined: what an unlisted byte draws from (R384). -/
  scrambled : NMap Nat := []
  /-- Data of the last BAR2 or raw-window read. -/
  readData : Word32 := 0
  /-- The last BAR2 read was completed as a poisoned TLP (R398). -/
  poisonedTlp : Bool := false
  rings : NMap RingPos := []
  /-- Table locks by table, instance and entry. -/
  locks : NMap TableLock := []
  linkUp : Bool := false
  /-- Negotiated rate, 1 to 5 for 2.5, 5, 8, 16 and 32 GT/s, and lanes, 1, 2 or 4, of the last training; 0 before it
  (R90). -/
  linkRate : Nat := 0
  linkLanes : Nat := 0
  /-- Tick at which the PCIe link was lost. -/
  lostAt : Option Nat := none
  /-- PCIE_PERST_N is high. -/
  perstHigh : Bool := false
  /-- RAW_WINDOW_CTRL TARGET, PAGE and STATUS (R516). -/
  rawTarget : Nat := 0
  rawPage : Nat := 0
  rawStatus : Nat := 0
  /-- Local memory of the Pilots, keyed Pilot × 4 MiB + offset; unlisted bytes read 0. -/
  pilotMem : NMap Byte := []
  /-- Flash, 64 MiB; unlisted bytes read 0xFF (erased). -/
  flash : NMap Byte := []
  fe : FlashEngine := {}
  deriving DecidableEq, Repr

/-- The two-wire target (R64, R65, R582). -/
structure TwoWire where
  /-- The request being served, with the tick its transaction ended and the Pilot that took it. -/
  serving : Option (Request × Nat) := none
  taken : Option Nat := none
  /-- The response made, not yet ready. -/
  answer : Option Response := none
  /-- The response that is ready and unread. -/
  ready : Option Response := none
  /-- The last request failed its PEC and was discarded: READY reads 0x0A. -/
  pecFailed : Bool := false
  /-- A transaction is in progress on the bus. -/
  inProgress : Bool := false
  /-- Bytes the device last drove on the bus. -/
  out : List Byte := []
  deriving DecidableEq, Repr

/-! ### Time (13) -/

/-- The time counters. -/
structure Time where
  /-- Free-running residence counter: 1.25 GHz ticks since first start (R420). -/
  ticks : Nat := 0
  /-- Device time in units of 2^-32 ns (R407): SECONDS, NANOSECONDS and FRACTION together. -/
  now : Nat := 0
  /-- Amount still to withhold, in 2^-32 ns, and a hold that has not ended yet (R411). -/
  hold : Nat := 0
  holding : Bool := false
  /-- Steps accepted and not yet applied, in order, in ns (R411, R431). -/
  waiting : List Int := []
  /-- Forced changes accepted, applied at the next tick (R413): a set to a time in ns, or a step by one; the kind of R433. -/
  jumps : List (Nat × Int) := []
  /-- Steps, holds and sets so far, for STEPPED of a capture (R430). -/
  steps : Nat := 0
  /-- The night watch keeps time, and ticks since its last 25 MHz edge (R426). -/
  watching : Bool := false
  watch : Nat := 0
  deriving DecidableEq, Repr

/-- A port as PTP time source (R424). -/
structure PtpPort where
  /-- Accepted delay measurements, newest first, at most 8. -/
  delays : List Int := []
  /-- Device time in ns at which the settle time began. -/
  suspendedAt : Option Nat := none
  /-- Measurements made during the suspension, newest first. -/
  sinceSuspend : List Int := []
  restarts : Nat := 0
  /-- Messages sent, by kind 0 Announce, 1 Sync, 2 delay: their number and the tick of the last. -/
  sent : NMap (Nat × Nat) := []
  /-- originTimestamp and correctionField of the last Sync sent (R418). -/
  origin : Option (Nat × Nat) := none
  deriving DecidableEq, Repr

/-- A trigger output (R427, R428). -/
structure Trigger where
  /-- The next edge's time in ns of device time, once armed. -/
  next : Option Nat := none
  /-- The pending edge's time was past at t_c, or was passed over by a step (R415, R428). -/
  late : Bool := false
  /-- The pulse under way: its end tick, and whether it is active low. -/
  pulseEnd : Option (Nat × Bool) := none
  deriving DecidableEq, Repr

/-- An entry of a capture FIFO (R430). -/
structure Capture where
  time : Nat
  fraction : Nat
  falling : Bool
  lost : Bool
  stepped : Bool
  coarse : Bool
  deriving DecidableEq, Repr

/-- A capture input (R429). -/
structure CaptureFifo where
  entries : List Capture := []
  /-- A capture was discarded since the last one placed. -/
  lost : Bool := false
  /-- CAPTURE_OVERFLOW was raised in this filling. -/
  overflowed : Bool := false
  /-- Value of `Time.steps` at the previous capture. -/
  stepsAt : Nat := 0
  deriving DecidableEq, Repr

/-- PTP engine, triggers and captures. -/
structure Ptp where
  ports : NMap PtpPort := []
  /-- Consecutive offsets within 100 ns (R423). -/
  streak : Nat := 0
  /-- A step was taken in this entry to LOCKING. -/
  stepTaken : Bool := false
  /-- Increments the servo wrote, newest first, with their ticks (R424). -/
  increments : List (Nat × Nat) := []
  triggers : NMap Trigger := []
  captures : NMap CaptureFifo := []
  deriving DecidableEq, Repr

/-! ### Ports (04, 11, 14) -/

/-- A front port's link, pause, energy and hello state. -/
structure PortLink where
  /-- The receive path's fault: cause code and the tick it began. -/
  fault : Option (Nat × Nat) := some (1, 0)
  /-- Tick at which alignment was found with no fault. -/
  aligned : Option Nat := none
  /-- t_d of the running hold or of the last link down (R129). -/
  downAt : Option Nat := none
  /-- Received pauses: priority to the tick at which each ends (R136). -/
  paused : NMap Nat := []
  /-- In transmit LPI since this tick (R134). -/
  lpiSince : Option Nat := none
  /-- The transmit wake wait ends at this tick. -/
  wakeAt : Option Nat := none
  /-- Tick since which all 16 queues are empty. -/
  emptySince : Nat := 0
  /-- PFC frames the traffic manager has asked for: priority and quanta (R138, R372). -/
  pfcAsked : NMap Nat := []
  /-- Priorities held paused by R372 with the tick of the last request. -/
  xoff : NMap Nat := []
  /-- JTAG holds the port's pins (R560). -/
  jtag : Bool := false
  /-- Link sequence number sent next, and received last (R435, R436). -/
  ferrySeq : Nat := 0
  ferrySeen : Option Nat := none
  /-- Bytes of the frame that last left the port, with FCS. -/
  out : List Byte := []
  /-- Flushed since the link was last declared up (R128). -/
  flushed : Bool := false
  /-- The port transmits remote fault (R127). -/
  remoteFault : Bool := false
  /-- Second of device time whose codewords were last reported (R143). -/
  fecSecond : Option Nat := none
  deriving DecidableEq, Repr

/-! ### Frames (01) -/

/-- A sequence stamp (R30, R32). -/
structure Stamp where
  redirect : Bool
  pipe : Nat
  port : Nat
  cls : Nat
  seq : Nat
  deriving DecidableEq, Repr

/-- The ferry tag's fields as received (R434). -/
structure FerryTag where
  dst : Nat
  src : Nat
  hash : Nat
  cls : Nat
  broadcast : Bool
  abort : Bool
  served : Bool
  hops : Nat
  seq : Nat
  residence : Nat
  deriving DecidableEq, Repr

/-- An edit of the parse program (R163), with offsets in the frame as received. -/
inductive Edit where
  /-- Replace bits [at, at + width) of the big-endian bit string. -/
  | rewrite (at_ width value : Nat)
  | push (at_ : Nat) (bytes : List Byte)
  | pop (at_ len : Nat)
  | csum4 (at_ : Nat)
  deriving DecidableEq, Repr

/-- What the parse hands on (R159 to R161). -/
structure ParseResult where
  vrf : Nat := 0
  egress : Option Nat := none
  cls : Nat := 0
  stateless : Bool := false
  mcast : Option Nat := none
  zone : Nat := 0
  service : Nat := 0
  telemetry : Nat := 0
  metadata : Nat := 0
  /-- KEY_L3 mark. -/
  l3 : Option Nat := none
  /-- KEY_L4 mark: offset, mode, PROTO. -/
  l4 : Option (Nat × Nat × Nat) := none
  vlans : List Nat := []
  mpls : List Nat := []
  tunnels : List Nat := []
  deriving DecidableEq, Repr

/-- Where a frame's head is, or what it waits for. -/
inductive Stage where
  /-- Receive: waiting for a free engine (R144). -/
  | ingress
  /-- On a parse engine. -/
  | parsing (engine : Nat)
  /-- Stored in a landing buffer (R476). -/
  | landing
  /-- Waiting at its stamping pipe for a credit of its stream or redirect stream (R332). -/
  | window (redirect : Bool) (pipe : Nat)
  /-- In a crossing queue or landing at a pipe: home crossing or egress crossing (R320). -/
  | crossing (egress : Bool) (src dst : Nat)
  /-- At a pipe's home stage, waiting for admission. -/
  | home (pipe : Nat)
  /-- Waiting for HBM data of its lookup. -/
  | lookup (pipe : Nat)
  /-- Waiting on a PENDING line, or held while its record migrates. -/
  | waiting (pipe : Nat)
  /-- Waiting for the answer of a consult. -/
  | consult (pipe : Nat)
  /-- Stored whole at its home pipe until its tail (R34). -/
  | stored (pipe : Nat)
  /-- Punted at a pipe, for a reason, and waiting for its tail (R141, R179). -/
  | punted (pipe reason : Nat)
  /-- Landed: at its resequencer. -/
  | landed
  /-- Held by the landing resequencer. -/
  | held
  /-- Released: at the traffic manager's enqueue. -/
  | released
  /-- In an egress queue, or in transmission. -/
  | queued (queue : Nat)
  | sending (port : Nat)
  /-- A multicast copy stored on a deck with its pointers out, or a frame whose copies are out. -/
  | replicated
  /-- Discarded, and its bytes still arriving. -/
  | gone
  deriving DecidableEq, Repr

/-- A flow's key before its endpoints are put in order (R25, R26): an endpoint is its address and port in one number. -/
structure RawKey where
  vrf : Nat
  proto : Nat
  /-- 4 or 6. -/
  family : Nat
  src : Nat
  dst : Nat
  deriving DecidableEq, Repr

/-- What the home stage decided for a frame. -/
structure HomeInfo where
  /-- The key (R25); none for a stateless frame. -/
  key : Option RawKey := none
  /-- Flow hash (R24). -/
  hash : Nat := 0
  /-- The frame has been handed on (R225). -/
  handedOn : Bool := false
  /-- Result of the last hit of lookup 0x06 (R270). -/
  steer : Option Nat := none
  /-- Steered: pool and public port resolved (R271). -/
  resolved : Option (Nat × Nat) := none
  hairpin : Bool := false
  /-- The record: pipe and slot. -/
  record : Option (Nat × Nat) := none
  /-- Charge made at the head: bucket C and P quanta (R289). -/
  charged : Nat × Nat := (0, 0)
  /-- The frame passed a home stage that was not stateless. -/
  served : Bool := false
  /-- A steered frame that must be stored whole at its steered pipe (R276). -/
  whole : Bool := false
  /-- Pier that its lookup reads (R221). -/
  pier : Nat := 0
  /-- Counted in SET_FULL_WAITS (R223). -/
  setWait : Bool := false
  /-- A consult or a hand-on gave it the record it uses, or none (R225, R246). -/
  consulted : Bool := false
  /-- Pipe that it is handed on to once it stands whole on its deck (R225). -/
  handTo : Option Nat := none
  /-- The tail updates of R258 step 7 are still to be made. -/
  duty : Bool := false
  /-- TCP state found at the head and the state that the tail gives (R260). -/
  tcp : Option (Nat × Nat) := none
  /-- Rewrites of the flow actions (R274), applied as the frame leaves the home stage. -/
  edits : List Edit := []
  /-- Offered for IOAM filling (R311). -/
  ioam : Bool := false
  /-- Key of the last lookup 0x07: K0, K1, K2 (R193). -/
  learn : Option (Nat × Nat × Nat) := none
  deriving DecidableEq, Repr

/-- A frame in the device. -/
structure Frame where
  inPort : Nat
  /-- Bytes received so far, without FCS. -/
  data : List Byte
  /-- Length without FCS that its descriptor gives (R319), while its bytes still arrive. -/
  length : Nat := 0
  /-- The tail has arrived; its verdict: good or bad (R141). -/
  tail : Option Bool := none
  /-- A cell of it was lost to an uncorrectable buffer error: it is bad at its tail (R523). -/
  spoiled : Bool := false
  /-- The frame was truncated at a deck (R353): its bytes received since. -/
  truncated : Option (List Byte) := none
  /-- Device time in 2^-32 ns and tick at which its start passed the ingress medium boundary (R416). -/
  rxTime : Nat
  rxTick : Nat
  /-- The tag it arrived with. -/
  tag : Option FerryTag := none
  /-- Fabric residence on arrival, 2^-4 ns (R436). -/
  fabric : Nat := 0
  stage : Stage := .ingress
  /-- Cells held on each deck (R20, R351). -/
  cells : NMap Nat := []
  /-- Ingress priority the frame is charged to (R352). -/
  priority : Nat := 0
  result : ParseResult := {}
  edits : List Edit := []
  home : HomeInfo := {}
  stamp : Option Stamp := none
  /-- Egress port and class fixed so far. -/
  port : Nat := 0
  cls : Nat := 0
  /-- DST and BROADCAST of the tag it leaves with (R435, R441). -/
  ferryDst : Option (Nat × Bool) := none
  /-- HOPS it leaves with; none: MAX_HOPS. -/
  hops : Option Nat := none
  transit : Bool := false
  /-- COOKIE of an inject record with TS_REPORT (R109). -/
  cookie : Option Nat := none
  /-- DIRECT inject frame. -/
  direct : Bool := false
  /-- Multicast: target ports as fixed at the deck fan-out, group, and pointers outstanding (R343, R348). -/
  targets : List Nat := []
  group : Option Nat := none
  refs : Nat := 0
  /-- MCAST_MODE in force at its deck fan-out (R348). -/
  mcastMode : Nat := 0
  /-- Cells charged to the landing hold pool (R338). -/
  heldCells : Nat := 0
  /-- A multicast copy: the frame whose bytes it carries; and of that frame, how many copies are out (R342). -/
  origin : Option FrameId := none
  copies : Nat := 0
  /-- Cells charged to the ingress account (R352). -/
  charged : Nat := 0
  /-- Home pipe and egress pipe, once known. -/
  hpipe : Nat := 0
  epipe : Nat := 0
  deriving DecidableEq, Repr

/-! ### Parse engines (05) -/

/-- A stored control-store word and the state of its check bits (R168). -/
structure CtlWord where
  word : MicroWord := BitVec.allOnes 128
  ecc : EccResult := .clean
  /-- A fetch has found the error and trapped. -/
  seen : Bool := false
  deriving DecidableEq, Repr

/-- A lookup in flight (R158). -/
structure Lookup where
  first : Nat
  count : Nat
  /-- The result it will write. -/
  result : List Word32
  /-- Cycle of the engine at which it was issued (R158). -/
  issued : Nat
  deriving DecidableEq, Repr

/-- Saved state of a micro-trap (R165). -/
structure Saved where
  pc : Nat := 0
  regs : List Word32 := []
  cursor : Nat := 0
  cause : Nat := 0
  detail : Word32 := 0
  deriving DecidableEq, Repr

/-- The micro-state of an engine with a frame (R148). -/
structure Engine where
  frame : FrameId
  aft : Bool
  entry : Nat
  pc : Nat
  regs : List Word32
  cursor : Nat := 0
  stack : List Nat := []
  lookups : List Lookup := []
  hash : Word32 := 0xFFFFFFFF
  result : ParseResult := {}
  edits : List Edit := []
  window : Nat
  window0 : Nat
  /-- Cycles counted against the limit, and all cycles since the dispatch (R146, R158). -/
  cycles : Nat := 0
  total : Nat := 0
  limit : Nat
  /-- A trap raised and not yet entered: cause, detail, saved pc. -/
  trap : Option (Nat × Nat × Nat) := none
  inTrap : Bool := false
  saved : Saved := {}
  /-- A SWAP cause waits for the end of the handler, or of the word (R167, R175). -/
  swap : Bool := false
  /-- The data part of the word at pc is done; the word, its result and carry wait for sequencing. -/
  done : Option (MicroWord × Word32 × Bool × Nat) := none
  /-- Result of the last hit of lookup 0x06, and key of the last lookup 0x07. -/
  steer : Option Nat := none
  learn : Option (Nat × Nat × Nat) := none
  /-- Port whose learning limit a lookup 0x07 met (R192). -/
  limited : Option Nat := none
  /-- PARSE_FAIL_ACTION is DROP, and LOOKUP_TIMEOUT_CYCLES, in the generation of the dispatch (R174). -/
  failDrop : Bool := false
  timeout : Nat := 48
  deriving DecidableEq, Repr

/-- A microcode image being loaded (R173). -/
structure UcodeJob where
  aft : Bool
  first : Nat
  bytes : Nat
  deriving DecidableEq, Repr

/-- A token bucket in units of 10^-10 token, with the tick of its last refill (R179). -/
structure Bucket where
  level : Nat
  at_ : Nat
  deriving DecidableEq, Repr

/-- Parse stage of all pipes. -/
structure Parse where
  engines : NMap Engine := []
  /-- Control stores, keyed (cluster × 2 + bank) × 8,192 + address. -/
  stores : NMap CtlWord := []
  /-- Golden copies, keyed (pipe × 2 + bank) × 8,192 + address. -/
  golden : NMap CtlWord := []
  /-- Banks marked failed: scrub comparison stopped (R170), keyed pipe × 2 + bank. -/
  failed : List Nat := []
  jobs : NMap UcodeJob := []
  /-- Tick of the last t_c of PARSE_BANK, by pipe (R175). -/
  swapAt : NMap Nat := []
  /-- Clusters being rewritten after an unfence (R176). -/
  restoring : List Nat := []
  /-- Words repaired after an uncorrectable error, by store key, with their tick (R176). -/
  repaired : NMap Nat := []
  /-- Punt policers, keyed pipe × 256 + reason; the ceiling at reason 0. An unlisted bucket is full. -/
  buckets : NMap Bucket := []
  /-- Frames already counted in DISPATCH_WAITS. -/
  waited : List FrameId := []
  /-- AES-256 key slots that the boot image provides (R497). -/
  keys : List (List Byte) := []
  /-- Start tick of the running scrub pass, by pipe. -/
  scrubAt : NMap Nat := []
  deriving DecidableEq, Repr

/-! ### Forwarding tables (06) -/

/-- A MAC berth (R187) without LOCKED, which is the lock's own. -/
structure MacBerth where
  mac : Nat
  fid : Nat
  dest : Nat
  isStatic : Bool
  gen : Bool
  mcast : Bool
  lastSeen : Nat
  deriving DecidableEq, Repr

/-- A route entry (R202). -/
structure Route where
  pfx : Nat
  vrf : Nat
  len : Nat
  valid : Bool
  set : Bool
  result : Nat
  deriving DecidableEq, Repr

/-- A legacy service entry (R206). -/
structure ServiceEntry where
  dest : Nat
  cls : Nat
  valid : Bool
  mcast : Bool
  metadata : Nat
  deriving DecidableEq, Repr

/-- Forwarding tables of all pipes. -/
structure Tables where
  /-- MAC berths that are valid, keyed pipe × 2^19 + index; anchorage berths at index 2^18 + n. -/
  mac : NMap MacBerth := []
  /-- Generation bit g of a pipe's seed (R197). -/
  gen : NMap Bool := []
  /-- Home-stage learning requests, by pipe, at most 256 (R190). -/
  queue : NMap (List (Nat × Nat × Nat)) := []
  /-- Running rehash by pipe: tick of its t_c and entries discarded in it. -/
  rehash : NMap (Nat × Nat) := []
  /-- Device second of the last sweep, by pipe (R194). -/
  swept : NMap Nat := []
  route4 : NMap Route := []
  route6 : NMap Route := []
  service : NMap ServiceEntry := []
  deriving DecidableEq, Repr

/-! ### Flow table and actions (07, 08) -/

/-- The fore half of a record (R215), the fields of R252 and R253 kept whole. -/
structure Fore where
  vrf : Nat
  proto : Nat
  /-- Bytes 3 to 14: IPv4 endpoints, or the key digest. -/
  keyBits : Nat
  tcpState : Nat := 0
  telemetry : Nat := 0
  hash : Nat
  slot : Nat
  family6 : Bool := false
  initLow : Bool := false
  pin : Bool := false
  anchored : Bool := false
  fragKey : Bool := false
  /-- Bits [31:24] of bytes 24–27. -/
  actions : Nat := 0
  initZone : Nat := 0
  respZone : Nat := 0
  lastSeen : Nat
  tallyPackets : Nat := 0
  tallyBytes : Nat := 0
  tallyErrored : Nat := 0
  xlate : Nat := 0
  balance : Nat := 0
  toll : Nat := 0
  track : Nat := 0
  /-- Kept beside the fields of R253: WINDOW_CHECK of the rule (R261), and that the initiator's SYN had no window scale. -/
  windowCheck : Bool := false
  noScale : Bool := false
  /-- Sequence number of the initiator's first SYN (R260). -/
  isn : Option Nat := none
  /-- The sides that have a LIMIT: bit 0 the low endpoint, bit 1 the high one (R261). -/
  limits : Nat := 0
  deriving DecidableEq, Repr

/-- A quay-cache line (R223). -/
structure Line where
  fore : Fore
  dirty : Bool := false
  pinned : Bool := false
  moving : Bool := false
  migrating : Bool := false
  /-- Tick of the last use. -/
  used : Nat := 0
  /-- Way of its set, 0 to 15. -/
  way : Nat := 0
  deriving DecidableEq, Repr

/-- A PENDING line: a key without a record yet (R224). -/
structure PendingLine where
  pipe : Nat
  /-- Canonical key. -/
  key : List Byte
  hash : Nat
  way : Nat
  creator : FrameId
  waiters : List FrameId
  deriving DecidableEq, Repr

/-- A flow pier berth that is valid (R220). -/
structure PierBerth where
  hash : Nat
  slot : Nat
  moving : Bool
  family6 : Bool
  vrf : Nat
  proto : Nat
  keyTag : Nat
  deriving DecidableEq, Repr

/-- A group flip after its step 3 (R231): old berths, new berths, and the anchorage berth it makes room for. -/
structure Flip where
  group : Nat
  old : List Nat
  new : List Nat
  anchor : Nat
  /-- Operation slots (frames) whose lookups read the choice map before step 3. -/
  readers : List FrameId
  /-- Slots whose idle check by the sweep waits for the flip, each with whether the pass reports live records (R242). -/
  checks : List (Nat × Bool) := []
  deriving DecidableEq, Repr

/-- A record on its way to a new home (R247). -/
structure Transfer where
  fromPipe : Nat
  toPipe : Nat
  slot : Nat
  fore : Fore
  aft : List Byte
  /-- Entry of the home table. -/
  entry : Nat
  /-- The consulting frame, if the transfer answers a consult. -/
  frame : Option FrameId
  /-- Answer of the new home: none yet, or whether it placed the record, with the new slot. -/
  placed : Option (Option Nat) := none
  /-- Frames held at the old home meanwhile. -/
  held : List FrameId := []
  deriving DecidableEq, Repr

/-- A migration walk's pass (R248): the entries that were MOVING when it began. -/
structure Walk where
  /-- Entries that may settle at the pass's end. -/
  entries : List Nat
  /-- The next pier; 2^22 once only the anchorage is left. -/
  pier : Nat := 0
  /-- Bursts × 1.25 × 10^9 that MIGRATE_RATE has allowed so far, up to tick `at_`. -/
  allowed : Nat := 0
  at_ : Nat := 0
  /-- Bursts of the transfers started. -/
  spent : Nat := 0
  deriving DecidableEq, Repr

/-- Flow tables of all pipes, bindings, and server tables. -/
structure Flow where
  /-- Fore halves in slots (backing), keyed pipe × 2^24 + slot. -/
  slots : NMap Fore := []
  /-- Aft halves, keyed the same; an unlisted aft half is 64 zero bytes. -/
  aft : NMap (List Byte) := []
  /-- Slots that hold a record (slot map, R212). -/
  used : NMap Nat := []
  /-- Pier berths, keyed pipe × 2^24 + pier × 4 + n. -/
  piers : NMap PierBerth := []
  /-- Anchorage berths, keyed pipe × 65,536 + berth. -/
  anchorage : NMap Fore := []
  lines : NMap Line := []
  pendings : List PendingLine := []
  /-- Choice map, keyed pipe × 2^24 + group (R221). -/
  choice : NMap Nat := []
  /-- Operation slots held, as (pipe, frame) (R38). -/
  ops : List (Nat × FrameId) := []
  /-- Frames that a pipe's home stage admitted at a tick: the tick and their number (R37). -/
  admitted : NMap (Nat × Nat) := []
  flips : NMap Flip := []
  transfers : List Transfer := []
  walks : NMap Walk := []
  /-- Records moved out of each MOVING entry since it began to move, by entry (R248). -/
  moved : NMap Nat := []
  /-- Sweep pass number, by pipe (R304). -/
  pass : NMap Nat := []
  /-- Tick of the last sweep pass of a pipe (R236), moved on by the time asleep (R238). -/
  sweptAt : NMap Nat := []
  /-- Tick of the last relocation pass of a pipe (R231), moved on likewise. -/
  relocatedAt : NMap Nat := []
  /-- Reclaims by software that wait for a lock on the record's place to end: pipe and slot (R239, R241). -/
  reclaims : List (Nat × Nat) := []
  /-- Evictions asked for by refusals: pipe, cause, pier A, pier B, target count (R229). -/
  evictions : List (Nat × Nat × Nat × Nat × Nat) := []
  /-- Saved copies for Moor, by pipe: anchorage, choice map, slot map, sweep position (R238). -/
  savedFlow : Option (NMap Fore × NMap Nat × NMap Nat × NMap Nat) := none
  /-- The 128-bit digest key (R217). -/
  digestKey : Nat := 0
  /-- Port-block map entries, keyed pool × 65,536 + column × 16 + row (R266). -/
  nat : NMap Nat := []
  /-- Binding caches, keyed pipe × 32,768 + index: pool, port, entry (R276). -/
  bcache : NMap (Nat × Nat × Nat) := []
  /-- Slot tables of services, active and staged, keyed service × 65,536 + slot (R285). -/
  slbSlots : NMap Nat := []
  slbStaged : NMap Nat := []
  /-- Tally and toll generators by pipe (R299). -/
  rng : NMap Word64 := []
  deriving DecidableEq, Repr

/-! ### Export (09) -/

/-- Export engine of a pipe (R304 to R310). -/
structure Export where
  /-- Data records of the open message, oldest first: IPv6, bytes. -/
  open_ : List (Bool × List Byte) := []
  openedAt : Nat := 0
  /-- Staging store: messages with their record counts and whether they hold templates, front first. -/
  staging : List (List Byte × Nat × Bool) := []
  /-- Data records written to the ring, modulo 2^32: the Sequence Number of the next message (R307). -/
  seq : Nat := 0
  /-- Records lost since the last export record of the ring. -/
  lost : Nat := 0
  /-- The staging store is full: discarding has begun; records lost in it. -/
  discarding : Option Nat := none
  /-- Tick of the last template message. -/
  templateAt : Option Nat := none
  deriving DecidableEq, Repr

/-! ### Crossings and resequencer (10) -/

/-- A control message (R328). -/
structure CtrlMsg where
  hole : Bool
  cls : Nat
  redirect : Bool
  stampPipe : Nat
  port : Nat
  value : Nat
  /-- Tick before which it does not arrive (R545). -/
  due : Nat := 0
  deriving DecidableEq, Repr

/-- A cell in a crossing queue or in flight (R317 to R320). -/
structure Cell where
  frame : FrameId
  egress : Bool
  cls : Nat
  src : Nat
  dst : Nat
  /-- Place among the frame's cells, from 0. -/
  index : Nat
  /-- Tick before which it does not land (R545). -/
  due : Nat := 0
  deriving DecidableEq, Repr

/-- A chain-link direction (R317 to R330, R525). -/
structure Link where
  /-- Cells waiting, in order of entry. -/
  queue : List Cell := []
  /-- Control messages waiting, oldest first. -/
  ctrl : List CtrlMsg := []
  /-- Cells sent and not yet landed. -/
  flight : List Cell := []
  /-- Slot number of the next slot, and the slot at which the active table took effect. -/
  slot : Nat := 0
  base : Nat := 0
  /-- A new table takes effect at the next slot (R329). -/
  switch : Bool := false
  gen : Bool := false
  /-- Pipe of the deck that was served last (R320). -/
  lastPipe : Nat := 0
  /-- FRAME_HANDLE of the frames whose cells cross, with their source pipe (R318). -/
  handles : NMap (Nat × Nat) := []
  /-- The 320 bytes of the slot sent last (R317). -/
  sent : List Byte := []
  /-- Tick before which the last slot sent does not land (R545). -/
  lastDue : Nat := 0
  /-- Successive failures of the slot in the retry store (R322). -/
  fails : Nat := 0
  /-- Failed retrainings in succession, their number and the cause (R525). -/
  trainFails : Nat := 0
  cause : Nat := 0
  failedAt : Nat := 0
  /-- A training of a FAILED direction runs; the tick of the last one. -/
  retrying : Bool := false
  retriedAt : Nat := 0
  deriving DecidableEq, Repr

/-- State of one number of a context (R333). -/
inductive SeqState where
  | held (f : FrameId)
  | hole
  deriving DecidableEq, Repr

/-- A resequencer context (R333, R334). -/
structure Context where
  next : Nat := 0
  /-- Numbers that are not EMPTY. -/
  state : NMap SeqState := []
  /-- The timer's start tick and the timeout it started with (R336). -/
  timer : Option (Nat × Nat) := none
  /-- Numbers passed and not yet credited (R339). -/
  owed : Nat := 0
  deriving DecidableEq, Repr

/-- A residue entry (R344). -/
structure Residue where
  frame : FrameId
  port : Nat
  cls : Nat
  srcPipe : Nat
  group : Nat
  since : Nat
  deriving DecidableEq, Repr

/-- Crossings, streams and resequencers. -/
structure Crossing where
  links : NMap Link := []
  /-- Next sequence number of a stream, keyed (redirect, pipe, port, class). -/
  seqs : NMap Nat := []
  outstanding : NMap Nat := []
  /-- Frames that wait for the window, in order. -/
  waiting : List FrameId := []
  contexts : NMap Context := []
  /-- Hole notices that have reached their deck, by port. -/
  holes : List CtrlMsg := []
  /-- Credits that have reached their stamping pipe. -/
  credits : List CtrlMsg := []
  /-- Last reported F of each deck (R354); unlisted: 262,144. -/
  reports : NMap Nat := []
  residue : NMap (List Residue) := []
  /-- LANDING_HOLD_FULL raised since the pool last had room, by deck (R338). -/
  holdFull : List Nat := []
  /-- BUFFER_EXHAUSTED raised since F was above 0, by deck (R353). -/
  exhausted : List Nat := []
  /-- MCAST_GROUP_DISABLED raised since the group's last commit (R342). -/
  disabledSeen : List Nat := []
  deriving DecidableEq, Repr

/-! ### Traffic manager (11) -/

/-- A frame's place in an egress queue (R352, R357). -/
structure QEntry where
  frame : FrameId
  /-- Cells charged to the queue. -/
  cells : Nat
  /-- Tick of its enqueue, and cells in the queue and in use on the deck at that instant (R313). -/
  tick : Nat
  depth : Nat
  buffer : Nat
  /-- Bytes that the ECN mark puts into the frame as sent, by offset (R371). -/
  marks : List (Nat × List Byte) := []
  deriving DecidableEq, Repr

/-- An egress queue (R352, R361, R363). -/
structure Queue where
  /-- Frames, head first. -/
  frames : List QEntry := []
  finish : Nat := 0
  last : Nat := 0
  /-- Shaper credit: 10^10 units make the 2^-16 byte in which it counts (R363); the tick it was brought up to. -/
  credit : Int := 16384 * 655360000000000
  creditAt : Nat := 0
  deriving DecidableEq, Repr

/-- A frame in transmission; no entry for a PFC frame, whose bytes stand in `bytes` (R138). -/
structure Sending where
  entry : Option QEntry
  queue : Nat
  start : Nat
  end_ : Nat
  bytes : List Byte := []
  /-- Bytes charged at the selection (R358). -/
  charged : Nat := 0
  /-- Virtual time of the port, last tag and finish tag of the queue before the selection (R361). -/
  before : Nat × Nat × Nat := (0, 0, 0)
  /-- Its gate closed while it was sent, without a guard (R369). -/
  overrun : Bool := false
  /-- The start has passed the egress medium boundary: device time in 2^-32 ns. -/
  txTime : Option Nat := none
  /-- Bytes that the egress stage puts into the frame, by offset without ferry tag (R418, R419, R314). -/
  fills : List (Nat × List Byte) := []
  /-- The ferry tag it leaves with (R435). -/
  tag : List Byte := []
  deriving DecidableEq, Repr

/-- A port's scheduler (R359 to R370). -/
structure TmPort where
  vtime : Nat := 0
  credit : Int := 16384 * 655360000000000
  creditAt : Nat := 0
  sending : Option Sending := none
  /-- Entry of the operational gate list in force. -/
  gateEntry : Nat := 0
  /-- The admin list that is pending until CT: CT as a TIME80, cycle, list. -/
  pendingGate : Option (Nat × Nat × List Byte) := none
  deriving DecidableEq, Repr

/-- Traffic managers of all ports. -/
structure Tm where
  queues : NMap Queue := []
  ports : NMap TmPort := []
  deriving DecidableEq, Repr

/-! ### Memory controllers (12) -/

/-- A request at a pseudo-channel. -/
structure HbmReq where
  rr : Requester
  write : Bool
  burst : Nat
  bank : Nat
  row : Nat
  since : Nat
  /-- Later reads that have passed it (R386). -/
  passed : Nat := 0
  /-- Tick before which it does not complete (R545). -/
  due : Nat := 0
  /-- Operation slot that waits for it: pipe and frame (R38). -/
  op : Option (Nat × FrameId) := none
  /-- A write that changes a part of its burst, so that poison stays (R397). -/
  part : Bool := false
  /-- The write-back of a corrected burst (R397). -/
  fix : Bool := false
  /-- Result of the code check of a patrol read (R399). -/
  patrol : Option EccResult := none
  deriving DecidableEq, Repr

/-- Bursts that a requester has not yet handed to its controller: `n` from `burst` on (R388). -/
structure BurstAsk where
  rr : Requester
  write : Bool
  stack : Nat
  burst : Nat
  n : Nat := 1
  op : Option (Nat × FrameId) := none
  part : Bool := false
  deriving DecidableEq, Repr

/-- A pseudo-channel (R385 to R403). -/
structure PcCtl where
  /-- Requests waiting, in arrival order. -/
  queue : List HbmReq := []
  /-- The burst that has been issued and is not yet complete. -/
  issued : List HbmReq := []
  /-- Open row by bank. -/
  rows : NMap Nat := []
  /-- Grant held: requester, bursts issued under it, its limit. -/
  grant : Option (Requester × Nat × Nat) := none
  lastGrant : Nat := 0
  draining : Bool := false
  /-- Banks in in-order mode. -/
  inOrder : List Nat := []
  /-- Ticks of the background bursts of the last 64 burst slots, newest first (R391). -/
  history : List Nat := []
  /-- Corrected bursts that wait to be written back (R397). -/
  fixes : List Nat := []
  /-- Tick of the last refresh. -/
  refreshAt : Option Nat := none
  /-- Banks in refresh, with the tick at which each began (R378, R404). -/
  refreshing : NMap Nat := []
  /-- When the next refresh falls due, in 64ths of a tick (R394). -/
  refreshNext : Nat := 0
  /-- Refreshes that are forced and wait for a burst boundary, ordinary ones and those of R395 that pay what is owed. -/
  forced : Nat := 0
  payments : Nat := 0
  /-- Bank that the next refresh goes to. -/
  nextBank : Nat := 0
  /-- Retraining: steps done, and the temperature at the last one. -/
  steps : Nat := 0
  stepAt : Nat := 0
  lastTemp : Int := 25
  /-- Corrected errors in the running second, and tick of the first uncorrectable error. -/
  ceInSecond : Nat := 0
  ceSecond : Nat := 0
  /-- The second in which corrected errors last asked for sparing (R400). -/
  ceAsked : Option Nat := none
  firstUe : Option Nat := none
  /-- Tick at which a sparing copy began. -/
  copyAt : Option Nat := none
  /-- Bursts × 10^9 that the copy had done at tick `copyFrom` (R401). -/
  copied : Nat := 0
  copyFrom : Nat := 0
  deriving DecidableEq, Repr

/-- Memory controllers. -/
structure Hbm where
  pcs : NMap PcCtl := []
  /-- Poison lists: burst addresses by stack, oldest first. -/
  poison : NMap (List Nat) := []
  /-- Poisoned bursts, listed or not, keyed stack × 2^28 + burst. -/
  poisoned : List Nat := []
  /-- Panic by pipe: the tick it was raised. -/
  panic : NMap Nat := []
  /-- Pseudo-channel being retrained, by stack, and whether it is in turn (R403). -/
  retraining : NMap (Nat × Bool) := []
  /-- Retraining pass by stack: the pseudo-channel next in turn, and the tick at which the pass began. -/
  trainPass : NMap (Nat × Nat) := []
  /-- Burst the patrol reads next, by stack. -/
  patrol : NMap Nat := []
  /-- Tick at which a stack's patrol pass began (R399). -/
  patrolAt : NMap Nat := []
  /-- The stacks are in self-refresh (R396). -/
  selfRefresh : Bool := false
  /-- Stacks that take a temperature reading before their first burst, after self-refresh (R396). -/
  unread : List Nat := []
  /-- Tick of a stack's last temperature reading (R395). -/
  tempAt : NMap Nat := []
  /-- Bursts that requesters have still to hand to the controllers, in order (R388). -/
  due : List BurstAsk := []
  deriving DecidableEq, Repr

/-! ### Fabric (14) -/

/-- An adjacency (R447, R448). -/
structure Adjacency where
  peer : Nat := 0
  peerPort : Nat := 0
  lastHello : Nat := 0
  /-- T_TX of the last hello received and its receive time, TIME80 each. -/
  peerTx : Nat := 0
  peerRx : Nat := 0
  delays : List Int := []
  deriving DecidableEq, Repr

/-- An LSA as held (R452). -/
structure Lsa where
  serial : Nat
  seq : Nat
  links : List (Nat × Nat)
  refreshed : Nat
  deriving DecidableEq, Repr

/-- A proxy slot (R459). -/
structure Proxy where
  device : Nat
  keySlot : Nat
  seq : Nat
  /-- The key its REQUEST was sent with, which authenticates the RESPONSE (R457). -/
  key : Nat
  /-- Tick at which its timeout runs out. -/
  deadline : Nat
  deriving DecidableEq, Repr

/-- An ACP request accepted and not yet answered (R457). -/
structure AcpPending where
  device : Nat
  keySlot : Nat
  seq : Nat
  request : Request
  since : Nat
  /-- Arrival port, and for an edge request the source MAC that the answer goes to (R455). -/
  port : Nat
  edge : Option Nat := none
  /-- The key that authenticated it, and for a key in its grace period the level before t_c (R457, R458). -/
  key : Nat
  old : Option Nat := none
  taken : Option Nat := none
  deriving DecidableEq, Repr

/-- Fabric state. -/
structure Fabric where
  adj : NMap Adjacency := []
  /-- Hello engines by port: tick and bytes of the hello last sent (R447). -/
  hellos : NMap (Nat × List Byte) := []
  lsdb : NMap Lsa := []
  /-- LSA_SEQ last originated, and its tick. -/
  lsaSeq : Nat := 0
  lsaAt : Option Nat := none
  /-- Serial numbers with which this device's ID is in conflict (R451). -/
  conflicts : List Nat := []
  /-- An adjacency changed since the LSA was originated; tick of the change. -/
  lsaDue : Option Nat := none
  /-- Tick of the last accepted change of the database, and of the last route computation. -/
  changedAt : Option Nat := none
  computedAt : Option Nat := none
  /-- Claim in progress: candidate, tick of its start, rejected, candidates rejected so far. -/
  claim : Option (Nat × Nat × Bool × Nat) := none
  /-- Control frames sent: port and bytes, in order. -/
  sent : List (Nat × List Byte) := []
  /-- ACP sessions: keyed device × 65,536 + slot: held SESSION_SEQ and the tick of the last request. -/
  sessions : NMap (Nat × Nat) := []
  acp : List AcpPending := []
  proxies : NMap Proxy := []
  /-- SESSION_SEQ last sent, by key slot. -/
  proxySeq : NMap Nat := []
  /-- Keys in grace: slot to old key, old level, tick of t_c (R458). -/
  grace : NMap (Nat × Nat × Nat) := []
  /-- Anchor entries for which ANCHOR_UNREACHABLE was raised. -/
  unreachable : List Nat := []
  deriving DecidableEq, Repr

/-! ### Sleep and gangways (15) -/

/-- A gangway (R480 to R485). -/
structure Gw where
  /-- Accumulated event pulses, 0 to 15. -/
  count : Nat := 0
  /-- A crossing waits for its acknowledge; the count it carries. -/
  crossing : Option Nat := none
  /-- Data entries in its FIFOs. -/
  fifo : Nat := 0
  /-- Entries discarded in the running one-sided reset, and the side. -/
  flushed : Nat := 0
  side : Bool := false
  /-- Events delivered at the destination. -/
  delivered : Nat := 0
  deriving DecidableEq, Repr

/-- Sleep control. -/
structure Sleep where
  /-- Tick at which the device last stopped being idle. -/
  idleFrom : Nat := 0
  /-- Step of a Moor entry that runs (1 to 8), or 0, and the tick at which the entry began. -/
  entryStep : Nat := 0
  entryAt : Nat := 0
  /-- Step of a wake that runs (1 to 7 from Moor, 8 and 9 from Doze), or 0; and when it began. -/
  wakeStep : Nat := 0
  wakeAt : Nat := 0
  /-- Tick the present sleep state began. -/
  since : Nat := 0
  /-- Tick at which the device was last AWAKE. -/
  asleepAt : Nat := 0
  /-- Decks that hold a landing XOFF, with the tick of the last PFC frame (R479). -/
  xoff : NMap Nat := []
  /-- LANDING_OVERFLOW raised since the buffer last had room. -/
  overflowed : List Nat := []
  gangways : NMap Gw := []
  /-- The chain links have stopped, until a wake trains them (R470 step 6, R472). -/
  linksOff : Bool := false
  deriving DecidableEq, Repr

/-! ### Start-up and availability (16, 17) -/

/-- A boot image that the device keeps (R494, R514): its bytes, and whether it is marked valid. -/
structure Image where
  bytes : List Byte
  valid : Bool := true
  deriving DecidableEq, Repr

/-- A keel write or rollback advance under way (R502, R498). -/
structure KeelJob where
  path : Option Path
  tag : BitVec 16
  key : Nat
  value : Nat
  old : Nat
  deriving DecidableEq, Repr

/-- Start-up state. -/
structure Boot where
  /-- The device is held in reset, or unpowered, until boot start. -/
  held : Bool := true
  /-- Stage that runs next (1 to 9). -/
  stage : Nat := 1
  startAt : Nat := 0
  /-- Which image was used: its payload's sections are read from here. -/
  image : Option Image := none
  /-- Configuration records still to apply, and the index of the next (R499). -/
  config : List Request := []
  configIndex : Nat := 0
  /-- The boot session's last response. -/
  answer : Option Response := none
  keel : Option KeelJob := none
  keelQueue : List KeelJob := []
  rollback : Option KeelJob := none
  /-- Operation values of keel objects that differ from the stored ones (R504). -/
  keelUsed : NMap Nat := []
  recovery : Bool := false
  /-- A restart OP has asked for the flash to be read, whatever STRAP_RECOVERY says (R518). -/
  flashForced : Bool := false
  deriving DecidableEq, Repr

/-- A Pilot (R509 to R514). -/
structure Pilot where
  heartbeatAt : Nat := 0
  kickedAt : Nat := 0
  /-- Ticks of its counted declarations, newest first. -/
  declared : List Nat := []
  /-- Tick at which it was last put in reset. -/
  declaredAt : Nat := 0
  /-- The restart is on purpose, or part of an update: not counted. -/
  onPurpose : Bool := false
  /-- Released from reset with an image that passed: its VERSION, and whether that is the current copy. -/
  booting : Option (Nat × Bool) := none
  /-- Firmware: VERSION it runs, whether that is the current copy, and since when. -/
  version : Nat := 0
  current : Bool := true
  upAt : Nat := 0
  deriving DecidableEq, Repr

/-- Pilots, updates, decks. -/
structure Avail where
  pilots : NMap Pilot := []
  /-- Current and previous firmware copies, by stack. -/
  copies : NMap (Option Image × Option Image) := []
  /-- Update: its page range, and the tick of its acceptance. -/
  fw : Nat × Nat := (0, 0)
  /-- Why an update is reversed: ARG0 and ARG1 of FW_UPDATE_FAILED. -/
  fwReason : Nat × Nat := (0, 0xFF)
  /-- FW_FLASH_SLOT as the writing of the flash found it (R520). -/
  fwSlot : Nat := 0
  /-- PLLs that lost lock: deck × 8 + code, with the tick. -/
  unlocked : NMap Nat := []
  /-- Lost decks whose entries the leader has still to rehome. -/
  rehome : List Nat := []
  allDownSaid : Bool := false
  deriving DecidableEq, Repr

/-! ### Counters and perturbation (18) -/

/-- Windows of port bandwidth and the test lock. -/
structure Count where
  windowAt : Nat := 0
  /-- Window length and mean that the running windows use. -/
  windowNs : Nat := 1000000
  windows : Nat := 1000
  /-- Bytes in the running window, keyed port × 2 + direction. -/
  bytes : NMap Nat := []
  /-- Completed windows, newest first, keyed the same. -/
  history : NMap (List Nat) := []
  completed : Nat := 0
  /-- Challenge drawn: value, session, tick. -/
  challenge : Option (Nat × Nat × Nat) := none
  owner : Nat := 0
  unlockedAt : Nat := 0
  deriving DecidableEq, Repr

/-! ### Package, pins, power (19) -/

/-- Supplies, sensors and test port. -/
structure Power where
  /-- Integrated regulators are on. -/
  on : Bool := true
  vddio : Bool := true
  /-- Rails in an excursion. -/
  excursion : List Nat := []
  /-- THERM_TRIP_N is driven low; by a shutdown, until the next boot start. -/
  thermTrip : Bool := false
  shutdown : Bool := false
  /-- Tick at which THERMAL_STATE left NORMAL. -/
  hotSince : Nat := 0
  /-- JTAG instruction held (code of the model: 0 BYPASS, 1 IDCODE, 2 SAMPLE/PRELOAD, 3 EXTEST, 4 EXTEST_PULSE,
  5 EXTEST_TRAIN, 6 CLAMP, 7 HIGHZ), lanes whose pins it holds, and the data register's value. -/
  jtag : Nat := 0
  jtagLanes : List Nat := []
  jtagData : Word32 := 0
  deriving DecidableEq, Repr

/-! ### The device -/

/-- The whole device. -/
structure State where
  /-- Commands that wait, first in, first out. -/
  pending : List Instr := []
  dict : Dict := {}
  events : Events := {}
  host : HostIf := {}
  tw : TwoWire := {}
  time : Time := {}
  ptp : Ptp := {}
  links : NMap PortLink := []
  /-- Frames in the device, by handle; the next handle. -/
  frames : NMap Frame := []
  nextFrame : FrameId := 0
  parse : Parse := {}
  tables : Tables := {}
  flow : Flow := {}
  exports : NMap Export := []
  cross : Crossing := {}
  tm : Tm := {}
  hbm : Hbm := {}
  fabric : Fabric := {}
  sleep : Sleep := {}
  boot : Boot := {}
  avail : Avail := {}
  count : Count := {}
  power : Power := {}
  /-- The model's own counter: free values drawn so far (Config.free). -/
  drawn : Nat := 0
  deriving DecidableEq, Repr

/-- Why a step stops with a fault. No command of the table stops: every row has an effect in every state. -/
inductive Fault where
  /-- Raised by no meaning: the spec gives every command an effect. Safe. -/
  | none_
  deriving DecidableEq, Repr

/-- Why a command has no meaning. -/
inductive Refusal where
  /-- The arm of a command that is not modelled. Safe: nothing can be proved of a run that meets it. -/
  | notModelled (mnemonic : String)
  deriving DecidableEq, Repr

/-- The device right after reset: held until boot start, every object at its default (R19), every engine empty
(the values the spec does not give: log entry 3). -/
def State.reset : State := {}

end Sys2Proof.Machine
end

