-- ==== Sys2Proof/Machine/Operands.lean ====
section
/-! DEFINITION. Operand forms: byte strings, integers in both byte orders (R14), bit ranges (R13), two's complement,
and the dictionary request and response records (R57). -/

namespace Sys2Proof.Machine

/-- `n` bytes of `v`, least significant first (R14). -/
def leBytes : Nat → Nat → List Byte
  | 0, _ => []
  | n + 1, v => BitVec.ofNat 8 v :: leBytes n (v / 256)

/-- The number a byte string spells, least significant byte first (R14). -/
def leNat : List Byte → Nat
  | [] => 0
  | b :: bs => b.toNat + 256 * leNat bs

/-- `n` bytes of `v`, most significant first (R14). -/
def beBytes (n v : Nat) : List Byte := (leBytes n v).reverse

/-- The number a byte string spells, most significant byte first (R14). -/
def beNat (bs : List Byte) : Nat := bs.foldl (fun a b => a * 256 + b.toNat) 0

/-- Byte `i`, 0 beyond the end. -/
def byteAt (bs : List Byte) (i : Nat) : Nat := (bs.getD i 0).toNat

/-- `n` bytes from offset `o`, zero beyond the end. -/
def bytesAt (bs : List Byte) (o n : Nat) : List Byte :=
  let t := (bs.drop o).take n
  t ++ List.replicate (n - t.length) 0

/-- Little-endian field of `n` bytes at offset `o`. -/
def leAt (bs : List Byte) (o n : Nat) : Nat := leNat (bytesAt bs o n)

/-- Big-endian field of `n` bytes at offset `o`. -/
def beAt (bs : List Byte) (o n : Nat) : Nat := beNat (bytesAt bs o n)

/-- Bits [hi:lo] of a number (R13). -/
def bitsOf (v hi lo : Nat) : Nat := v / 2 ^ lo % 2 ^ (hi + 1 - lo)

/-- Bit `i` of a number. -/
def bitOf (v i : Nat) : Bool := v / 2 ^ i % 2 == 1

/-- `v` with bit `i` set. -/
def setBit (v i : Nat) : Nat := if bitOf v i then v else v + 2 ^ i

/-- `v` with bit `i` clear. -/
def clearBit (v i : Nat) : Nat := if bitOf v i then v - 2 ^ i else v

/-- `v` with each bit of `mask` cleared (W1C, R49). -/
def clearMask (v mask : Nat) : Nat := Nat.xor v (Nat.land v mask)

/-- Two's complement reading of a `bits`-bit number. -/
def toSigned (bits v : Nat) : Int :=
  let w := v % 2 ^ bits
  if w < 2 ^ (bits - 1) then (w : Int) else (w : Int) - 2 ^ bits

/-- Two's complement encoding in `bits` bits. -/
def ofSigned (bits : Nat) (x : Int) : Nat := (x % (2 ^ bits : Int)).toNat

/-- 1 for true. -/
def bit01 (b : Bool) : Nat := if b then 1 else 0

/-- ceil(a / b). -/
def ceilDiv (a b : Nat) : Nat := (a + b - 1) / b

/-- `a` rounded up to a multiple of `n`. -/
def roundUp (a n : Nat) : Nat := ceilDiv a n * n

/-- `v`, at most `m`. -/
def capAt (m v : Nat) : Nat := if v ≤ m then v else m

/-- `bs` with the bytes of `w` put at offset `o`; `bs` keeps its length. -/
def overlay (bs : List Byte) (o : Nat) (w : List Byte) : List Byte :=
  (bs.take o ++ w ++ bs.drop (o + w.length)).take bs.length

/-- `bs` with bits [at_, at_ + width) of its big-endian bit string replaced by `v` (R163). -/
def overlayBits (bs : List Byte) (at_ width v : Nat) : List Byte :=
  let n := bs.length * 8
  let sh := n - (at_ + width)
  let x := beNat bs
  let old := x / 2 ^ sh % 2 ^ width
  beBytes bs.length (x - old * 2 ^ sh + v % 2 ^ width * 2 ^ sh)

/-- The request that a record spells, if RESP is 0 and the record is whole (R57). -/
def parseRequest (r : List Byte) : Option Request :=
  if r.length < 16 ∨ bitOf (byteAt r 0) 7 then none
  else
    let len := leAt r 10 2
    some {
      opcode := BitVec.ofNat 7 (byteAt r 0), staged := bitOf (byteAt r 1) 7, last := bitOf (byteAt r 1) 6,
      tag := BitVec.ofNat 16 (leAt r 2 2), index := BitVec.ofNat 16 (leAt r 4 2), sub := BitVec.ofNat 8 (byteAt r 6),
      inst := BitVec.ofNat 16 (leAt r 8 2), length := BitVec.ofNat 16 len, offset := BitVec.ofNat 32 (leAt r 12 4),
      value := if byteAt r 0 = 1 ∨ byteAt r 0 = 3 ∨ byteAt r 0 = 5 ∨ byteAt r 0 = 6 then [] else (r.drop 16).take len }

/-- The record of a request (R57). -/
def requestBytes (q : Request) : List Byte :=
  leBytes 1 q.opcode.toNat ++ leBytes 1 (128 * bit01 q.staged + 64 * bit01 q.last) ++ leBytes 2 q.tag.toNat ++
  leBytes 2 q.index.toNat ++ leBytes 1 q.sub.toNat ++ [0] ++ leBytes 2 q.inst.toNat ++ leBytes 2 q.length.toNat ++
  leBytes 4 q.offset.toNat ++ q.value

/-- A request as its record spells it: value bytes beyond LENGTH, and those of an opcode that carries no value, are not
part of it (R57). -/
def asRecord (q : Request) : Request := (parseRequest (requestBytes q)).getD q

/-- The record of a response (R57). -/
def responseBytes (r : Response) : List Byte :=
  leBytes 1 (128 + r.opcode) ++ leBytes 1 r.status ++ leBytes 2 r.tag.toNat ++ leBytes 2 r.index.toNat ++
  leBytes 1 r.sub.toNat ++ [0] ++ leBytes 2 r.inst.toNat ++ leBytes 2 r.value.length ++ leBytes 4 r.offset ++ r.value

/-- A WRITE of a value to an object (R58). -/
def writeReq (tag : BitVec 16) (index sub inst : Nat) (value : List Byte) : Request :=
  { opcode := 2, tag := tag, index := BitVec.ofNat 16 index, sub := BitVec.ofNat 8 sub, inst := BitVec.ofNat 16 inst,
    length := BitVec.ofNat 16 value.length, value := value }

/-- A READ of an object (R58). -/
def readReq (tag : BitVec 16) (index sub inst : Nat) : Request :=
  { opcode := 1, tag := tag, index := BitVec.ofNat 16 index, sub := BitVec.ofNat 8 sub, inst := BitVec.ofNat 16 inst,
    length := 0 }

/-- The last segment of a DOMAIN, written whole (R58). -/
def segReq (tag : BitVec 16) (index sub inst : Nat) (value : List Byte) : Request :=
  { opcode := 4, last := true, tag := tag, index := BitVec.ofNat 16 index, sub := BitVec.ofNat 8 sub,
    inst := BitVec.ofNat 16 inst, length := BitVec.ofNat 16 value.length, value := value }

/-! The response codes (R51). -/
/-- OK. -/
def St.ok : Nat := 0
/-- NO_OBJECT. -/
def St.noObject : Nat := 1
/-- NO_INSTANCE. -/
def St.noInstance : Nat := 2
/-- ACCESS. -/
def St.access : Nat := 3
/-- TYPE. -/
def St.type : Nat := 4
/-- RANGE. -/
def St.range : Nat := 5
/-- BAD_VALUE. -/
def St.badValue : Nat := 6
/-- STAGED_CONFLICT. -/
def St.stagedConflict : Nat := 7
/-- BUSY. -/
def St.busy : Nat := 8
/-- LOCKED. -/
def St.locked : Nat := 9
/-- PEC_ERROR, two-wire only. -/
def St.pecError : Nat := 10

end Sys2Proof.Machine
end

