-- ==== Sys2Proof/Machine/Flags.lean ====
section
/-! DEFINITION. Check computations: CRC-8 of SMBus (R64), CRC-32 of IEEE 802.3, CRC-32C (R24), the IP checksum,
SipHash-2-4 with a 128-bit result (R217), and the xorshift generator (R299). -/

namespace Sys2Proof.Machine

/-- One byte of the CRC-8 with polynomial 0x07 (R64). -/
def crc8Byte (c : Nat) (b : Byte) : Nat :=
  (List.range 8).foldl (fun x _ => if 128 ≤ x then Nat.xor ((x * 2) % 256) 0x07 else x * 2) (Nat.xor c b.toNat)

/-- The PEC of a transaction: CRC-8, polynomial 0x07, initial value 0 (R64). -/
def pec (bs : List Byte) : Nat := bs.foldl crc8Byte 0

/-- One byte of a reflected 32-bit CRC. -/
def crcByte (poly : Nat) (c : Nat) (b : Byte) : Nat :=
  (List.range 8).foldl (fun x _ => if x % 2 = 1 then Nat.xor (x / 2) poly else x / 2) (Nat.xor c b.toNat)

/-- Running state of CRC-32C after more bytes, from a state. -/
def crc32cFrom (c : Nat) (bs : List Byte) : Nat := bs.foldl (crcByte 0x82F63B78) c

/-- CRC-32C (R24): reflected polynomial 0x82F63B78, initial value and final complement of all ones. -/
def crc32c (bs : List Byte) : Nat := Nat.xor (crc32cFrom 0xFFFFFFFF bs) 0xFFFFFFFF

/-- The frame check sequence of IEEE 802.3. -/
def fcs32 (bs : List Byte) : Nat := Nat.xor (bs.foldl (crcByte 0xEDB88320) 0xFFFFFFFF) 0xFFFFFFFF

/-- Sum of a byte string's big-endian 16-bit words with end-around carry; an odd last byte is a high byte. -/
def onesSum : List Byte → Nat → Nat
  | [], a => a
  | [b], a => let s := a + b.toNat * 256; s % 65536 + s / 65536
  | b :: c :: rest, a => let s := a + b.toNat * 256 + c.toNat; onesSum rest (s % 65536 + s / 65536)

/-- The internet checksum of a byte string. -/
def ipChecksum (bs : List Byte) : Nat := 65535 - onesSum bs 0

/-- A checksum after one 16-bit word changes from `m` to `m'` (RFC 1624): ~(~HC + ~m + m'). -/
def csumUpdate (hc m m' : Nat) : Nat :=
  let s := (65535 - hc) + (65535 - m % 65536) + m' % 65536
  let s := s % 65536 + s / 65536
  let s := s % 65536 + s / 65536
  65535 - s

/-- 64-bit rotation to the left. -/
def rotl64 (x r : Nat) : Nat := (x * 2 ^ r) % 2 ^ 64 + x / 2 ^ (64 - r)

/-- One round of SipHash. -/
def sipRound : Nat × Nat × Nat × Nat → Nat × Nat × Nat × Nat
  | (v0, v1, v2, v3) =>
    let v0 := (v0 + v1) % 2 ^ 64
    let v1 := Nat.xor (rotl64 v1 13) v0
    let v0 := rotl64 v0 32
    let v2 := (v2 + v3) % 2 ^ 64
    let v3 := Nat.xor (rotl64 v3 16) v2
    let v0 := (v0 + v3) % 2 ^ 64
    let v3 := Nat.xor (rotl64 v3 21) v0
    let v2 := (v2 + v1) % 2 ^ 64
    let v1 := Nat.xor (rotl64 v1 17) v2
    let v2 := rotl64 v2 32
    (v0, v1, v2, v3)

/-- `n` rounds. -/
def sipRounds : Nat → Nat × Nat × Nat × Nat → Nat × Nat × Nat × Nat
  | 0, v => v
  | n + 1, v => sipRounds n (sipRound v)

/-- Absorb the 64-bit words of a message, then its last word. -/
def sipAbsorb : Nat → List Byte → Nat → Nat × Nat × Nat × Nat → Nat × Nat × Nat × Nat
  | 0, _, _, v => v
  | fuel + 1, bs, len, (v0, v1, v2, v3) =>
    let lastWord := bs.length < 8
    let m := if lastWord then leNat bs + (len % 256) * 2 ^ 56 else leNat (bs.take 8)
    let (v0, v1, v2, v3) := sipRounds 2 (v0, v1, v2, Nat.xor v3 m)
    let v := (Nat.xor v0 m, v1, v2, v3)
    if lastWord then v else sipAbsorb fuel (bs.drop 8) len v

/-- SipHash-2-4 with a 128-bit result under a 128-bit key (R217); the first 8 result bytes are the low half. -/
def sipHash128 (key : Nat) (bs : List Byte) : Nat :=
  let k0 := key % 2 ^ 64
  let k1 := key / 2 ^ 64
  let v := (Nat.xor k0 0x736f6d6570736575, Nat.xor (Nat.xor k1 0x646f72616e646f6d) 0xee,
            Nat.xor k0 0x6c7967656e657261, Nat.xor k1 0x7465646279746573)
  let (v0, v1, v2, v3) := sipAbsorb (bs.length / 8 + 1) bs bs.length v
  let (v0, v1, v2, v3) := sipRounds 4 (v0, v1, Nat.xor v2 0xee, v3)
  let lo := Nat.xor (Nat.xor v0 v1) (Nat.xor v2 v3)
  let (v0, v1, v2, v3) := sipRounds 4 (v0, Nat.xor v1 0xdd, v2, v3)
  let hi := Nat.xor (Nat.xor v0 v1) (Nat.xor v2 v3)
  lo + hi * 2 ^ 64

/-- One draw of the xorshift generator (R299): the next state. -/
def xorshift (x : Word64) : Word64 :=
  let x := x ^^^ (x <<< 13)
  let x := x ^^^ (x >>> 7)
  x ^^^ (x <<< 17)

end Sys2Proof.Machine
end

