-- ==== Sys2Proof/Config.lean ====
section
/-! DEFINITION. What a part, an image or nature fixes and the spec does not: the identity of a part, the fused and
factory values, the outcome of the cryptographic checks, and the free values. Each constant has no body, so nothing
can be proved of its value; a statement that mentions one holds whatever it is (log entries 1 and 5). -/

namespace Sys2Proof.Config

/-- The free values of the model: the n-th value that the spec leaves open (log entry 1). -/
opaque free : Nat → BitVec 64

/-- Lot identifier of the part (R583): how many characters it has, and the characters. -/
opaque serialLot : Fin 9 × (Nat → Fin 95)
/-- Wafer number less 1 (R583). -/
opaque serialWafer : Fin 25
/-- X and Y position of the die on the wafer, and the final-test site (R583). -/
opaque serialDie : BitVec 16 × BitVec 16 × BitVec 8
/-- Byte `i` of the lot identifier: printable ASCII, padded with spaces (R583). -/
def serialLotByte (i : Nat) : Nat := if i < serialLot.1.val then 0x20 + (serialLot.2 i).val else 0x20
/-- SERIAL_NUMBER, byte 0 least significant: fused at final test; lot, wafer 1 to 25, X, Y, site, two zero bytes
(R583). -/
def serialNumber : BitVec 128 := BitVec.ofNat 128
  (((List.range 8).map fun i => serialLotByte i * 256 ^ i).sum + (serialWafer.val + 1) * 2 ^ 64 +
    serialDie.1.toNat * 2 ^ 72 + serialDie.2.1.toNat * 2 ^ 88 + serialDie.2.2.toNat * 2 ^ 104)
/-- SILICON_STEP (R53): per part. -/
opaque siliconStep : BitVec 16
/-- Build number of DICTIONARY_VERSION (R583). -/
opaque dictionaryBuild : BitVec 16
/-- VERSION of the firmware in the boot image that starts (R520, R583). -/
opaque firmwareVersion : BitVec 32
/-- VERSION of the microcode that the boot image carries for a pipe (R497). -/
opaque bootUcodeVersion : Nat → BitVec 32
/-- UCODE_KEY_HASHES of the boot image, by subindex, byte 0 least significant (R497). -/
opaque bootUcodeKeyHash : Nat → BitVec 384
/-- The hash of the vendor key in the fuses (R495). -/
opaque vendorKeyHash : BitVec 384
/-- Rollback bits blown before this model's first start (R498). -/
opaque rollbackFused : BitVec 6
/-- Factory value of a calibration object by index and instance (R501). -/
opaque factoryTrim : Nat → Nat → BitVec 32

/-- A VENDOR_UNLOCK token carries a valid signature of Dueth bound to the serial number (R54). -/
opaque vendorTokenValid : List Byte → BitVec 128 → Bool
/-- SHA-384, byte 0 least significant. -/
opaque sha384 : List Byte → BitVec 384
/-- ECDSA P-384 over SHA-384: public key, message, signature. -/
opaque ecdsaValid : List Byte → List Byte → List Byte → Bool
/-- AES-256-GCM: key, initial vector, additional data, text and tag; none where the tag does not match (R172, R494). -/
opaque aesGcmOpen : List Byte → List Byte → List Byte → List Byte → List Byte → Option (List Byte)
/-- The fused boot key, 256 bits (R495). -/
opaque bootKey : List Byte
/-- HMAC-SHA-256 of a key and a message, its first byte most significant (R457). -/
opaque hmacSha256 : List Byte → List Byte → BitVec 256
/-- Revision ID of the PCIe function (R90). -/
opaque pcieRevision : BitVec 8
/-- What PCIE_LINK_SPEED reads at 2.5 GT/s (R90, R102). -/
opaque slowestLink : BitVec 8
/-- Length without FCS, as its descriptor gives it (R319), of the frame that a front port begins to receive: no command says
it before the tail. -/
opaque frameLength : Nat → Nat
/-- The descriptor of a frame, whose layout is internal to the device (R319). -/
opaque descriptorByte : Nat → Nat → BitVec 8
/-- FRAME_HANDLE that a frame takes, unless another frame in flight has it (R318). -/
opaque frameHandle : Nat → Nat
/-- Bits of a slot that its fields leave open: slot number and place (R317, R318). -/
opaque slotFill : Nat → Nat → BitVec 16
/-- The delay that a draw of the perturbation generator gives for a bound (R545, R546). -/
opaque uniform : BitVec 32 → Nat → Nat

end Sys2Proof.Config
end

