-- ==== Sys2Proof/Machine/Objects.lean ====
section
/-! DEFINITION. The numbered objects of the dictionary as the object tables of the spec give them: index, subindices,
instances, type, access right, level, commit group, default and stated range. Every object of the device has its row
here and nowhere else: the meanings name an object by its row. -/

namespace Sys2Proof.Machine

/-- Object types (R45); a DOMAIN carries its maximum size. -/
inductive Ty where
  | u8 | u16 | u32 | u64 | s32 | s64 | bool | enum
  | bitset (n : Nat) | tally | time80 | octets (n : Nat) | domain (max : Nat)
  deriving DecidableEq, Repr

/-- Access rights (R49). -/
inductive Right where
  | ro | rw | wo | w1c | rwg
  deriving DecidableEq, Repr

/-- What an object is arrayed by, which gives the instances it has (R10). -/
inductive Kind where
  | device | pipe | lane
  /-- Ports 0 to 136. -/
  | port
  /-- Ports 0 to 127: R125, R376 and others answer NO_INSTANCE for the ports without lanes. -/
  | frontPort
  /-- Ports without the host port, which is never an egress port (R376). -/
  | portNoHost
  /-- Port queues without those of the host port (R376). -/
  | queue
  /-- pipe × 16 + spread table. -/
  | spread
  /-- Gangways (R480). -/
  | gangway
  /-- Implemented event codes (R85). -/
  | event
  /-- Codes with a counter (R536), and the even ones among them. -/
  | source | evenSource
  /-- Instances 0 to n − 1. -/
  | upto (n : Nat)
  deriving DecidableEq, Repr

/-- A numbered object, or a run of subindices that share one description. -/
structure ObjRow where
  index : Nat
  /-- First subindex, and how many. -/
  sub : Nat := 0
  subs : Nat := 1
  kind : Kind := .device
  ty : Ty
  right : Right
  /-- Required level: 0 OBSERVE, 1 OPERATE, 2 CONFIGURE, 3 VENDOR (R50). -/
  level : Nat
  /-- Commit group, 0 for none. -/
  group : Nat := 0
  /-- Default by subindex and instance (R19). -/
  dflt : Nat → Nat → Nat := fun _ _ => 0
  /-- The object's stated range. -/
  ok : Nat → Bool := fun _ => true
  /-- Reserved fields of a value are zero (R15). -/
  resv : Nat → Bool := fun _ => true

/-- The element that an event's INSTANCE names, as far as R533 tells elements apart. -/
inductive Element where
  | port | pipe | cluster | direction | deck | queue | pc | gangway | calibration | sensor | other
  deriving DecidableEq, Repr

/-- Event 0x0010 COMMIT_DONE. -/
def Ev.commitDone : Nat := 0x0010
/-- Event 0x0011 COMMIT_FAILED. -/
def Ev.commitFailed : Nat := 0x0011
/-- Event 0x0012 STAGE_EXPIRED. -/
def Ev.stageExpired : Nat := 0x0012
/-- Event 0x0013 ACCESS_DENIED. -/
def Ev.accessDenied : Nat := 0x0013
/-- Event 0x0014 EVENTS_SUPPRESSED. -/
def Ev.eventsSuppressed : Nat := 0x0014
/-- Event 0x0015 EVENT_LOG_FULL. -/
def Ev.eventLogFull : Nat := 0x0015
/-- Event 0x0016 MAILBOX_UNSERVED. -/
def Ev.mailboxUnserved : Nat := 0x0016
/-- Event 0x0017 TWO_WIRE_PEC. -/
def Ev.twoWirePec : Nat := 0x0017
/-- Event 0x0018 SCHED_COMMIT_STEPPED. -/
def Ev.schedCommitStepped : Nat := 0x0018
/-- Event 0x1001 LINK_DOWN. -/
def Ev.linkDown : Nat := 0x1001
/-- Event 0x1002 LINK_UP. -/
def Ev.linkUp : Nat := 0x1002
/-- Event 0x1003 PORT_FLUSHED. -/
def Ev.portFlushed : Nat := 0x1003
/-- Event 0x1004 HOLD_RESUMED. -/
def Ev.holdResumed : Nat := 0x1004
/-- Event 0x1005 FEC_UNCORRECTED. -/
def Ev.fecUncorrected : Nat := 0x1005
/-- Event 0x1801 STEP_REFUSED. -/
def Ev.stepRefused : Nat := 0x1801
/-- Event 0x1802 TIME_STEPPED. -/
def Ev.timeStepped : Nat := 0x1802
/-- Event 0x1803 PATH_DELAY_STEP. -/
def Ev.pathDelayStep : Nat := 0x1803
/-- Event 0x1804 TIME_SOURCE_RESUMED. -/
def Ev.timeSourceResumed : Nat := 0x1804
/-- Event 0x1805 TIME_STATE_CHANGED. -/
def Ev.timeStateChanged : Nat := 0x1805
/-- Event 0x1806 TIME_CAPTURED. -/
def Ev.timeCaptured : Nat := 0x1806
/-- Event 0x1807 TRIGGER_LATE. -/
def Ev.triggerLate : Nat := 0x1807
/-- Event 0x1808 CAPTURE_OVERFLOW. -/
def Ev.captureOverflow : Nat := 0x1808
/-- Event 0x2001 UCODE_LOADED. -/
def Ev.ucodeLoaded : Nat := 0x2001
/-- Event 0x2002 UCODE_REFUSED. -/
def Ev.ucodeRefused : Nat := 0x2002
/-- Event 0x2003 BANK_DRAINED. -/
def Ev.bankDrained : Nat := 0x2003
/-- Event 0x2004 CHECK_UNCORRECTABLE. -/
def Ev.checkUncorrectable : Nat := 0x2004
/-- Event 0x2005 CLUSTER_FENCED. -/
def Ev.clusterFenced : Nat := 0x2005
/-- Event 0x2006 CLUSTER_RESTORED. -/
def Ev.clusterRestored : Nat := 0x2006
/-- Event 0x2007 PARSE_FAIL. -/
def Ev.parseFail : Nat := 0x2007
/-- Event 0x2008 GOLDEN_REPAIRED. -/
def Ev.goldenRepaired : Nat := 0x2008
/-- Event 0x2801 FDB_INSERT_FAILED. -/
def Ev.fdbInsertFailed : Nat := 0x2801
/-- Event 0x2802 STATION_MOVED. -/
def Ev.stationMoved : Nat := 0x2802
/-- Event 0x2803 REHASH_BLOCKED. -/
def Ev.rehashBlocked : Nat := 0x2803
/-- Event 0x2804 REHASH_DONE. -/
def Ev.rehashDone : Nat := 0x2804
/-- Event 0x2805 LEARN_LIMIT_REACHED. -/
def Ev.learnLimitReached : Nat := 0x2805
/-- Event 0x3A01 FLOW_OVERFLOW. -/
def Ev.flowOverflow : Nat := 0x3A01
/-- Event 0x3A02 ANCHORAGE_LOW. -/
def Ev.anchorageLow : Nat := 0x3A02
/-- Event 0x3A03 FLOW_EVICTED. -/
def Ev.flowEvicted : Nat := 0x3A03
/-- Event 0x3B02 HOME_SETTLED. -/
def Ev.homeSettled : Nat := 0x3B02
/-- Event 0x3B03 MIGRATION_STALLED. -/
def Ev.migrationStalled : Nat := 0x3B03
/-- Event 0x3B04 RECORDS_LOST. -/
def Ev.recordsLost : Nat := 0x3B04
/-- Event 0x4001 NAT_BIND_FAILED. -/
def Ev.natBindFailed : Nat := 0x4001
/-- Event 0x4002 NAT_BOUND. -/
def Ev.natBound : Nat := 0x4002
/-- Event 0x4003 NAT_RELEASED. -/
def Ev.natReleased : Nat := 0x4003
/-- Event 0x4004 POLICY_DENIED. -/
def Ev.policyDenied : Nat := 0x4004
/-- Event 0x4005 SLB_NO_MEMBER. -/
def Ev.slbNoMember : Nat := 0x4005
/-- Event 0x4006 XLATE_NO_ROUTE. -/
def Ev.xlateNoRoute : Nat := 0x4006
/-- Event 0x4007 TCP_VIOLATION. -/
def Ev.tcpViolation : Nat := 0x4007
/-- Event 0x4801 TALLY_SATURATED. -/
def Ev.tallySaturated : Nat := 0x4801
/-- Event 0x4802 EXPORT_STAGING_FULL. -/
def Ev.exportStagingFull : Nat := 0x4802
/-- Event 0x5001 RESEQ_SKIP. -/
def Ev.reseqSkip : Nat := 0x5001
/-- Event 0x5002 RESEQ_LATE. -/
def Ev.reseqLate : Nat := 0x5002
/-- Event 0x5003 SLOT_TABLE_SWITCHED. -/
def Ev.slotTableSwitched : Nat := 0x5003
/-- Event 0x5004 CHAIN_LINK_RETRY_FAILED. -/
def Ev.chainLinkRetryFailed : Nat := 0x5004
/-- Event 0x5005 LANDING_HOLD_FULL. -/
def Ev.landingHoldFull : Nat := 0x5005
/-- Event 0x5006 MCAST_GROUP_DISABLED. -/
def Ev.mcastGroupDisabled : Nat := 0x5006
/-- Event 0x5007 MCAST_RESIDUE_FULL. -/
def Ev.mcastResidueFull : Nat := 0x5007
/-- Event 0x5801 PFC_HEADROOM_OVERFLOW. -/
def Ev.pfcHeadroomOverflow : Nat := 0x5801
/-- Event 0x5802 BUFFER_EXHAUSTED. -/
def Ev.bufferExhausted : Nat := 0x5802
/-- Event 0x5803 GATE_FRAME_TOO_LONG. -/
def Ev.gateFrameTooLong : Nat := 0x5803
/-- Event 0x5804 GATE_CONFIG_CHANGED. -/
def Ev.gateConfigChanged : Nat := 0x5804
/-- Event 0x6001 HBM_CORRECTED. -/
def Ev.hbmCorrected : Nat := 0x6001
/-- Event 0x6002 HBM_UNCORRECTED. -/
def Ev.hbmUncorrected : Nat := 0x6002
/-- Event 0x6003 PANIC_RAISED. -/
def Ev.panicRaised : Nat := 0x6003
/-- Event 0x6004 PANIC_CLEARED. -/
def Ev.panicCleared : Nat := 0x6004
/-- Event 0x6005 REFRESH_HOT. -/
def Ev.refreshHot : Nat := 0x6005
/-- Event 0x6006 REFRESH_NORMAL. -/
def Ev.refreshNormal : Nat := 0x6006
/-- Event 0x6007 SPARE_STARTED. -/
def Ev.spareStarted : Nat := 0x6007
/-- Event 0x6008 SPARE_DONE. -/
def Ev.spareDone : Nat := 0x6008
/-- Event 0x6009 SPARE_UNAVAILABLE. -/
def Ev.spareUnavailable : Nat := 0x6009
/-- Event 0x600A LANE_REPAIRED. -/
def Ev.laneRepaired : Nat := 0x600A
/-- Event 0x600B RETRAIN_FAILED. -/
def Ev.retrainFailed : Nat := 0x600B
/-- Event 0x600C POISON_LIST_FULL. -/
def Ev.poisonListFull : Nat := 0x600C
/-- Event 0x6801 NEIGHBOR_UP. -/
def Ev.neighborUp : Nat := 0x6801
/-- Event 0x6802 NEIGHBOR_DOWN. -/
def Ev.neighborDown : Nat := 0x6802
/-- Event 0x6803 DEVICE_ID_ASSIGNED. -/
def Ev.deviceIdAssigned : Nat := 0x6803
/-- Event 0x6804 DEVICE_ID_CONFLICT. -/
def Ev.deviceIdConflict : Nat := 0x6804
/-- Event 0x6805 ROUTES_CHANGED. -/
def Ev.routesChanged : Nat := 0x6805
/-- Event 0x6806 ACP_AUTH_FAILED. -/
def Ev.acpAuthFailed : Nat := 0x6806
/-- Event 0x6807 ANCHOR_UNREACHABLE. -/
def Ev.anchorUnreachable : Nat := 0x6807
/-- Event 0x7001 BOLLARD_FAULT. -/
def Ev.bollardFault : Nat := 0x7001
/-- Event 0x7002 RING_INVALID_RECORD. -/
def Ev.ringInvalidRecord : Nat := 0x7002
/-- Event 0x7003 RING_STALL. -/
def Ev.ringStall : Nat := 0x7003
/-- Event 0x7005 LOCK_BROKEN. -/
def Ev.lockBroken : Nat := 0x7005
/-- Event 0x7006 INJECT_TIMESTAMP. -/
def Ev.injectTimestamp : Nat := 0x7006
/-- Event 0x7007 PCIE_LINK_DOWN. -/
def Ev.pcieLinkDown : Nat := 0x7007
/-- Event 0x7008 MB_WRITE_IGNORED. -/
def Ev.mbWriteIgnored : Nat := 0x7008
/-- Event 0x7801 SLEEP_ENTERED. -/
def Ev.sleepEntered : Nat := 0x7801
/-- Event 0x7802 WOKE. -/
def Ev.woke : Nat := 0x7802
/-- Event 0x7803 MOOR_ABANDONED. -/
def Ev.moorAbandoned : Nat := 0x7803
/-- Event 0x7804 LANDING_OVERFLOW. -/
def Ev.landingOverflow : Nat := 0x7804
/-- Event 0x7805 GANGWAY_FLUSHED. -/
def Ev.gangwayFlushed : Nat := 0x7805
/-- Event 0x7806 GANGWAY_TIMEOUT. -/
def Ev.gangwayTimeout : Nat := 0x7806
/-- Event 0x7807 GANGWAY_EVENT_OVERFLOW. -/
def Ev.gangwayEventOverflow : Nat := 0x7807
/-- Event 0x7808 PLL_UNLOCK. -/
def Ev.pllUnlock : Nat := 0x7808
/-- Event 0x7809 REFCLK_LOST. -/
def Ev.refclkLost : Nat := 0x7809
/-- Event 0x7A01 THERMAL_WARNING. -/
def Ev.thermalWarning : Nat := 0x7A01
/-- Event 0x7A02 THERMAL_TRIP. -/
def Ev.thermalTrip : Nat := 0x7A02
/-- Event 0x7A03 SUPPLY_OUT_OF_RANGE. -/
def Ev.supplyOutOfRange : Nat := 0x7A03
/-- Event 0x7A04 THERMAL_NORMAL. -/
def Ev.thermalNormal : Nat := 0x7A04
/-- Event 0x8001 PILOT_FAILED. -/
def Ev.pilotFailed : Nat := 0x8001
/-- Event 0x8002 PILOT_RESTARTED. -/
def Ev.pilotRestarted : Nat := 0x8002
/-- Event 0x8003 PILOT_HELD_DOWN. -/
def Ev.pilotHeldDown : Nat := 0x8003
/-- Event 0x8004 LEADER_ELECTED. -/
def Ev.leaderElected : Nat := 0x8004
/-- Event 0x8005 ALL_PILOTS_DOWN. -/
def Ev.allPilotsDown : Nat := 0x8005
/-- Event 0x8006 FW_UPDATE_DONE. -/
def Ev.fwUpdateDone : Nat := 0x8006
/-- Event 0x8007 FW_UPDATE_FAILED. -/
def Ev.fwUpdateFailed : Nat := 0x8007
/-- Event 0x8008 DIRECTION_FAILED. -/
def Ev.directionFailed : Nat := 0x8008
/-- Event 0x8009 DIRECTION_RESTORED. -/
def Ev.directionRestored : Nat := 0x8009
/-- Event 0x800A DECK_LOST. -/
def Ev.deckLost : Nat := 0x800A
/-- Event 0x800B SRAM_CORRECTED. -/
def Ev.sramCorrected : Nat := 0x800B
/-- Event 0x800C SRAM_UNCORRECTED. -/
def Ev.sramUncorrected : Nat := 0x800C
/-- Event 0x800D POISON_REPAIRED. -/
def Ev.poisonRepaired : Nat := 0x800D
/-- Event 0x800E RAW_WINDOW_OPENED. -/
def Ev.rawWindowOpened : Nat := 0x800E
/-- Event 0x8801 COUNTER_WRAPPED. -/
def Ev.counterWrapped : Nat := 0x8801
/-- Event 0x9001 BOOT_COMPLETE. -/
def Ev.bootComplete : Nat := 0x9001
/-- Event 0x9002 BOOT_SLOT_FAILED. -/
def Ev.bootSlotFailed : Nat := 0x9002
/-- Event 0x9003 BOOT_CONFIG_FAILED. -/
def Ev.bootConfigFailed : Nat := 0x9003
/-- Event 0x9004 KEEL_WRITTEN. -/
def Ev.keelWritten : Nat := 0x9004
/-- Event 0x9005 KEEL_CORRUPT. -/
def Ev.keelCorrupt : Nat := 0x9005
/-- Event 0x9006 ROLLBACK_ADVANCED. -/
def Ev.rollbackAdvanced : Nat := 0x9006
/-- Event 0x9801 TEST_UNLOCKED. -/
def Ev.testUnlocked : Nat := 0x9801
/-- Event 0x9802 TEST_LOCKED. -/
def Ev.testLocked : Nat := 0x9802

/-- Events with their severity and the element that INSTANCE names, part 1 (R85, R84). -/
def eventTable1 : List (Nat × Nat × Element) :=
  [(Ev.commitDone, 0, .other),
   (Ev.commitFailed, 2, .other),
   (Ev.stageExpired, 1, .other),
   (Ev.accessDenied, 2, .other),
   (Ev.eventsSuppressed, 1, .other),
   (Ev.eventLogFull, 2, .other),
   (Ev.mailboxUnserved, 3, .other),
   (Ev.twoWirePec, 1, .other),
   (Ev.schedCommitStepped, 1, .other),
   (Ev.linkDown, 1, .port),
   (Ev.linkUp, 1, .port),
   (Ev.portFlushed, 1, .port),
   (Ev.holdResumed, 1, .port),
   (Ev.fecUncorrected, 2, .port),
   (Ev.stepRefused, 2, .other),
   (Ev.timeStepped, 1, .other),
   (Ev.pathDelayStep, 2, .port),
   (Ev.timeSourceResumed, 1, .port),
   (Ev.timeStateChanged, 1, .other),
   (Ev.timeCaptured, 0, .other),
   (Ev.triggerLate, 2, .other),
   (Ev.captureOverflow, 2, .other),
   (Ev.ucodeLoaded, 1, .pipe),
   (Ev.ucodeRefused, 2, .pipe),
   (Ev.bankDrained, 0, .pipe)]

/-- Events with their severity and the element that INSTANCE names, part 2 (R85, R84). -/
def eventTable2 : List (Nat × Nat × Element) :=
  [(Ev.checkUncorrectable, 3, .cluster),
   (Ev.clusterFenced, 3, .cluster),
   (Ev.clusterRestored, 1, .cluster),
   (Ev.parseFail, 1, .pipe),
   (Ev.goldenRepaired, 2, .pipe),
   (Ev.fdbInsertFailed, 2, .pipe),
   (Ev.stationMoved, 0, .pipe),
   (Ev.rehashBlocked, 2, .pipe),
   (Ev.rehashDone, 1, .pipe),
   (Ev.learnLimitReached, 1, .port),
   (Ev.flowOverflow, 2, .pipe),
   (Ev.anchorageLow, 1, .pipe),
   (Ev.flowEvicted, 0, .pipe),
   (Ev.homeSettled, 1, .other),
   (Ev.migrationStalled, 2, .pipe),
   (Ev.recordsLost, 3, .other),
   (Ev.natBindFailed, 2, .other),
   (Ev.natBound, 0, .other),
   (Ev.natReleased, 0, .other),
   (Ev.policyDenied, 0, .pipe),
   (Ev.slbNoMember, 2, .other),
   (Ev.xlateNoRoute, 2, .pipe),
   (Ev.tcpViolation, 0, .pipe),
   (Ev.tallySaturated, 2, .pipe),
   (Ev.exportStagingFull, 2, .pipe)]

/-- Events with their severity and the element that INSTANCE names, part 3 (R85, R84). -/
def eventTable3 : List (Nat × Nat × Element) :=
  [(Ev.reseqSkip, 2, .port),
   (Ev.reseqLate, 1, .port),
   (Ev.slotTableSwitched, 0, .direction),
   (Ev.chainLinkRetryFailed, 3, .direction),
   (Ev.landingHoldFull, 2, .deck),
   (Ev.mcastGroupDisabled, 1, .pipe),
   (Ev.mcastResidueFull, 2, .deck),
   (Ev.pfcHeadroomOverflow, 2, .port),
   (Ev.bufferExhausted, 3, .deck),
   (Ev.gateFrameTooLong, 2, .queue),
   (Ev.gateConfigChanged, 0, .port),
   (Ev.hbmCorrected, 0, .pc),
   (Ev.hbmUncorrected, 3, .pc),
   (Ev.panicRaised, 1, .pipe),
   (Ev.panicCleared, 0, .pipe),
   (Ev.refreshHot, 1, .deck),
   (Ev.refreshNormal, 0, .deck),
   (Ev.spareStarted, 2, .pc),
   (Ev.spareDone, 2, .pc),
   (Ev.spareUnavailable, 3, .pc),
   (Ev.laneRepaired, 1, .pc),
   (Ev.retrainFailed, 3, .pc),
   (Ev.poisonListFull, 3, .deck),
   (Ev.neighborUp, 1, .port),
   (Ev.neighborDown, 1, .port)]

/-- Events with their severity and the element that INSTANCE names, part 4 (R85, R84). -/
def eventTable4 : List (Nat × Nat × Element) :=
  [(Ev.deviceIdAssigned, 1, .other),
   (Ev.deviceIdConflict, 3, .other),
   (Ev.routesChanged, 0, .other),
   (Ev.acpAuthFailed, 2, .port),
   (Ev.anchorUnreachable, 2, .other),
   (Ev.bollardFault, 2, .other),
   (Ev.ringInvalidRecord, 1, .other),
   (Ev.ringStall, 1, .other),
   (Ev.lockBroken, 2, .other),
   (Ev.injectTimestamp, 0, .port),
   (Ev.pcieLinkDown, 2, .other),
   (Ev.mbWriteIgnored, 1, .other),
   (Ev.sleepEntered, 0, .other),
   (Ev.woke, 0, .other),
   (Ev.moorAbandoned, 0, .other),
   (Ev.landingOverflow, 2, .deck),
   (Ev.gangwayFlushed, 1, .gangway),
   (Ev.gangwayTimeout, 3, .gangway),
   (Ev.gangwayEventOverflow, 2, .gangway),
   (Ev.pllUnlock, 3, .deck),
   (Ev.refclkLost, 3, .other),
   (Ev.thermalWarning, 2, .sensor),
   (Ev.thermalTrip, 3, .sensor),
   (Ev.supplyOutOfRange, 2, .other),
   (Ev.thermalNormal, 1, .other)]

/-- Events with their severity and the element that INSTANCE names, part 5 (R85, R84). -/
def eventTable5 : List (Nat × Nat × Element) :=
  [(Ev.pilotFailed, 3, .deck),
   (Ev.pilotRestarted, 1, .deck),
   (Ev.pilotHeldDown, 3, .deck),
   (Ev.leaderElected, 1, .other),
   (Ev.allPilotsDown, 3, .other),
   (Ev.fwUpdateDone, 1, .other),
   (Ev.fwUpdateFailed, 3, .other),
   (Ev.directionFailed, 3, .direction),
   (Ev.directionRestored, 1, .direction),
   (Ev.deckLost, 3, .deck),
   (Ev.sramCorrected, 0, .deck),
   (Ev.sramUncorrected, 3, .deck),
   (Ev.poisonRepaired, 2, .deck),
   (Ev.rawWindowOpened, 1, .other),
   (Ev.counterWrapped, 0, .other),
   (Ev.bootComplete, 1, .other),
   (Ev.bootSlotFailed, 3, .other),
   (Ev.bootConfigFailed, 2, .other),
   (Ev.keelWritten, 1, .calibration),
   (Ev.keelCorrupt, 3, .calibration),
   (Ev.rollbackAdvanced, 2, .other),
   (Ev.testUnlocked, 2, .other),
   (Ev.testLocked, 1, .other)]

/-- The implemented event codes with severity and element (R85). -/
def eventTable : List (Nat × Nat × Element) :=
  eventTable1 ++ eventTable2 ++ eventTable3 ++ eventTable4 ++ eventTable5

/-- Severity of an event: 0 INFO, 1 NOTICE, 2 WARNING, 3 ERROR (R84). -/
def eventSeverity (code : Nat) : Nat :=
  match eventTable.find? (fun e => e.1 == code) with
  | some e => e.2.1
  | none => 0

/-- The code stands in an event table (R85). -/
def isEvent (code : Nat) : Bool := eventTable.any fun e => e.1 == code

/-- The code has a counter: it or the other code of its pair is an event (R536). -/
def isSource (code : Nat) : Bool := isEvent code || isEvent (code / 2 * 2 + (1 - code % 2))

/-- The codes with a counter, without repeats. -/
def sourceCodes : List Nat :=
  eventTable.foldl (fun l e => let a := e.1 / 2 * 2; if l.contains a then l else l ++ [a, a + 1]) []

/-- Default vector of a ring (R101). -/
def defaultVector (r : Nat) : Nat :=
  if r < 8 then 8 + r
  else if r < 12 then 16 + (r - 8)
  else if r < 20 then 24 + (r - 12)
  else if r = 20 then 2
  else if r < 25 then 32 + (r - 21)
  else 36 + (r - 25)

/-- A two's complement value of `bits` bits lies in [lo, hi]. -/
def signedIn (bits : Nat) (lo hi : Int) (v : Nat) : Bool :=
  let x : Int := if v < 2 ^ (bits - 1) then v else (v : Int) - 2 ^ bits
  decide (lo ≤ x) && decide (x ≤ hi)

/-- Every byte of CLASS_PFC_MAP is a priority, 0 to 7 (R136). -/
def classPfcOk (v : Nat) : Bool := (List.range 16).all fun c => v / 256 ^ c % 256 ≤ 7

/-- The factory value of a calibration object, kept inside its range (R501). -/
def factoryTrim (index inst : Nat) : Nat :=
  let v := (Config.factoryTrim index inst).toNat
  if index = 0x9100 then v % 64
  else if index = 0x9101 then v % 4096
  else if index = 0x9102 then v % 32
  else if index = 0x9110 then let m := v % 16001; if m ≤ 8000 then m else 2 ^ 32 - (m - 8000)
  else if index = 0x9120 then let m := v % 64; if m ≤ 31 then m else 2 ^ 32 - (m - 31)
  else v

/-- Stored value of a transmit equaliser setting that has not been written: no S32 is this value (R505). -/
def unwritten : Nat := 2 ^ 32

/-! #### Objects of 02_object_dictionary.md: R53 and R85 -/

/-- 0x0000.01 VENDOR_CODE. -/
def Obj.vendorCode : ObjRow :=
  { index := 0x0000, sub := 0x01, ty := .u32, right := .ro, level := 0, dflt := fun _ _ => 0xd0e }

/-- 0x0000.02 PART_NUMBER. -/
def Obj.partNumber : ObjRow :=
  { index := 0x0000, sub := 0x02, ty := .u32, right := .ro, level := 0, dflt := fun _ _ => 0x6480 }

/-- 0x0000.03 SILICON_STEP. -/
def Obj.siliconStep : ObjRow :=
  { index := 0x0000, sub := 0x03, ty := .u16, right := .ro, level := 0,
    dflt := fun _ _ => Config.siliconStep.toNat }

/-- 0x0000.04 SERIAL_NUMBER. -/
def Obj.serialNumber : ObjRow :=
  { index := 0x0000, sub := 0x04, ty := .octets 16, right := .ro, level := 0,
    dflt := fun _ _ => Config.serialNumber.toNat }

/-- 0x0000.05 DICTIONARY_VERSION. -/
def Obj.dictionaryVersion : ObjRow :=
  { index := 0x0000, sub := 0x05, ty := .u32, right := .ro, level := 0,
    dflt := fun _ _ => 0x01000000 + Config.dictionaryBuild.toNat }

/-- 0x0000.06 PILOT_FIRMWARE_VERSION. -/
def Obj.pilotFirmwareVersion : ObjRow :=
  { index := 0x0000, sub := 0x06, ty := .u32, right := .ro, level := 0,
    dflt := fun _ _ => Config.firmwareVersion.toNat }

/-- 0x0010 DEVICE_STATE. -/
def Obj.deviceState : ObjRow :=
  { index := 0x0010, ty := .enum, right := .ro, level := 0 }

/-- 0x0011 SESSION_LEVEL. -/
def Obj.sessionLevel : ObjRow :=
  { index := 0x0011, ty := .enum, right := .ro, level := 0 }

/-- 0x0012 VENDOR_UNLOCK. -/
def Obj.vendorUnlock : ObjRow :=
  { index := 0x0012, ty := .domain 4294967295, right := .wo, level := 2 }

/-- 0x0013 VENDOR_LOCK. -/
def Obj.vendorLock : ObjRow :=
  { index := 0x0013, ty := .bool, right := .wo, level := 2 }

/-- 0x0100 STAGE_IDLE_TIMEOUT_NS. -/
def Obj.stageIdleTimeoutNs : ObjRow :=
  { index := 0x0100, ty := .u64, right := .rw, level := 2, dflt := fun _ _ => 10000000000 }

/-- 0x0101 SCHED_MIN_LEAD_NS. -/
def Obj.schedMinLeadNs : ObjRow :=
  { index := 0x0101, ty := .u32, right := .ro, level := 0, dflt := fun _ _ => 205000 }

/-- 0x0800.01 LOG_ENABLE. -/
def Obj.logEnable : ObjRow :=
  { index := 0x0800, sub := 0x01, kind := .event, ty := .bool, right := .rw, level := 1,
    dflt := fun _ c => if 1 ≤ eventSeverity c then 1 else 0 }

/-- 0x0800.02 IRQ_ENABLE. -/
def Obj.irqEnable : ObjRow :=
  { index := 0x0800, sub := 0x02, kind := .event, ty := .bool, right := .rw, level := 1,
    dflt := fun _ c => if eventSeverity c = 3 then 1 else 0 }

/-- 0x0800.03 RATE_LIMIT. -/
def Obj.rateLimit : ObjRow :=
  { index := 0x0800, sub := 0x03, kind := .event, ty := .u32, right := .rw, level := 1,
    dflt := fun _ _ => 1000 }

/-- 0x0800.04 SEVERITY. -/
def Obj.severity : ObjRow :=
  { index := 0x0800, sub := 0x04, kind := .event, ty := .enum, right := .ro, level := 0,
    dflt := fun _ c => eventSeverity c }

/-- 0x0801.01 LOG_DROPPED. -/
def Obj.logDropped : ObjRow :=
  { index := 0x0801, sub := 0x01, ty := .u64, right := .ro, level := 0 }

/-- 0x0801.02 LAST_SEQUENCE. -/
def Obj.lastSequence : ObjRow :=
  { index := 0x0801, sub := 0x02, ty := .u32, right := .ro, level := 0 }

/-- The numbered objects that R53 and R85 gives. -/
def dictionaryObjects : List ObjRow :=
  [Obj.vendorCode, Obj.partNumber, Obj.siliconStep, Obj.serialNumber, Obj.dictionaryVersion,
   Obj.pilotFirmwareVersion, Obj.deviceState, Obj.sessionLevel, Obj.vendorUnlock, Obj.vendorLock,
   Obj.stageIdleTimeoutNs, Obj.schedMinLeadNs, Obj.logEnable, Obj.irqEnable, Obj.rateLimit, Obj.severity,
   Obj.logDropped, Obj.lastSequence]

/-! #### Objects of 03_quay_window.md: R102 -/

/-- 0x7010.01 RING_FIRST_PAGE. -/
def Obj.ringFirstPage : ObjRow :=
  { index := 0x7010, sub := 0x01, kind := .upto 29, ty := .u16, right := .rw, level := 2 }

/-- 0x7010.02 RING_PAGES. -/
def Obj.ringPages : ObjRow :=
  { index := 0x7010, sub := 0x02, kind := .upto 29, ty := .u16, right := .rw, level := 2,
    ok := fun v => v ≤ 16384 }

/-- 0x7010.03 RING_FLUSH_NS. -/
def Obj.ringFlushNs : ObjRow :=
  { index := 0x7010, sub := 0x03, kind := .upto 29, ty := .u32, right := .rw, level := 2,
    dflt := fun _ _ => 20000 }

/-- 0x7010.04 RING_VECTOR: 0 to 63, the vectors there are (log entry 84).
(DESIGN CHOICE: log entry 84.) -/
def Obj.ringVector : ObjRow :=
  { index := 0x7010, sub := 0x04, kind := .upto 29, ty := .u8, right := .rw, level := 2,
    dflt := fun _ r => defaultVector r, ok := fun v => v ≤ 63 }

/-- 0x7010.05 RING_POSITION. -/
def Obj.ringPosition : ObjRow :=
  { index := 0x7010, sub := 0x05, kind := .upto 29, ty := .u16, right := .ro, level := 0 }

/-- 0x7010.06 RING_RECORDS. -/
def Obj.ringRecords : ObjRow :=
  { index := 0x7010, sub := 0x06, kind := .upto 29, ty := .u64, right := .ro, level := 0 }

/-- 0x7010.07 RING_INVALID. -/
def Obj.ringInvalid : ObjRow :=
  { index := 0x7010, sub := 0x07, kind := .upto 29, ty := .u64, right := .ro, level := 0 }

/-- 0x7010.08 RING_DROPS. -/
def Obj.ringDrops : ObjRow :=
  { index := 0x7010, sub := 0x08, kind := .upto 29, ty := .u64, right := .ro, level := 0 }

/-- 0x7000.01 PCIE_LINK_SPEED. -/
def Obj.pcieLinkSpeed : ObjRow :=
  { index := 0x7000, sub := 0x01, ty := .u8, right := .ro, level := 0 }

/-- 0x7000.02 PCIE_LINK_WIDTH. -/
def Obj.pcieLinkWidth : ObjRow :=
  { index := 0x7000, sub := 0x02, ty := .u8, right := .ro, level := 0 }

/-- 0x7001 BOLLARD. -/
def Obj.bollard : ObjRow :=
  { index := 0x7001, kind := .upto 65536, ty := .bool, right := .ro, level := 0 }

/-- 0x7002 BOLLARD_FAULTS. -/
def Obj.bollardFaults : ObjRow :=
  { index := 0x7002, ty := .u64, right := .ro, level := 0 }

/-- 0x7020 PUNT_SNAP_BYTES. -/
def Obj.puntSnapBytes : ObjRow :=
  { index := 0x7020, ty := .u16, right := .rw, level := 2, dflt := fun _ _ => 10240, ok := fun v => v ≤ 16352 }

/-- 0x7030 LOCK_TIMEOUT_NS. -/
def Obj.lockTimeoutNs : ObjRow :=
  { index := 0x7030, ty := .u64, right := .rw, level := 2, dflt := fun _ _ => 1000000,
    ok := fun v => 10000 ≤ v && v ≤ 1000000000 }

/-- 0x7031 LOCKS_HELD. -/
def Obj.locksHeld : ObjRow :=
  { index := 0x7031, ty := .u32, right := .ro, level := 0 }

/-- 0x7032 LOCKS_BROKEN. -/
def Obj.locksBroken : ObjRow :=
  { index := 0x7032, ty := .u64, right := .ro, level := 0 }

/-- The numbered objects that R102 gives. -/
def hostObjects : List ObjRow :=
  [Obj.ringFirstPage, Obj.ringPages, Obj.ringFlushNs, Obj.ringVector, Obj.ringPosition, Obj.ringRecords,
   Obj.ringInvalid, Obj.ringDrops, Obj.pcieLinkSpeed, Obj.pcieLinkWidth, Obj.bollard, Obj.bollardFaults,
   Obj.puntSnapBytes, Obj.lockTimeoutNs, Obj.locksHeld, Obj.locksBroken]

/-! #### Objects of 04_ports.md: R142 -/

/-- 0x1010 LANE_PORT_MODE. -/
def Obj.lanePortMode : ObjRow :=
  { index := 0x1010, kind := .lane, ty := .enum, right := .rwg, level := 2, group := 0x02,
    dflt := fun _ _ => 0x13,
    ok := fun v => v == 0 || v == 1 || v == 0x10 || v == 0x11 || v == 0x12 || v == 0x13 || v == 0x20 || v == 0x21 || v == 0x30 || v == 0x31 || v == 0x40 }

/-- 0x1011 LANE_POLARITY. -/
def Obj.lanePolarity : ObjRow :=
  { index := 0x1011, kind := .lane, ty := .bitset 2, right := .rwg, level := 2, group := 0x02 }

/-- 0x1012 LANE_SOURCE. -/
def Obj.laneSource : ObjRow :=
  { index := 0x1012, kind := .lane, ty := .u8, right := .rwg, level := 2, group := 0x02,
    dflt := fun _ l => l % 16, ok := fun v => v ≤ 15 }

/-- 0x1100 PORT_ENABLE. -/
def Obj.portEnable : ObjRow :=
  { index := 0x1100, kind := .frontPort, ty := .bool, right := .rwg, level := 2, group := 0x01 }

/-- 0x1101 FEC_MODE. -/
def Obj.fecMode : ObjRow :=
  { index := 0x1101, kind := .frontPort, ty := .enum, right := .rwg, level := 2, group := 0x01,
    ok := fun v => v == 0 || v == 1 || v == 2 || v == 3 }

/-- 0x1102 AN_MODE. -/
def Obj.anMode : ObjRow :=
  { index := 0x1102, kind := .frontPort, ty := .enum, right := .rwg, level := 2, group := 0x01,
    ok := fun v => v == 0 || v == 1 }

/-- 0x1103 MAX_FRAME_BYTES. -/
def Obj.maxFrameBytes : ObjRow :=
  { index := 0x1103, kind := .frontPort, ty := .u16, right := .rwg, level := 2, group := 0x01,
    dflt := fun _ _ => 9216, ok := fun v => 60 ≤ v && v ≤ 16352 }

/-- 0x1104 FERRY_MODE. -/
def Obj.ferryMode : ObjRow :=
  { index := 0x1104, kind := .frontPort, ty := .bool, right := .rwg, level := 2, group := 0x01 }

/-- 0x1105 EEE_MODE. -/
def Obj.eeeMode : ObjRow :=
  { index := 0x1105, kind := .frontPort, ty := .enum, right := .rwg, level := 2, group := 0x01,
    ok := fun v => v == 0 || v == 1 || v == 2 }

/-- 0x1106.01 PFC_RX_ENABLE. -/
def Obj.pfcRxEnable : ObjRow :=
  { index := 0x1106, sub := 0x01, kind := .frontPort, ty := .bitset 8, right := .rwg, level := 2,
    group := 0x01 }

/-- 0x1106.02 PFC_TX_ENABLE. -/
def Obj.pfcTxEnable : ObjRow :=
  { index := 0x1106, sub := 0x02, kind := .frontPort, ty := .bitset 8, right := .rwg, level := 2,
    group := 0x01 }

/-- 0x1107 CLASS_PFC_MAP. -/
def Obj.classPfcMap : ObjRow :=
  { index := 0x1107, kind := .frontPort, ty := .octets 16, right := .rwg, level := 2, group := 0x01,
    dflt := fun _ _ => 0x7070606050504040303020201010000, ok := classPfcOk }

/-- 0x1108 PFC_SOURCE_MAC. -/
def Obj.pfcSourceMac : ObjRow :=
  { index := 0x1108, kind := .frontPort, ty := .octets 6, right := .rw, level := 2,
    dflt := fun _ p => 0x8064474802 + p * 2 ^ 40 }

/-- 0x1200 LINK_STATE. -/
def Obj.linkState : ObjRow :=
  { index := 0x1200, kind := .frontPort, ty := .enum, right := .ro, level := 0 }

/-- 0x1201 LINK_SPEED. -/
def Obj.linkSpeed : ObjRow :=
  { index := 0x1201, kind := .frontPort, ty := .u32, right := .ro, level := 0 }

/-- 0x1202 LINK_DOWN_DEBOUNCE_NS. -/
def Obj.linkDownDebounceNs : ObjRow :=
  { index := 0x1202, kind := .frontPort, ty := .u32, right := .rw, level := 1, dflt := fun _ _ => 10000 }

/-- 0x1203 LINK_UP_DEBOUNCE_NS. -/
def Obj.linkUpDebounceNs : ObjRow :=
  { index := 0x1203, kind := .frontPort, ty := .u32, right := .rw, level := 1, dflt := fun _ _ => 1000000 }

/-- 0x1204 LINK_HOLD_NS. -/
def Obj.linkHoldNs : ObjRow :=
  { index := 0x1204, kind := .frontPort, ty := .u64, right := .rw, level := 1, ok := fun v => v ≤ 10000000000 }

/-- 0x1205 EEE_IDLE_NS. -/
def Obj.eeeIdleNs : ObjRow :=
  { index := 0x1205, kind := .frontPort, ty := .u32, right := .rw, level := 1, dflt := fun _ _ => 20000 }

/-- 0x1206 EEE_TW_TX_NS. -/
def Obj.eeeTwTxNs : ObjRow :=
  { index := 0x1206, kind := .frontPort, ty := .u32, right := .rw, level := 1 }

/-- 0x1207 EEE_TW_RX_NS. -/
def Obj.eeeTwRxNs : ObjRow :=
  { index := 0x1207, kind := .frontPort, ty := .u32, right := .ro, level := 0 }

/-- 0x1300.01 RX_FRAMES. -/
def Obj.rxFrames : ObjRow :=
  { index := 0x1300, sub := 0x01, kind := .port, ty := .u64, right := .ro, level := 0 }

/-- 0x1300.02 RX_BYTES. -/
def Obj.rxBytes : ObjRow :=
  { index := 0x1300, sub := 0x02, kind := .port, ty := .u64, right := .ro, level := 0 }

/-- 0x1300.03 TX_FRAMES. -/
def Obj.txFrames : ObjRow :=
  { index := 0x1300, sub := 0x03, kind := .port, ty := .u64, right := .ro, level := 0 }

/-- 0x1300.04 TX_BYTES. -/
def Obj.txBytes : ObjRow :=
  { index := 0x1300, sub := 0x04, kind := .port, ty := .u64, right := .ro, level := 0 }

/-- 0x1300.05 RX_FCS_ERRORS. -/
def Obj.rxFcsErrors : ObjRow :=
  { index := 0x1300, sub := 0x05, kind := .frontPort, ty := .u64, right := .ro, level := 0 }

/-- 0x1300.06 RX_ABORTED. -/
def Obj.rxAborted : ObjRow :=
  { index := 0x1300, sub := 0x06, kind := .frontPort, ty := .u64, right := .ro, level := 0 }

/-- 0x1300.07 RX_OVERSIZE. -/
def Obj.rxOversize : ObjRow :=
  { index := 0x1300, sub := 0x07, kind := .frontPort, ty := .u64, right := .ro, level := 0 }

/-- 0x1300.08 RX_RUNT. -/
def Obj.rxRunt : ObjRow :=
  { index := 0x1300, sub := 0x08, kind := .frontPort, ty := .u64, right := .ro, level := 0 }

/-- 0x1300.09 TX_ENDED_BAD. -/
def Obj.txEndedBad : ObjRow :=
  { index := 0x1300, sub := 0x09, kind := .frontPort, ty := .u64, right := .ro, level := 0 }

/-- 0x1300.0A LINK_FLUSHED. -/
def Obj.linkFlushed : ObjRow :=
  { index := 0x1300, sub := 0x0A, kind := .frontPort, ty := .u64, right := .ro, level := 0 }

/-- 0x1300.0B LINK_HOLD_AGED. -/
def Obj.linkHoldAged : ObjRow :=
  { index := 0x1300, sub := 0x0B, kind := .frontPort, ty := .u64, right := .ro, level := 0 }

/-- 0x1300.0C LINK_TRUNCATED. -/
def Obj.linkTruncated : ObjRow :=
  { index := 0x1300, sub := 0x0C, kind := .frontPort, ty := .u64, right := .ro, level := 0 }

/-- 0x1300.0D LINK_DOWNS. -/
def Obj.linkDowns : ObjRow :=
  { index := 0x1300, sub := 0x0D, kind := .frontPort, ty := .u64, right := .ro, level := 0 }

/-- 0x1300.0E FEC_CORRECTED. -/
def Obj.fecCorrected : ObjRow :=
  { index := 0x1300, sub := 0x0E, kind := .frontPort, ty := .u64, right := .ro, level := 0 }

/-- 0x1300.0F FEC_UNCORRECTED. -/
def Obj.fecUncorrected : ObjRow :=
  { index := 0x1300, sub := 0x0F, kind := .frontPort, ty := .u64, right := .ro, level := 0 }

/-- 0x1300.10 LPI_TX_NS. -/
def Obj.lpiTxNs : ObjRow :=
  { index := 0x1300, sub := 0x10, kind := .frontPort, ty := .u64, right := .ro, level := 0 }

/-- 0x1300.11 PFC_RX_FRAMES. -/
def Obj.pfcRxFrames : ObjRow :=
  { index := 0x1300, sub := 0x11, kind := .frontPort, ty := .u64, right := .ro, level := 0 }

/-- 0x1300.12 PFC_TX_FRAMES. -/
def Obj.pfcTxFrames : ObjRow :=
  { index := 0x1300, sub := 0x12, kind := .frontPort, ty := .u64, right := .ro, level := 0 }

/-- 0x1300.13 PAUSE_RX_IGNORED. -/
def Obj.pauseRxIgnored : ObjRow :=
  { index := 0x1300, sub := 0x13, kind := .frontPort, ty := .u64, right := .ro, level := 0 }

/-- The numbered objects that R142 gives. -/
def portsObjects : List ObjRow :=
  [Obj.lanePortMode, Obj.lanePolarity, Obj.laneSource, Obj.portEnable, Obj.fecMode, Obj.anMode,
   Obj.maxFrameBytes, Obj.ferryMode, Obj.eeeMode, Obj.pfcRxEnable, Obj.pfcTxEnable, Obj.classPfcMap,
   Obj.pfcSourceMac, Obj.linkState, Obj.linkSpeed, Obj.linkDownDebounceNs, Obj.linkUpDebounceNs,
   Obj.linkHoldNs, Obj.eeeIdleNs, Obj.eeeTwTxNs, Obj.eeeTwRxNs, Obj.rxFrames, Obj.rxBytes, Obj.txFrames,
   Obj.txBytes, Obj.rxFcsErrors, Obj.rxAborted, Obj.rxOversize, Obj.rxRunt, Obj.txEndedBad, Obj.linkFlushed,
   Obj.linkHoldAged, Obj.linkTruncated, Obj.linkDowns, Obj.fecCorrected, Obj.fecUncorrected, Obj.lpiTxNs,
   Obj.pfcRxFrames, Obj.pfcTxFrames, Obj.pauseRxIgnored]

/-! #### Objects of 05_parse_engines.md: R181 -/

/-- 0x2100 ACTIVE_BANK. -/
def Obj.activeBank : ObjRow :=
  { index := 0x2100, kind := .pipe, ty := .enum, right := .rwg, level := 2, group := 0x08,
    ok := fun v => v == 0 || v == 1 }

/-- 0x2101 PARSE_ENTRY. -/
def Obj.parseEntry : ObjRow :=
  { index := 0x2101, kind := .port, ty := .u16, right := .rwg, level := 2, group := 0x08,
    dflt := fun _ _ => 0x10, ok := fun v => 5 ≤ v && v ≤ 8191 }

/-- 0x2102 PARSE_WINDOW_BYTES. -/
def Obj.parseWindowBytes : ObjRow :=
  { index := 0x2102, kind := .pipe, ty := .u16, right := .rwg, level := 2, group := 0x08,
    dflt := fun _ _ => 256, ok := fun v => 64 ≤ v && v ≤ 512 }

/-- 0x2103 PARSE_CYCLE_LIMIT. -/
def Obj.parseCycleLimit : ObjRow :=
  { index := 0x2103, kind := .pipe, ty := .u8, right := .rwg, level := 2, group := 0x08,
    dflt := fun _ _ => 64, ok := fun v => 16 ≤ v && v ≤ 64 }

/-- 0x2104 LOOKUP_TIMEOUT_CYCLES. -/
def Obj.lookupTimeoutCycles : ObjRow :=
  { index := 0x2104, kind := .pipe, ty := .u8, right := .rwg, level := 2, group := 0x08,
    dflt := fun _ _ => 48, ok := fun v => 16 ≤ v && v ≤ 63 }

/-- 0x2105 PARSE_FAIL_ACTION. -/
def Obj.parseFailAction : ObjRow :=
  { index := 0x2105, kind := .pipe, ty := .enum, right := .rwg, level := 2, group := 0x08,
    ok := fun v => v == 0 || v == 1 }

/-- 0x2106 SWAP_TRAP_ENABLE. -/
def Obj.swapTrapEnable : ObjRow :=
  { index := 0x2106, kind := .pipe, ty := .bool, right := .rwg, level := 2, group := 0x08 }

/-- 0x2110.01 FORE_STATE. -/
def Obj.foreState : ObjRow :=
  { index := 0x2110, sub := 0x01, kind := .pipe, ty := .enum, right := .ro, level := 0, dflt := fun _ _ => 3 }

/-- 0x2110.02 AFT_STATE. -/
def Obj.aftState : ObjRow :=
  { index := 0x2110, sub := 0x02, kind := .pipe, ty := .enum, right := .ro, level := 0 }

/-- 0x2111.01 FORE_VERSION. -/
def Obj.foreVersion : ObjRow :=
  { index := 0x2111, sub := 0x01, kind := .pipe, ty := .u32, right := .ro, level := 0,
    dflt := fun p _ => (Config.bootUcodeVersion p).toNat }

/-- 0x2111.02 AFT_VERSION. -/
def Obj.aftVersion : ObjRow :=
  { index := 0x2111, sub := 0x02, kind := .pipe, ty := .u32, right := .ro, level := 0 }

/-- 0x2112 EFFECTIVE_CYCLE_LIMIT. -/
def Obj.effectiveCycleLimit : ObjRow :=
  { index := 0x2112, kind := .pipe, ty := .u8, right := .ro, level := 0, dflt := fun _ _ => 64 }

/-- 0x2120 CLUSTER_STATE. -/
def Obj.clusterState : ObjRow :=
  { index := 0x2120, kind := .upto 64, ty := .enum, right := .ro, level := 0 }

/-- 0x2121 CLUSTER_FENCE. -/
def Obj.clusterFence : ObjRow :=
  { index := 0x2121, kind := .upto 64, ty := .bool, right := .rw, level := 2 }

/-- 0x2122 CHECK_CORRECTED. -/
def Obj.checkCorrected : ObjRow :=
  { index := 0x2122, kind := .upto 64, ty := .u64, right := .ro, level := 0 }

/-- 0x2123 CHECK_UNCORRECTED. -/
def Obj.checkUncorrected : ObjRow :=
  { index := 0x2123, kind := .upto 64, ty := .u64, right := .ro, level := 0 }

/-- 0x2124 SCRUB_REPAIRS. -/
def Obj.scrubRepairs : ObjRow :=
  { index := 0x2124, kind := .upto 64, ty := .u64, right := .ro, level := 0 }

/-- 0x2125 SCRUB_PERIOD_MS. -/
def Obj.scrubPeriodMs : ObjRow :=
  { index := 0x2125, kind := .pipe, ty := .u32, right := .rw, level := 2, dflt := fun _ _ => 100 }

/-- 0x2130 UCODE_LOAD. -/
def Obj.ucodeLoad : ObjRow :=
  { index := 0x2130, kind := .pipe, ty := .u64, right := .wo, level := 2, resv := fun v => v / 2 ^ 48 == 0 }

/-- 0x2131.01 UCODE_KEY_HASH. -/
def Obj.ucodeKeyHash : ObjRow :=
  { index := 0x2131, sub := 0x01, subs := 4, ty := .octets 48, right := .ro, level := 0,
    dflt := fun s _ => (Config.bootUcodeKeyHash s).toNat }

/-- 0x2140.01 FRAMES_PARSED. -/
def Obj.framesParsed : ObjRow :=
  { index := 0x2140, sub := 0x01, kind := .pipe, ty := .u64, right := .ro, level := 0 }

/-- 0x2140.02 TRAPS_WINDOW. -/
def Obj.trapsWindow : ObjRow :=
  { index := 0x2140, sub := 0x02, kind := .pipe, ty := .u64, right := .ro, level := 0 }

/-- 0x2140.03 TRAPS_CHECK. -/
def Obj.trapsCheck : ObjRow :=
  { index := 0x2140, sub := 0x03, kind := .pipe, ty := .u64, right := .ro, level := 0 }

/-- 0x2140.04 TRAPS_LOOKUP. -/
def Obj.trapsLookup : ObjRow :=
  { index := 0x2140, sub := 0x04, kind := .pipe, ty := .u64, right := .ro, level := 0 }

/-- 0x2140.05 TRAPS_SWAP. -/
def Obj.trapsSwap : ObjRow :=
  { index := 0x2140, sub := 0x05, kind := .pipe, ty := .u64, right := .ro, level := 0 }

/-- 0x2140.06 FAIL_CYCLE_LIMIT. -/
def Obj.failCycleLimit : ObjRow :=
  { index := 0x2140, sub := 0x06, kind := .pipe, ty := .u64, right := .ro, level := 0 }

/-- 0x2140.07 FAIL_NESTED. -/
def Obj.failNested : ObjRow :=
  { index := 0x2140, sub := 0x07, kind := .pipe, ty := .u64, right := .ro, level := 0 }

/-- 0x2140.08 FAIL_EDIT. -/
def Obj.failEdit : ObjRow :=
  { index := 0x2140, sub := 0x08, kind := .pipe, ty := .u64, right := .ro, level := 0 }

/-- 0x2140.09 FAIL_ILLEGAL. -/
def Obj.failIllegal : ObjRow :=
  { index := 0x2140, sub := 0x09, kind := .pipe, ty := .u64, right := .ro, level := 0 }

/-- 0x2140.0A DISPATCH_WAITS. -/
def Obj.dispatchWaits : ObjRow :=
  { index := 0x2140, sub := 0x0A, kind := .pipe, ty := .u64, right := .ro, level := 0 }

/-- 0x2140.0B FAIL_NO_EGRESS. -/
def Obj.failNoEgress : ObjRow :=
  { index := 0x2140, sub := 0x0B, kind := .pipe, ty := .u64, right := .ro, level := 0 }

/-- 0x2150.01 PUNT_RATE_FPS. -/
def Obj.puntRateFps : ObjRow :=
  { index := 0x2150, sub := 0x01, subs := 255, kind := .pipe, ty := .u32, right := .rwg, level := 2,
    group := 0x09, dflt := fun _ _ => 10000, ok := fun v => v ≤ 4000000 }

/-- 0x2151.01 PUNT_BURST. -/
def Obj.puntBurst : ObjRow :=
  { index := 0x2151, sub := 0x01, subs := 255, kind := .pipe, ty := .u16, right := .rwg, level := 2,
    group := 0x09, dflt := fun _ _ => 64, ok := fun v => 1 ≤ v && v ≤ 4096 }

/-- 0x2152 PUNT_CEILING_FPS. -/
def Obj.puntCeilingFps : ObjRow :=
  { index := 0x2152, ty := .u32, right := .rw, level := 2, dflt := fun _ _ => 1000000,
    ok := fun v => 1000 ≤ v && v ≤ 4000000 }

/-- 0x2153 PUNT_CEILING_DROPS. -/
def Obj.puntCeilingDrops : ObjRow :=
  { index := 0x2153, kind := .pipe, ty := .u64, right := .ro, level := 0 }

/-- 0x2160.01 PUNT_PASSED. -/
def Obj.puntPassed : ObjRow :=
  { index := 0x2160, sub := 0x01, subs := 255, kind := .pipe, ty := .u64, right := .ro, level := 0 }

/-- 0x2161.01 PUNT_POLICED. -/
def Obj.puntPoliced : ObjRow :=
  { index := 0x2161, sub := 0x01, subs := 255, kind := .pipe, ty := .u64, right := .ro, level := 0 }

/-- 0x2162.01 PARSE_DROPS. -/
def Obj.parseDrops : ObjRow :=
  { index := 0x2162, sub := 0x01, subs := 255, kind := .pipe, ty := .u64, right := .ro, level := 0 }

/-- The numbered objects that R181 gives. -/
def parseObjects : List ObjRow :=
  [Obj.activeBank, Obj.parseEntry, Obj.parseWindowBytes, Obj.parseCycleLimit, Obj.lookupTimeoutCycles,
   Obj.parseFailAction, Obj.swapTrapEnable, Obj.foreState, Obj.aftState, Obj.foreVersion, Obj.aftVersion,
   Obj.effectiveCycleLimit, Obj.clusterState, Obj.clusterFence, Obj.checkCorrected, Obj.checkUncorrected,
   Obj.scrubRepairs, Obj.scrubPeriodMs, Obj.ucodeLoad, Obj.ucodeKeyHash, Obj.framesParsed, Obj.trapsWindow,
   Obj.trapsCheck, Obj.trapsLookup, Obj.trapsSwap, Obj.failCycleLimit, Obj.failNested, Obj.failEdit,
   Obj.failIllegal, Obj.dispatchWaits, Obj.failNoEgress, Obj.puntRateFps, Obj.puntBurst, Obj.puntCeilingFps,
   Obj.puntCeilingDrops, Obj.puntPassed, Obj.puntPoliced, Obj.parseDrops]

/-! #### Objects of 06_forwarding_tables.md: R210 -/

/-- 0x2800 FDB_SEED. -/
def Obj.fdbSeed : ObjRow :=
  { index := 0x2800, kind := .pipe, ty := .u32, right := .rwg, level := 2, group := 0x10 }

/-- 0x2801 FDB_PREV_SEED. -/
def Obj.fdbPrevSeed : ObjRow :=
  { index := 0x2801, kind := .pipe, ty := .u32, right := .ro, level := 0 }

/-- 0x2802 REHASH_STATE. -/
def Obj.rehashState : ObjRow :=
  { index := 0x2802, kind := .pipe, ty := .enum, right := .ro, level := 0 }

/-- 0x2803 REHASH_REMAINING. -/
def Obj.rehashRemaining : ObjRow :=
  { index := 0x2803, kind := .pipe, ty := .u32, right := .ro, level := 0 }

/-- 0x2804 REHASH_DISCARDS. -/
def Obj.rehashDiscards : ObjRow :=
  { index := 0x2804, kind := .pipe, ty := .u64, right := .ro, level := 0 }

/-- 0x2805 FDB_INSERT_FAILS. -/
def Obj.fdbInsertFails : ObjRow :=
  { index := 0x2805, kind := .pipe, ty := .u64, right := .ro, level := 0 }

/-- 0x2806.01 PIER_ENTRIES. -/
def Obj.pierEntries : ObjRow :=
  { index := 0x2806, sub := 0x01, kind := .pipe, ty := .u32, right := .ro, level := 0 }

/-- 0x2806.02 ANCHORAGE_ENTRIES. -/
def Obj.anchorageEntries : ObjRow :=
  { index := 0x2806, sub := 0x02, kind := .pipe, ty := .u32, right := .ro, level := 0 }

/-- 0x2807 FDB_AGE_S. -/
def Obj.fdbAgeS : ObjRow :=
  { index := 0x2807, ty := .u32, right := .rw, level := 1, dflt := fun _ _ => 300 }

/-- 0x2808 FDB_AGED. -/
def Obj.fdbAged : ObjRow :=
  { index := 0x2808, kind := .pipe, ty := .u64, right := .ro, level := 0 }

/-- 0x2809 STATION_MOVES. -/
def Obj.stationMoves : ObjRow :=
  { index := 0x2809, kind := .pipe, ty := .u64, right := .ro, level := 0 }

/-- 0x280A HOME_LEARN_ENABLE. -/
def Obj.homeLearnEnable : ObjRow :=
  { index := 0x280A, kind := .pipe, ty := .bool, right := .rw, level := 2, dflt := fun _ _ => 1 }

/-- 0x280B HOME_LEARN_OVERRUNS. -/
def Obj.homeLearnOverruns : ObjRow :=
  { index := 0x280B, kind := .pipe, ty := .u64, right := .ro, level := 0 }

/-- 0x280C LOCK_SKIPS. -/
def Obj.lockSkips : ObjRow :=
  { index := 0x280C, kind := .pipe, ty := .u64, right := .ro, level := 0 }

/-- 0x2810 LEARN_LIMIT. -/
def Obj.learnLimit : ObjRow :=
  { index := 0x2810, kind := .port, ty := .u32, right := .rw, level := 2 }

/-- 0x2811 LEARN_LIMIT_ACTION. -/
def Obj.learnLimitAction : ObjRow :=
  { index := 0x2811, kind := .port, ty := .enum, right := .rw, level := 2, ok := fun v => v == 0 || v == 1 }

/-- 0x2812.01 LEARN_COUNT. -/
def Obj.learnCount : ObjRow :=
  { index := 0x2812, sub := 0x01, subs := 8, kind := .port, ty := .u32, right := .ro, level := 0 }

/-- 0x2813 LEARN_LIMIT_HITS. -/
def Obj.learnLimitHits : ObjRow :=
  { index := 0x2813, kind := .port, ty := .u64, right := .ro, level := 0 }

/-- 0x2814 LEARN_LIMIT_DROPS. -/
def Obj.learnLimitDrops : ObjRow :=
  { index := 0x2814, kind := .port, ty := .u64, right := .ro, level := 0 }

/-- 0x2820 LPM_LIVE_SET. -/
def Obj.lpmLiveSet : ObjRow :=
  { index := 0x2820, ty := .bitset 2, right := .rwg, level := 2, group := 0x11, dflt := fun _ _ => 1 }

/-- 0x2821.01 ROUTES_V4. -/
def Obj.routesV4 : ObjRow :=
  { index := 0x2821, sub := 0x01, ty := .u32, right := .ro, level := 0 }

/-- 0x2821.02 ROUTES_V6. -/
def Obj.routesV6 : ObjRow :=
  { index := 0x2821, sub := 0x02, ty := .u32, right := .ro, level := 0 }

/-- 0x2840.01 SPREAD_LOG2_SIZE. -/
def Obj.spreadLog2Size : ObjRow :=
  { index := 0x2840, sub := 0x01, kind := .spread, ty := .u8, right := .rwg, level := 2, group := 0x12,
    ok := fun v => v == 0 || (4 ≤ v && v ≤ 12) }

/-- 0x2840.02 SPREAD_SEED. -/
def Obj.spreadSeed : ObjRow :=
  { index := 0x2840, sub := 0x02, kind := .spread, ty := .u32, right := .rwg, level := 2, group := 0x12 }

/-- 0x2840.03 SPREAD_ENTRIES. -/
def Obj.spreadEntries : ObjRow :=
  { index := 0x2840, sub := 0x03, kind := .spread, ty := .domain 8192, right := .rwg, level := 2,
    group := 0x12 }

/-- The numbered objects that R210 gives. -/
def forwardingObjects : List ObjRow :=
  [Obj.fdbSeed, Obj.fdbPrevSeed, Obj.rehashState, Obj.rehashRemaining, Obj.rehashDiscards, Obj.fdbInsertFails,
   Obj.pierEntries, Obj.anchorageEntries, Obj.fdbAgeS, Obj.fdbAged, Obj.stationMoves, Obj.homeLearnEnable,
   Obj.homeLearnOverruns, Obj.lockSkips, Obj.learnLimit, Obj.learnLimitAction, Obj.learnCount,
   Obj.learnLimitHits, Obj.learnLimitDrops, Obj.lpmLiveSet, Obj.routesV4, Obj.routesV6, Obj.spreadLog2Size,
   Obj.spreadSeed, Obj.spreadEntries]

/-! #### Objects of 07_flow_table.md: R250 -/

/-- 0x3010 HOME_PIPE. -/
def Obj.homePipe : ObjRow :=
  { index := 0x3010, kind := .upto 4096, ty := .u8, right := .rwg, level := 2, group := 0x18,
    dflt := fun _ e => e % 8, ok := fun v => v ≤ 7 }

/-- 0x3011 HOME_STATE. -/
def Obj.homeState : ObjRow :=
  { index := 0x3011, kind := .upto 4096, ty := .enum, right := .ro, level := 0 }

/-- 0x3012 HOME_OLD_PIPE. -/
def Obj.homeOldPipe : ObjRow :=
  { index := 0x3012, kind := .upto 4096, ty := .u8, right := .ro, level := 0, dflt := fun _ e => e % 8 }

/-- 0x3013 MIGRATE_RATE. -/
def Obj.migrateRate : ObjRow :=
  { index := 0x3013, kind := .pipe, ty := .u32, right := .rw, level := 2, dflt := fun _ _ => 50000000 }

/-- 0x3014.01 MIGRATE_POSITION. -/
def Obj.migratePosition : ObjRow :=
  { index := 0x3014, sub := 0x01, kind := .pipe, ty := .u32, right := .ro, level := 0 }

/-- 0x3014.02 CONSULTS. -/
def Obj.consults : ObjRow :=
  { index := 0x3014, sub := 0x02, kind := .pipe, ty := .u64, right := .ro, level := 0 }

/-- 0x3014.03 RECORDS_MOVED. -/
def Obj.recordsMoved : ObjRow :=
  { index := 0x3014, sub := 0x03, kind := .pipe, ty := .u64, right := .ro, level := 0 }

/-- 0x3014.04 FRAMES_HANDED_ON. -/
def Obj.framesHandedOn : ObjRow :=
  { index := 0x3014, sub := 0x04, kind := .pipe, ty := .u64, right := .ro, level := 0 }

/-- 0x3A10 FLOW_LIMIT. -/
def Obj.flowLimit : ObjRow :=
  { index := 0x3A10, ty := .u32, right := .rwg, level := 2, group := 0x19, dflt := fun _ _ => 134217728,
    ok := fun v => v ≤ 134217728 }

/-- 0x3A11 OVERFLOW_ACTION. -/
def Obj.overflowAction : ObjRow :=
  { index := 0x3A11, ty := .enum, right := .rwg, level := 2, group := 0x19,
    ok := fun v => v == 0 || v == 1 || v == 2 }

/-- 0x3A12 EVICT_MIN_IDLE_MS. -/
def Obj.evictMinIdleMs : ObjRow :=
  { index := 0x3A12, ty := .u32, right := .rwg, level := 2, group := 0x19 }

/-- 0x3A20 FLOW_SWEEP_PERIOD_S. -/
def Obj.flowSweepPeriodS : ObjRow :=
  { index := 0x3A20, ty := .u32, right := .rw, level := 1, dflt := fun _ _ => 60 }

/-- 0x3A21 SWEEP_POSITION. -/
def Obj.sweepPosition : ObjRow :=
  { index := 0x3A21, kind := .pipe, ty := .u32, right := .ro, level := 0 }

/-- 0x3A30.01 FLOWS. -/
def Obj.flows : ObjRow :=
  { index := 0x3A30, sub := 0x01, kind := .pipe, ty := .u32, right := .ro, level := 0 }

/-- 0x3A30.02 ANCHORED. -/
def Obj.anchored : ObjRow :=
  { index := 0x3A30, sub := 0x02, kind := .pipe, ty := .u32, right := .ro, level := 0 }

/-- 0x3A31 FLOWS_TOTAL. -/
def Obj.flowsTotal : ObjRow :=
  { index := 0x3A31, ty := .u32, right := .ro, level := 0 }

/-- 0x3A32.01 CREATED. -/
def Obj.created : ObjRow :=
  { index := 0x3A32, sub := 0x01, kind := .pipe, ty := .u64, right := .ro, level := 0 }

/-- 0x3A32.02 RECLAIMED_SWEEP. -/
def Obj.reclaimedSweep : ObjRow :=
  { index := 0x3A32, sub := 0x02, kind := .pipe, ty := .u64, right := .ro, level := 0 }

/-- 0x3A32.03 RECLAIMED_ACCESS. -/
def Obj.reclaimedAccess : ObjRow :=
  { index := 0x3A32, sub := 0x03, kind := .pipe, ty := .u64, right := .ro, level := 0 }

/-- 0x3A32.04 RECLAIMED_SOFTWARE. -/
def Obj.reclaimedSoftware : ObjRow :=
  { index := 0x3A32, sub := 0x04, kind := .pipe, ty := .u64, right := .ro, level := 0 }

/-- 0x3A32.05 EVICTED. -/
def Obj.evicted : ObjRow :=
  { index := 0x3A32, sub := 0x05, kind := .pipe, ty := .u64, right := .ro, level := 0 }

/-- 0x3A32.06 OVERFLOW_LIMIT. -/
def Obj.overflowLimit : ObjRow :=
  { index := 0x3A32, sub := 0x06, kind := .pipe, ty := .u64, right := .ro, level := 0 }

/-- 0x3A32.07 OVERFLOW_PIPE_FULL. -/
def Obj.overflowPipeFull : ObjRow :=
  { index := 0x3A32, sub := 0x07, kind := .pipe, ty := .u64, right := .ro, level := 0 }

/-- 0x3A32.08 OVERFLOW_NO_BERTH. -/
def Obj.overflowNoBerth : ObjRow :=
  { index := 0x3A32, sub := 0x08, kind := .pipe, ty := .u64, right := .ro, level := 0 }

/-- 0x3A32.09 CACHE_HITS. -/
def Obj.cacheHits : ObjRow :=
  { index := 0x3A32, sub := 0x09, kind := .pipe, ty := .u64, right := .ro, level := 0 }

/-- 0x3A32.0A ANCHORAGE_HITS. -/
def Obj.anchorageHits : ObjRow :=
  { index := 0x3A32, sub := 0x0A, kind := .pipe, ty := .u64, right := .ro, level := 0 }

/-- 0x3A32.0B PIER_HITS. -/
def Obj.pierHits : ObjRow :=
  { index := 0x3A32, sub := 0x0B, kind := .pipe, ty := .u64, right := .ro, level := 0 }

/-- 0x3A32.0C LOOKUP_MISSES. -/
def Obj.lookupMisses : ObjRow :=
  { index := 0x3A32, sub := 0x0C, kind := .pipe, ty := .u64, right := .ro, level := 0 }

/-- 0x3A32.0D WRITE_BACKS. -/
def Obj.writeBacks : ObjRow :=
  { index := 0x3A32, sub := 0x0D, kind := .pipe, ty := .u64, right := .ro, level := 0 }

/-- 0x3A32.0E EXTRA_FORE_READS. -/
def Obj.extraForeReads : ObjRow :=
  { index := 0x3A32, sub := 0x0E, kind := .pipe, ty := .u64, right := .ro, level := 0 }

/-- 0x3A32.0F PENDING_WAITS. -/
def Obj.pendingWaits : ObjRow :=
  { index := 0x3A32, sub := 0x0F, kind := .pipe, ty := .u64, right := .ro, level := 0 }

/-- 0x3A32.10 GROUP_FLIPS. -/
def Obj.groupFlips : ObjRow :=
  { index := 0x3A32, sub := 0x10, kind := .pipe, ty := .u64, right := .ro, level := 0 }

/-- 0x3A32.11 ANCHORAGE_DRAINED. -/
def Obj.anchorageDrained : ObjRow :=
  { index := 0x3A32, sub := 0x11, kind := .pipe, ty := .u64, right := .ro, level := 0 }

/-- 0x3A32.12 SET_FULL_WAITS. -/
def Obj.setFullWaits : ObjRow :=
  { index := 0x3A32, sub := 0x12, kind := .pipe, ty := .u64, right := .ro, level := 0 }

/-- The numbered objects that R250 gives. -/
def flowObjects : List ObjRow :=
  [Obj.homePipe, Obj.homeState, Obj.homeOldPipe, Obj.migrateRate, Obj.migratePosition, Obj.consults,
   Obj.recordsMoved, Obj.framesHandedOn, Obj.flowLimit, Obj.overflowAction, Obj.evictMinIdleMs,
   Obj.flowSweepPeriodS, Obj.sweepPosition, Obj.flows, Obj.anchored, Obj.flowsTotal, Obj.created,
   Obj.reclaimedSweep, Obj.reclaimedAccess, Obj.reclaimedSoftware, Obj.evicted, Obj.overflowLimit,
   Obj.overflowPipeFull, Obj.overflowNoBerth, Obj.cacheHits, Obj.anchorageHits, Obj.pierHits, Obj.lookupMisses,
   Obj.writeBacks, Obj.extraForeReads, Obj.pendingWaits, Obj.groupFlips, Obj.anchorageDrained, Obj.setFullWaits]

/-! #### Objects of 08_flow_actions.md: R292 -/

/-- 0x4000 POLICY_DEFAULT. -/
def Obj.policyDefault : ObjRow :=
  { index := 0x4000, ty := .enum, right := .rwg, level := 2, group := 0x22,
    ok := fun v => v == 0 || v == 1 || v == 2 || v == 3 }

/-- 0x4001 POLICY_RULES. -/
def Obj.policyRules : ObjRow :=
  { index := 0x4001, ty := .domain 524288, right := .rwg, level := 2, group := 0x22 }

/-- 0x4002 PORT_ZONE. -/
def Obj.portZone : ObjRow :=
  { index := 0x4002, kind := .port, ty := .u16, right := .rwg, level := 2, group := 0x22,
    ok := fun v => v ≤ 4094 }

/-- 0x4003 TCP_VIOLATION_ACTION. -/
def Obj.tcpViolationAction : ObjRow :=
  { index := 0x4003, ty := .enum, right := .rwg, level := 2, group := 0x22, ok := fun v => v == 0 || v == 1 }

/-- 0x4004 NEXT_HOPS. -/
def Obj.nextHops : ObjRow :=
  { index := 0x4004, ty := .domain 65536, right := .rwg, level := 2, group := 0x22 }

/-- 0x4010.01 IDLE_TIMEOUT_MS. -/
def Obj.idleTimeoutMs : ObjRow :=
  { index := 0x4010, sub := 0x01, subs := 10, ty := .u32, right := .rw, level := 1,
    dflt := fun s _ => [30000, 7440000, 120000, 120000, 10000, 30000, 300000, 60000, 10000, 600000].getD (s - 1) 0,
    ok := fun v => 1000 ≤ v && v ≤ 2147483647 }

/-- 0x4100.01 POOL_KIND. -/
def Obj.poolKind : ObjRow :=
  { index := 0x4100, sub := 0x01, kind := .upto 4096, ty := .enum, right := .rwg, level := 2, group := 0x20,
    ok := fun v => v == 0 || v == 1 || v == 2 }

/-- 0x4100.02 PUBLIC_ADDR. -/
def Obj.publicAddr : ObjRow :=
  { index := 0x4100, sub := 0x02, kind := .upto 4096, ty := .u32, right := .rwg, level := 2, group := 0x20 }

/-- 0x4100.03 OUTSIDE_VRF. -/
def Obj.outsideVrf : ObjRow :=
  { index := 0x4100, sub := 0x03, kind := .upto 4096, ty := .u16, right := .rwg, level := 2, group := 0x20 }

/-- 0x4100.04 INSIDE_VRF. -/
def Obj.insideVrf : ObjRow :=
  { index := 0x4100, sub := 0x04, kind := .upto 4096, ty := .u16, right := .rwg, level := 2, group := 0x20 }

/-- 0x4100.05 MAPPING. -/
def Obj.mapping : ObjRow :=
  { index := 0x4100, sub := 0x05, kind := .upto 4096, ty := .enum, right := .rwg, level := 2, group := 0x20,
    ok := fun v => v == 0 || v == 1 }

/-- 0x4100.06 FILTERING. -/
def Obj.filtering : ObjRow :=
  { index := 0x4100, sub := 0x06, kind := .upto 4096, ty := .enum, right := .rwg, level := 2, group := 0x20,
    ok := fun v => v == 0 || v == 1 }

/-- 0x4100.07 HAIRPIN. -/
def Obj.hairpin : ObjRow :=
  { index := 0x4100, sub := 0x07, kind := .upto 4096, ty := .bool, right := .rwg, level := 2, group := 0x20 }

/-- 0x4100.08 SPILL. -/
def Obj.spill : ObjRow :=
  { index := 0x4100, sub := 0x08, kind := .upto 4096, ty := .bool, right := .rwg, level := 2, group := 0x20 }

/-- 0x4100.09 NPT_INSIDE_PREFIX. -/
def Obj.nptInsidePrefix : ObjRow :=
  { index := 0x4100, sub := 0x09, kind := .upto 4096, ty := .octets 16, right := .rwg, level := 2,
    group := 0x20 }

/-- 0x4100.0A NPT_OUTSIDE_PREFIX. -/
def Obj.nptOutsidePrefix : ObjRow :=
  { index := 0x4100, sub := 0x0A, kind := .upto 4096, ty := .octets 16, right := .rwg, level := 2,
    group := 0x20 }

/-- 0x4100.0B NPT_PREFIX_LEN. -/
def Obj.nptPrefixLen : ObjRow :=
  { index := 0x4100, sub := 0x0B, kind := .upto 4096, ty := .u8, right := .rwg, level := 2, group := 0x20,
    dflt := fun _ _ => 48, ok := fun v => 1 ≤ v && v ≤ 64 }

/-- 0x4101.01 BINDINGS. -/
def Obj.bindings : ObjRow :=
  { index := 0x4101, sub := 0x01, kind := .upto 4096, ty := .u32, right := .ro, level := 0 }

/-- 0x4101.02 BIND_FAILS. -/
def Obj.bindFails : ObjRow :=
  { index := 0x4101, sub := 0x02, kind := .upto 4096, ty := .u64, right := .ro, level := 0 }

/-- 0x4200.01 SERVICE_ENABLE. -/
def Obj.serviceEnable : ObjRow :=
  { index := 0x4200, sub := 0x01, kind := .upto 4096, ty := .bool, right := .rwg, level := 2, group := 0x21 }

/-- 0x4200.02 VIP. -/
def Obj.vip : ObjRow :=
  { index := 0x4200, sub := 0x02, kind := .upto 4096, ty := .octets 16, right := .rwg, level := 2,
    group := 0x21 }

/-- 0x4200.03 VIP_FAMILY. -/
def Obj.vipFamily : ObjRow :=
  { index := 0x4200, sub := 0x03, kind := .upto 4096, ty := .enum, right := .rwg, level := 2, group := 0x21,
    dflt := fun _ _ => 4, ok := fun v => v == 4 || v == 6 }

/-- 0x4200.04 SERVICE_VRF. -/
def Obj.serviceVrf : ObjRow :=
  { index := 0x4200, sub := 0x04, kind := .upto 4096, ty := .u16, right := .rwg, level := 2, group := 0x21 }

/-- 0x4200.05 SERVICE_PROTO. -/
def Obj.serviceProto : ObjRow :=
  { index := 0x4200, sub := 0x05, kind := .upto 4096, ty := .u8, right := .rwg, level := 2, group := 0x21,
    dflt := fun _ _ => 6 }

/-- 0x4200.06 VPORT. -/
def Obj.vport : ObjRow :=
  { index := 0x4200, sub := 0x06, kind := .upto 4096, ty := .u16, right := .rwg, level := 2, group := 0x21 }

/-- 0x4200.07 SLOT_LOG2. -/
def Obj.slotLog2 : ObjRow :=
  { index := 0x4200, sub := 0x07, kind := .upto 4096, ty := .u8, right := .rwg, level := 2, group := 0x21,
    dflt := fun _ _ => 16, ok := fun v => 8 ≤ v && v ≤ 16 }

/-- 0x4200.08 AFFINITY. -/
def Obj.affinity : ObjRow :=
  { index := 0x4200, sub := 0x08, kind := .upto 4096, ty := .enum, right := .rwg, level := 2, group := 0x21,
    ok := fun v => v == 0 || v == 1 }

/-- 0x4200.09 SLOT_SEED. -/
def Obj.slotSeed : ObjRow :=
  { index := 0x4200, sub := 0x09, kind := .upto 4096, ty := .u32, right := .rwg, level := 2, group := 0x21 }

/-- 0x4200.0A SNAT_POOL_FIRST. -/
def Obj.snatPoolFirst : ObjRow :=
  { index := 0x4200, sub := 0x0A, kind := .upto 4096, ty := .u16, right := .rwg, level := 2, group := 0x21 }

/-- 0x4200.0B SNAT_POOL_COUNT. -/
def Obj.snatPoolCount : ObjRow :=
  { index := 0x4200, sub := 0x0B, kind := .upto 4096, ty := .u8, right := .rwg, level := 2, group := 0x21 }

/-- 0x4200.0C MEMBERS. -/
def Obj.members : ObjRow :=
  { index := 0x4200, sub := 0x0C, kind := .upto 4096, ty := .domain 32768, right := .rwg, level := 2,
    group := 0x21 }

/-- 0x4200.0D NO_MEMBER_ACTION. -/
def Obj.noMemberAction : ObjRow :=
  { index := 0x4200, sub := 0x0D, kind := .upto 4096, ty := .enum, right := .rwg, level := 2, group := 0x21,
    ok := fun v => v == 0 || v == 1 }

/-- 0x4201.01 NEW_FLOWS. -/
def Obj.newFlows : ObjRow :=
  { index := 0x4201, sub := 0x01, kind := .upto 4096, ty := .u64, right := .ro, level := 0 }

/-- 0x4201.02 NO_MEMBER. -/
def Obj.noMember : ObjRow :=
  { index := 0x4201, sub := 0x02, kind := .upto 4096, ty := .u64, right := .ro, level := 0 }

/-- 0x4300.01 TOLL_MODE. -/
def Obj.tollMode : ObjRow :=
  { index := 0x4300, sub := 0x01, kind := .upto 4096, ty := .enum, right := .rwg, level := 2, group := 0x23,
    ok := fun v => v == 0 || v == 1 || v == 2 }

/-- 0x4300.02 CIR_BPS. -/
def Obj.cirBps : ObjRow :=
  { index := 0x4300, sub := 0x02, kind := .upto 4096, ty := .u64, right := .rwg, level := 2, group := 0x23 }

/-- 0x4300.04 PIR_BPS. -/
def Obj.pirBps : ObjRow :=
  { index := 0x4300, sub := 0x04, kind := .upto 4096, ty := .u64, right := .rwg, level := 2, group := 0x23 }

/-- 0x4300.03 CBS_BYTES. -/
def Obj.cbsBytes : ObjRow :=
  { index := 0x4300, sub := 0x03, kind := .upto 4096, ty := .u32, right := .rwg, level := 2, group := 0x23 }

/-- 0x4300.05 PBS_BYTES. -/
def Obj.pbsBytes : ObjRow :=
  { index := 0x4300, sub := 0x05, kind := .upto 4096, ty := .u32, right := .rwg, level := 2, group := 0x23 }

/-- 0x4300.06 YELLOW_ACTION. -/
def Obj.yellowAction : ObjRow :=
  { index := 0x4300, sub := 0x06, kind := .upto 4096, ty := .enum, right := .rwg, level := 2, group := 0x23,
    ok := fun v => v == 0 || v == 1 || v == 2 }

/-- 0x4300.07 YELLOW_CLASS. -/
def Obj.yellowClass : ObjRow :=
  { index := 0x4300, sub := 0x07, kind := .upto 4096, ty := .u8, right := .rwg, level := 2, group := 0x23,
    ok := fun v => v ≤ 15 }

/-- 0x4300.08 RED_ACTION. -/
def Obj.redAction : ObjRow :=
  { index := 0x4300, sub := 0x08, kind := .upto 4096, ty := .enum, right := .rwg, level := 2, group := 0x23,
    ok := fun v => v == 0 || v == 1 }

/-- 0x4300.09 TICK_SHIFT. -/
def Obj.tickShift : ObjRow :=
  { index := 0x4300, sub := 0x09, kind := .upto 4096, ty := .u8, right := .ro, level := 0,
    dflt := fun _ _ => 10 }

/-- 0x4400.01 POLICY_ALLOWED. -/
def Obj.policyAllowed : ObjRow :=
  { index := 0x4400, sub := 0x01, kind := .pipe, ty := .u64, right := .ro, level := 0 }

/-- 0x4400.02 POLICY_DENIED. -/
def Obj.policyDenied : ObjRow :=
  { index := 0x4400, sub := 0x02, kind := .pipe, ty := .u64, right := .ro, level := 0 }

/-- 0x4400.03 DENY_RECORD_DROPS. -/
def Obj.denyRecordDrops : ObjRow :=
  { index := 0x4400, sub := 0x03, kind := .pipe, ty := .u64, right := .ro, level := 0 }

/-- 0x4400.04 TCP_NO_SYN. -/
def Obj.tcpNoSyn : ObjRow :=
  { index := 0x4400, sub := 0x04, kind := .pipe, ty := .u64, right := .ro, level := 0 }

/-- 0x4400.05 TCP_STATE_VIOLATIONS. -/
def Obj.tcpStateViolations : ObjRow :=
  { index := 0x4400, sub := 0x05, kind := .pipe, ty := .u64, right := .ro, level := 0 }

/-- 0x4400.06 TCP_WINDOW_VIOLATIONS. -/
def Obj.tcpWindowViolations : ObjRow :=
  { index := 0x4400, sub := 0x06, kind := .pipe, ty := .u64, right := .ro, level := 0 }

/-- 0x4400.07 TOLL_GREEN. -/
def Obj.tollGreen : ObjRow :=
  { index := 0x4400, sub := 0x07, kind := .pipe, ty := .u64, right := .ro, level := 0 }

/-- 0x4400.08 TOLL_YELLOW. -/
def Obj.tollYellow : ObjRow :=
  { index := 0x4400, sub := 0x08, kind := .pipe, ty := .u64, right := .ro, level := 0 }

/-- 0x4400.09 TOLL_RED. -/
def Obj.tollRed : ObjRow :=
  { index := 0x4400, sub := 0x09, kind := .pipe, ty := .u64, right := .ro, level := 0 }

/-- 0x4400.0A NAT_NO_BINDING. -/
def Obj.natNoBinding : ObjRow :=
  { index := 0x4400, sub := 0x0A, kind := .pipe, ty := .u64, right := .ro, level := 0 }

/-- 0x4400.0B NAT_FILTERED. -/
def Obj.natFiltered : ObjRow :=
  { index := 0x4400, sub := 0x0B, kind := .pipe, ty := .u64, right := .ro, level := 0 }

/-- 0x4400.0C BCACHE_HITS. -/
def Obj.bcacheHits : ObjRow :=
  { index := 0x4400, sub := 0x0C, kind := .pipe, ty := .u64, right := .ro, level := 0 }

/-- 0x4400.0D BCACHE_MISSES. -/
def Obj.bcacheMisses : ObjRow :=
  { index := 0x4400, sub := 0x0D, kind := .pipe, ty := .u64, right := .ro, level := 0 }

/-- 0x4400.0E XLATE_NO_ROUTE. -/
def Obj.xlateNoRouteCount : ObjRow :=
  { index := 0x4400, sub := 0x0E, kind := .pipe, ty := .u64, right := .ro, level := 0 }

/-- The numbered objects that R292 gives. -/
def actionsObjects : List ObjRow :=
  [Obj.policyDefault, Obj.policyRules, Obj.portZone, Obj.tcpViolationAction, Obj.nextHops, Obj.idleTimeoutMs,
   Obj.poolKind, Obj.publicAddr, Obj.outsideVrf, Obj.insideVrf, Obj.mapping, Obj.filtering, Obj.hairpin,
   Obj.spill, Obj.nptInsidePrefix, Obj.nptOutsidePrefix, Obj.nptPrefixLen, Obj.bindings, Obj.bindFails,
   Obj.serviceEnable, Obj.vip, Obj.vipFamily, Obj.serviceVrf, Obj.serviceProto, Obj.vport, Obj.slotLog2,
   Obj.affinity, Obj.slotSeed, Obj.snatPoolFirst, Obj.snatPoolCount, Obj.members, Obj.noMemberAction,
   Obj.newFlows, Obj.noMember, Obj.tollMode, Obj.cirBps, Obj.pirBps, Obj.cbsBytes, Obj.pbsBytes,
   Obj.yellowAction, Obj.yellowClass, Obj.redAction, Obj.tickShift, Obj.policyAllowed, Obj.policyDenied,
   Obj.denyRecordDrops, Obj.tcpNoSyn, Obj.tcpStateViolations, Obj.tcpWindowViolations, Obj.tollGreen,
   Obj.tollYellow, Obj.tollRed, Obj.natNoBinding, Obj.natFiltered, Obj.bcacheHits, Obj.bcacheMisses,
   Obj.xlateNoRouteCount]

/-! #### Objects of 09_tally_and_telemetry.md: R315 -/

/-- 0x4800 TALLY_RNG_SEED. -/
def Obj.tallyRngSeed : ObjRow :=
  { index := 0x4800, kind := .pipe, ty := .u64, right := .wo, level := 2, ok := fun v => v != 0 }

/-- 0x4801 TALLY_SATURATIONS. -/
def Obj.tallySaturations : ObjRow :=
  { index := 0x4801, kind := .pipe, ty := .u64, right := .ro, level := 0 }

/-- 0x4810 EXPORT_ENABLE. -/
def Obj.exportEnable : ObjRow :=
  { index := 0x4810, ty := .bool, right := .rwg, level := 2, group := 0x28 }

/-- 0x4811 EXPORT_MESSAGE_BYTES. -/
def Obj.exportMessageBytes : ObjRow :=
  { index := 0x4811, ty := .u16, right := .rwg, level := 2, group := 0x28, dflt := fun _ _ => 1400,
    ok := fun v => 256 ≤ v && v ≤ 16000 }

/-- 0x4812 EXPORT_FLUSH_NS. -/
def Obj.exportFlushNs : ObjRow :=
  { index := 0x4812, ty := .u32, right := .rwg, level := 2, group := 0x28, dflt := fun _ _ => 1000000 }

/-- 0x4813 EXPORT_ACTIVE_PASSES. -/
def Obj.exportActivePasses : ObjRow :=
  { index := 0x4813, ty := .u8, right := .rwg, level := 2, group := 0x28, dflt := fun _ _ => 1 }

/-- 0x4814 EXPORT_TEMPLATE_PERIOD_S. -/
def Obj.exportTemplatePeriodS : ObjRow :=
  { index := 0x4814, ty := .u32, right := .rwg, level := 2, group := 0x28, dflt := fun _ _ => 600 }

/-- 0x4815 EXPORT_UTC_OFFSET_S. -/
def Obj.exportUtcOffsetS : ObjRow :=
  { index := 0x4815, ty := .u16, right := .rwg, level := 2, group := 0x28, dflt := fun _ _ => 37 }

/-- 0x4820.01 EXPORT_RECORDS. -/
def Obj.exportRecords : ObjRow :=
  { index := 0x4820, sub := 0x01, kind := .pipe, ty := .u64, right := .ro, level := 0 }

/-- 0x4820.02 EXPORT_MESSAGES. -/
def Obj.exportMessages : ObjRow :=
  { index := 0x4820, sub := 0x02, kind := .pipe, ty := .u64, right := .ro, level := 0 }

/-- 0x4820.03 EXPORT_STAGED_BYTES. -/
def Obj.exportStagedBytes : ObjRow :=
  { index := 0x4820, sub := 0x03, kind := .pipe, ty := .u32, right := .ro, level := 0 }

/-- 0x4820.04 EXPORT_LOST. -/
def Obj.exportLost : ObjRow :=
  { index := 0x4820, sub := 0x04, kind := .pipe, ty := .u64, right := .ro, level := 0 }

/-- 0x4830 IOAM_NODE_ID. -/
def Obj.ioamNodeId : ObjRow :=
  { index := 0x4830, ty := .u64, right := .rw, level := 2, resv := fun v => v / 2 ^ 56 == 0 }

/-- 0x4831 IOAM_NAMESPACE. -/
def Obj.ioamNamespace : ObjRow :=
  { index := 0x4831, ty := .u16, right := .rw, level := 2 }

/-- 0x4832 IOAM_HBH_OPTION_TYPE. -/
def Obj.ioamHbhOptionType : ObjRow :=
  { index := 0x4832, ty := .u8, right := .rw, level := 2, dflt := fun _ _ => 0x31 }

/-- 0x4840.01 IOAM_FILLED. -/
def Obj.ioamFilled : ObjRow :=
  { index := 0x4840, sub := 0x01, kind := .port, ty := .u64, right := .ro, level := 0 }

/-- 0x4840.02 IOAM_OVERFLOW. -/
def Obj.ioamOverflow : ObjRow :=
  { index := 0x4840, sub := 0x02, kind := .port, ty := .u64, right := .ro, level := 0 }

/-- 0x4840.03 IOAM_NOT_FOUND. -/
def Obj.ioamNotFound : ObjRow :=
  { index := 0x4840, sub := 0x03, kind := .port, ty := .u64, right := .ro, level := 0 }

/-- 0x4840.04 IOAM_UNSUPPORTED. -/
def Obj.ioamUnsupported : ObjRow :=
  { index := 0x4840, sub := 0x04, kind := .port, ty := .u64, right := .ro, level := 0 }

/-- The numbered objects that R315 gives. -/
def exportObjects : List ObjRow :=
  [Obj.tallyRngSeed, Obj.tallySaturations, Obj.exportEnable, Obj.exportMessageBytes, Obj.exportFlushNs,
   Obj.exportActivePasses, Obj.exportTemplatePeriodS, Obj.exportUtcOffsetS, Obj.exportRecords,
   Obj.exportMessages, Obj.exportStagedBytes, Obj.exportLost, Obj.ioamNodeId, Obj.ioamNamespace,
   Obj.ioamHbhOptionType, Obj.ioamFilled, Obj.ioamOverflow, Obj.ioamNotFound, Obj.ioamUnsupported]

/-! #### Objects of 10_crossings.md: R349 -/

/-- 0x5000 SLOT_ENTRIES. -/
def Obj.slotEntries : ObjRow :=
  { index := 0x5000, kind := .upto 12, ty := .domain 1024, right := .rwg, level := 2, group := 0x30 }

/-- 0x5001 SWITCH_SLOT. -/
def Obj.switchSlot : ObjRow :=
  { index := 0x5001, kind := .upto 12, ty := .u64, right := .ro, level := 0 }

/-- 0x5002.01 SLOTS_OWNED_USED. -/
def Obj.slotsOwnedUsed : ObjRow :=
  { index := 0x5002, sub := 0x01, kind := .upto 12, ty := .u64, right := .ro, level := 0 }

/-- 0x5002.02 SLOTS_LENT. -/
def Obj.slotsLent : ObjRow :=
  { index := 0x5002, sub := 0x02, kind := .upto 12, ty := .u64, right := .ro, level := 0 }

/-- 0x5002.03 SLOTS_EMPTY. -/
def Obj.slotsEmpty : ObjRow :=
  { index := 0x5002, sub := 0x03, kind := .upto 12, ty := .u64, right := .ro, level := 0 }

/-- 0x5002.04 CTRL_MESSAGES. -/
def Obj.ctrlMessages : ObjRow :=
  { index := 0x5002, sub := 0x04, kind := .upto 12, ty := .u64, right := .ro, level := 0 }

/-- 0x5002.05 CELLS_WAITING. -/
def Obj.cellsWaiting : ObjRow :=
  { index := 0x5002, sub := 0x05, kind := .upto 12, ty := .u32, right := .ro, level := 0 }

/-- 0x5003 CELLS_WAITING_PEAK. -/
def Obj.cellsWaitingPeak : ObjRow :=
  { index := 0x5003, kind := .upto 12, ty := .u32, right := .w1c, level := 1 }

/-- 0x5004 LINK_RETRIES. -/
def Obj.linkRetries : ObjRow :=
  { index := 0x5004, kind := .upto 12, ty := .u64, right := .ro, level := 0 }

/-- 0x5100 RESEQ_TIMEOUT_NS. -/
def Obj.reseqTimeoutNs : ObjRow :=
  { index := 0x5100, ty := .u32, right := .rw, level := 2, dflt := fun _ _ => 500000,
    ok := fun v => 10000 ≤ v && v ≤ 100000000 }

/-- 0x5101 RESEQ_WINDOW. -/
def Obj.reseqWindow : ObjRow :=
  { index := 0x5101, ty := .u16, right := .rw, level := 2, dflt := fun _ _ => 2048,
    ok := fun v => 64 ≤ v && v ≤ 16384 }

/-- 0x5102 LANDING_HOLD_CELLS. -/
def Obj.landingHoldCells : ObjRow :=
  { index := 0x5102, kind := .upto 4, ty := .u32, right := .rw, level := 2, dflt := fun _ _ => 65536 }

/-- 0x5103 LANDING_HOLD_IN_USE. -/
def Obj.landingHoldInUse : ObjRow :=
  { index := 0x5103, kind := .upto 4, ty := .u32, right := .ro, level := 0 }

/-- 0x5110.01 RESEQ_HELD. -/
def Obj.reseqHeld : ObjRow :=
  { index := 0x5110, sub := 0x01, kind := .port, ty := .u64, right := .ro, level := 0 }

/-- 0x5110.02 RESEQ_SKIPS. -/
def Obj.reseqSkips : ObjRow :=
  { index := 0x5110, sub := 0x02, kind := .port, ty := .u64, right := .ro, level := 0 }

/-- 0x5110.03 RESEQ_LATE. -/
def Obj.reseqLate : ObjRow :=
  { index := 0x5110, sub := 0x03, kind := .port, ty := .u64, right := .ro, level := 0 }

/-- 0x5110.04 RESEQ_HOLD_DROPS. -/
def Obj.reseqHoldDrops : ObjRow :=
  { index := 0x5110, sub := 0x04, kind := .port, ty := .u64, right := .ro, level := 0 }

/-- 0x5110.05 HOLES_RECEIVED. -/
def Obj.holesReceived : ObjRow :=
  { index := 0x5110, sub := 0x05, kind := .port, ty := .u64, right := .ro, level := 0 }

/-- 0x5110.06 HOLES_LATE. -/
def Obj.holesLate : ObjRow :=
  { index := 0x5110, sub := 0x06, kind := .port, ty := .u64, right := .ro, level := 0 }

/-- 0x5111 RESEQ_WINDOW_WAITS. -/
def Obj.reseqWindowWaits : ObjRow :=
  { index := 0x5111, kind := .pipe, ty := .u64, right := .ro, level := 0 }

/-- 0x5200.01 MCAST_MODE. -/
def Obj.mcastMode : ObjRow :=
  { index := 0x5200, sub := 0x01, kind := .upto 65536, ty := .enum, right := .rwg, level := 2, group := 0x31,
    ok := fun v => v == 0 || v == 1 || v == 2 }

/-- 0x5200.02 MCAST_PORTS. -/
def Obj.mcastPorts : ObjRow :=
  { index := 0x5200, sub := 0x02, kind := .upto 65536, ty := .bitset 137, right := .rwg, level := 2,
    group := 0x31 }

/-- 0x5200.03 MCAST_PRUNE_SOURCE. -/
def Obj.mcastPruneSource : ObjRow :=
  { index := 0x5200, sub := 0x03, kind := .upto 65536, ty := .bool, right := .rwg, level := 2, group := 0x31,
    dflt := fun _ _ => 1 }

/-- 0x5201 MCAST_READY_CELLS. -/
def Obj.mcastReadyCells : ObjRow :=
  { index := 0x5201, kind := .port, ty := .u32, right := .rw, level := 2, dflt := fun _ _ => 256 }

/-- 0x5202 MCAST_RESIDUE_MAX_NS. -/
def Obj.mcastResidueMaxNs : ObjRow :=
  { index := 0x5202, ty := .u32, right := .rw, level := 2, dflt := fun _ _ => 1000000 }

/-- 0x5203 RESIDUE_IN_USE. -/
def Obj.residueInUse : ObjRow :=
  { index := 0x5203, kind := .upto 4, ty := .u32, right := .ro, level := 0 }

/-- 0x5210.01 MCAST_FRAMES. -/
def Obj.mcastFrames : ObjRow :=
  { index := 0x5210, sub := 0x01, kind := .upto 65536, ty := .u64, right := .ro, level := 0 }

/-- 0x5210.02 MCAST_COPIES. -/
def Obj.mcastCopies : ObjRow :=
  { index := 0x5210, sub := 0x02, kind := .upto 65536, ty := .u64, right := .ro, level := 0 }

/-- 0x5210.03 MCAST_ADMIT_DROPS. -/
def Obj.mcastAdmitDrops : ObjRow :=
  { index := 0x5210, sub := 0x03, kind := .upto 65536, ty := .u64, right := .ro, level := 0 }

/-- 0x5210.04 MCAST_RESIDUE_DROPS. -/
def Obj.mcastResidueDrops : ObjRow :=
  { index := 0x5210, sub := 0x04, kind := .upto 65536, ty := .u64, right := .ro, level := 0 }

/-- 0x5211 MCAST_DISABLED_DROPS. -/
def Obj.mcastDisabledDrops : ObjRow :=
  { index := 0x5211, kind := .pipe, ty := .u64, right := .ro, level := 0 }

/-- The numbered objects that R349 gives. -/
def crossingsObjects : List ObjRow :=
  [Obj.slotEntries, Obj.switchSlot, Obj.slotsOwnedUsed, Obj.slotsLent, Obj.slotsEmpty, Obj.ctrlMessages,
   Obj.cellsWaiting, Obj.cellsWaitingPeak, Obj.linkRetries, Obj.reseqTimeoutNs, Obj.reseqWindow,
   Obj.landingHoldCells, Obj.landingHoldInUse, Obj.reseqHeld, Obj.reseqSkips, Obj.reseqLate,
   Obj.reseqHoldDrops, Obj.holesReceived, Obj.holesLate, Obj.reseqWindowWaits, Obj.mcastMode, Obj.mcastPorts,
   Obj.mcastPruneSource, Obj.mcastReadyCells, Obj.mcastResidueMaxNs, Obj.residueInUse, Obj.mcastFrames,
   Obj.mcastCopies, Obj.mcastAdmitDrops, Obj.mcastResidueDrops, Obj.mcastDisabledDrops]

/-! #### Objects of 11_traffic_manager.md: R376 -/

/-- 0x5800 LENGTH_OVERHEAD. -/
def Obj.lengthOverhead : ObjRow :=
  { index := 0x5800, kind := .portNoHost, ty := .s32, right := .rwg, level := 2, group := 0x38,
    dflt := fun _ _ => 20, ok := fun v => signedIn 32 (-32) (63) v }

/-- 0x5801 PORT_SHAPER_RATE_BPS. -/
def Obj.portShaperRateBps : ObjRow :=
  { index := 0x5801, kind := .portNoHost, ty := .u64, right := .rwg, level := 2, group := 0x38,
    ok := fun v => v ≤ 800000000000 }

/-- 0x5802 PORT_SHAPER_BURST_BYTES. -/
def Obj.portShaperBurstBytes : ObjRow :=
  { index := 0x5802, kind := .portNoHost, ty := .u32, right := .rwg, level := 2, group := 0x38,
    dflt := fun _ _ => 16384, ok := fun v => 64 ≤ v && v ≤ 16777216 }

/-- 0x5804.01 QUEUE_MODE. -/
def Obj.queueMode : ObjRow :=
  { index := 0x5804, sub := 0x01, kind := .queue, ty := .enum, right := .rwg, level := 2, group := 0x38,
    ok := fun v => v == 0 || v == 1 }

/-- 0x5804.02 QUEUE_LOSSLESS. -/
def Obj.queueLossless : ObjRow :=
  { index := 0x5804, sub := 0x02, kind := .queue, ty := .bool, right := .rwg, level := 2, group := 0x38 }

/-- 0x5804.03 WFQ_WEIGHT. -/
def Obj.wfqWeight : ObjRow :=
  { index := 0x5804, sub := 0x03, kind := .queue, ty := .u16, right := .rwg, level := 2, group := 0x38,
    dflt := fun _ _ => 16, ok := fun v => 1 ≤ v && v ≤ 1023 }

/-- 0x5804.04 QUEUE_SHAPER_RATE_BPS. -/
def Obj.queueShaperRateBps : ObjRow :=
  { index := 0x5804, sub := 0x04, kind := .queue, ty := .u64, right := .rwg, level := 2, group := 0x38,
    ok := fun v => v ≤ 800000000000 }

/-- 0x5804.05 QUEUE_SHAPER_BURST_BYTES. -/
def Obj.queueShaperBurstBytes : ObjRow :=
  { index := 0x5804, sub := 0x05, kind := .queue, ty := .u32, right := .rwg, level := 2, group := 0x38,
    dflt := fun _ _ => 16384, ok := fun v => 64 ≤ v && v ≤ 16777216 }

/-- 0x5804.06 QUEUE_LIMIT_CELLS. -/
def Obj.queueLimitCells : ObjRow :=
  { index := 0x5804, sub := 0x06, kind := .queue, ty := .u32, right := .rwg, level := 2, group := 0x38 }

/-- 0x5804.07 QUEUE_RESERVED_CELLS. -/
def Obj.queueReservedCells : ObjRow :=
  { index := 0x5804, sub := 0x07, kind := .queue, ty := .u32, right := .rwg, level := 2, group := 0x38,
    dflt := fun _ _ => 16 }

/-- 0x5804.08 ECN_MARK_CELLS. -/
def Obj.ecnMarkCells : ObjRow :=
  { index := 0x5804, sub := 0x08, kind := .queue, ty := .u32, right := .rwg, level := 2, group := 0x38 }

/-- 0x5804.09 QUEUE_ALPHA. -/
def Obj.queueAlpha : ObjRow :=
  { index := 0x5804, sub := 0x09, kind := .queue, ty := .u8, right := .rwg, level := 2, group := 0x38,
    dflt := fun _ _ => 3, ok := fun v => v ≤ 7 }

/-- 0x5810 INGRESS_LIMIT_CELLS. -/
def Obj.ingressLimitCells : ObjRow :=
  { index := 0x5810, kind := .frontPort, ty := .u32, right := .rw, level := 2, dflt := fun _ _ => 32768 }

/-- 0x5812.01 PFC_XOFF_CELLS. -/
def Obj.pfcXoffCells : ObjRow :=
  { index := 0x5812, sub := 0x01, subs := 8, kind := .frontPort, ty := .u32, right := .rw, level := 2,
    dflt := fun _ _ => 1024 }

/-- 0x5813.01 PFC_XON_CELLS. -/
def Obj.pfcXonCells : ObjRow :=
  { index := 0x5813, sub := 0x01, subs := 8, kind := .frontPort, ty := .u32, right := .rw, level := 2,
    dflt := fun _ _ => 768 }

/-- 0x5814.01 PFC_HEADROOM_CELLS. -/
def Obj.pfcHeadroomCells : ObjRow :=
  { index := 0x5814, sub := 0x01, subs := 8, kind := .frontPort, ty := .u32, right := .rw, level := 2,
    dflt := fun _ _ => 512 }

/-- 0x5815 UNTAGGED_PRIORITY. -/
def Obj.untaggedPriority : ObjRow :=
  { index := 0x5815, kind := .frontPort, ty := .u8, right := .rw, level := 2, ok := fun v => v ≤ 7 }

/-- 0x5820 MAX_RESIDENCE_NS. -/
def Obj.maxResidenceNs : ObjRow :=
  { index := 0x5820, kind := .portNoHost, ty := .u64, right := .rw, level := 1 }

/-- 0x5830 BUFFER_FREE_CELLS. -/
def Obj.bufferFreeCells : ObjRow :=
  { index := 0x5830, kind := .upto 4, ty := .u32, right := .ro, level := 0, dflt := fun _ _ => 262144 }

/-- 0x5831 LANDING_GUARD_CELLS. -/
def Obj.landingGuardCells : ObjRow :=
  { index := 0x5831, kind := .upto 4, ty := .u32, right := .rw, level := 2, dflt := fun _ _ => 2048,
    ok := fun v => 1024 ≤ v && v ≤ 65536 }

/-- 0x5832 PFC_QUANTA. -/
def Obj.pfcQuanta : ObjRow :=
  { index := 0x5832, ty := .u16, right := .rw, level := 2, dflt := fun _ _ => 0xffff,
    ok := fun v => 1 ≤ v && v ≤ 65535 }

/-- 0x5833 PFC_REFRESH_NS. -/
def Obj.pfcRefreshNs : ObjRow :=
  { index := 0x5833, ty := .u32, right := .rw, level := 2, dflt := fun _ _ => 100000,
    ok := fun v => 1000 ≤ v && v ≤ 10000000 }

/-- 0x5840 GATE_ENABLE. -/
def Obj.gateEnable : ObjRow :=
  { index := 0x5840, kind := .portNoHost, ty := .bool, right := .rwg, level := 2, group := 0x39 }

/-- 0x5841 ADMIN_BASE_TIME. -/
def Obj.adminBaseTime : ObjRow :=
  { index := 0x5841, kind := .portNoHost, ty := .time80, right := .rwg, level := 2, group := 0x39 }

/-- 0x5842 ADMIN_CYCLE_TIME_NS. -/
def Obj.adminCycleTimeNs : ObjRow :=
  { index := 0x5842, kind := .portNoHost, ty := .u32, right := .rwg, level := 2, group := 0x39,
    dflt := fun _ _ => 1000000 }

/-- 0x5843 ADMIN_CYCLE_EXTENSION_NS. -/
def Obj.adminCycleExtensionNs : ObjRow :=
  { index := 0x5843, kind := .portNoHost, ty := .u32, right := .rwg, level := 2, group := 0x39 }

/-- 0x5844 ADMIN_LIST. -/
def Obj.adminList : ObjRow :=
  { index := 0x5844, kind := .portNoHost, ty := .domain 2048, right := .rwg, level := 2, group := 0x39 }

/-- 0x5845 GATE_GUARD_NS. -/
def Obj.gateGuardNs : ObjRow :=
  { index := 0x5845, kind := .portNoHost, ty := .u32, right := .rwg, level := 2, group := 0x39 }

/-- 0x5848.01 OPER_BASE_TIME. -/
def Obj.operBaseTime : ObjRow :=
  { index := 0x5848, sub := 0x01, kind := .portNoHost, ty := .time80, right := .ro, level := 0 }

/-- 0x5848.02 OPER_CYCLE_TIME_NS. -/
def Obj.operCycleTimeNs : ObjRow :=
  { index := 0x5848, sub := 0x02, kind := .portNoHost, ty := .u32, right := .ro, level := 0 }

/-- 0x5848.03 OPER_LIST. -/
def Obj.operList : ObjRow :=
  { index := 0x5848, sub := 0x03, kind := .portNoHost, ty := .domain 2048, right := .ro, level := 0 }

/-- 0x5849 CONFIG_CHANGE_TIME. -/
def Obj.configChangeTime : ObjRow :=
  { index := 0x5849, kind := .portNoHost, ty := .time80, right := .ro, level := 0 }

/-- 0x584A CONFIG_PENDING. -/
def Obj.configPending : ObjRow :=
  { index := 0x584A, kind := .portNoHost, ty := .bool, right := .ro, level := 0 }

/-- 0x5850.01 ENQ_FRAMES. -/
def Obj.enqFrames : ObjRow :=
  { index := 0x5850, sub := 0x01, kind := .queue, ty := .u64, right := .ro, level := 0 }

/-- 0x5850.02 TX_FRAMES. -/
def Obj.queueTxFrames : ObjRow :=
  { index := 0x5850, sub := 0x02, kind := .queue, ty := .u64, right := .ro, level := 0 }

/-- 0x5850.03 ADMIT_DROPS. -/
def Obj.admitDrops : ObjRow :=
  { index := 0x5850, sub := 0x03, kind := .queue, ty := .u64, right := .ro, level := 0 }

/-- 0x5850.04 RESIDENCE_DROPS. -/
def Obj.residenceDrops : ObjRow :=
  { index := 0x5850, sub := 0x04, kind := .queue, ty := .u64, right := .ro, level := 0 }

/-- 0x5850.05 ECN_MARKED. -/
def Obj.ecnMarked : ObjRow :=
  { index := 0x5850, sub := 0x05, kind := .queue, ty := .u64, right := .ro, level := 0 }

/-- 0x5850.06 GATE_TOO_LONG_DROPS. -/
def Obj.gateTooLongDrops : ObjRow :=
  { index := 0x5850, sub := 0x06, kind := .queue, ty := .u64, right := .ro, level := 0 }

/-- 0x5850.07 GATE_OVERRUNS. -/
def Obj.gateOverruns : ObjRow :=
  { index := 0x5850, sub := 0x07, kind := .queue, ty := .u64, right := .ro, level := 0 }

/-- 0x5851.01 QUEUE_CELLS. -/
def Obj.queueCells : ObjRow :=
  { index := 0x5851, sub := 0x01, kind := .queue, ty := .u32, right := .ro, level := 0 }

/-- 0x5851.02 SOJOURN_LAST_NS. -/
def Obj.sojournLastNs : ObjRow :=
  { index := 0x5851, sub := 0x02, kind := .queue, ty := .u32, right := .ro, level := 0 }

/-- 0x5851.03 SOJOURN_PEAK_NS. -/
def Obj.sojournPeakNs : ObjRow :=
  { index := 0x5851, sub := 0x03, kind := .queue, ty := .u32, right := .w1c, level := 1 }

/-- 0x5852 QUEUE_SHAPER_CREDIT. -/
def Obj.queueShaperCredit : ObjRow :=
  { index := 0x5852, kind := .queue, ty := .s64, right := .ro, level := 0, dflt := fun _ _ => 16384 }

/-- 0x5853 PORT_SHAPER_CREDIT. -/
def Obj.portShaperCredit : ObjRow :=
  { index := 0x5853, kind := .portNoHost, ty := .s64, right := .ro, level := 0, dflt := fun _ _ => 16384 }

/-- 0x5854 GATE_CYCLES_ADJUSTED. -/
def Obj.gateCyclesAdjusted : ObjRow :=
  { index := 0x5854, kind := .portNoHost, ty := .u64, right := .ro, level := 0 }

/-- 0x5860.01 INGRESS_DROPS. -/
def Obj.ingressDrops : ObjRow :=
  { index := 0x5860, sub := 0x01, kind := .frontPort, ty := .u64, right := .ro, level := 0 }

/-- 0x5860.02 HEADROOM_DROPS. -/
def Obj.headroomDrops : ObjRow :=
  { index := 0x5860, sub := 0x02, kind := .frontPort, ty := .u64, right := .ro, level := 0 }

/-- 0x5861.01 INGRESS_CELLS. -/
def Obj.ingressCells : ObjRow :=
  { index := 0x5861, sub := 0x01, subs := 8, kind := .port, ty := .u32, right := .ro, level := 0 }

/-- 0x5870 BUFFER_FULL_DROPS. -/
def Obj.bufferFullDrops : ObjRow :=
  { index := 0x5870, kind := .upto 4, ty := .u64, right := .ro, level := 0 }

/-- The numbered objects that R376 gives. -/
def tmObjects : List ObjRow :=
  [Obj.lengthOverhead, Obj.portShaperRateBps, Obj.portShaperBurstBytes, Obj.queueMode, Obj.queueLossless,
   Obj.wfqWeight, Obj.queueShaperRateBps, Obj.queueShaperBurstBytes, Obj.queueLimitCells,
   Obj.queueReservedCells, Obj.ecnMarkCells, Obj.queueAlpha, Obj.ingressLimitCells, Obj.pfcXoffCells,
   Obj.pfcXonCells, Obj.pfcHeadroomCells, Obj.untaggedPriority, Obj.maxResidenceNs, Obj.bufferFreeCells,
   Obj.landingGuardCells, Obj.pfcQuanta, Obj.pfcRefreshNs, Obj.gateEnable, Obj.adminBaseTime,
   Obj.adminCycleTimeNs, Obj.adminCycleExtensionNs, Obj.adminList, Obj.gateGuardNs, Obj.operBaseTime,
   Obj.operCycleTimeNs, Obj.operList, Obj.configChangeTime, Obj.configPending, Obj.enqFrames,
   Obj.queueTxFrames, Obj.admitDrops, Obj.residenceDrops, Obj.ecnMarked, Obj.gateTooLongDrops,
   Obj.gateOverruns, Obj.queueCells, Obj.sojournLastNs, Obj.sojournPeakNs, Obj.queueShaperCredit,
   Obj.portShaperCredit, Obj.gateCyclesAdjusted, Obj.ingressDrops, Obj.headroomDrops, Obj.ingressCells,
   Obj.bufferFullDrops]

/-! #### Objects of 12_memory_controller.md: R405 -/

/-- 0x6000.01 MAP_ORDER_QUAY. -/
def Obj.mapOrderQuay : ObjRow :=
  { index := 0x6000, sub := 0x01, kind := .upto 4, ty := .enum, right := .rwg, level := 2, group := 0x40,
    dflt := fun _ _ => 2, ok := fun v => v == 0 || v == 1 || v == 2 }

/-- 0x6000.02 MAP_ORDER_EXPORT. -/
def Obj.mapOrderExport : ObjRow :=
  { index := 0x6000, sub := 0x02, kind := .upto 4, ty := .enum, right := .rwg, level := 2, group := 0x40,
    dflt := fun _ _ => 2, ok := fun v => v == 0 || v == 1 || v == 2 }

/-- 0x6000.03 MAP_ORDER_HISTORY. -/
def Obj.mapOrderHistory : ObjRow :=
  { index := 0x6000, sub := 0x03, kind := .upto 4, ty := .enum, right := .rwg, level := 2, group := 0x40,
    dflt := fun _ _ => 2, ok := fun v => v == 0 || v == 1 || v == 2 }

/-- 0x6001 HBM_TEMP_C. -/
def Obj.hbmTempC : ObjRow :=
  { index := 0x6001, kind := .upto 4, ty := .s32, right := .ro, level := 0 }

/-- 0x6002 REFRESH_MODE. -/
def Obj.refreshMode : ObjRow :=
  { index := 0x6002, kind := .upto 4, ty := .enum, right := .ro, level := 0 }

/-- 0x6010.01 REQ_PRIORITY. -/
def Obj.reqPriority : ObjRow :=
  { index := 0x6010, sub := 0x01, subs := 6, kind := .upto 4, ty := .u8, right := .rw, level := 2,
    dflt := fun s _ => [7, 6, 3, 4, 2, 1].getD (s - 1) 0, ok := fun v => v ≤ 7 }

/-- 0x6011.01 REQ_BURST_LIMIT. -/
def Obj.reqBurstLimit : ObjRow :=
  { index := 0x6011, sub := 0x01, subs := 6, kind := .upto 4, ty := .u8, right := .rw, level := 2,
    dflt := fun s _ => [16, 8, 8, 8, 8, 4].getD (s - 1) 0, ok := fun v => 1 ≤ v && v ≤ 64 }

/-- 0x6012 BACKGROUND_FLOOR. -/
def Obj.backgroundFloor : ObjRow :=
  { index := 0x6012, kind := .upto 4, ty := .u8, right := .rw, level := 2, dflt := fun _ _ => 4,
    ok := fun v => v ≤ 16 }

/-- 0x6013 PANIC_LEVEL. -/
def Obj.panicLevel : ObjRow :=
  { index := 0x6013, kind := .pipe, ty := .u16, right := .rw, level := 2, dflt := fun _ _ => 1024 }

/-- 0x6014 PANIC_RELEASE. -/
def Obj.panicRelease : ObjRow :=
  { index := 0x6014, kind := .pipe, ty := .u16, right := .rw, level := 2, dflt := fun _ _ => 512 }

/-- 0x6015 LOOKUP_OUTSTANDING. -/
def Obj.lookupOutstanding : ObjRow :=
  { index := 0x6015, kind := .pipe, ty := .u16, right := .ro, level := 0 }

/-- 0x6016.01 PANIC_ENTRIES. -/
def Obj.panicEntries : ObjRow :=
  { index := 0x6016, sub := 0x01, kind := .pipe, ty := .u64, right := .ro, level := 0 }

/-- 0x6016.02 PANIC_NS. -/
def Obj.panicNs : ObjRow :=
  { index := 0x6016, sub := 0x02, kind := .pipe, ty := .u64, right := .ro, level := 0 }

/-- 0x6020 REFRESH_OWED. -/
def Obj.refreshOwed : ObjRow :=
  { index := 0x6020, kind := .upto 128, ty := .u8, right := .ro, level := 0 }

/-- 0x6021.01 REFRESHES. -/
def Obj.refreshes : ObjRow :=
  { index := 0x6021, sub := 0x01, kind := .upto 128, ty := .u64, right := .ro, level := 0 }

/-- 0x6021.02 REFRESHES_POSTPONED. -/
def Obj.refreshesPostponed : ObjRow :=
  { index := 0x6021, sub := 0x02, kind := .upto 128, ty := .u64, right := .ro, level := 0 }

/-- 0x6021.03 REFRESHES_FORCED. -/
def Obj.refreshesForced : ObjRow :=
  { index := 0x6021, sub := 0x03, kind := .upto 128, ty := .u64, right := .ro, level := 0 }

/-- 0x6030.01 ECC_CORRECTED. -/
def Obj.eccCorrected : ObjRow :=
  { index := 0x6030, sub := 0x01, kind := .upto 128, ty := .u64, right := .ro, level := 0 }

/-- 0x6030.02 ECC_UNCORRECTED. -/
def Obj.eccUncorrected : ObjRow :=
  { index := 0x6030, sub := 0x02, kind := .upto 128, ty := .u64, right := .ro, level := 0 }

/-- 0x6031 PATROL_PERIOD_S. -/
def Obj.patrolPeriodS : ObjRow :=
  { index := 0x6031, kind := .upto 4, ty := .u32, right := .rw, level := 1, dflt := fun _ _ => 3600 }

/-- 0x6032 PATROL_POSITION. -/
def Obj.patrolPosition : ObjRow :=
  { index := 0x6032, kind := .upto 4, ty := .u32, right := .ro, level := 0 }

/-- 0x6033 POISONED. -/
def Obj.poisoned : ObjRow :=
  { index := 0x6033, kind := .upto 4, ty := .u16, right := .ro, level := 0 }

/-- 0x6040 PC_STATE. -/
def Obj.pcState : ObjRow :=
  { index := 0x6040, kind := .upto 128, ty := .enum, right := .ro, level := 0 }

/-- 0x6041 SPARE_REQUEST. -/
def Obj.spareRequest : ObjRow :=
  { index := 0x6041, kind := .upto 128, ty := .bool, right := .wo, level := 2 }

/-- 0x6042 SPARE_CE_PER_S. -/
def Obj.spareCePerS : ObjRow :=
  { index := 0x6042, kind := .upto 4, ty := .u32, right := .rw, level := 2, dflt := fun _ _ => 1024 }

/-- 0x6043 SPARE_COPY_RATE. -/
def Obj.spareCopyRate : ObjRow :=
  { index := 0x6043, kind := .upto 4, ty := .u32, right := .rw, level := 2, dflt := fun _ _ => 200000000 }

/-- 0x6044 SPARE_FREE. -/
def Obj.spareFree : ObjRow :=
  { index := 0x6044, kind := .upto 4, ty := .bitset 2, right := .ro, level := 0, dflt := fun _ _ => 3 }

/-- 0x6045 SPARE_PROGRESS. -/
def Obj.spareProgress : ObjRow :=
  { index := 0x6045, kind := .upto 128, ty := .u16, right := .ro, level := 0 }

/-- 0x6050 RETRAIN_PERIOD_MS. -/
def Obj.retrainPeriodMs : ObjRow :=
  { index := 0x6050, kind := .upto 4, ty := .u32, right := .rw, level := 1, dflt := fun _ _ => 1000 }

/-- 0x6051.01 RETRAINS. -/
def Obj.retrains : ObjRow :=
  { index := 0x6051, sub := 0x01, kind := .upto 128, ty := .u64, right := .ro, level := 0 }

/-- 0x6051.02 LANES_REPAIRED. -/
def Obj.lanesRepaired : ObjRow :=
  { index := 0x6051, sub := 0x02, kind := .upto 128, ty := .u64, right := .ro, level := 0 }

/-- 0x6051.03 RETRAIN_FAILS. -/
def Obj.retrainFails : ObjRow :=
  { index := 0x6051, sub := 0x03, kind := .upto 128, ty := .u64, right := .ro, level := 0 }

/-- 0x6060.01 BURSTS_READ. -/
def Obj.burstsRead : ObjRow :=
  { index := 0x6060, sub := 0x01, kind := .upto 128, ty := .u64, right := .ro, level := 0 }

/-- 0x6060.02 BURSTS_WRITTEN. -/
def Obj.burstsWritten : ObjRow :=
  { index := 0x6060, sub := 0x02, kind := .upto 128, ty := .u64, right := .ro, level := 0 }

/-- 0x6060.03 ROW_HITS. -/
def Obj.rowHits : ObjRow :=
  { index := 0x6060, sub := 0x03, kind := .upto 128, ty := .u64, right := .ro, level := 0 }

/-- 0x6060.04 ROW_CONFLICTS. -/
def Obj.rowConflicts : ObjRow :=
  { index := 0x6060, sub := 0x04, kind := .upto 128, ty := .u64, right := .ro, level := 0 }

/-- 0x6060.05 IN_ORDER_ENTRIES. -/
def Obj.inOrderEntries : ObjRow :=
  { index := 0x6060, sub := 0x05, kind := .upto 128, ty := .u64, right := .ro, level := 0 }

/-- The numbered objects that R405 gives. -/
def hbmObjects : List ObjRow :=
  [Obj.mapOrderQuay, Obj.mapOrderExport, Obj.mapOrderHistory, Obj.hbmTempC, Obj.refreshMode, Obj.reqPriority,
   Obj.reqBurstLimit, Obj.backgroundFloor, Obj.panicLevel, Obj.panicRelease, Obj.lookupOutstanding,
   Obj.panicEntries, Obj.panicNs, Obj.refreshOwed, Obj.refreshes, Obj.refreshesPostponed, Obj.refreshesForced,
   Obj.eccCorrected, Obj.eccUncorrected, Obj.patrolPeriodS, Obj.patrolPosition, Obj.poisoned, Obj.pcState,
   Obj.spareRequest, Obj.spareCePerS, Obj.spareCopyRate, Obj.spareFree, Obj.spareProgress, Obj.retrainPeriodMs,
   Obj.retrains, Obj.lanesRepaired, Obj.retrainFails, Obj.burstsRead, Obj.burstsWritten, Obj.rowHits,
   Obj.rowConflicts, Obj.inOrderEntries]

/-! #### Objects of 13_time.md: R432 -/

/-- 0x1800 TIME_NOW. -/
def Obj.timeNow : ObjRow :=
  { index := 0x1800, ty := .time80, right := .ro, level := 0 }

/-- 0x1801 TIME_FRACTION. -/
def Obj.timeFraction : ObjRow :=
  { index := 0x1801, ty := .u16, right := .ro, level := 0 }

/-- 0x1802 TIME_INCREMENT. -/
def Obj.timeIncrement : ObjRow :=
  { index := 0x1802, ty := .u64, right := .rw, level := 1, dflt := fun _ _ => 3435973837,
    ok := fun v => 3432537863 ≤ v && v ≤ 3439409811 }

/-- 0x1803 STEP_LIMIT_NS. -/
def Obj.stepLimitNs : ObjRow :=
  { index := 0x1803, ty := .u32, right := .rw, level := 2, dflt := fun _ _ => 1000 }

/-- 0x1804 TIME_STEP_NS. -/
def Obj.timeStepNs : ObjRow :=
  { index := 0x1804, ty := .s64, right := .wo, level := 1 }

/-- 0x1805 TIME_FORCED_STEP_NS. -/
def Obj.timeForcedStepNs : ObjRow :=
  { index := 0x1805, ty := .s64, right := .wo, level := 2 }

/-- 0x1806 TIME_SET. -/
def Obj.timeSet : ObjRow :=
  { index := 0x1806, ty := .time80, right := .wo, level := 2 }

/-- 0x1807 STEPS_REFUSED. -/
def Obj.stepsRefused : ObjRow :=
  { index := 0x1807, ty := .u64, right := .ro, level := 0 }

/-- 0x1808 TIME_STATE. -/
def Obj.timeState : ObjRow :=
  { index := 0x1808, ty := .enum, right := .ro, level := 0 }

/-- 0x1809 DECK_SKEW_NS. -/
def Obj.deckSkewNs : ObjRow :=
  { index := 0x1809, kind := .upto 4, ty := .s32, right := .ro, level := 0 }

/-- 0x1810 PTP_ENABLE. -/
def Obj.ptpEnable : ObjRow :=
  { index := 0x1810, ty := .bool, right := .rwg, level := 2, group := 0x48 }

/-- 0x1811 PTP_PROFILE. -/
def Obj.ptpProfile : ObjRow :=
  { index := 0x1811, ty := .enum, right := .rwg, level := 2, group := 0x48,
    ok := fun v => v == 0 || v == 1 || v == 2 }

/-- 0x1812 CLOCK_ROLE. -/
def Obj.clockRole : ObjRow :=
  { index := 0x1812, ty := .enum, right := .rwg, level := 2, group := 0x48, dflt := fun _ _ => 1,
    ok := fun v => v == 0 || v == 1 || v == 2 }

/-- 0x1813 PTP_DOMAIN. -/
def Obj.ptpDomain : ObjRow :=
  { index := 0x1813, ty := .u8, right := .rwg, level := 2, group := 0x48 }

/-- 0x1814.01 PRIORITY1. -/
def Obj.priority1 : ObjRow :=
  { index := 0x1814, sub := 0x01, ty := .u8, right := .rwg, level := 2, group := 0x48, dflt := fun _ _ => 128 }

/-- 0x1814.02 PRIORITY2. -/
def Obj.priority2 : ObjRow :=
  { index := 0x1814, sub := 0x02, ty := .u8, right := .rwg, level := 2, group := 0x48, dflt := fun _ _ => 128 }

/-- 0x1815 SERVO_STEP_ENABLE. -/
def Obj.servoStepEnable : ObjRow :=
  { index := 0x1815, ty := .bool, right := .rwg, level := 2, group := 0x48, dflt := fun _ _ => 1 }

/-- 0x1820 PTP_PORT_ENABLE. -/
def Obj.ptpPortEnable : ObjRow :=
  { index := 0x1820, kind := .port, ty := .bool, right := .rwg, level := 2, group := 0x48 }

/-- 0x1821 PTP_TRANSPORT. -/
def Obj.ptpTransport : ObjRow :=
  { index := 0x1821, kind := .port, ty := .enum, right := .rwg, level := 2, group := 0x48,
    ok := fun v => v == 0 || v == 1 || v == 2 }

/-- 0x1822 DELAY_ASYMMETRY_NS. -/
def Obj.delayAsymmetryNs : ObjRow :=
  { index := 0x1822, kind := .port, ty := .s32, right := .rw, level := 1 }

/-- 0x1823.01 LOG_ANNOUNCE_INTERVAL. -/
def Obj.logAnnounceInterval : ObjRow :=
  { index := 0x1823, sub := 0x01, kind := .port, ty := .s32, right := .rwg, level := 2, group := 0x48,
    dflt := fun _ _ => 1, ok := fun v => signedIn 32 (-3) (4) v }

/-- 0x1823.02 LOG_SYNC_INTERVAL. -/
def Obj.logSyncInterval : ObjRow :=
  { index := 0x1823, sub := 0x02, kind := .port, ty := .s32, right := .rwg, level := 2, group := 0x48,
    dflt := fun _ _ => 0xFFFFFFFD, ok := fun v => signedIn 32 (-7) (4) v }

/-- 0x1823.03 LOG_DELAY_INTERVAL. -/
def Obj.logDelayInterval : ObjRow :=
  { index := 0x1823, sub := 0x03, kind := .port, ty := .s32, right := .rwg, level := 2, group := 0x48,
    ok := fun v => signedIn 32 (-7) (4) v }

/-- 0x1828 PTP_PORT_STATE. -/
def Obj.ptpPortState : ObjRow :=
  { index := 0x1828, kind := .port, ty := .enum, right := .ro, level := 0, dflt := fun _ _ => 3 }

/-- 0x1829 MEAN_PATH_DELAY_NS. -/
def Obj.meanPathDelayNs : ObjRow :=
  { index := 0x1829, kind := .port, ty := .s64, right := .ro, level := 0 }

/-- 0x182A TIME_SOURCE_SUSPENDED. -/
def Obj.timeSourceSuspended : ObjRow :=
  { index := 0x182A, kind := .port, ty := .bool, right := .ro, level := 0 }

/-- 0x182B.01 ONE_STEP_INSERTED. -/
def Obj.oneStepInserted : ObjRow :=
  { index := 0x182B, sub := 0x01, kind := .port, ty := .u64, right := .ro, level := 0 }

/-- 0x182B.02 TC_CORRECTED. -/
def Obj.tcCorrected : ObjRow :=
  { index := 0x182B, sub := 0x02, kind := .port, ty := .u64, right := .ro, level := 0 }

/-- 0x182B.03 DELAY_STEPS. -/
def Obj.delaySteps : ObjRow :=
  { index := 0x182B, sub := 0x03, kind := .port, ty := .u64, right := .ro, level := 0 }

/-- 0x1830 DELAY_STEP_NS. -/
def Obj.delayStepNs : ObjRow :=
  { index := 0x1830, ty := .u32, right := .rw, level := 2, dflt := fun _ _ => 200 }

/-- 0x1831 SETTLE_S. -/
def Obj.settleS : ObjRow :=
  { index := 0x1831, ty := .u32, right := .rw, level := 2, dflt := fun _ _ => 16 }

/-- 0x1832 OFFSET_FROM_SOURCE_NS. -/
def Obj.offsetFromSourceNs : ObjRow :=
  { index := 0x1832, ty := .s64, right := .ro, level := 0 }

/-- 0x1840.01 TT_MODE. -/
def Obj.ttMode : ObjRow :=
  { index := 0x1840, sub := 0x01, kind := .upto 4, ty := .enum, right := .rwg, level := 2, group := 0x48,
    ok := fun v => v == 0 || v == 1 || v == 2 }

/-- 0x1840.02 TT_START. -/
def Obj.ttStart : ObjRow :=
  { index := 0x1840, sub := 0x02, kind := .upto 4, ty := .time80, right := .rwg, level := 2, group := 0x48 }

/-- 0x1840.03 TT_PERIOD_NS. -/
def Obj.ttPeriodNs : ObjRow :=
  { index := 0x1840, sub := 0x03, kind := .upto 4, ty := .u64, right := .rwg, level := 2, group := 0x48,
    dflt := fun _ _ => 1000000000 }

/-- 0x1840.04 TT_WIDTH_NS. -/
def Obj.ttWidthNs : ObjRow :=
  { index := 0x1840, sub := 0x04, kind := .upto 4, ty := .u32, right := .rwg, level := 2, group := 0x48,
    dflt := fun _ _ => 1000 }

/-- 0x1840.05 TT_ACTIVE_LOW. -/
def Obj.ttActiveLow : ObjRow :=
  { index := 0x1840, sub := 0x05, kind := .upto 4, ty := .bool, right := .rwg, level := 2, group := 0x48 }

/-- 0x1841.01 TT_EDGES. -/
def Obj.ttEdges : ObjRow :=
  { index := 0x1841, sub := 0x01, kind := .upto 4, ty := .u64, right := .ro, level := 0 }

/-- 0x1841.02 TT_LATE. -/
def Obj.ttLate : ObjRow :=
  { index := 0x1841, sub := 0x02, kind := .upto 4, ty := .u64, right := .ro, level := 0 }

/-- 0x1850 TC_EDGE. -/
def Obj.tcEdge : ObjRow :=
  { index := 0x1850, kind := .upto 4, ty := .enum, right := .rw, level := 1,
    ok := fun v => v == 0 || v == 1 || v == 2 || v == 3 }

/-- 0x1851 CAPTURE_READ. -/
def Obj.captureRead : ObjRow :=
  { index := 0x1851, kind := .upto 4, ty := .octets 16, right := .ro, level := 0 }

/-- 0x1852.01 CAPTURES. -/
def Obj.captures : ObjRow :=
  { index := 0x1852, sub := 0x01, kind := .upto 4, ty := .u64, right := .ro, level := 0 }

/-- 0x1852.02 CAPTURE_OVERFLOWS. -/
def Obj.captureOverflows : ObjRow :=
  { index := 0x1852, sub := 0x02, kind := .upto 4, ty := .u64, right := .ro, level := 0 }

/-- The numbered objects that R432 gives. -/
def timeObjects : List ObjRow :=
  [Obj.timeNow, Obj.timeFraction, Obj.timeIncrement, Obj.stepLimitNs, Obj.timeStepNs, Obj.timeForcedStepNs,
   Obj.timeSet, Obj.stepsRefused, Obj.timeState, Obj.deckSkewNs, Obj.ptpEnable, Obj.ptpProfile, Obj.clockRole,
   Obj.ptpDomain, Obj.priority1, Obj.priority2, Obj.servoStepEnable, Obj.ptpPortEnable, Obj.ptpTransport,
   Obj.delayAsymmetryNs, Obj.logAnnounceInterval, Obj.logSyncInterval, Obj.logDelayInterval, Obj.ptpPortState,
   Obj.meanPathDelayNs, Obj.timeSourceSuspended, Obj.oneStepInserted, Obj.tcCorrected, Obj.delaySteps,
   Obj.delayStepNs, Obj.settleS, Obj.offsetFromSourceNs, Obj.ttMode, Obj.ttStart, Obj.ttPeriodNs,
   Obj.ttWidthNs, Obj.ttActiveLow, Obj.ttEdges, Obj.ttLate, Obj.tcEdge, Obj.captureRead, Obj.captures,
   Obj.captureOverflows]

/-! #### Objects of 14_fabric.md: R461 -/

/-- 0x6800 DEVICE_ID. -/
def Obj.deviceId : ObjRow :=
  { index := 0x6800, ty := .u16, right := .rwg, level := 2, group := 0x50 }

/-- 0x6801 ID_MODE. -/
def Obj.idMode : ObjRow :=
  { index := 0x6801, ty := .enum, right := .rwg, level := 2, group := 0x50, ok := fun v => v == 0 || v == 1 }

/-- 0x6802 ACTIVE_DEVICE_ID. -/
def Obj.activeDeviceId : ObjRow :=
  { index := 0x6802, ty := .u16, right := .ro, level := 0 }

/-- 0x6803 FABRIC_STATE. -/
def Obj.fabricState : ObjRow :=
  { index := 0x6803, ty := .enum, right := .ro, level := 0, dflt := fun _ _ => 2 }

/-- 0x6804 MAX_HOPS. -/
def Obj.maxHops : ObjRow :=
  { index := 0x6804, ty := .u8, right := .rwg, level := 2, group := 0x50, dflt := fun _ _ => 15,
    ok := fun v => 1 ≤ v && v ≤ 15 }

/-- 0x6805 FABRIC_KEY_SLOT. -/
def Obj.fabricKeySlot : ObjRow :=
  { index := 0x6805, ty := .u16, right := .rwg, level := 2, group := 0x50, ok := fun v => v ≤ 255 }

/-- 0x6806 HELLO_INTERVAL_MS. -/
def Obj.helloIntervalMs : ObjRow :=
  { index := 0x6806, ty := .u16, right := .rwg, level := 2, group := 0x50, dflt := fun _ _ => 100,
    ok := fun v => 10 ≤ v && v ≤ 10000 }

/-- 0x6807 CLAIM_WAIT_MS. -/
def Obj.claimWaitMs : ObjRow :=
  { index := 0x6807, ty := .u16, right := .rwg, level := 2, group := 0x50, dflt := fun _ _ => 500,
    ok := fun v => 100 ≤ v && v ≤ 10000 }

/-- 0x6808 ACP_TIME_WINDOW_MS. -/
def Obj.acpTimeWindowMs : ObjRow :=
  { index := 0x6808, ty := .u32, right := .rwg, level := 2, group := 0x50, dflt := fun _ _ => 2000 }

/-- 0x6809 ANCHOR_UNREACHABLE_ACTION. -/
def Obj.anchorUnreachableAction : ObjRow :=
  { index := 0x6809, ty := .enum, right := .rwg, level := 2, group := 0x50, ok := fun v => v == 0 || v == 1 }

/-- 0x680A HELLO_DEAD_COUNT. -/
def Obj.helloDeadCount : ObjRow :=
  { index := 0x680A, ty := .u8, right := .rwg, level := 2, group := 0x50, dflt := fun _ _ => 4,
    ok := fun v => 2 ≤ v && v ≤ 15 }

/-- 0x6810 FERRY_COST. -/
def Obj.ferryCost : ObjRow :=
  { index := 0x6810, kind := .port, ty := .u16, right := .rwg, level := 2, group := 0x50 }

/-- 0x6811 ACP_EDGE_ENABLE. -/
def Obj.acpEdgeEnable : ObjRow :=
  { index := 0x6811, kind := .port, ty := .bool, right := .rwg, level := 2, group := 0x50 }

/-- 0x6812 NEIGHBOR_ID. -/
def Obj.neighborId : ObjRow :=
  { index := 0x6812, kind := .port, ty := .u32, right := .ro, level := 0 }

/-- 0x6813 FERRY_LINK_DELAY_NS. -/
def Obj.ferryLinkDelayNs : ObjRow :=
  { index := 0x6813, kind := .port, ty := .u32, right := .ro, level := 0 }

/-- 0x6814 FABRIC_CTRL_MAC. -/
def Obj.fabricCtrlMac : ObjRow :=
  { index := 0x6814, ty := .octets 6, right := .rwg, level := 2, group := 0x50,
    dflt := fun _ _ => 0x806447480003 }

/-- 0x6815 ADJ_STATE. -/
def Obj.adjState : ObjRow :=
  { index := 0x6815, kind := .port, ty := .enum, right := .ro, level := 0 }

/-- 0x6820 ANCHOR_DEVICE. -/
def Obj.anchorDevice : ObjRow :=
  { index := 0x6820, kind := .upto 4096, ty := .u32, right := .rwg, level := 2, group := 0x50,
    resv := fun v => v / 2 ^ 17 == 0 }

/-- 0x6830 ROUTE_ENTRY. -/
def Obj.routeEntry : ObjRow :=
  { index := 0x6830, kind := .upto 65536, ty := .octets 16, right := .ro, level := 0 }

/-- 0x6831 TREE_PORTS. -/
def Obj.treePorts : ObjRow :=
  { index := 0x6831, ty := .bitset 137, right := .ro, level := 0 }

/-- 0x6833 ROUTE_GENERATION. -/
def Obj.routeGeneration : ObjRow :=
  { index := 0x6833, ty := .u32, right := .ro, level := 0 }

/-- 0x6840.01 ACP_KEY. -/
def Obj.acpKey : ObjRow :=
  { index := 0x6840, sub := 0x01, kind := .upto 256, ty := .octets 32, right := .rwg, level := 2,
    group := 0x51 }

/-- 0x6840.02 ACP_KEY_LEVEL. -/
def Obj.acpKeyLevel : ObjRow :=
  { index := 0x6840, sub := 0x02, kind := .upto 256, ty := .enum, right := .rwg, level := 2, group := 0x51,
    ok := fun v => v == 0 || v == 1 || v == 2 }

/-- 0x6840.03 ACP_KEY_VALID. -/
def Obj.acpKeyValid : ObjRow :=
  { index := 0x6840, sub := 0x03, kind := .upto 256, ty := .bool, right := .rwg, level := 2, group := 0x51 }

/-- 0x6841 ACP_KEY_GRACE_S. -/
def Obj.acpKeyGraceS : ObjRow :=
  { index := 0x6841, ty := .u32, right := .rwg, level := 2, group := 0x51, dflt := fun _ _ => 10 }

/-- 0x6850.01 FERRY_RX_TAGGED. -/
def Obj.ferryRxTagged : ObjRow :=
  { index := 0x6850, sub := 0x01, kind := .port, ty := .u64, right := .ro, level := 0 }

/-- 0x6850.02 FERRY_SEQ_GAPS. -/
def Obj.ferrySeqGaps : ObjRow :=
  { index := 0x6850, sub := 0x02, kind := .port, ty := .u64, right := .ro, level := 0 }

/-- 0x6850.03 TRANSIT_FRAMES. -/
def Obj.transitFrames : ObjRow :=
  { index := 0x6850, sub := 0x03, kind := .port, ty := .u64, right := .ro, level := 0 }

/-- 0x6850.04 HOP_EXPIRED_DROPS. -/
def Obj.hopExpiredDrops : ObjRow :=
  { index := 0x6850, sub := 0x04, kind := .port, ty := .u64, right := .ro, level := 0 }

/-- 0x6850.05 NO_ROUTE_DROPS. -/
def Obj.noRouteDrops : ObjRow :=
  { index := 0x6850, sub := 0x05, kind := .port, ty := .u64, right := .ro, level := 0 }

/-- 0x6850.06 ABORT_UNARMED. -/
def Obj.abortUnarmed : ObjRow :=
  { index := 0x6850, sub := 0x06, kind := .port, ty := .u64, right := .ro, level := 0 }

/-- 0x6850.07 TREE_DROPS. -/
def Obj.treeDrops : ObjRow :=
  { index := 0x6850, sub := 0x07, kind := .port, ty := .u64, right := .ro, level := 0 }

/-- 0x6860.01 ACP_REQUESTS. -/
def Obj.acpRequests : ObjRow :=
  { index := 0x6860, sub := 0x01, ty := .u64, right := .ro, level := 0 }

/-- 0x6860.02 ACP_AUTH_FAILS. -/
def Obj.acpAuthFails : ObjRow :=
  { index := 0x6860, sub := 0x02, ty := .u64, right := .ro, level := 0 }

/-- 0x6860.03 ACP_REPLAYS. -/
def Obj.acpReplays : ObjRow :=
  { index := 0x6860, sub := 0x03, ty := .u64, right := .ro, level := 0 }

/-- 0x6860.04 ACP_FORWARDED. -/
def Obj.acpForwarded : ObjRow :=
  { index := 0x6860, sub := 0x04, ty := .u64, right := .ro, level := 0 }

/-- 0x6860.05 ANCHORED_AWAY. -/
def Obj.anchoredAway : ObjRow :=
  { index := 0x6860, sub := 0x05, ty := .u64, right := .ro, level := 0 }

/-- 0x6860.06 ANCHOR_UNREACHABLE. -/
def Obj.anchorUnreachableCount : ObjRow :=
  { index := 0x6860, sub := 0x06, ty := .u64, right := .ro, level := 0 }

/-- 0x6870 ACP_PROXY_REQUEST. -/
def Obj.acpProxyRequest : ObjRow :=
  { index := 0x6870, kind := .upto 64, ty := .domain 264, right := .wo, level := 2 }

/-- 0x6871 ACP_PROXY_STATE. -/
def Obj.acpProxyState : ObjRow :=
  { index := 0x6871, kind := .upto 64, ty := .enum, right := .ro, level := 0 }

/-- 0x6872 ACP_PROXY_RESPONSE. -/
def Obj.acpProxyResponse : ObjRow :=
  { index := 0x6872, kind := .upto 64, ty := .domain 264, right := .ro, level := 0 }

/-- The numbered objects that R461 gives. -/
def fabricObjects : List ObjRow :=
  [Obj.deviceId, Obj.idMode, Obj.activeDeviceId, Obj.fabricState, Obj.maxHops, Obj.fabricKeySlot,
   Obj.helloIntervalMs, Obj.claimWaitMs, Obj.acpTimeWindowMs, Obj.anchorUnreachableAction, Obj.helloDeadCount,
   Obj.ferryCost, Obj.acpEdgeEnable, Obj.neighborId, Obj.ferryLinkDelayNs, Obj.fabricCtrlMac, Obj.adjState,
   Obj.anchorDevice, Obj.routeEntry, Obj.treePorts, Obj.routeGeneration, Obj.acpKey, Obj.acpKeyLevel,
   Obj.acpKeyValid, Obj.acpKeyGraceS, Obj.ferryRxTagged, Obj.ferrySeqGaps, Obj.transitFrames,
   Obj.hopExpiredDrops, Obj.noRouteDrops, Obj.abortUnarmed, Obj.treeDrops, Obj.acpRequests, Obj.acpAuthFails,
   Obj.acpReplays, Obj.acpForwarded, Obj.anchoredAway, Obj.anchorUnreachableCount, Obj.acpProxyRequest,
   Obj.acpProxyState, Obj.acpProxyResponse]

/-! #### Objects of 15_clocks_sleep_gangways.md: R487 -/

/-- 0x7800 SLEEP_STATE. -/
def Obj.sleepState : ObjRow :=
  { index := 0x7800, ty := .enum, right := .ro, level := 0 }

/-- 0x7801 DOZE_ENABLE. -/
def Obj.dozeEnable : ObjRow :=
  { index := 0x7801, ty := .bool, right := .rwg, level := 2, group := 0x58, dflt := fun _ _ => 1 }

/-- 0x7802 DOZE_IDLE_NS. -/
def Obj.dozeIdleNs : ObjRow :=
  { index := 0x7802, ty := .u32, right := .rwg, level := 2, group := 0x58, dflt := fun _ _ => 2000 }

/-- 0x7803 MOOR_ENABLE. -/
def Obj.moorEnable : ObjRow :=
  { index := 0x7803, ty := .bool, right := .rwg, level := 2, group := 0x58 }

/-- 0x7804 MOOR_IDLE_NS. -/
def Obj.moorIdleNs : ObjRow :=
  { index := 0x7804, ty := .u64, right := .rwg, level := 2, group := 0x58, dflt := fun _ _ => 1000000000 }

/-- 0x7805 LANDING_XOFF_BYTES. -/
def Obj.landingXoffBytes : ObjRow :=
  { index := 0x7805, ty := .u32, right := .rwg, level := 2, group := 0x58, dflt := fun _ _ => 786432,
    ok := fun v => v ≤ 1048576 }

/-- 0x7806 LANDING_XON_BYTES. -/
def Obj.landingXonBytes : ObjRow :=
  { index := 0x7806, ty := .u32, right := .rwg, level := 2, group := 0x58, dflt := fun _ _ => 262144 }

/-- 0x7810.01 DOZE_ENTRIES. -/
def Obj.dozeEntries : ObjRow :=
  { index := 0x7810, sub := 0x01, ty := .u64, right := .ro, level := 0 }

/-- 0x7810.02 MOOR_ENTRIES. -/
def Obj.moorEntries : ObjRow :=
  { index := 0x7810, sub := 0x02, ty := .u64, right := .ro, level := 0 }

/-- 0x7810.03 MOOR_ABANDONED. -/
def Obj.moorAbandoned : ObjRow :=
  { index := 0x7810, sub := 0x03, ty := .u64, right := .ro, level := 0 }

/-- 0x7811.01 DOZE_NS. -/
def Obj.dozeNs : ObjRow :=
  { index := 0x7811, sub := 0x01, ty := .u64, right := .ro, level := 0 }

/-- 0x7811.02 MOOR_NS. -/
def Obj.moorNs : ObjRow :=
  { index := 0x7811, sub := 0x02, ty := .u64, right := .ro, level := 0 }

/-- 0x7812 LAST_WAKE_CAUSE. -/
def Obj.lastWakeCause : ObjRow :=
  { index := 0x7812, ty := .enum, right := .ro, level := 0 }

/-- 0x7813 LAST_WAKE_NS. -/
def Obj.lastWakeNs : ObjRow :=
  { index := 0x7813, ty := .u32, right := .ro, level := 0 }

/-- 0x7814 MOOR_DEFER. -/
def Obj.moorDefer : ObjRow :=
  { index := 0x7814, ty := .bitset 8, right := .ro, level := 0 }

/-- 0x7815 LANDING_IN_USE. -/
def Obj.landingInUse : ObjRow :=
  { index := 0x7815, kind := .upto 4, ty := .u32, right := .ro, level := 0 }

/-- 0x7816.01 LANDING_FRAMES. -/
def Obj.landingFrames : ObjRow :=
  { index := 0x7816, sub := 0x01, kind := .frontPort, ty := .u64, right := .ro, level := 0 }

/-- 0x7816.02 LANDING_DROPS. -/
def Obj.landingDrops : ObjRow :=
  { index := 0x7816, sub := 0x02, kind := .frontPort, ty := .u64, right := .ro, level := 0 }

/-- 0x7816.03 SLEEP_DISCARDS. -/
def Obj.sleepDiscards : ObjRow :=
  { index := 0x7816, sub := 0x03, kind := .frontPort, ty := .u64, right := .ro, level := 0 }

/-- 0x7820 CORE_PLL_STATE. -/
def Obj.corePllState : ObjRow :=
  { index := 0x7820, kind := .upto 4, ty := .enum, right := .ro, level := 0, dflt := fun _ _ => 2 }

/-- 0x7821 REFCLK_PRESENT. -/
def Obj.refclkPresent : ObjRow :=
  { index := 0x7821, ty := .bitset 10, right := .ro, level := 0, dflt := fun _ _ => 0x3FF }

/-- 0x7840 GANGWAY_STATE. -/
def Obj.gangwayState : ObjRow :=
  { index := 0x7840, kind := .gangway, ty := .enum, right := .ro, level := 0 }

/-- 0x7841.01 CROSSING_FLUSHED. -/
def Obj.crossingFlushed : ObjRow :=
  { index := 0x7841, sub := 0x01, kind := .gangway, ty := .u64, right := .ro, level := 0 }

/-- 0x7841.02 GANGWAY_TIMEOUTS. -/
def Obj.gangwayTimeouts : ObjRow :=
  { index := 0x7841, sub := 0x02, kind := .gangway, ty := .u64, right := .ro, level := 0 }

/-- 0x7841.03 EVENT_OVERFLOWS. -/
def Obj.eventOverflows : ObjRow :=
  { index := 0x7841, sub := 0x03, kind := .gangway, ty := .u64, right := .ro, level := 0 }

/-- 0x7841.04 RESYNCS. -/
def Obj.resyncs : ObjRow :=
  { index := 0x7841, sub := 0x04, kind := .gangway, ty := .u64, right := .ro, level := 0 }

/-- 0x7842 EVENT_OVERFLOW_STICKY. -/
def Obj.eventOverflowSticky : ObjRow :=
  { index := 0x7842, kind := .gangway, ty := .bool, right := .w1c, level := 1 }

/-- The numbered objects that R487 gives. -/
def sleepObjects : List ObjRow :=
  [Obj.sleepState, Obj.dozeEnable, Obj.dozeIdleNs, Obj.moorEnable, Obj.moorIdleNs, Obj.landingXoffBytes,
   Obj.landingXonBytes, Obj.dozeEntries, Obj.moorEntries, Obj.moorAbandoned, Obj.dozeNs, Obj.moorNs,
   Obj.lastWakeCause, Obj.lastWakeNs, Obj.moorDefer, Obj.landingInUse, Obj.landingFrames, Obj.landingDrops,
   Obj.sleepDiscards, Obj.corePllState, Obj.refclkPresent, Obj.gangwayState, Obj.crossingFlushed,
   Obj.gangwayTimeouts, Obj.eventOverflows, Obj.resyncs, Obj.eventOverflowSticky]

/-! #### Objects of 16_start_up.md: R501 and R506 -/

/-- 0x9000 BOOT_STAGE. -/
def Obj.bootStage : ObjRow :=
  { index := 0x9000, ty := .enum, right := .ro, level := 0 }

/-- 0x9001 STRAPS. -/
def Obj.straps : ObjRow :=
  { index := 0x9001, ty := .bitset 8, right := .ro, level := 0 }

/-- 0x9002 BOOT_RESULT. -/
def Obj.bootResult : ObjRow :=
  { index := 0x9002, ty := .u16, right := .ro, level := 0 }

/-- 0x9003 BOOT_SLOT. -/
def Obj.bootSlot : ObjRow :=
  { index := 0x9003, ty := .enum, right := .ro, level := 0 }

/-- 0x9004 BOOT_IMAGE_VERSION. -/
def Obj.bootImageVersion : ObjRow :=
  { index := 0x9004, ty := .u32, right := .ro, level := 0 }

/-- 0x9005 BOOT_SECURITY_VERSION. -/
def Obj.bootSecurityVersion : ObjRow :=
  { index := 0x9005, ty := .u16, right := .ro, level := 0 }

/-- 0x9006 BOOT_TIME_NS. -/
def Obj.bootTimeNs : ObjRow :=
  { index := 0x9006, ty := .u64, right := .ro, level := 0 }

/-- 0x9007 CONFIG_RECORDS_FAILED. -/
def Obj.configRecordsFailed : ObjRow :=
  { index := 0x9007, ty := .u32, right := .ro, level := 0 }

/-- 0x9010 VENDOR_KEY_HASH. -/
def Obj.vendorKeyHash : ObjRow :=
  { index := 0x9010, ty := .octets 48, right := .ro, level := 0, dflt := fun _ _ => Config.vendorKeyHash.toNat }

/-- 0x9011 ROLLBACK_COUNTER. -/
def Obj.rollbackCounter : ObjRow :=
  { index := 0x9011, ty := .u8, right := .ro, level := 0, dflt := fun _ _ => Config.rollbackFused.toNat }

/-- 0x9012 ROLLBACK_ADVANCE. -/
def Obj.rollbackAdvance : ObjRow :=
  { index := 0x9012, ty := .u8, right := .wo, level := 2, ok := fun v => v ≤ 64 }

/-- 0x9100.01 SD_TERM_TRIM. -/
def Obj.sdTermTrim : ObjRow :=
  { index := 0x9100, sub := 0x01, kind := .lane, ty := .u8, right := .rw, level := 2,
    dflt := fun _ i => factoryTrim 0x9100 i, ok := fun v => v ≤ 63 }

/-- 0x9101.01 SD_RX_OFFSET_TRIM. -/
def Obj.sdRxOffsetTrim : ObjRow :=
  { index := 0x9101, sub := 0x01, kind := .lane, ty := .u16, right := .rw, level := 2,
    dflt := fun _ i => factoryTrim 0x9101 i, ok := fun v => v ≤ 4095 }

/-- 0x9102.01 SD_PLL_BAND. -/
def Obj.sdPllBand : ObjRow :=
  { index := 0x9102, sub := 0x01, kind := .lane, ty := .u8, right := .rw, level := 2,
    dflt := fun _ i => factoryTrim 0x9102 i, ok := fun v => v ≤ 31 }

/-- 0x9110.01 THERM_OFFSET_MC. -/
def Obj.thermOffsetMc : ObjRow :=
  { index := 0x9110, sub := 0x01, kind := .upto 16, ty := .s32, right := .rw, level := 2,
    dflt := fun _ i => factoryTrim 0x9110 i, ok := fun v => signedIn 32 (-8000) (8000) v }

/-- 0x9120.01 REG_VOUT_TRIM. -/
def Obj.regVoutTrim : ObjRow :=
  { index := 0x9120, sub := 0x01, kind := .upto 4, ty := .s32, right := .rw, level := 2,
    dflt := fun _ i => factoryTrim 0x9120 i, ok := fun v => signedIn 32 (-32) (31) v }

/-- 0x9130.01 HBM_DELAY_SEED. -/
def Obj.hbmDelaySeed : ObjRow :=
  { index := 0x9130, sub := 0x01, kind := .upto 128, ty := .u32, right := .rw, level := 2,
    dflt := fun _ i => factoryTrim 0x9130 i }

/-- 0x9100.02 SD_TERM_TRIM_WRITES. -/
def Obj.sdTermTrimWrites : ObjRow :=
  { index := 0x9100, sub := 0x02, kind := .lane, ty := .u16, right := .ro, level := 0 }

/-- 0x9101.02 SD_RX_OFFSET_TRIM_WRITES. -/
def Obj.sdRxOffsetTrimWrites : ObjRow :=
  { index := 0x9101, sub := 0x02, kind := .lane, ty := .u16, right := .ro, level := 0 }

/-- 0x9102.02 SD_PLL_BAND_WRITES. -/
def Obj.sdPllBandWrites : ObjRow :=
  { index := 0x9102, sub := 0x02, kind := .lane, ty := .u16, right := .ro, level := 0 }

/-- 0x9110.02 THERM_OFFSET_MC_WRITES. -/
def Obj.thermOffsetMcWrites : ObjRow :=
  { index := 0x9110, sub := 0x02, kind := .upto 16, ty := .u16, right := .ro, level := 0 }

/-- 0x9120.02 REG_VOUT_TRIM_WRITES. -/
def Obj.regVoutTrimWrites : ObjRow :=
  { index := 0x9120, sub := 0x02, kind := .upto 4, ty := .u16, right := .ro, level := 0 }

/-- 0x9130.02 HBM_DELAY_SEED_WRITES. -/
def Obj.hbmDelaySeedWrites : ObjRow :=
  { index := 0x9130, sub := 0x02, kind := .upto 128, ty := .u16, right := .ro, level := 0 }

/-- 0x9100.03 SD_TERM_TRIM_ORIGIN. -/
def Obj.sdTermTrimOrigin : ObjRow :=
  { index := 0x9100, sub := 0x03, kind := .lane, ty := .enum, right := .ro, level := 0, dflt := fun _ _ => 1 }

/-- 0x9101.03 SD_RX_OFFSET_TRIM_ORIGIN. -/
def Obj.sdRxOffsetTrimOrigin : ObjRow :=
  { index := 0x9101, sub := 0x03, kind := .lane, ty := .enum, right := .ro, level := 0, dflt := fun _ _ => 1 }

/-- 0x9102.03 SD_PLL_BAND_ORIGIN. -/
def Obj.sdPllBandOrigin : ObjRow :=
  { index := 0x9102, sub := 0x03, kind := .lane, ty := .enum, right := .ro, level := 0, dflt := fun _ _ => 1 }

/-- 0x9110.03 THERM_OFFSET_MC_ORIGIN. -/
def Obj.thermOffsetMcOrigin : ObjRow :=
  { index := 0x9110, sub := 0x03, kind := .upto 16, ty := .enum, right := .ro, level := 0,
    dflt := fun _ _ => 1 }

/-- 0x9120.03 REG_VOUT_TRIM_ORIGIN. -/
def Obj.regVoutTrimOrigin : ObjRow :=
  { index := 0x9120, sub := 0x03, kind := .upto 4, ty := .enum, right := .ro, level := 0, dflt := fun _ _ => 1 }

/-- 0x9130.03 HBM_DELAY_SEED_ORIGIN. -/
def Obj.hbmDelaySeedOrigin : ObjRow :=
  { index := 0x9130, sub := 0x03, kind := .upto 128, ty := .enum, right := .ro, level := 0,
    dflt := fun _ _ => 1 }

/-- 0x9200.01 TX_PRE. -/
def Obj.txPre : ObjRow :=
  { index := 0x9200, sub := 0x01, kind := .lane, ty := .s32, right := .rw, level := 2,
    dflt := fun _ _ => unwritten, ok := fun v => signedIn 32 (-16) (0) v }

/-- 0x9200.02 TX_MAIN. -/
def Obj.txMain : ObjRow :=
  { index := 0x9200, sub := 0x02, kind := .lane, ty := .s32, right := .rw, level := 2, dflt := fun _ _ => unwritten,
    ok := fun v => signedIn 32 (16) (63) v }

/-- 0x9200.03 TX_POST. -/
def Obj.txPost : ObjRow :=
  { index := 0x9200, sub := 0x03, kind := .lane, ty := .s32, right := .rw, level := 2,
    dflt := fun _ _ => unwritten, ok := fun v => signedIn 32 (-24) (0) v }

/-- 0x9201 RX_ADAPT_MODE. -/
def Obj.rxAdaptMode : ObjRow :=
  { index := 0x9201, kind := .lane, ty := .enum, right := .rw, level := 2, ok := fun v => v == 0 || v == 1 }

/-- The numbered objects that R501 and R506 gives. -/
def bootObjects : List ObjRow :=
  [Obj.bootStage, Obj.straps, Obj.bootResult, Obj.bootSlot, Obj.bootImageVersion, Obj.bootSecurityVersion,
   Obj.bootTimeNs, Obj.configRecordsFailed, Obj.vendorKeyHash, Obj.rollbackCounter, Obj.rollbackAdvance,
   Obj.sdTermTrim, Obj.sdRxOffsetTrim, Obj.sdPllBand, Obj.thermOffsetMc, Obj.regVoutTrim, Obj.hbmDelaySeed,
   Obj.sdTermTrimWrites, Obj.sdRxOffsetTrimWrites, Obj.sdPllBandWrites, Obj.thermOffsetMcWrites,
   Obj.regVoutTrimWrites, Obj.hbmDelaySeedWrites, Obj.sdTermTrimOrigin, Obj.sdRxOffsetTrimOrigin,
   Obj.sdPllBandOrigin, Obj.thermOffsetMcOrigin, Obj.regVoutTrimOrigin, Obj.hbmDelaySeedOrigin, Obj.txPre,
   Obj.txMain, Obj.txPost, Obj.rxAdaptMode]

/-! #### Objects of 17_availability.md: R531 -/

/-- 0x8000 PILOT_STATE. -/
def Obj.pilotState : ObjRow :=
  { index := 0x8000, kind := .upto 4, ty := .enum, right := .ro, level := 0 }

/-- 0x8001 LEADER. -/
def Obj.leader : ObjRow :=
  { index := 0x8001, ty := .u8, right := .ro, level := 0 }

/-- 0x8002 LEADER_TERM. -/
def Obj.leaderTerm : ObjRow :=
  { index := 0x8002, ty := .u32, right := .ro, level := 0, dflt := fun _ _ => 1 }

/-- 0x8003 SERVING_PILOT. -/
def Obj.servingPilot : ObjRow :=
  { index := 0x8003, kind := .upto 4, ty := .u8, right := .ro, level := 0, dflt := fun _ d => d }

/-- 0x8004 PILOT_RESTART. -/
def Obj.pilotRestart : ObjRow :=
  { index := 0x8004, kind := .upto 4, ty := .bool, right := .wo, level := 2 }

/-- 0x8005 HEARTBEAT_NS. -/
def Obj.heartbeatNs : ObjRow :=
  { index := 0x8005, ty := .u32, right := .rw, level := 2, dflt := fun _ _ => 100000,
    ok := fun v => 10000 ≤ v && v ≤ 10000000 }

/-- 0x8006 HEARTBEAT_MISSES. -/
def Obj.heartbeatMisses : ObjRow :=
  { index := 0x8006, ty := .u8, right := .rw, level := 2, dflt := fun _ _ => 5,
    ok := fun v => 1 ≤ v && v ≤ 255 }

/-- 0x8007 WATCHDOG_MS. -/
def Obj.watchdogMs : ObjRow :=
  { index := 0x8007, ty := .u32, right := .rw, level := 2, dflt := fun _ _ => 100,
    ok := fun v => 1 ≤ v && v ≤ 4294967295 }

/-- 0x8008 RESTART_LIMIT. -/
def Obj.restartLimit : ObjRow :=
  { index := 0x8008, ty := .u8, right := .rw, level := 2, dflt := fun _ _ => 3 }

/-- 0x8009 PILOT_RESTARTS. -/
def Obj.pilotRestarts : ObjRow :=
  { index := 0x8009, kind := .upto 4, ty := .u64, right := .ro, level := 0 }

/-- 0x8010 FW_LOAD. -/
def Obj.fwLoad : ObjRow :=
  { index := 0x8010, ty := .u64, right := .wo, level := 2, resv := fun v => v / 2 ^ 48 == 0 }

/-- 0x8011 FW_FLASH_SLOT. -/
def Obj.fwFlashSlot : ObjRow :=
  { index := 0x8011, ty := .enum, right := .rw, level := 2, ok := fun v => v == 0 || v == 1 || v == 2 }

/-- 0x8012 FW_UPDATE_STATE. -/
def Obj.fwUpdateState : ObjRow :=
  { index := 0x8012, ty := .enum, right := .ro, level := 0 }

/-- 0x8013 FW_UPDATE_NEXT. -/
def Obj.fwUpdateNext : ObjRow :=
  { index := 0x8013, ty := .u8, right := .ro, level := 0, dflt := fun _ _ => 0xFF }

/-- 0x8014 FW_UPDATE_ABORT. -/
def Obj.fwUpdateAbort : ObjRow :=
  { index := 0x8014, ty := .bool, right := .wo, level := 2 }

/-- 0x8015 FW_PREVIOUS_VERSION. -/
def Obj.fwPreviousVersion : ObjRow :=
  { index := 0x8015, ty := .u32, right := .ro, level := 0, dflt := fun _ _ => Config.firmwareVersion.toNat }

/-- 0x8020 DIRECTION_FAIL_ACTION. -/
def Obj.directionFailAction : ObjRow :=
  { index := 0x8020, ty := .enum, right := .rw, level := 2, ok := fun v => v == 0 || v == 1 }

/-- 0x8021 DIRECTION_STATE. -/
def Obj.directionState : ObjRow :=
  { index := 0x8021, kind := .upto 12, ty := .enum, right := .ro, level := 0 }

/-- 0x8022 DECK_STATE. -/
def Obj.deckState : ObjRow :=
  { index := 0x8022, kind := .upto 4, ty := .enum, right := .ro, level := 0 }

/-- 0x8023 DECK_RETIRE. -/
def Obj.deckRetire : ObjRow :=
  { index := 0x8023, kind := .upto 4, ty := .bool, right := .wo, level := 2 }

/-- 0x8025 DIRECTION_DISCARDS. -/
def Obj.directionDiscards : ObjRow :=
  { index := 0x8025, kind := .upto 12, ty := .u64, right := .ro, level := 0 }

/-- 0x8026 LOST_HOME_DROPS. -/
def Obj.lostHomeDrops : ObjRow :=
  { index := 0x8026, kind := .pipe, ty := .u64, right := .ro, level := 0 }

/-- 0x8030.01 SRAM_CORRECTED. -/
def Obj.sramCorrected : ObjRow :=
  { index := 0x8030, sub := 0x01, kind := .upto 4, ty := .u64, right := .ro, level := 0 }

/-- 0x8030.02 SRAM_UNCORRECTED. -/
def Obj.sramUncorrected : ObjRow :=
  { index := 0x8030, sub := 0x02, kind := .upto 4, ty := .u64, right := .ro, level := 0 }

/-- The numbered objects that R531 gives. -/
def availObjects : List ObjRow :=
  [Obj.pilotState, Obj.leader, Obj.leaderTerm, Obj.servingPilot, Obj.pilotRestart, Obj.heartbeatNs,
   Obj.heartbeatMisses, Obj.watchdogMs, Obj.restartLimit, Obj.pilotRestarts, Obj.fwLoad, Obj.fwFlashSlot,
   Obj.fwUpdateState, Obj.fwUpdateNext, Obj.fwUpdateAbort, Obj.fwPreviousVersion, Obj.directionFailAction,
   Obj.directionState, Obj.deckState, Obj.deckRetire, Obj.directionDiscards, Obj.lostHomeDrops,
   Obj.sramCorrected, Obj.sramUncorrected]

/-! #### Objects of 18_counters_and_perturbation.md: R548 -/

/-- 0x8800.01 EVENT_COUNT. -/
def Obj.eventCount : ObjRow :=
  { index := 0x8800, sub := 0x01, subs := 4, kind := .source, ty := .u64, right := .ro, level := 0 }

/-- 0x8801.01 COUNT_OVERFLOW. -/
def Obj.countOverflow : ObjRow :=
  { index := 0x8801, sub := 0x01, subs := 4, kind := .source, ty := .bool, right := .w1c, level := 1 }

/-- 0x8802.01 CHAIN. -/
def Obj.chain : ObjRow :=
  { index := 0x8802, sub := 0x01, subs := 4, kind := .evenSource, ty := .bool, right := .rw, level := 1 }

/-- 0x8803.01 COUNT80. -/
def Obj.count80 : ObjRow :=
  { index := 0x8803, sub := 0x01, subs := 4, kind := .evenSource, ty := .octets 10, right := .ro, level := 0 }

/-- 0x8804 SNAPSHOT. -/
def Obj.snapshot : ObjRow :=
  { index := 0x8804, ty := .u32, right := .wo, level := 1, ok := fun v => v == 1 }

/-- 0x8805 SNAPSHOT_TIME. -/
def Obj.snapshotTime : ObjRow :=
  { index := 0x8805, ty := .time80, right := .ro, level := 0 }

/-- 0x8806.01 SNAP_COUNT. -/
def Obj.snapCount : ObjRow :=
  { index := 0x8806, sub := 0x01, subs := 4, kind := .source, ty := .u64, right := .ro, level := 0 }

/-- 0x8807 SOURCES. -/
def Obj.sources : ObjRow :=
  { index := 0x8807, ty := .u16, right := .ro, level := 0, dflt := fun _ _ => 4 * sourceCodes.length }

/-- 0x8808 SNAPSHOT_GENERATION. -/
def Obj.snapshotGeneration : ObjRow :=
  { index := 0x8808, ty := .u32, right := .ro, level := 0 }

/-- 0x8900.01 SLOTS_RETIRED. -/
def Obj.slotsRetired : ObjRow :=
  { index := 0x8900, sub := 0x01, kind := .pipe, ty := .u64, right := .ro, level := 0 }

/-- 0x8900.02 SLOTS_WASTED. -/
def Obj.slotsWasted : ObjRow :=
  { index := 0x8900, sub := 0x02, kind := .pipe, ty := .u64, right := .ro, level := 0 }

/-- 0x8900.03 SLOTS_FRONT. -/
def Obj.slotsFront : ObjRow :=
  { index := 0x8900, sub := 0x03, kind := .pipe, ty := .u64, right := .ro, level := 0 }

/-- 0x8900.04 SLOTS_BACK. -/
def Obj.slotsBack : ObjRow :=
  { index := 0x8900, sub := 0x04, kind := .pipe, ty := .u64, right := .ro, level := 0 }

/-- 0x8900.05 SLOTS_TOTAL. -/
def Obj.slotsTotal : ObjRow :=
  { index := 0x8900, sub := 0x05, kind := .pipe, ty := .u64, right := .ro, level := 0 }

/-- 0x8901 SLOT_SET. -/
def Obj.slotSet : ObjRow :=
  { index := 0x8901, kind := .pipe, ty := .octets 40, right := .ro, level := 0 }

/-- 0x8902.01 SNAP_SLOTS. -/
def Obj.snapSlots : ObjRow :=
  { index := 0x8902, sub := 0x01, subs := 5, kind := .pipe, ty := .u64, right := .ro, level := 0 }

/-- 0x8A00 BW_WINDOW_NS. -/
def Obj.bwWindowNs : ObjRow :=
  { index := 0x8A00, ty := .u32, right := .rw, level := 1, dflt := fun _ _ => 1000000,
    ok := fun v => 1000 ≤ v && v ≤ 1000000000 }

/-- 0x8A01 BW_MEAN_WINDOWS. -/
def Obj.bwMeanWindows : ObjRow :=
  { index := 0x8A01, ty := .u16, right := .rw, level := 1, dflt := fun _ _ => 1000,
    ok := fun v => 1 ≤ v && v ≤ 1024 }

/-- 0x8A10.01 RX_MEAN_BPS. -/
def Obj.rxMeanBps : ObjRow :=
  { index := 0x8A10, sub := 0x01, kind := .frontPort, ty := .u64, right := .ro, level := 0 }

/-- 0x8A10.02 RX_PEAK_BPS. -/
def Obj.rxPeakBps : ObjRow :=
  { index := 0x8A10, sub := 0x02, kind := .frontPort, ty := .u64, right := .ro, level := 0 }

/-- 0x8A10.03 TX_MEAN_BPS. -/
def Obj.txMeanBps : ObjRow :=
  { index := 0x8A10, sub := 0x03, kind := .frontPort, ty := .u64, right := .ro, level := 0 }

/-- 0x8A10.04 TX_PEAK_BPS. -/
def Obj.txPeakBps : ObjRow :=
  { index := 0x8A10, sub := 0x04, kind := .frontPort, ty := .u64, right := .ro, level := 0 }

/-- 0x9800 TEST_UNLOCK. -/
def Obj.testUnlock : ObjRow :=
  { index := 0x9800, ty := .u32, right := .wo, level := 3 }

/-- 0x9801 TEST_CHALLENGE. -/
def Obj.testChallenge : ObjRow :=
  { index := 0x9801, ty := .u32, right := .ro, level := 3 }

/-- 0x9802 TEST_STATE. -/
def Obj.testState : ObjRow :=
  { index := 0x9802, ty := .enum, right := .ro, level := 0 }

/-- 0x9803 TEST_MAX_S. -/
def Obj.testMaxS : ObjRow :=
  { index := 0x9803, ty := .u32, right := .rw, level := 3, dflt := fun _ _ => 3600,
    ok := fun v => 60 ≤ v && v ≤ 86400 }

/-- 0x9804 TEST_ACTIVE. -/
def Obj.testActive : ObjRow :=
  { index := 0x9804, ty := .bool, right := .ro, level := 0 }

/-- 0x9810 PERTURB_LINK_DELAY_NS. -/
def Obj.perturbLinkDelayNs : ObjRow :=
  { index := 0x9810, kind := .upto 12, ty := .u32, right := .rw, level := 3, ok := fun v => v ≤ 100000 }

/-- 0x9811 PERTURB_LINK_JITTER_NS. -/
def Obj.perturbLinkJitterNs : ObjRow :=
  { index := 0x9811, kind := .upto 12, ty := .u32, right := .rw, level := 3, ok := fun v => v ≤ 100000 }

/-- 0x9820 PERTURB_TM_HOLD_NS. -/
def Obj.perturbTmHoldNs : ObjRow :=
  { index := 0x9820, kind := .port, ty := .u32, right := .rw, level := 3, ok := fun v => v ≤ 1000000000 }

/-- 0x9821 PERTURB_TM_PERIOD_NS. -/
def Obj.perturbTmPeriodNs : ObjRow :=
  { index := 0x9821, kind := .port, ty := .u32, right := .rw, level := 3, dflt := fun _ _ => 1000000,
    ok := fun v => 1000 ≤ v && v ≤ 1000000000 }

/-- 0x9830 PERTURB_HBM_PAD_NS. -/
def Obj.perturbHbmPadNs : ObjRow :=
  { index := 0x9830, kind := .upto 128, ty := .u32, right := .rw, level := 3, ok := fun v => v ≤ 10000 }

/-- 0x9840 PERTURB_GANGWAY_JITTER. -/
def Obj.perturbGangwayJitter : ObjRow :=
  { index := 0x9840, kind := .gangway, ty := .u32, right := .rw, level := 3, ok := fun v => v ≤ 8191 }

/-- 0x9850 PERTURB_SEED. -/
def Obj.perturbSeed : ObjRow :=
  { index := 0x9850, ty := .u64, right := .rw, level := 3, ok := fun v => v != 0 }

/-- The numbered objects that R548 gives. -/
def countObjects : List ObjRow :=
  [Obj.eventCount, Obj.countOverflow, Obj.chain, Obj.count80, Obj.snapshot, Obj.snapshotTime, Obj.snapCount,
   Obj.sources, Obj.snapshotGeneration, Obj.slotsRetired, Obj.slotsWasted, Obj.slotsFront, Obj.slotsBack,
   Obj.slotsTotal, Obj.slotSet, Obj.snapSlots, Obj.bwWindowNs, Obj.bwMeanWindows, Obj.rxMeanBps, Obj.rxPeakBps,
   Obj.txMeanBps, Obj.txPeakBps, Obj.testUnlock, Obj.testChallenge, Obj.testState, Obj.testMaxS,
   Obj.testActive, Obj.perturbLinkDelayNs, Obj.perturbLinkJitterNs, Obj.perturbTmHoldNs, Obj.perturbTmPeriodNs,
   Obj.perturbHbmPadNs, Obj.perturbGangwayJitter, Obj.perturbSeed]

/-! #### Objects of 19_package_pins_power.md: R578 -/

/-- 0x7A00 JUNCTION_TEMP_MC. -/
def Obj.junctionTempMc : ObjRow :=
  { index := 0x7A00, kind := .upto 16, ty := .s32, right := .ro, level := 0 }

/-- 0x7A01 MAX_JUNCTION_TEMP_MC. -/
def Obj.maxJunctionTempMc : ObjRow :=
  { index := 0x7A01, ty := .s32, right := .ro, level := 0 }

/-- 0x7A02 THERMAL_WARN_C. -/
def Obj.thermalWarnC : ObjRow :=
  { index := 0x7A02, ty := .s32, right := .rw, level := 2, dflt := fun _ _ => 100,
    ok := fun v => signedIn 32 (60) (104) v }

/-- 0x7A03 THERMAL_TRIP_C. -/
def Obj.thermalTripC : ObjRow :=
  { index := 0x7A03, ty := .s32, right := .rw, level := 2, dflt := fun _ _ => 115,
    ok := fun v => signedIn 32 (106) (120) v }

/-- 0x7A04 THERMAL_HYST_C. -/
def Obj.thermalHystC : ObjRow :=
  { index := 0x7A04, ty := .u8, right := .rw, level := 2, dflt := fun _ _ => 3, ok := fun v => 1 ≤ v && v ≤ 10 }

/-- 0x7A05 THERMAL_STATE. -/
def Obj.thermalState : ObjRow :=
  { index := 0x7A05, ty := .enum, right := .ro, level := 0 }

/-- 0x7A20 INT_PIN_CAUSE. -/
def Obj.intPinCause : ObjRow :=
  { index := 0x7A20, ty := .bitset 8, right := .w1c, level := 1 }

/-- 0x7A21 INT_PIN_ENABLE. -/
def Obj.intPinEnable : ObjRow :=
  { index := 0x7A21, ty := .bitset 8, right := .rw, level := 2, dflt := fun _ _ => 0x1e }

/-- 0x7A22 TW_ALERT_ENABLE. -/
def Obj.twAlertEnable : ObjRow :=
  { index := 0x7A22, ty := .bitset 8, right := .rw, level := 2, dflt := fun _ _ => 0xe }

/-- 0x7A23 TW_ALERT_ON_READY. -/
def Obj.twAlertOnReady : ObjRow :=
  { index := 0x7A23, ty := .bool, right := .rw, level := 2 }

/-- 0x7A40.01 VIN_CORE_MV. -/
def Obj.vinCoreMv : ObjRow :=
  { index := 0x7A40, sub := 0x01, ty := .u16, right := .ro, level := 0 }

/-- 0x7A40.02 VDDA_SD09_MV. -/
def Obj.vddaSd09Mv : ObjRow :=
  { index := 0x7A40, sub := 0x02, ty := .u16, right := .ro, level := 0 }

/-- 0x7A40.03 VDDA_SD12_MV. -/
def Obj.vddaSd12Mv : ObjRow :=
  { index := 0x7A40, sub := 0x03, ty := .u16, right := .ro, level := 0 }

/-- 0x7A40.04 VDD_AON_MV. -/
def Obj.vddAonMv : ObjRow :=
  { index := 0x7A40, sub := 0x04, ty := .u16, right := .ro, level := 0 }

/-- 0x7A40.05 VDDIO_MV. -/
def Obj.vddioMv : ObjRow :=
  { index := 0x7A40, sub := 0x05, ty := .u16, right := .ro, level := 0 }

/-- 0x7A41.01 VIN_CORE_MA. -/
def Obj.vinCoreMa : ObjRow :=
  { index := 0x7A41, sub := 0x01, ty := .u32, right := .ro, level := 0 }

/-- 0x7A41.02 VDDA_SD09_MA. -/
def Obj.vddaSd09Ma : ObjRow :=
  { index := 0x7A41, sub := 0x02, ty := .u32, right := .ro, level := 0 }

/-- 0x7A41.03 VDDA_SD12_MA. -/
def Obj.vddaSd12Ma : ObjRow :=
  { index := 0x7A41, sub := 0x03, ty := .u32, right := .ro, level := 0 }

/-- 0x7A42 INPUT_POWER_MW. -/
def Obj.inputPowerMw : ObjRow :=
  { index := 0x7A42, ty := .u32, right := .ro, level := 0 }

/-- 0x7A43 VCORE_MV. -/
def Obj.vcoreMv : ObjRow :=
  { index := 0x7A43, kind := .upto 4, ty := .u16, right := .ro, level := 0, dflt := fun _ _ => 750 }

/-- 0x7A44 SUPPLY_FAULTS. -/
def Obj.supplyFaults : ObjRow :=
  { index := 0x7A44, ty := .u64, right := .ro, level := 0 }

/-- 0x7A45 VDDIO_LEVEL. -/
def Obj.vddioLevel : ObjRow :=
  { index := 0x7A45, ty := .enum, right := .ro, level := 0 }

/-- The numbered objects that R578 gives. -/
def powerObjects : List ObjRow :=
  [Obj.junctionTempMc, Obj.maxJunctionTempMc, Obj.thermalWarnC, Obj.thermalTripC, Obj.thermalHystC,
   Obj.thermalState, Obj.intPinCause, Obj.intPinEnable, Obj.twAlertEnable, Obj.twAlertOnReady, Obj.vinCoreMv,
   Obj.vddaSd09Mv, Obj.vddaSd12Mv, Obj.vddAonMv, Obj.vddioMv, Obj.vinCoreMa, Obj.vddaSd09Ma, Obj.vddaSd12Ma,
   Obj.inputPowerMw, Obj.vcoreMv, Obj.supplyFaults, Obj.vddioLevel]

/-- Every numbered object of the device. -/
def allObjects : List ObjRow :=
  dictionaryObjects ++ hostObjects ++ portsObjects ++ parseObjects ++ forwardingObjects ++ flowObjects ++ actionsObjects ++ exportObjects ++ crossingsObjects ++ tmObjects ++ hbmObjects ++ timeObjects ++ fabricObjects ++ sleepObjects ++ bootObjects ++ availObjects ++ countObjects ++ powerObjects

/-- Subindices of the per-reason objects are the reasons of R178 (R181). -/
def isReason (sub : Nat) : Bool :=
  decide (1 ≤ sub ∧ sub ≤ 5) || sub == 8 || sub == 9 || decide (0x40 ≤ sub ∧ sub ≤ 0xFF)

/-- The per-reason objects (R181). -/
def perReason (index : Nat) : Bool :=
  index == 0x2150 || index == 0x2151 || index == 0x2160 || index == 0x2161 || index == 0x2162

/-- The row of an object's address. -/
def findRow (index sub : Nat) : Option ObjRow :=
  allObjects.find? fun o =>
    o.index == index && decide (o.sub ≤ sub) && decide (sub < o.sub + o.subs) && (!perReason index || isReason sub)

/-- Highest subindex of an index that has subindices 0x01 and above (R47); none for any other index. -/
def highestSub (index : Nat) : Option Nat :=
  allObjects.foldl (fun h o =>
    if o.index == index && decide (0 < o.sub) then some (max (h.getD 0) (o.sub + o.subs - 1)) else h) none

/-- Any row of an index: it names the instances of subindex 0x00 (R47). -/
def anyRow (index : Nat) : Option ObjRow := allObjects.find? fun o => o.index == index

/-- The instance exists for the kind (R10). -/
def Kind.has : Kind → Nat → Bool
  | .device, i => i == 0
  | .pipe, i => decide (i < 8)
  | .lane, i => decide (i < 128)
  | .port, i => decide (i < 137)
  | .frontPort, i => decide (i < 128)
  | .portNoHost, i => decide (i < 137) && i != 128
  | .queue, i => decide (i < 2192) && !(decide (2048 ≤ i) && decide (i < 2064))
  | .spread, i => decide (i < 128)
  | .gangway, i => decide (i < 512) && (decide (i % 128 < 104) || i == 104)
  | .event, i => isEvent i
  | .source, i => isSource i
  | .evenSource, i => i % 2 == 0 && isSource i
  | .upto n, i => decide (i < n)

/-- Number of instances (DESCRIBE, R58). -/
def Kind.count : Kind → Nat
  | .device => 1
  | .pipe => 8
  | .lane => 128
  | .port => 137
  | .frontPort => 128
  | .portNoHost => 136
  | .queue => 2176
  | .spread => 128
  | .gangway => 417
  | .event => eventTable.length
  | .source => sourceCodes.length
  | .evenSource => sourceCodes.length / 2
  | .upto n => n

/-- Type code (R45). -/
def Ty.code : Ty → Nat
  | .u8 => 1 | .u16 => 2 | .u32 => 3 | .u64 => 4 | .s32 => 5 | .s64 => 6 | .bool => 7 | .enum => 8
  | .bitset _ => 9 | .tally => 0x0A | .time80 => 0x0B | .octets _ => 0x0C | .domain _ => 0x0D

/-- Type size in bytes (R45); the maximum size of a DOMAIN. -/
def Ty.size : Ty → Nat
  | .u8 => 1 | .u16 => 2 | .u32 => 4 | .u64 => 8 | .s32 => 4 | .s64 => 8 | .bool => 1 | .enum => 2
  | .bitset n => (n + 7) / 8 | .tally => 4 | .time80 => 10 | .octets n => n | .domain m => m

/-- The type is a DOMAIN. -/
def Ty.isDomain : Ty → Bool
  | .domain _ => true
  | _ => false

/-- The value lies in the type's range (R45, R46); the value has the type's size. -/
def Ty.inRange : Ty → Nat → Bool
  | .bool, v => decide (v ≤ 1)
  | .tally, v => v == 0
  | .time80, v => decide (v % 2 ^ 32 < 1000000000)
  | _, _ => true

/-- Bits above the members of a BITSET are reserved and zero (R45, R15). -/
def Ty.reservedZero : Ty → Nat → Bool
  | .bitset n, v => decide (v < 2 ^ n)
  | _, _ => true

/-- Access-right code (R49). -/
def Right.code : Right → Nat
  | .ro => 1 | .rw => 2 | .wo => 3 | .w1c => 4 | .rwg => 5

/-- Number of instances of a commit group, by what it is arrayed by (R67); none where there is no such group. -/
def groupSize (g : Nat) : Option Nat :=
  if g = 0x01 ∨ g = 0x38 ∨ g = 0x39 then some 137
  else if g = 0x02 ∨ g = 0x08 ∨ g = 0x09 ∨ g = 0x10 ∨ g = 0x12 then some 8
  else if g = 0x11 ∨ g = 0x18 ∨ g = 0x19 ∨ g = 0x22 ∨ g = 0x28 ∨ g = 0x48 ∨ g = 0x50 ∨ g = 0x51 ∨ g = 0x58 then some 1
  else if g = 0x20 ∨ g = 0x21 ∨ g = 0x23 then some 4096
  else if g = 0x30 then some 12
  else if g = 0x31 then some 65536
  else if g = 0x40 then some 4
  else none

/-- The pipe of a port (R5, R7). -/
def pipeOfPort (p : Nat) : Nat := if p < 128 then p / 16 else p - 129

/-- The group instance that a member's instance belongs to (R66). -/
def groupInstOf (g : Nat) (kind : Kind) (inst : Nat) : Nat :=
  if groupSize g = some 1 then 0
  else match kind with
    | .queue => inst / 16
    | .lane => inst / 16
    | .spread => inst / 16
    | .port => if g = 0x08 ∨ g = 0x09 then pipeOfPort inst else inst
    | _ => inst

/-- The members of a group: their rows. -/
def groupRows (g : Nat) : List ObjRow := allObjects.filter fun o => o.group == g

end Sys2Proof.Machine
end

