-- ==== Sys2Proof/Machine/Ops.lean ====
section
/-! DEFINITION. The shared operations: objects, group instances and time, pages and rings, interrupts and events.
Every meaning reads and writes the dictionary, the rings and the event log through these. -/

namespace Sys2Proof.Machine

/-! ### Objects (R11, R45 to R49) -/

/-- Address of an object as one number, laid out as LAST_FAIL (R68). -/
def addrKey (index sub inst : Nat) : Nat := (index * 256 + sub) * 65536 + inst

/-- Value of a run's member at a subindex. -/
def State.getS (s : State) (o : ObjRow) (sub inst : Nat) : Nat :=
  s.dict.active.getD (addrKey o.index sub inst) (o.dflt sub inst)

/-- Value of an object. -/
def State.get (s : State) (o : ObjRow) (inst : Nat := 0) : Nat := s.getS o o.sub inst

/-- `s` with another dictionary. -/
def State.withDict (s : State) (d : Dict) : State := { s with dict := d }

/-- Set a run's member at a subindex; a value equal to the default is not listed. -/
def State.setS (s : State) (o : ObjRow) (sub inst v : Nat) : State :=
  s.withDict { s.dict with active := NMap.set (o.dflt sub inst) s.dict.active (addrKey o.index sub inst) v }

/-- Set an object. -/
def State.set (s : State) (o : ObjRow) (inst v : Nat) : State := s.setS o o.sub inst v

/-- Add to a counter at a subindex; a counter holds as many bits as its type. -/
def State.addS (s : State) (o : ObjRow) (sub inst n : Nat) : State :=
  s.setS o sub inst ((s.getS o sub inst + n) % 2 ^ (8 * o.ty.size))

/-- Add to a counter. -/
def State.add (s : State) (o : ObjRow) (inst n : Nat) : State := s.addS o o.sub inst n

/-- Count one. -/
def State.bump (s : State) (o : ObjRow) (inst : Nat := 0) : State := s.add o inst 1

/-- Take one away from a number of entries. -/
def State.drop (s : State) (o : ObjRow) (inst : Nat := 0) : State := s.set o inst (s.get o inst - 1)

/-- The default slot table of a direction: 256 one-byte entries, entry i with STAGE i mod 2 in bit 7
and CLASS (i div 2) mod 16 in [3:0] (R324, R325). -/
def defaultSlotTable : List Byte :=
  (List.range 256).map fun i => BitVec.ofNat 8 (i % 2 * 128 + i / 2 % 16)

/-- Default of a DOMAIN (R19). -/
def domainDefault (index : Nat) : List Byte := if index = 0x5000 then defaultSlotTable else []

/-- Value of a DOMAIN. -/
def State.getDom (s : State) (o : ObjRow) (inst : Nat := 0) : List Byte :=
  s.dict.domains.getD (addrKey o.index o.sub inst) (domainDefault o.index)

/-- Set a DOMAIN. -/
def State.setDom (s : State) (o : ObjRow) (inst : Nat) (v : List Byte) : State :=
  s.withDict { s.dict with
    domains := NMap.set (domainDefault o.index) s.dict.domains (addrKey o.index o.sub inst) v }

/-- Staged value of an RWG object: the active value where no staged write stands (R69). -/
def State.stagedS (s : State) (o : ObjRow) (sub inst : Nat) : Nat :=
  s.dict.staged.getD (addrKey o.index sub inst) (s.getS o sub inst)

/-- Staged value of an RWG object. -/
def State.staged (s : State) (o : ObjRow) (inst : Nat := 0) : Nat := s.stagedS o o.sub inst

/-- Staged value of an RWG DOMAIN. -/
def State.stagedDom (s : State) (o : ObjRow) (inst : Nat := 0) : List Byte :=
  s.dict.stagedDoms.getD (addrKey o.index o.sub inst) (s.getDom o inst)

/-! ### Commit group instances (R66 to R83) -/

/-- Number of a group instance. -/
def groupKey (g inst : Nat) : Nat := g * 65536 + inst

/-- A group instance. -/
def State.group (s : State) (g inst : Nat) : GroupInst := s.dict.groups.getD (groupKey g inst) {}

/-- Change a group instance. -/
def State.setGroup (s : State) (g inst : Nat) (x : GroupInst) : State :=
  s.withDict { s.dict with groups := NMap.set {} s.dict.groups (groupKey g inst) x }

/-! ### Places (R3 to R10, R20) -/

/-- The deck of a pipe (R3). -/
def deckOfPipe (p : Nat) : Nat := p / 2
/-- The deck of a port, through its pipe (R5, R7, R20). -/
def deckOfPort (p : Nat) : Nat := deckOfPipe (pipeOfPort p)
/-- Source deck of a chain-link direction (R10). -/
def dirSource (d : Nat) : Nat := d / 3
/-- Destination deck of a chain-link direction: the k-th other deck (R10). -/
def dirDest (d : Nat) : Nat := if d % 3 < d / 3 then d % 3 else d % 3 + 1
/-- The direction from one deck to another (R10). -/
def dirOf (src dst : Nat) : Nat := src * 3 + (if dst < src then dst else dst - 1)
/-- The opposite direction of the same chain link. -/
def dirBack (d : Nat) : Nat := dirOf (dirDest d) (dirSource d)

/-! ### Time (R12, R407, R410, R420) -/

/-- Units of 2^-32 ns in a nanosecond. -/
def nsUnit : Nat := 2 ^ 32

/-- TIME80 of a count of nanoseconds. -/
def time80OfNs (ns : Nat) : Nat := ns / 1000000000 % 2 ^ 48 * 2 ^ 32 + ns % 1000000000

/-- Nanoseconds of a TIME80. -/
def nsOfTime80 (t : Nat) : Nat := t / 2 ^ 32 * 1000000000 + t % 2 ^ 32

/-- Device time in whole nanoseconds. -/
def State.nowNs (s : State) : Nat := s.time.now / nsUnit

/-- TIME_NOW (R407). -/
def State.now80 (s : State) : Nat := time80OfNs s.nowNs

/-- The 64 bits of a TIME80 that R410 compares, in nanoseconds. -/
def cmpNs (t : Nat) : Nat := t / 2 ^ 32 % 2 ^ 32 * 1000000000 + t % 2 ^ 32

/-- Signed difference a − b of two times: seconds wrap at 2^32 (R410). -/
def timeDiff (a b : Nat) : Int :=
  let m : Int := 2 ^ 32 * 1000000000
  let d := ((cmpNs a : Int) - cmpNs b) % m
  if d < m / 2 then d else d - m

/-- The residence counter has run for at least `ns` nanoseconds since tick `t` (R420: 0.8 ns a tick).
(DEDUCED: log entry 80.) -/
def State.elapsed (s : State) (t ns : Nat) : Bool := decide (ns * 5 ≤ (s.time.ticks - t) * 4)

/-- The residence counter has run for more than `ns` nanoseconds since tick `t` (R357).
(DEDUCED: log entry 80.) -/
def State.exceeds (s : State) (t ns : Nat) : Bool := decide (ns * 5 < (s.time.ticks - t) * 4)

/-- Nanoseconds of residence since tick `t`.
(DEDUCED: log entry 80.) -/
def State.sinceNs (s : State) (t : Nat) : Nat := (s.time.ticks - t) * 4 / 5

/-- Ticks of a time of `ns` nanoseconds, rounded up.
(DEDUCED: log entry 80.) -/
def ticksOfNs (ns : Nat) : Nat := ceilDiv (ns * 5) 4

/-- Draw a free value (log entry 1): the value, and the state with the draw counted.
(DESIGN CHOICE: log entry 1.) -/
def State.draw (s : State) : Nat × State := ((Config.free s.drawn).toNat, { s with drawn := s.drawn + 1 })

/-! ### Pages and bollards (R97 to R100) -/

/-- Size of a page. -/
def pageSize : Nat := 4096

/-- The device owns the page. -/
def State.owned (s : State) (page : Nat) : Bool := s.host.bollards.getD page 0 == 1

/-- `s` with another host interface. -/
def State.withHost (s : State) (h : HostIf) : State := { s with host := h }

/-- Set the bollard of a page: 1 device, 0 host. -/
def State.setBollard (s : State) (page v : Nat) : State :=
  s.withHost { s.host with bollards := NMap.set 0 s.host.bollards page v }

/-- What an unlisted byte of quay-window memory reads as: 0 since boot (R492), a free value after a map-order change of
its stack (R97, R384).
(DEDUCED: log entry 23.) (DESIGN CHOICE: log entry 71.) -/
def State.quayDefault (s : State) (a : Nat) : Byte :=
  match s.host.scrambled.find (a / 0x4000000) with
  | some n => BitVec.ofNat 8 (Config.free (n + a)).toNat
  | none => 0

/-- Byte of quay-window memory.
(DEDUCED: log entry 23.) -/
def State.quayByte (s : State) (a : Nat) : Byte := NMap.getD s.host.quay a (s.quayDefault a)

/-- Bytes of quay-window memory. -/
def State.quayRead (s : State) (a n : Nat) : List Byte := (List.range n).map fun i => s.quayByte (a + i)

/-- Bytes put into a memory of bytes, one after the other. -/
def putBytes (d : Byte) : NMap Byte → Nat → List Byte → NMap Byte
  | m, _, [] => m
  | m, a, b :: bs => putBytes d (NMap.set d m a b) (a + 1) bs

/-- Write bytes of quay-window memory; a byte that stays at what an unlisted one reads is not listed. -/
def State.quayWrite (s : State) (a : Nat) : List Byte → State
  | [] => s
  | b :: bs =>
    (s.withHost { s.host with quay := NMap.set (s.quayDefault a) s.host.quay a b }).quayWrite (a + 1) bs

/-- The pages of a page-range value (R118): first page and image length. -/
def rangePages (v : Nat) : List Nat := (List.range (ceilDiv (v % 2 ^ 32) pageSize)).map (bitsOf v 47 32 + ·)

/-- A page-range value is whole: reserved bits zero, inside the window, every page device-owned (R118); a length of 0 is
refused too (log entry 84).
(DESIGN CHOICE: log entry 84.) -/
def State.rangeOk (s : State) (v : Nat) : Bool :=
  v / 2 ^ 48 == 0 && v % 2 ^ 32 != 0 && (rangePages v).all fun n => decide (n < 65536) && s.owned n

/-- The image in a page range (R118). -/
def State.rangeBytes (s : State) (v : Nat) : List Byte := s.quayRead (bitsOf v 47 32 * pageSize) (v % 2 ^ 32)

/-- The pages of a load pass back to the host (R118). -/
def passBack (v : Nat) (s : State) : State := (rangePages v).foldl (fun s n => s.setBollard n 0) s

/-! ### Bursts and poison (R378, R380, R388, R397) -/

/-- Burst of a half offset of a pipe's half, keyed stack × 2^28 + burst address (R378). -/
def burstKey (p off : Nat) : Nat := p / 2 * 2 ^ 28 + p % 2 * 2 ^ 27 + off / 64

/-- Half offset of a flow pier (R380). -/
def pierOffset (n : Nat) : Nat := n * 64
/-- Half offset of the fore half of a record slot; the aft half follows. -/
def slotOffset (slot : Nat) : Nat := 0x10000000 + slot * 128
/-- Half offset of the aft half of a record slot. -/
def aftOffset (slot : Nat) : Nat := slotOffset slot + 64
/-- Half offset of an entry of a NAT column, in the half of pipe c mod 8 (R266, R380). -/
def natOffset (q c r : Nat) : Nat := 0x90000000 + (q * 512 + c / 8) * 128 + r * 8
/-- Half offset of a slot of a service's active slot table, in the half of pipe v mod 8 (R380, R381). -/
def balanceOffset (v i : Nat) : Nat := 0xA0000000 + v / 8 * 0x80000 + i * 8
/-- Half offset of a golden word (R380). -/
def goldenOffset (aft : Bool) (addr : Nat) : Nat := 0xBA000000 + (bit01 aft * 8192 + addr) * 32
/-- Half offset of a pipe's export staging store. -/
def stagingOffset : Nat := 0xB2000000

/-- The half of a BAR2 byte and its offset there (R97, R381). -/
def quayPlace (a : Nat) : Nat × Nat :=
  let n := a / pageSize
  (n / 16384 * 2 + n % 16384 / 8192, 0xB0000000 + n % 8192 * pageSize + a % pageSize)

/-- `s` with other memory controllers. -/
def State.withHbm (s : State) (h : Hbm) : State := { s with hbm := h }

/-- A burst holds poisoned data. -/
def State.poisonedBurst (s : State) (k : Nat) : Bool := s.hbm.poisoned.contains k

/-- The burst at a half offset of a pipe's half is poisoned. -/
def State.poison (s : State) (p off : Nat) : Bool := s.poisonedBurst (burstKey p off)

/-- Some burst of [off, off + n) is poisoned. -/
def State.poisonIn (s : State) (p off n : Nat) : Bool :=
  s.hbm.poisoned.any fun k => decide (burstKey p off ≤ k) && decide (k ≤ burstKey p (off + n - 1))

/-- A full write of a burst clears its poison and its entry of the poison list (R397). -/
def clearBurst (k : Nat) (s : State) : State :=
  if !s.poisonedBurst k then s
  else
    let d := k / 2 ^ 28
    let l := (s.hbm.poison.getD d []).filter (· != k % 2 ^ 28)
    let s := s.withHbm { s.hbm with poisoned := s.hbm.poisoned.filter (· != k), poison := NMap.set [] s.hbm.poison d l }
    s.set Obj.poisoned d l.length

/-- Clear the poison of the burst at a half offset. -/
def clearPoison (p off : Nat) (s : State) : State := clearBurst (burstKey p off) s

/-- Every burst of [off, off + n) is written whole.
(DEDUCED: log entry 52.) -/
def clearRange (p off n : Nat) (s : State) : State :=
  (s.hbm.poisoned.filter fun k =>
    decide (burstKey p off ≤ k) && decide (k ≤ burstKey p (off + n - 1))).foldl (fun s k => clearBurst k s) s

/-- A requester has bursts for its controller (R388); the controller takes them over at the next tick.
(DESIGN CHOICE: log entry 74.) -/
def askBurst (b : BurstAsk) (s : State) : State := s.withHbm { s.hbm with due := s.hbm.due ++ [b] }

/-- A requester has `n` bursts from a half offset of a pipe's half on. -/
def wantBurst (rr : Requester) (write : Bool) (p off : Nat) (s : State) (n : Nat := 1) : State :=
  askBurst { rr := rr, write := write, stack := p / 2, burst := p % 2 * 2 ^ 27 + off / 64, n := n } s

/-- A requester has the bursts of the bytes [a, a + n) of the quay window, which lie in one page; a write that does not
cover them whole leaves the rest of them as it is. -/
def quayPiece (rr : Requester) (write : Bool) (a n : Nat) (s : State) : State :=
  let (p, off) := quayPlace a
  askBurst { rr := rr, write := write, stack := p / 2, burst := p % 2 * 2 ^ 27 + off / 64,
             n := (off % 64 + n + 63) / 64, part := a % 64 != 0 || n % 64 != 0 } s

/-- A requester has the bursts of the bytes [a, a + n) of the quay window, page by page (R381). -/
def quayAsk (rr : Requester) (write : Bool) (a n : Nat) (s : State) : State :=
  if n = 0 then s
  else (List.range ((a + n + pageSize - 1) / pageSize - a / pageSize)).foldl (fun s i =>
    let from_ := max a ((a / pageSize + i) * pageSize)
    let to_ := min (a + n) ((a / pageSize + i + 1) * pageSize)
    quayPiece rr write from_ (to_ - from_) s) s

/-! ### Interrupt vectors (R584) -/

/-- Signal a vector: its cause bit, and one MSI-X message or a pending bit.
(DEDUCED: log entry 15.) -/
def signalVector (v : Nat) (s : State) : State :=
  if 64 ≤ v then s
  else
    let h := { s.host with vectorCause := setBit s.host.vectorCause v }
    if !h.msixEnabled then s.withHost h
    else if h.functionMask || !bitOf h.unmasked v then s.withHost { h with pba := setBit h.pba v }
    else s.withHost { h with messages := NMap.modify 0 h.messages v (· + 1) }

/-- Set a bit of INT_PIN_CAUSE (R571). -/
def setPinCause (i : Nat) (s : State) : State := s.set Obj.intPinCause 0 (setBit (s.get Obj.intPinCause) i)

/-- INT_N is driven low (R571). -/
def State.intN (s : State) : Bool := Nat.land (s.get Obj.intPinCause) (s.get Obj.intPinEnable) != 0

/-- TW_ALERT_N is driven low (R572). -/
def State.twAlertN (s : State) : Bool :=
  Nat.land (s.get Obj.intPinCause) (s.get Obj.twAlertEnable) != 0 ||
  (s.get Obj.twAlertOnReady == 1 && (s.tw.ready.isSome || s.tw.pecFailed))

/-! ### Rings (R101 to R105) -/

/-- A ring's position. -/
def State.ringPos (s : State) (r : Nat) : RingPos := s.host.rings.getD r {}

/-- Set a ring's position and RING_POSITION with it. -/
def State.setRing (s : State) (r : Nat) (x : RingPos) : State :=
  (s.withHost { s.host with rings := NMap.set {} s.host.rings r x }).set Obj.ringPosition r x.page

/-- First page of a ring. -/
def State.ringFirst (s : State) (r : Nat) : Nat := s.get Obj.ringFirstPage r

/-- Number of pages of a ring; 0 disables it. -/
def State.ringPages (s : State) (r : Nat) : Nat := s.get Obj.ringPages r

/-- Pass a page of a ring to the host: clear its bollard and signal the ring's vector (R98, R101). -/
def passPage (r page : Nat) (s : State) : State :=
  signalVector (s.get Obj.ringVector r) (s.setBollard page 0)

/-- Every page that bytes [off, off + n) of a ring touch is device-owned. -/
def State.ringOwns (s : State) (r off n : Nat) : Bool :=
  (List.range ((off + n - 1) / pageSize - off / pageSize + 1)).all fun i => s.owned (s.ringFirst r + off / pageSize + i)

/-- A PAD record of `n` bytes (R103).
(DEDUCED: log entry 21.) -/
def padRecord (n : Nat) : List Byte := (leBytes 1 0 ++ leBytes 1 0 ++ leBytes 2 n ++ List.replicate (n - 4) 0).take n

/-- The records of every ring but the event ring fill whole bursts, whose poison ends (R397). -/
def ringCleared (r off n : Nat) (s : State) : State :=
  if r = 20 then s
  else (List.range (n / 64)).foldl (fun s i =>
    let (p, o) := quayPlace (s.ringFirst r * pageSize + off + 64 * i)
    clearPoison p o s) s

/-- Write a ring's bytes at an offset, on the requester EXPORT (R388). -/
def ringWrite (r off : Nat) (bs : List Byte) (s : State) : State :=
  let a := s.ringFirst r * pageSize + off
  quayAsk .exporter true a bs.length (ringCleared r off bs.length (s.quayWrite a bs))

/-- Move a producer's position from `off` to `off'`, passing every page that is now full, and wrap at the end. -/
def ringAdvance (r off off' : Nat) (s : State) : State :=
  let full := (List.range (off' / pageSize - off / pageSize)).map (· + off / pageSize)
  let s := full.foldl (fun s p => passPage r (s.ringFirst r + p) s) s
  let x := s.ringPos r
  let wrapped := if off' = s.ringPages r * pageSize then 0 else off'
  let first := if off' % pageSize = 0 then none
    else if off' / pageSize = off / pageSize ∧ x.firstAt.isSome then x.firstAt else some s.time.ticks
  s.setRing r { x with page := wrapped / pageSize, byte := wrapped % pageSize, firstAt := first }

/-- End the page that is being filled with PAD, or with zeros in the event ring, and pass it (R103, R104, R110). -/
def ringPassPartial (r : Nat) (s : State) : State :=
  let x := s.ringPos r
  if x.byte = 0 then s
  else
    let off := x.page * pageSize + x.byte
    let n := pageSize - x.byte
    ringAdvance r off (off + n) (ringWrite r off (if r = 20 then List.replicate n 0 else padRecord n) s)

/-- The device may produce a record of `n` bytes into the ring: it is enabled, the PCIe link is up, and the pages
are device-owned, those of a PAD to the ring's end included (R92, R103, R104). -/
def State.ringRoom (s : State) (r n : Nat) : Bool :=
  let total := s.ringPages r * pageSize
  let x := s.ringPos r
  let off := x.page * pageSize + x.byte
  decide (0 < total) && s.host.linkUp && decide (n ≤ total) &&
  (if off + n ≤ total then s.ringOwns r off n
   else (x.byte == 0 || s.ringOwns r off (total - off)) && s.ringOwns r off (total - off) && s.ringOwns r 0 n)

/-- Write one record into a ring that has room for it (R103, R104). -/
def ringPut (r : Nat) (rec : List Byte) (s : State) : State :=
  let n := if r = 20 then rec.length else roundUp rec.length 64
  let total := s.ringPages r * pageSize
  let x := s.ringPos r
  let off := x.page * pageSize + x.byte
  let s := if off + n ≤ total then s
    else ringAdvance r off total (ringWrite r off (padRecord (total - off)) s)
  let x := s.ringPos r
  let off := x.page * pageSize + x.byte
  let s := ringWrite r off (rec ++ List.replicate (n - rec.length) 0) s
  let s := (ringAdvance r off (off + n) s).bump Obj.ringRecords r
  if s.get Obj.ringFlushNs r = 0 then ringPassPartial r s else s

/-! ### Events (R84 to R88, R467, R493, R534 to R536) -/

/-- A deck is in service (R527). -/
def State.deckUp (s : State) (d : Nat) : Bool := s.get Obj.deckState d == 0

/-- The core clock of a deck runs: its core PLL has not lost lock. Frames on a deck without it wait (R526). -/
def State.ticking (s : State) (d : Nat) : Bool := (s.avail.unlocked.find (d * 8)).isNone

/-- The deck that counts the events of elements that no deck holds: D0, or the lowest in service (R533). -/
def State.homeDeck (s : State) : Nat :=
  if s.deckUp 0 then 0 else if s.deckUp 1 then 1 else if s.deckUp 2 then 2 else 3

/-- The element that an event's INSTANCE names (R533). -/
def elementOf (code : Nat) : Element :=
  match eventTable.find? fun e => e.1 == code with
  | some e => e.2.2
  | none => .other

/-- The deck that counts an event (R533), 0 to 3. -/
def State.eventDeck (s : State) (code inst arg0 : Nat) : Nat :=
  (match elementOf code with
  | .port => deckOfPort inst
  | .pipe => deckOfPipe inst
  | .cluster => inst / 16
  | .direction => dirSource inst
  | .deck => inst
  | .queue => deckOfPort (inst / 16)
  | .pc => inst / 32
  | .gangway => inst / 128
  | .sensor => inst / 4
  | .calibration => if arg0 = 0x9110 then inst / 4 else if arg0 = 0x9120 then inst else inst / 32
  | .other => s.homeDeck) % 4

/-- The pair of a code is chained on a deck (R536). -/
def State.chained (s : State) (code d : Nat) : Bool := s.getS Obj.chain (d + 1) (code / 2 * 2) == 1

/-- Count in a 40-bit counter; true where it wrapped. -/
def countOne (code d : Nat) (s : State) : Bool × State :=
  let v := s.getS Obj.eventCount (d + 1) code
  if v + 1 = 2 ^ 40 then (true, s.setS Obj.eventCount (d + 1) code 0)
  else (false, s.setS Obj.eventCount (d + 1) code (v + 1))

/-- Count an event on its deck (R534 to R536); the code of the counter whose wrap is to be raised, and whether
it is chained. -/
def countEvent (code d : Nat) (s : State) : Option (Nat × Bool) × State :=
  if s.chained code d then
    if code % 2 = 1 then (none, s)
    else match countOne code d s with
      | (false, s) => (none, s)
      | (true, s) => match countOne (code + 1) d s with
        | (false, s) => (none, s)
        | (true, s) => (some (code + 1, true), s.setS Obj.countOverflow (d + 1) (code + 1) 1)
  else match countOne code d s with
    | (false, s) => (none, s)
    | (true, s) => (some (code, false), s.setS Obj.countOverflow (d + 1) code 1)

/-- `s` with other event-logging state. -/
def State.withEvents (s : State) (e : Events) : State := { s with events := e }

/-- A log record's 32 bytes (R84). -/
def logBytes (r : LogRec) : List Byte :=
  leBytes 10 r.time ++ leBytes 2 r.code ++ leBytes 2 r.inst ++ leBytes 1 r.severity ++ [0] ++ leBytes 4 r.seq ++
  leBytes 4 r.arg0 ++ leBytes 8 r.arg1

/-- Number a record and write it into the event ring; the ring has room. -/
def logWrite (r : LogRec) (s : State) : State :=
  let q := (s.get Obj.lastSequence + 1) % 2 ^ 32
  ringPut 20 (logBytes { r with seq := q }) (s.set Obj.lastSequence 0 q)

/-- Count a record that the log could not take (R87). -/
def logDrop (s : State) : State :=
  (s.withEvents { s.events with dropped := s.events.dropped + 1 }).bump Obj.logDropped

/-- The rate-limit second that runs: the residence counter's second since first start (R86).
(DEDUCED: log entry 19.) -/
def State.second (s : State) : Nat := s.time.ticks / 1250000000

/-- Records logged in the running second. -/
def State.loggedInSecond (s : State) (code : Nat) : Nat :=
  if s.events.secondStart = s.second then s.events.inSecond.getD code 0 else 0

/-- Count one more record of the running second. -/
def noteLogged (code : Nat) (s : State) : State :=
  let m := if s.events.secondStart = s.second then s.events.inSecond else []
  s.withEvents { s.events with secondStart := s.second, inSecond := NMap.modify 0 m code (· + 1) }

/-- Begin a stall of a ring at a record of `n` bytes; true where it is new (R104). -/
def ringStall (r n : Nat) (s : State) : Bool × State :=
  let x := s.ringPos r
  if x.stalled ∨ s.ringPages r = 0 then (false, s)
  else (true, s.setRing r { x with stalled := true, dropped := 0, need := n })

/-- Quay-window page at which a ring stands (R97, R119).
(DEDUCED: log entry 21.) -/
def State.ringPage (s : State) (r : Nat) : Nat := s.ringFirst r + (s.ringPos r).page

/-- Count one record that a stalled ring dropped. -/
def ringDropped (r : Nat) (s : State) : State :=
  let x := s.ringPos r
  if x.stalled then s.setRing r { x with dropped := x.dropped + 1 } else s

/-- Signal an event as IRQ_ENABLE says (R88). -/
def signalEvent (code : Nat) (s : State) : State :=
  if s.get Obj.irqEnable code = 1 then signalVector 0 (setPinCause 0 s) else s

/-- Put a record into the event ring; true where the ring begins to stall (R87, R104). -/
def logRecord (r : LogRec) (s : State) : Bool × State :=
  if s.ringRoom 20 32 then (false, logWrite r s)
  else
    let x := ringStall 20 32 s
    (x.1, ringDropped 20 (logDrop x.2))

/-- Count an event that its RATE_LIMIT suppresses, in the second in which it falls (R86). -/
def noteSuppressed (code : Nat) (s : State) : State :=
  s.withEvents { s.events with
    suppressed := NMap.modify [] s.events.suppressed s.second fun m => NMap.modify 0 m code (· + 1) }

/-- Log an event as LOG_ENABLE, RATE_LIMIT and the event stores allow; true where the event ring begins to stall (R84 to
R87, R467). A record that a full log or a full store then drops has counted against RATE_LIMIT (log entry 82).
(DEDUCED: log entry 19.) (DESIGN CHOICE: log entry 82.) -/
def logEvent (code inst arg0 arg1 : Nat) (s : State) : Bool × State :=
  if s.get Obj.logEnable code ≠ 1 then (false, s)
  else if s.get Obj.rateLimit code ≠ 0 ∧ s.get Obj.rateLimit code ≤ s.loggedInSecond code then
    (false, noteSuppressed code s)
  else
    let d := s.eventDeck code inst arg0
    let s := noteLogged code s
    let r : LogRec := { time := s.now80, code := code, inst := inst % 65536, severity := eventSeverity code,
                        seq := 0, arg0 := arg0 % 2 ^ 32, arg1 := arg1 % 2 ^ 64 }
    let store := s.events.stores.getD d []
    if s.events.storing ∨ store ≠ [] then
      if store.length < 64 then
        (false, s.withEvents { s.events with stores := NMap.set [] s.events.stores d (store ++ [r]) })
      else (false, s.bump Obj.logDropped)
    else logRecord r s

/-- Raise an event and, up to `fuel` deep, the events that raising it causes: counted in every case, then signalled and
logged (R84 to R88, R534). -/
def raiseN : Nat → Nat → Nat → Nat → Nat → State → State
  | 0, _, _, _, _, s => s
  | fuel + 1, code, inst, arg0, arg1, s =>
    let d := s.eventDeck code inst arg0
    let c := countEvent code d s
    let s := match c.1 with
      | some (w, ch) => raiseN fuel Ev.counterWrapped w d (bit01 ch) c.2
      | none => c.2
    let l := logEvent code inst arg0 arg1 (signalEvent code s)
    if l.1 then raiseN fuel Ev.ringStall 20 (l.2.ringPage 20) 0 l.2 else l.2

/-- Raise an event (R84): its code, INSTANCE, ARG0 and ARG1. -/
def raise (code inst arg0 arg1 : Nat) (s : State) : State := raiseN 4 code inst arg0 arg1 s

/-- Produce a record into a ring, or stall: true where the record was placed (R104). -/
def produce (r : Nat) (rec : List Byte) (s : State) : Bool × State :=
  let n := if r = 20 then rec.length else roundUp rec.length 64
  if s.ringRoom r n then (true, ringPut r rec s)
  else
    let (new, s) := ringStall r n s
    let s := if new then raise Ev.ringStall r (s.ringPage r) 0 s else s
    (false, s)

/-- Write out the oldest records of the decks' event stores while the event ring has room (R467, R493). -/
def drainStores : Nat → State → State
  | 0, s => s
  | fuel + 1, s =>
    if s.events.storing ∨ !s.ringRoom 20 32 then s
    else match s.events.stores with
      | [] => s
      | (_, []) :: _ => s
      | (d, r :: rest) :: _ =>
        let s := s.withEvents { s.events with stores := NMap.set [] s.events.stores d rest }
        drainStores fuel (logWrite r s)

/-- The stall of a ring ends: reported with the records dropped in it (R104). -/
def endStall (r : Nat) (s : State) : State :=
  let x := s.ringPos r
  raise Ev.ringStall r (s.ringPage r) x.dropped (s.setRing r { x with stalled := false, dropped := 0, need := 0 })

/-- Space has returned to a device-produced ring: a stall ends once the record that began it could be placed, and lost
log records are reported (R87, R104). -/
def ringSpaceReturned (r : Nat) (s : State) : State :=
  let s := if (s.ringPos r).stalled ∧ s.ringRoom r (s.ringPos r).need then endStall r s else s
  if r = 20 then
    let s := if s.events.dropped ≠ 0 ∧ s.ringRoom 20 32 then
        let n := s.events.dropped
        raise Ev.eventLogFull 0 0 n (s.withEvents { s.events with dropped := 0 })
      else s
    drainStores 256 s
  else s

/-! ### Routes and control frames of the fabric (R439, R446, R454) -/

/-- The ports of a route entry whose adjacency is UP, in entry order. -/
def State.routePorts (s : State) (device : Nat) : List Nat :=
  let e := s.get Obj.routeEntry device
  if !bitOf e 71 then []
  else ((List.range (Nat.min (bitsOf e 66 64) 4)).map fun i => bitsOf e (16 * i + 15) (16 * i)).filter fun p =>
    s.get Obj.adjState p == 2

/-- The egress port for a flow hash and a destination device (R439). -/
def State.routePort (s : State) (hash device : Nat) : Option Nat :=
  let l := s.routePorts device
  l[bitsOf hash 19 12 * l.length / 256]?

/-- ACTIVE_DEVICE_ID: the DEVICE_ID until an ID is claimed (R449, R461). -/
def State.deviceId (s : State) : Nat := s.get Obj.activeDeviceId

/-- `s` with another fabric state. -/
def State.withFabric (s : State) (f : Fabric) : State := { s with fabric := f }

/-- Low 32 bits of device time in ms (R446). -/
def State.sentMs (s : State) : Nat := s.nowNs / 1000000 % 2 ^ 32

/-- The header of a frame under EtherType 0x88B6 (R446). -/
def ctrlHeader (kind hops dst src slot seq ms n : Nat) : List Byte :=
  beBytes 1 (16 + kind) ++ beBytes 1 (hops * 16) ++ beBytes 2 dst ++ beBytes 2 src ++ beBytes 2 slot ++ beBytes 4 seq ++
  beBytes 4 ms ++ beBytes 2 n ++ [0, 0]

/-- The MAC of a frame under EtherType 0x88B6, by a key (R446).
(DEDUCED: log entry 57.) -/
def ctrlMac (key : Nat) (msg : List Byte) : List Byte :=
  (beBytes 32 (Config.hmacSha256 (leBytes 32 key) msg).toNat).take 16

/-- A frame under EtherType 0x88B6 without FCS (R446): a zero MAC without a key. -/
def State.ctrlFrame (s : State) (mac kind hops dst slot seq : Nat) (key : Option Nat) (body : List Byte) : List Byte :=
  let me := s.deviceId
  let msg := ctrlHeader kind hops dst me slot seq s.sentMs body.length ++ body
  let tail := match key with
    | some k => ctrlMac k msg
    | none => List.replicate 16 0
  let bs := leBytes 6 mac ++ [0x02, 0, 0, 0] ++ beBytes 2 me ++ [0x88, 0xB6] ++ msg ++ tail
  bs ++ List.replicate (60 - bs.length) 0

/-- Bytes that pass the MAC of a front port: `tx` 0 received, 1 transmitted (R541).
(DEDUCED: log entry 48.) -/
def noteBytes (port tx n : Nat) (s : State) : State :=
  if 128 ≤ port then s
  else { s with count := { s.count with bytes := NMap.modify 0 s.count.bytes (port * 2 + tx) (· + n) } }

/-- Send a control frame on a port.
(DEDUCED: log entry 58.) -/
def sendFabric (port : Nat) (bs : List Byte) (s : State) : State :=
  noteBytes port 1 (bs.length + 4) (s.withFabric { s.fabric with sent := s.fabric.sent ++ [(port, bs)] })

/-- The RESPONSE to an accepted REQUEST (R455, R457): to its source by the first port of the route, or back by the edge
port it came by. -/
def sendAcpAnswer (a : AcpPending) (r : Response) (s : State) : State :=
  let mac := match a.edge with
    | some m => m
    | none => s.get Obj.fabricCtrlMac
  let bs := s.ctrlFrame mac 6 (s.get Obj.maxHops) a.device a.keySlot a.seq (some a.key) (responseBytes r)
  match a.edge, s.routePorts a.device with
  | some _, _ => sendFabric a.port bs s
  | none, p :: _ => sendFabric p bs s
  | none, [] => s

/-! ### Sessions and answers (R60, R61) -/

/-- Session ID of a path (R61). -/
def sessionId : Path → Nat
  | .mailbox _ => 0x10000000
  | .acp d k _ => 0x20000000 + d.toNat * 4096 + k.val
  | .twoWire => 0x30000000
  | .boot => 0x40000000

/-- The accepted ACP request of a session (R457). -/
def State.acpPending (s : State) (device slot seq : Nat) : Option AcpPending :=
  s.fabric.acp.find? fun a => a.device == device && a.keySlot == slot && a.seq == seq

/-- Level of a session for a request to an index (R54, R60); the level of an ACP key is its slot's. -/
def State.levelOf (s : State) (p : Path) (index : Nat) (write : Bool) : Nat :=
  let base := match p with
    | .mailbox _ => 2
    | .acp d k q => match (s.acpPending d.toNat k.val q.toNat).bind AcpPending.old with
      | some level => level
      | none => s.get Obj.acpKeyLevel k.val
    | .twoWire =>
      if write && (decide (0x7A00 ≤ index ∧ index ≤ 0x7A7F) || decide (0x8000 ≤ index ∧ index ≤ 0x80FF)) then 2 else 0
    | .boot => 2
  if (s.dict.vendor.any fun x => x.1 == sessionId p) then 3 else base

/-- A mailbox slot. -/
def State.slot (s : State) (k : Nat) : MbSlot := s.host.slots.getD k {}

/-- Change a mailbox slot. -/
def State.setSlot (s : State) (k : Nat) (x : MbSlot) : State :=
  s.withHost { s.host with slots := NMap.set {} s.host.slots k x }

/-- Hand a response to the path its request came by; a refused configuration record is counted and reported (R499). -/
def answer (p : Path) (r : Response) (s : State) : State :=
  match p with
  | .mailbox k =>
    let x := s.slot k.val
    if x.state = 1 then s.setSlot k.val { x with answer := some r } else s
  | .twoWire => { s with tw := { s.tw with answer := some r } }
  | .acp d k q => match s.acpPending d.toNat k.val q.toNat with
    | none => s
    | some a => sendAcpAnswer a r (s.withFabric { s.fabric with acp := s.fabric.acp.filter (· != a) })
  | .boot =>
    let s := { s with boot := { s.boot with answer := some r } }
    if r.status = 0 then s
    else raise Ev.bootConfigFailed 0 (s.boot.configIndex - 1) (r.status * 256 + r.opcode)
      (s.bump Obj.configRecordsFailed)

/-- Hand a response to a path that may have dropped it. -/
def answerOpt (p : Option Path) (r : Response) (s : State) : State :=
  match p with
  | some p => answer p r s
  | none => s

/-- Nobody waits any more for the responses that `drop` names: they are discarded when made (R92, R512). -/
def dropReplies (drop : Path → Bool) (s : State) : State :=
  let opt (p : Option Path) : Option Path := p.filter fun p => !drop p
  let job (j : KeelJob) : KeelJob := { j with path := opt j.path }
  let s := s.withDict { s.dict with groups := s.dict.groups.map fun x =>
    (x.1, { x.2 with validating := x.2.validating.map fun v => { v with path := opt v.path },
                     replyTo := x.2.replyTo.filter fun p => !drop p.1 }) }
  { s with boot := { s.boot with keel := s.boot.keel.map job, keelQueue := s.boot.keelQueue.map job,
                                 rollback := s.boot.rollback.map job } }

/-- The response to a request. -/
def respond (q : Request) (status : Nat) (value : List Byte := []) (offset : Nat := 0) : Response :=
  { opcode := q.opcode.toNat, status := status, tag := q.tag, index := q.index, sub := q.sub, inst := q.inst,
    offset := offset, value := value }

/-- A Pilot runs its firmware (R509). -/
def State.pilotUp (s : State) (d : Nat) : Bool := s.get Obj.pilotState d == 0

/-- Some Pilot is RUNNING (R515). -/
def State.anyPilot (s : State) : Bool := s.pilotUp 0 || s.pilotUp 1 || s.pilotUp 2 || s.pilotUp 3

/-- The Pilot that serves requests: the lowest that is RUNNING (log entry 12).
(DESIGN CHOICE: log entry 12.) -/
def State.servingPilot (s : State) : Nat :=
  if s.pilotUp 0 then 0 else if s.pilotUp 1 then 1 else if s.pilotUp 2 then 2 else 3

/-! ### Frames -/

/-- A frame in the device. -/
def State.frame (s : State) (f : FrameId) : Option Frame := s.frames.find f

/-- Set a frame. -/
def State.setFrame (s : State) (f : FrameId) (x : Frame) : State := { s with frames := s.frames.put f x }

/-- Change a frame where it is in the device. -/
def State.modFrame (s : State) (f : FrameId) (g : Frame → Frame) : State :=
  match s.frame f with
  | some x => s.setFrame f (g x)
  | none => s

/-- A frame leaves the device: its cells are freed (R20). -/
def State.freeFrame (s : State) (f : FrameId) : State := { s with frames := s.frames.del f }

/-- Cells in use on a deck, over all frames. -/
def State.cellsUsed (s : State) (d : Nat) : Nat := s.frames.foldl (fun n x => n + x.2.cells.getD d 0) 0

/-- Free cells F of a deck's packet buffer (R351). -/
def State.freeCells (s : State) (d : Nat) : Nat := 262144 - s.cellsUsed d

/-- Cells of a frame of `n` bytes with its descriptor (R351). -/
def cellsOf (n : Nat) : Nat := ceilDiv n 256

end Sys2Proof.Machine
end

