-- ==== Sys2Proof/Machine/Frames.lean ====
section
/-! DEFINITION. Frames between the stages: ferry tags as received, ingress accounts, crossings cell by cell, stamps,
hole notices, discards, and the flush of a port (01, 04, 10, 11, 14). -/

namespace Sys2Proof.Machine

/-! ### Ports -/

/-- A front port's link. -/
def State.link (s : State) (p : Nat) : PortLink := s.links.getD p {}

/-- Change a front port's link. -/
def State.setLink (s : State) (p : Nat) (x : PortLink) : State := { s with links := NMap.set {} s.links p x }

/-- LINK_STATE; ports without lanes are UP at all times (R125), ports of a lost deck DOWN (R529). -/
def State.linkState (s : State) (p : Nat) : Nat :=
  if !s.deckUp (deckOfPort p) then 4 else if 128 ≤ p then 2 else s.get Obj.linkState p

/-- Speed in Mb/s of a port mode (R120). -/
def modeSpeed (m : Nat) : Nat :=
  if m = 0x10 then 10000 else if m = 0x11 then 25000 else if m = 0x12 then 50000 else if m = 0x13 then 100000
  else if m = 0x20 ∨ m = 0x21 then 200000 else if m = 0x30 ∨ m = 0x31 then 400000 else if m = 0x40 then 800000 else 0

/-- Lanes of a port mode (R120). -/
def modeLanes (m : Nat) : Nat :=
  if m = 0x10 ∨ m = 0x11 ∨ m = 0x12 ∨ m = 0x13 then 1 else if m = 0x20 then 2 else if m = 0x21 ∨ m = 0x30 then 4
  else if m = 0x31 ∨ m = 0x40 then 8 else 0

/-- A port's speed in Mb/s: its mode's, or 400 Gb/s for a loopback port (R126, R369).
(DEDUCED: log entry 48.) -/
def State.speed (s : State) (p : Nat) : Nat := if 128 ≤ p then 400000 else modeSpeed (s.get Obj.lanePortMode p)

/-- The port is in ferry mode (R139). -/
def State.ferry (s : State) (p : Nat) : Bool := decide (p < 128) && s.get Obj.ferryMode p == 1

/-! ### The ferry tag as received (R434, R436) -/

/-- The frame's bytes hold a ferry tag at offset 12. -/
def hasTag (bs : List Byte) : Bool := beAt bs 12 2 == 0x88B5

/-- The ferry tag's fields (R434). -/
def parseTag (bs : List Byte) : FerryTag :=
  let f := beAt bs 22 1
  let w := beAt bs 23 5
  { dst := beAt bs 14 2, src := beAt bs 16 2, hash := beAt bs 18 4, cls := f / 16, broadcast := bitOf f 3,
    abort := bitOf f 2, served := bitOf f 1, hops := bitsOf w 39 36, seq := bitsOf w 35 28, residence := bitsOf w 27 0 }

/-- The frame's bytes without the ferry tag. -/
def untag (bs : List Byte) : List Byte := bs.take 12 ++ bs.drop 28

/-- The frame that holds a frame's bytes: itself, or the frame it is a copy of. -/
def State.body (s : State) (f : FrameId) : Option Frame :=
  match s.frame f with
  | some x => match x.origin with
    | some o => s.frame o
    | none => some x
  | none => none

/-- Bytes of a frame that its descriptor gives and that have not arrived (R319). -/
def Frame.missing (x : Frame) : Nat := if x.tail.isSome then 0 else x.length - x.data.length

/-- Length of a frame without FCS, whether or not all of it has arrived (R338, R352).
(DESIGN CHOICE: log entry 46.) -/
def Frame.full (x : Frame) : Nat := x.data.length + x.missing

/-- Cells of a deck that a frame of `n` bytes without FCS takes, descriptor included (R351). -/
def frameCells (n : Nat) : Nat := ceilDiv (n + 64) 256

/-! ### Ingress accounts and priority flow control (R352, R372, R138) -/

/-- Quanta asked for a priority of a port with PFC: requested while its link is UP; whether the priority stands paused is
kept in any case (R372).
(DEDUCED: log entry 75.) -/
def pfcAsk (port prio quanta : Nat) (s : State) : State :=
  let l := s.link port
  let on := bitOf (s.get Obj.pfcTxEnable port) prio
  s.setLink port { l with
    pfcAsked := if on ∧ s.linkState port = 2 then l.pfcAsked.put prio quanta else l.pfcAsked,
    xoff := if quanta = 0 then l.xoff.del prio else if on then l.xoff.put prio s.time.ticks else l.xoff }

/-- A PFC frame of the port for the priorities asked (R138, R372): destination, source, opcode, vector, times. -/
def pfcFrame (s : State) (port : Nat) (asked : NMap Nat) : List Byte :=
  let vec := (List.range 8).foldl (fun v i => if (asked.find i).isSome then setBit v i else v) 0
  leBytes 6 0x010000C28001 ++ leBytes 6 (s.get Obj.pfcSourceMac port) ++ beBytes 2 0x8808 ++ beBytes 2 0x0101 ++
  beBytes 2 vec ++ (List.range 8).flatMap (fun i => beBytes 2 (asked.getD i 0)) ++ List.replicate 26 0

/-- A port's scheduler. -/
def State.tmPort (s : State) (p : Nat) : TmPort := s.tm.ports.getD p {}

/-- Change a port's scheduler. -/
def State.setTmPort (s : State) (p : Nat) (x : TmPort) : State :=
  { s with tm := { s.tm with ports := NMap.set {} s.tm.ports p x } }

/-- Transmission time in ns of a frame of `b` bytes with FCS (R369). -/
def State.txTime (s : State) (port b : Nat) : Nat :=
  let b := if s.ferry port then b + 16 else b
  if s.speed port = 0 then 0 else ceilDiv ((b + 20) * 8000) (s.speed port)

/-- Send the PFC frame asked for, if the port sends nothing (R138): requests due together share one frame, and a priority
that PFC_TX_ENABLE no longer sets is in none.
(DEDUCED: log entry 75.) (DESIGN CHOICE: log entry 87.) -/
def pfcSend (port : Nat) (s : State) : State :=
  let l := s.link port
  let t := s.tmPort port
  let asked := l.pfcAsked.filter fun e => bitOf (s.get Obj.pfcTxEnable port) e.1
  if l.pfcAsked = [] ∨ t.sending.isSome ∨ s.linkState port ≠ 2 then s
  else
    let s := s.setLink port { l with pfcAsked := [] }
    if asked = [] then s
    else
      let x : Sending := { entry := none, queue := 0, start := s.time.ticks,
                           end_ := s.time.ticks + ticksOfNs (s.txTime port 64), bytes := pfcFrame s port asked }
      s.setTmPort port { t with sending := some x }

/-- Charge cells to an ingress account; the count that rises to PFC_XOFF_CELLS asks for a pause (R352, R372). -/
def chargeIngress (port prio n : Nat) (s : State) : State :=
  let before := s.getS Obj.ingressCells (prio + 1) port
  let s := s.setS Obj.ingressCells (prio + 1) port (before + n)
  let xoff := s.getS Obj.pfcXoffCells (prio + 1) port
  if port < 128 ∧ before < xoff ∧ xoff ≤ before + n then
    pfcSend port (pfcAsk port prio (s.get Obj.pfcQuanta) s)
  else s

/-- Take cells from an ingress account; a count that falls below PFC_XON_CELLS asks for quanta 0 (R372). -/
def dischargeIngress (port prio n : Nat) (s : State) : State :=
  let before := s.getS Obj.ingressCells (prio + 1) port
  let s := s.setS Obj.ingressCells (prio + 1) port (before - n)
  let xon := s.getS Obj.pfcXonCells (prio + 1) port
  if port < 128 ∧ xon ≤ before ∧ before - n < xon then
    pfcSend port (pfcAsk port prio 0 s)
  else s

/-! ### Crossing queues (R317 to R322) -/

/-- A chain-link direction. -/
def State.dir (s : State) (d : Nat) : Link := s.cross.links.getD d {}

/-- `s` with other crossings. -/
def State.withCross (s : State) (c : Crossing) : State := { s with cross := c }

/-- Change a chain-link direction; CELLS_WAITING counts its queue (R349). -/
def State.setDir (s : State) (d : Nat) (x : Link) : State :=
  let s := s.withCross { s.cross with links := NMap.set {} s.cross.links d x }
  let s := s.set Obj.cellsWaiting d x.queue.length
  if s.get Obj.cellsWaitingPeak d < x.queue.length then s.set Obj.cellsWaitingPeak d x.queue.length else s

/-- Queue `n` cells of a frame, from its cell `start` on, on a direction (R320). -/
def queueCells (egress : Bool) (src dst cls start n : Nat) (f : FrameId) (s : State) : State :=
  let d := dirOf (deckOfPipe src) (deckOfPipe dst)
  let x := s.dir d
  let new := (List.range n).map fun i : Nat =>
    ({ frame := f, egress := egress, cls := cls, src := src, dst := dst, index := start + i } : Cell)
  s.setDir d { x with queue := x.queue ++ new }

/-- Take every cell of a frame, and its handles, out of the crossing queues and links. -/
def purgeCells (f : FrameId) (s : State) : State :=
  (s.cross.links.map (·.1)).foldl (fun s d =>
    let x := s.dir d
    if x.queue.any (·.frame == f) || x.flight.any (·.frame == f) || (x.handles.find f).isSome then
      s.setDir d { x with
        queue := x.queue.filter (·.frame != f), flight := x.flight.filter (·.frame != f), handles := x.handles.del f }
    else s) s

/-- No cell of the frame waits for or crosses a chain link. -/
def State.landedWhole (s : State) (f : FrameId) : Bool :=
  !s.cross.links.any fun x => x.2.queue.any (·.frame == f) || x.2.flight.any (·.frame == f)

/-- A cell can cross: it is complete in its deck's buffer, or it holds the frame's tail (R320). -/
def Frame.cellWhole (x : Frame) (index : Nat) : Bool :=
  x.tail.isSome || decide ((index + 1) * 256 ≤ x.data.length + 64)

/-- Deliver a control message to its deck (R327): on-die, through the direction's control areas, or over the service
path while the direction is not UP (R525); messages to or from a lost deck are gone (R340). -/
def sendCtrl (fromDeck : Nat) (m : CtrlMsg) (s : State) : State :=
  let dest := if m.hole then deckOfPort m.port else deckOfPipe m.stampPipe
  let d := dirOf fromDeck dest
  if !s.deckUp dest || !s.deckUp fromDeck then s
  else if dest = fromDeck ∨ s.get Obj.directionState d ≠ 0 then
    if m.hole then s.withCross { s.cross with holes := s.cross.holes ++ [m] }
    else s.withCross { s.cross with credits := s.cross.credits ++ [m] }
  else
    let x := s.dir d
    s.setDir d { x with ctrl := x.ctrl ++ [m] }

/-- The hole notice for a frame's stamp, from a deck (R31). -/
def sendHole (fromDeck : Nat) (st : Stamp) (s : State) : State :=
  sendCtrl fromDeck { hole := true, cls := st.cls, redirect := st.redirect, stampPipe := st.pipe, port := st.port,
                      value := st.seq } s

/-! ### Frames leaving the device -/

/-- The frame is still arriving at a front port, or re-entering at a loopback port. -/
def Frame.arriving (x : Frame) : Bool := x.tail.isNone || x.truncated.isSome

/-- Decks whose buffer has free cells again can raise BUFFER_EXHAUSTED again (R353). -/
def noteRoom (s : State) : State :=
  if s.cross.exhausted = [] then s
  else s.withCross { s.cross with exhausted := s.cross.exhausted.filter fun d => s.freeCells d == 0 }

/-- A frame ends: its cells and its ingress charge are freed. While its bytes still arrive, or its tail has updates to
make at its home pipe, it is kept as gone, so that the tail is counted (R141) and the updates are made (R258). -/
def endFrame (f : FrameId) (s : State) : State :=
  match s.frame f with
  | none => s
  | some x =>
    let s := purgeCells f s
    let s := if x.charged = 0 then s else dischargeIngress x.inPort x.priority x.charged s
    let s := s.withCross { s.cross with waiting := s.cross.waiting.filter (· != f) }
    noteRoom (if (x.arriving ∨ x.home.duty) ∧ x.origin = none then
      s.setFrame f { x with stage := .gone, cells := [], charged := 0, stamp := none }
    else s.freeFrame f)

/-- Once every remote copy of a multicast frame has landed and no copy stands on its own deck, the deck it left holds
none of its cells (R20, R356).
(DESIGN CHOICE: log entry 46.) -/
def releaseOrigin (o : FrameId) (s : State) : State :=
  match s.frame o with
  | none => s
  | some y =>
    let here := s.frames.any fun z => z.2.origin == some o &&
      (deckOfPipe z.2.epipe == deckOfPipe y.hpipe || !s.landedWhole z.1)
    if y.tail.isSome && !here then noteRoom (s.setFrame o { y with cells := [] }) else s

/-- A copy, or a frame with no copies, ends; the last copy of a frame ends the frame (R343), and the last copy on the
frame's own deck frees its cells there (R356). -/
def finishFrame (f : FrameId) (s : State) : State :=
  match s.frame f with
  | none => s
  | some x =>
    let s := endFrame f s
    match x.origin with
    | none => s
    | some o => match s.frame o with
      | none => s
      | some y => if y.copies ≤ 1 then endFrame o (s.setFrame o { y with copies := 0 })
        else releaseOrigin o (s.setFrame o { y with copies := y.copies - 1 })

/-- One pointer to a frame is given up: a unicast frame ends; a multicast copy ends with its last pointer (R343). -/
def dropPointer (f : FrameId) (s : State) : State :=
  match s.frame f with
  | none => s
  | some x =>
    if x.origin = none then finishFrame f s
    else if x.refs ≤ 1 then finishFrame f s
    else s.setFrame f { x with refs := x.refs - 1 }

/-- Discard a frame at a deck: a stamped frame leaves a hole notice (R31). -/
def discardAt (deck : Nat) (f : FrameId) (s : State) : State :=
  match s.frame f with
  | none => s
  | some x =>
    let s := match x.stamp with
      | some st => sendHole deck st s
      | none => s
    finishFrame f s

/-! ### Stamps and windows (R30, R331, R332) -/

/-- Number of a stream or redirect stream. -/
def streamKey (redirect : Bool) (pipe port cls : Nat) : Nat := ((bit01 redirect * 8 + pipe) * 256 + port) * 16 + cls

/-- OUTSTANDING of a stream. -/
def State.outstanding (s : State) (k : Nat) : Nat := s.cross.outstanding.getD k 0

/-- Stamp a frame with the next number of its stream (R30, R32, R331). -/
def stampFrame (redirect : Bool) (pipe : Nat) (f : FrameId) (s : State) : State :=
  match s.frame f with
  | none => s
  | some x =>
    let k := streamKey redirect pipe x.port x.cls
    let n := s.cross.seqs.getD k 0
    let s := s.withCross { s.cross with
      seqs := NMap.set 0 s.cross.seqs k ((n + 1) % 65536),
      outstanding := NMap.modify 0 s.cross.outstanding k (· + 1) }
    s.setFrame f { x with stamp := some { redirect := redirect, pipe := pipe, port := x.port, cls := x.cls, seq := n } }

/-- A frame waits for the window of its stream: the count has reached RESEQ_WINDOW, or an earlier frame waits
(R332). -/
def State.mustWait (s : State) (redirect : Bool) (pipe : Nat) (x : Frame) : Bool :=
  let k := streamKey redirect pipe x.port x.cls
  decide (s.get Obj.reseqWindow ≤ s.outstanding k) ||
  s.cross.waiting.any fun g => match s.frame g with
    | some y => y.stage == .window redirect pipe && y.port == x.port && y.cls == x.cls
    | none => false

/-! ### Crossings (R20 to R23, R320, R321, R525, R528) -/

/-- The cells of a frame on a deck. -/
def Frame.cellsOn (x : Frame) (d : Nat) : Nat := x.cells.getD d 0

/-- The frame's head goes to another pipe. Where the direction has failed, or the deck is lost, the frame is
discarded at its source deck (R525, R528). -/
def crossTo (egress : Bool) (src dst : Nat) (f : FrameId) (s : State) : State :=
  match s.frame f with
  | none => s
  | some x =>
    let a := deckOfPipe src
    let b := deckOfPipe dst
    let arrive : Stage := if egress then .landed else .home dst
    if src = dst then s.setFrame f { x with stage := arrive }
    else if a = b then s.setFrame f { x with stage := .crossing egress src dst }
    else if !s.deckUp b then (if egress then finishFrame f s else discardAt a f s)
    else if s.get Obj.directionState (dirOf a b) = 2 ∧ s.get Obj.directionFailAction = 0 then
      discardAt a f (s.bump Obj.directionDiscards (dirOf a b))
    else
      let n := match x.origin with
        | some o => match s.frame o with | some y => y.cellsOn a | none => 1
        | none => x.cellsOn a
      queueCells egress src dst x.cls 0 n f (s.setFrame f { x with stage := .crossing egress src dst })

/-- A stamped frame starts for its home pipe. -/
def toHome (f : FrameId) (s : State) : State :=
  match s.frame f with
  | some x => crossTo false (pipeOfPort x.inPort) x.hpipe f s
  | none => s

/-- A frame that its home stage has handled starts for its egress pipe. -/
def toEgress (f : FrameId) (s : State) : State :=
  match s.frame f with
  | some x => crossTo true x.hpipe x.epipe f s
  | none => s

/-- Stamp a frame and send it on, or let it wait for the window (R332). -/
def stampOrWait (redirect : Bool) (pipe : Nat) (f : FrameId) (s : State) : State :=
  match s.frame f with
  | none => s
  | some x =>
    if s.mustWait redirect pipe x then
      let s := s.setFrame f { x with stage := .window redirect pipe }
      (s.withCross { s.cross with waiting := s.cross.waiting ++ [f] }).bump Obj.reseqWindowWaits pipe
    else
      let s := stampFrame redirect pipe f s
      if redirect then toEgress f s else toHome f s

/-- The frame's head has left the ingress pipe for its home pipe or beyond. -/
def Stage.leftIngress : Stage → Bool
  | .ingress => false | .parsing _ => false | .landing => false | .window r _ => r | .gone => false
  | _ => true

/-- The frame's head has left its home pipe. -/
def Stage.leftHome : Stage → Bool
  | .crossing e _ _ => e | .landed => true | .held => true | .released => true | .queued _ => true
  | .sending _ => true | .replicated => true
  | _ => false

/-- The `n` cells from cell `start` on that have come to the ingress deck, or to the home deck, after the head left it
follow the head (R20, R320). -/
def followHead (atHome : Bool) (start n : Nat) (f : FrameId) (s : State) : State :=
  match s.frame f with
  | none => s
  | some x =>
    let ip := pipeOfPort x.inPort
    let home := deckOfPipe x.hpipe
    if x.stage = .replicated then
      (s.frames.filter fun y => y.2.origin == some f && deckOfPipe y.2.epipe != home).foldl (fun s y =>
        queueCells true x.hpipe y.2.epipe x.cls start n y.1 s) s
    else if !atHome && x.stage.leftIngress && deckOfPipe ip != home then queueCells false ip x.hpipe x.cls start n f s
    else if x.stage.leftHome && home != deckOfPipe x.epipe then queueCells true x.hpipe x.epipe x.cls start n f s
    else s

/-! ### Egress queues and the flush of a port (R128) -/

/-- An egress queue. -/
def State.queue (s : State) (q : Nat) : Queue := s.tm.queues.getD q {}

/-- Cells charged to a queue: its frames, and the frame in transmission from it (R352). -/
def State.chargedCells (s : State) (q : Nat) : Nat :=
  (s.queue q).frames.foldl (fun (n : Nat) (e : QEntry) => n + e.cells)
    (match (s.tmPort (q / 16)).sending with
      | some x => if x.queue = q then x.entry.elim 0 QEntry.cells else 0
      | none => 0)

/-- QUEUE_CELLS follows what the queue's frames are charged (R352). -/
def recount (q : Nat) (s : State) : State := s.set Obj.queueCells q (s.chargedCells q)

/-- All 16 queues of a port are empty. -/
def State.queuesEmpty (s : State) (port : Nat) : Bool :=
  (List.range 16).all fun c => (s.queue (port * 16 + c)).frames.isEmpty

/-- Change an egress queue. -/
def State.setQueue (s : State) (q : Nat) (x : Queue) : State :=
  let busy := !s.queuesEmpty (q / 16)
  let s := recount q { s with tm := { s.tm with queues := NMap.set {} s.tm.queues q x } }
  if busy && s.queuesEmpty (q / 16) then
    s.setLink (q / 16) { s.link (q / 16) with emptySince := s.time.ticks }
  else s

/-- The port sends nothing any more; the queue it sent from is charged less. -/
def endSending (port : Nat) (s : State) : State :=
  match (s.tmPort port).sending with
  | none => s
  | some x => recount x.queue (s.setTmPort port { s.tmPort port with sending := none })

/-- Discard every frame of a queue, counting each at the port under `o`. -/
def emptyQueue (o : ObjRow) (q : Nat) (s : State) : State :=
  let x := s.queue q
  let s := s.setQueue q { x with frames := [] }
  x.frames.foldl (fun s e => dropPointer e.frame (s.bump o (q / 16))) s

/-- The residue list of a deck (R344, R345). -/
def State.residue (s : State) (d : Nat) : List Residue := s.cross.residue.getD d []

/-- Change a residue list; RESIDUE_IN_USE counts it. -/
def State.setResidue (s : State) (d : Nat) (l : List Residue) : State :=
  (s.withCross { s.cross with residue := NMap.set [] s.cross.residue d l }).set Obj.residueInUse d l.length

/-- Discard the residue entries of a port (R345). -/
def dropResidue (port : Nat) (s : State) : State :=
  let d := deckOfPort port
  let l := s.residue d
  let s := s.setResidue d (l.filter (·.port != port))
  (l.filter (·.port == port)).foldl (fun s e => dropPointer e.frame (s.bump Obj.mcastResidueDrops e.group)) s

/-- Units of a shaper's credit in a byte: 10^10 of them make the 2^-16 byte in which the credit counts, and a rate of R b/s
adds 65,536 R of them in each tick of 0.8 ns (R363).
(DESIGN CHOICE: log entry 50.) -/
def creditUnit : Nat := 655360000000000

/-- A frame that is selected and has not started stays queued: the selection is undone (R375).
(DEDUCED: log entry 78.) -/
def unselect (port : Nat) (s : State) : State :=
  let t := s.tmPort port
  match t.sending with
  | some x => match x.entry with
    | some e =>
      if port < 128 ∧ x.txTime = none then
        let back (rate : Nat) : Int := if rate = 0 then 0 else ((x.charged * creditUnit : Nat) : Int)
        let y := s.queue x.queue
        let s := s.setTmPort port { t with
          sending := none, vtime := x.before.1, credit := t.credit + back (s.get Obj.portShaperRateBps port) }
        let s := s.setQueue x.queue { y with
          frames := e :: y.frames, last := x.before.2.1, finish := x.before.2.2,
          credit := y.credit + back (s.get Obj.queueShaperRateBps x.queue) }
        s.modFrame e.frame fun z => if z.origin.isNone then { z with stage := .queued x.queue } else z
      else s
    | none => s
  | none => s

/-- Cut off what the port is sending: a frame that has started counts as truncated, a PFC frame in no counter (R128, R129,
R375).
(DEDUCED: log entry 78.) -/
def cutTransmission (port : Nat) (s : State) : State :=
  let s := unselect port s
  match (s.tmPort port).sending with
  | none => s
  | some x => match x.entry with
    | some e => dropPointer e.frame ((endSending port s).bump Obj.linkTruncated port)
    | none => endSending port s

/-- Flush a port (R128): its queues, the frame in transmission and its residue entries, with a cause. A PFC frame asked
for meanwhile goes out where the link is still UP (R138). -/
def flushPort (port cause : Nat) (s : State) : State :=
  let s := unselect port (s.setLink port { s.link port with flushed := true })
  let n := (List.range 16).foldl (fun n c => n + (s.queue (port * 16 + c)).frames.length) 0
  let cut := match (s.tmPort port).sending with | some x => bit01 x.entry.isSome | none => 0
  let s := (List.range 16).foldl (fun s c => emptyQueue Obj.linkFlushed (port * 16 + c) s) s
  let s := pfcSend port (dropResidue port (cutTransmission port s))
  raise Ev.portFlushed port cause (n + cut) s

end Sys2Proof.Machine
end

