-- ==== Sys2Proof/Machine/Ports.lean ====
section
/-! DEFINITION. Ports, lanes and links (04), ingress admission (R353), the ferry tag on arrival (R436, R438, R442) and the
landing buffer (R476 to R479). -/

namespace Sys2Proof.Machine

/-! ### Link state (R127 to R133) -/

/-- Cause code of LINK_DOWN (R143). -/
def faultCode : RxFault → Nat
  | .lossOfSignal => 1 | .lossOfAlignment => 2 | .localFault => 3 | .remoteFault => 4 | .trainingFailed => 5

/-- A port starts at this lane (R121, R124). -/
def State.portExists (s : State) (p : Nat) : Bool := 128 ≤ p || modeLanes (s.get Obj.lanePortMode p) != 0

/-- Transmit LPI ends: its time is added to LPI_TX_NS (R134). -/
def lpiLeave (port : Nat) (s : State) : State :=
  let l := s.link port
  match l.lpiSince with
  | none => s
  | some t => (s.setLink port { l with lpiSince := none }).add Obj.lpiTxNs port (s.sinceNs t)

/-- An adjacency goes to DOWN (R447): `why` 0 link down, 1 dead interval; the LSA is due anew (R452). NEIGHBOR_ID and its
valid bit end with it.
(DESIGN CHOICE: log entry 87.) -/
def adjLeave (port why : Nat) (s : State) : State :=
  let was := s.get Obj.adjState port
  let peer := s.get Obj.neighborId port % 65536
  let s := { s with fabric := { s.fabric with adj := s.fabric.adj.del port } }
  let s := (s.set Obj.adjState port 0).set Obj.neighborId port 0
  if was = 2 then
    raise Ev.neighborDown port peer why { s with fabric := { s.fabric with lsaDue := some s.time.ticks } }
  else s

/-- What ends with a link, however it ends: received pauses (R133), transmit LPI, the adjacency (R447). -/
def linkLost (port : Nat) (s : State) : State :=
  let s := lpiLeave port s
  let s := s.setLink port { s.link port with paused := [], pfcAsked := [], wakeAt := none, remoteFault := false }
  adjLeave port 0 (s.set Obj.linkSpeed port 0)

/-- Declare the link of an UP port down at this instant: the port transmits remote fault from now on (R127, R129, R133,
R143).
(DEDUCED: log entry 48.) -/
def declareDown (port cause : Nat) (s : State) : State :=
  let s := linkLost port s
  let s := s.setLink port { s.link port with downAt := some s.time.ticks, remoteFault := true }
  let s := raise Ev.linkDown port cause 0 (s.bump Obj.linkDowns port)
  if s.get Obj.linkHoldNs port = 0 then flushPort port 0 (s.set Obj.linkState port 4)
  else cutTransmission port (s.set Obj.linkState port 3)

/-- The running hold of a HELD port has run out (R130, R131). -/
def State.holdOver (s : State) (port : Nat) : Bool :=
  s.linkState port == 3 && match (s.link port).downAt with
    | some t => s.elapsed t (s.get Obj.linkHoldNs port)
    | none => true

/-- Flush a HELD port whose hold has run out (R130). -/
def holdExpire (port : Nat) (s : State) : State :=
  if s.holdOver port then flushPort port 1 (s.set Obj.linkState port 4) else s

/-- Discard the queued frames whose residence exceeds MAX_RESIDENCE_NS and raise HOLD_RESUMED (R130). -/
def resumeHold (port : Nat) (s : State) : State :=
  let limit := s.get Obj.maxResidenceNs port
  let aged (s : State) (e : QEntry) : Bool := limit != 0 && s.exceeds e.tick limit
  let (s, kept, gone) := (List.range 16).foldl (fun (acc : State × Nat × Nat) c =>
    let (s, kept, gone) := acc
    let x := s.queue (port * 16 + c)
    let old := x.frames.filter fun e => aged s e
    let rest := x.frames.filter fun e => !aged s e
    let s := s.setQueue (port * 16 + c) { x with frames := rest }
    let s := old.foldl (fun s e => dropPointer e.frame (s.bump Obj.linkHoldAged port)) s
    (s, kept + rest.length, gone + old.length)) (s, 0, 0)
  raise Ev.holdResumed port kept gone s

/-- Declare the link up at this instant (R127, R130). -/
def declareUp (port : Nat) (s : State) : State :=
  let s := holdExpire port s
  let was := s.linkState port
  let l := s.link port
  let since := match l.downAt with
    | some t => if was = 1 then 0 else s.sinceNs t
    | none => 0
  let s := (s.set Obj.linkState port 2).set Obj.linkSpeed port (s.speed port)
  let s := s.setLink port { l with downAt := none, emptySince := s.time.ticks, flushed := false, remoteFault := false }
  let s := raise Ev.linkUp port (s.speed port) since s
  if was = 3 then resumeHold port s else s

/-- Training starts (R127): alignment is sought before the up debounce begins. -/
def restartTraining (port : Nat) (s : State) : State := s.setLink port { s.link port with aligned := none }

/-- The receive path of a port is in fault (R127). -/
def beginFault (port cause : Nat) (s : State) : State :=
  let l := s.link port
  let since := match l.fault with | some (_, t) => t | none => s.time.ticks
  s.setLink port { l with fault := some (cause, since), aligned := none }

/-- R127: the receive path enters fault. -/
def execRxFaultBegin (port : FrontPort) (cause : RxFault) (s : State) : Host.Outcome State Fault Refusal :=
  .next (beginFault port.val (faultCode cause) s)

/-- R127: alignment is found with no fault, and the up debounce begins; not on pins that the TAP holds (R560). -/
def execAlignmentAcquired (port : FrontPort) (s : State) : Host.Outcome State Fault Refusal :=
  let l := s.link port.val
  .next (if l.jtag then s
    else s.setLink port.val { l with
      fault := none, aligned := some (match l.aligned with | some t => t | none => s.time.ticks) })

/-- R127: clause 73 training fails, which is a fault with cause 5; training starts again. -/
def execTrainingFailed (port : FrontPort) (s : State) : Host.Outcome State Fault Refusal :=
  execRxFaultBegin port .trainingFailed s

/-- R127, R129: fault has lasted LINK_DOWN_DEBOUNCE_NS. -/
def execLinkDown (port : FrontPort) (s : State) : Host.Outcome State Fault Refusal :=
  .next (match (s.link port.val).fault with
    | some (cause, t) =>
      if s.linkState port.val = 2 ∧ s.elapsed t (s.get Obj.linkDownDebounceNs port.val) then declareDown port.val cause s
      else s
    | none => s)

/-- R127, R130: alignment has held with no fault for LINK_UP_DEBOUNCE_NS. -/
def execLinkUp (port : FrontPort) (s : State) : Host.Outcome State Fault Refusal :=
  let l := s.link port.val
  .next (match l.fault, l.aligned with
    | none, some t =>
      if (s.linkState port.val = 1 ∨ s.linkState port.val = 3 ∨ s.linkState port.val = 4) ∧ s.deckUp (deckOfPort port.val) ∧
        s.portExists port.val ∧ s.elapsed t (s.get Obj.linkUpDebounceNs port.val) then declareUp port.val s
      else s
    | _, _ => s)

/-- R130: LINK_HOLD_NS runs out on a HELD port. -/
def execHoldExpired (port : FrontPort) (s : State) : Host.Outcome State Fault Refusal := .next (holdExpire port.val s)

/-- FEC permitted on a port mode (R120): 0 DEFAULT, 1 NONE, 2 RS528, 3 RS544. -/
def fecPermitted (mode fec : Nat) : Bool :=
  fec == 0 || (if mode = 0x10 then fec == 1 else if mode = 0x11 then fec == 1 || fec == 2 else fec == 3)

/-- FEC of a port mode by default (R120). -/
def fecDefault (mode : Nat) : Nat := if mode = 0x10 then 1 else if mode = 0x11 then 2 else 3

/-- The FEC that a port runs with: FEC_MODE where it names one that the port's mode permits, else the mode's default
(R120, R142). -/
def State.fec (s : State) (port : Nat) : Nat :=
  let m := s.get Obj.lanePortMode port
  let f := s.get Obj.fecMode port
  if f = 0 ∨ !fecPermitted m f then fecDefault m else f

/-- The receive path of a port delivers FEC codewords: it runs with FEC, and alignment holds (R127). -/
def State.codewords (s : State) (port : Nat) : Bool :=
  modeLanes (s.get Obj.lanePortMode port) != 0 && s.fec port != 1 &&
  match (s.link port).fault with
  | some (cause, _) => cause == 3 || cause == 4
  | none => (s.link port).aligned.isSome

/-- R143: FEC codewords corrected and uncorrected in a second of device time, once for each second.
(DEDUCED: log entry 88.) -/
def execFecUncorrected (port : FrontPort) (corrected uncorrected : Nat) (s : State) : Host.Outcome State Fault Refusal :=
  let l := s.link port.val
  .next (if !s.codewords port.val ∨ l.fecSecond = some s.second then s
    else
      let s := s.setLink port.val { l with fecSecond := some s.second }
      let s := (s.add Obj.fecCorrected port.val corrected).add Obj.fecUncorrected port.val uncorrected
      if uncorrected = 0 then s
      else raise Ev.fecUncorrected port.val uncorrected (s.get Obj.fecUncorrected port.val) s)

/-! ### Effects of the port commits (R121 to R123, R132, R142) -/

/-- What a failed validation reports: status code and address of the offender (R75). -/
abbrev Failed := Option (Nat × Nat)

/-- The first failure of a list of checks. -/
def firstFail (l : List Failed) : Failed := l.findSome? id

/-- R121: walk the lanes of a pipe; `run` lanes of the port before still belong to it. -/
def checkLanes (s : State) (base : Nat) : Nat → Nat → Nat → Failed
  | 0, _, _ => none
  | fuel + 1, i, run =>
    let lane := base + i
    let m := s.staged Obj.lanePortMode lane
    let bad : Failed := some (St.badValue, addrKey 0x1010 0 lane)
    if run ≠ 0 then (if m = 1 then checkLanes s base fuel (i + 1) (run - 1) else bad)
    else if m = 0 then checkLanes s base fuel (i + 1) 0
    else if m = 1 then bad
    else if lane % modeLanes m ≠ 0 then bad
    else checkLanes s base fuel (i + 1) (modeLanes m - 1)

/-- R122: LANE_SOURCE of a pipe is a permutation. -/
def checkSources (s : State) (base : Nat) : Failed :=
  firstFail ((List.range 16).map fun i =>
    if (List.range i).any fun j => s.staged Obj.laneSource (base + j) == s.staged Obj.laneSource (base + i) then
      some (St.badValue, addrKey 0x1012 0 (base + i)) else none)

/-- Validation of LANE_MAP (group 0x02).
(DEDUCED: log entry 49.) -/
def validateLaneMap (pipe : Nat) (s : State) : Failed :=
  firstFail [checkLanes s (pipe * 16) 16 0 0, checkSources s (pipe * 16)]

/-- Validation of PORT_CONFIG (group 0x01): FEC_MODE suits the mode of the port's lane, where it holds one (R142).
(DEDUCED: log entry 49.) -/
def validatePortConfig (port : Nat) (s : State) : Failed :=
  let m := s.get Obj.lanePortMode port
  if modeLanes m = 0 ∨ fecPermitted m (s.staged Obj.fecMode port) then none
  else some (St.badValue, addrKey 0x1101 0 port)

/-- A port begins training, or is DISABLED (R123, R127). -/
def beginTraining (port : Nat) (enabled : Bool) (s : State) : State :=
  let s := s.setLink port { s.link port with aligned := none, downAt := none }
  s.set Obj.linkState port (bit01 enabled)

/-- The port's lanes, or what serves them, differ between two states (R123). -/
def lanesChanged (old new : State) (port lanes : Nat) : Bool :=
  (List.range lanes).any fun i => [Obj.lanePortMode, Obj.lanePolarity, Obj.laneSource].any fun o =>
    old.get o (port + i) != new.get o (port + i)

/-- LANE_MAP takes effect on one port number of the pipe (R123).
(DEDUCED: log entry 49.) -/
def applyLane (old : State) (port : Nat) (s : State) : State :=
  let n := modeLanes (old.get Obj.lanePortMode port)
  let m := modeLanes (s.get Obj.lanePortMode port)
  if n = 0 ∧ m = 0 then s
  else if n = m ∧ !lanesChanged old s port n then s
  else
    let s := if n = 0 ∨ old.linkState port = 0 then s else flushPort port 3 (linkLost port (s.set Obj.linkState port 0))
    if m = 0 then s.set Obj.linkState port 0 else beginTraining port (s.staged Obj.portEnable port == 1) s

/-- Switch-over of LANE_MAP for a pipe; `old` is the state before the new values (R123).
(DEDUCED: log entry 49.) -/
def applyLaneMap (pipe : Nat) (old : State) (s : State) : State :=
  (List.range 16).foldl (fun s i => applyLane old (pipe * 16 + i) s) s

/-- Switch-over of PORT_CONFIG for a port (R128, R132); EEE_MODE that becomes OFF ends transmit LPI.
(DEDUCED: log entry 49.) (DESIGN CHOICE: log entry 87.) -/
def applyPortConfig (port : Nat) (old : State) (s : State) : State :=
  let changed (o : ObjRow) : Bool := old.get o port != s.get o port
  let s := if changed Obj.eeeMode && s.get Obj.eeeMode port == 0 then lpiLeave port s else s
  if !s.portExists port then s
  else if changed Obj.portEnable then
    if s.get Obj.portEnable port = 1 then beginTraining port true s
    else flushPort port 2 (linkLost port (s.set Obj.linkState port 0))
  else if changed Obj.ferryMode then
    let s := if s.get Obj.ferryMode port = 1 then s else adjLeave port 0 s
    flushPort port 4 (if s.linkState port = 3 then s.set Obj.linkState port 4 else s)
  else if changed Obj.fecMode || changed Obj.anMode || changed Obj.maxFrameBytes then
    if s.linkState port = 2 then declareDown port 6 (restartTraining port s)
    else if s.linkState port = 0 then s
    else restartTraining port s
  else s

/-- LINK_HOLD_NS was written: the new value governs a running hold (R131). -/
def holdWritten (port : Nat) (s : State) : State := holdExpire port s

/-! ### Energy-efficient Ethernet (R134, R135) -/

/-- The PHY's fast-wake time of a port mode in ns (R135); a lane at which no port starts takes the last row's.
(DESIGN CHOICE: log entry 87.) -/
def fastWake (mode : Nat) : Nat :=
  if mode = 0x10 ∨ mode = 0x11 then 4500 else if mode = 0x12 ∨ mode = 0x21 ∨ mode = 0x31 then 3000 else 2500

/-- EEE_TW_RX_NS (R135); 0 while EEE_MODE is OFF.
(DEDUCED: log entry 48.) -/
def State.eeeTwRx (s : State) (port : Nat) : Nat :=
  let t := fastWake (s.get Obj.lanePortMode port)
  if s.get Obj.eeeMode port = 0 then 0
  else if s.get Obj.eeeMode port = 1 then t
  else t + (if s.get Obj.moorEnable = 1 then 60000 else if s.get Obj.dozeEnable = 1 then 300 else 0)

/-- R134: all queues have been empty for EEE_IDLE_NS. -/
def execLpiEnter (port : FrontPort) (s : State) : Host.Outcome State Fault Refusal :=
  let l := s.link port.val
  .next (if s.linkState port.val = 2 ∧ s.get Obj.eeeMode port.val ≠ 0 ∧ l.lpiSince = none ∧ l.wakeAt = none ∧
      (s.tmPort port.val).sending = none ∧ s.queuesEmpty port.val ∧
      s.elapsed l.emptySince (s.get Obj.eeeIdleNs port.val) then
    s.setLink port.val { l with lpiSince := some s.time.ticks }
  else s)

/-- A frame has been enqueued: the port leaves LPI and waits before it sends (R134). -/
def lpiWake (port : Nat) (s : State) : State :=
  if (s.link port).lpiSince = none then s
  else
    let s := lpiLeave port s
    let wait := Nat.max (fastWake (s.get Obj.lanePortMode port)) (s.get Obj.eeeTwTxNs port)
    s.setLink port { s.link port with wakeAt := some (s.time.ticks + ticksOfNs wait) }

/-- R134: the transmit wake wait ends and the port may send. -/
def execLpiWakeDone (port : FrontPort) (s : State) : Host.Outcome State Fault Refusal :=
  let l := s.link port.val
  .next (match l.wakeAt with
    | some t => if t ≤ s.time.ticks then s.setLink port.val { l with wakeAt := none } else s
    | none => s)

/-! ### Received MAC control frames (R133, R136, R137) -/

/-- End tick of a pause of `q` quanta of 512 bit times at the port's speed (R136). -/
def State.pauseEnd (s : State) (port q : Nat) : Nat :=
  s.time.ticks + (if s.speed port = 0 then 0 else ceilDiv (q * 512 * 1250) (s.speed port))

/-- A PFC frame acts on the enabled priorities it names (R136, R137). -/
def pfcReceive (port : Nat) (data : List Byte) (s : State) : State :=
  let vec := beAt data 16 2 % 256
  let on := s.get Obj.pfcRxEnable port
  let l := s.link port
  let paused := (List.range 8).foldl (fun m p =>
    if bitOf vec p && bitOf on p then
      (if beAt data (18 + 2 * p) 2 = 0 then NMap.del m p else NMap.put m p (s.pauseEnd port (beAt data (18 + 2 * p) 2)))
    else m) l.paused
  let s := (s.setLink port { l with paused := paused }).bump Obj.pfcRxFrames port
  if (List.range 8).any fun p => bitOf vec p && !bitOf on p then s.bump Obj.pauseRxIgnored port else s

/-- R137: a MAC control frame is consumed by the MAC. -/
def execMacControlRx (port : FrontPort) (data : List Byte) (s : State) : Host.Outcome State Fault Refusal :=
  .next (if s.linkState port.val ≠ 2 then s
    else
      let s := noteBytes port.val 0 (data.length + 4) s
      if beAt data 14 2 = 0x0101 then pfcReceive port.val data s else s.bump Obj.pauseRxIgnored port.val)

/-- R136: the pause time of a priority runs out. -/
def execPfcPauseExpired (port : FrontPort) (priority : Fin 8) (s : State) : Host.Outcome State Fault Refusal :=
  let l := s.link port.val
  .next (match l.paused.find priority.val with
    | some t => if t ≤ s.time.ticks then s.setLink port.val { l with paused := l.paused.del priority.val } else s
    | none => s)

/-! ### The first cell (R353, R436, R438, R442) -/

/-- Ingress priority of a frame: the PCP of its outermost 802.1Q tag, or UNTAGGED_PRIORITY (R352). -/
def State.ingressPriority (s : State) (port : Nat) (tagged : Bool) (data : List Byte) : Nat :=
  let o := if tagged then 28 else 12
  if 128 ≤ port then 0
  else if beAt data o 2 = 0x8100 ∨ beAt data o 2 = 0x88A8 then byteAt data (o + 2) / 32
  else s.get Obj.untaggedPriority port

/-- Count a discard at F = 0 (R353). -/
def bufferFull (deck port : Nat) (s : State) : State :=
  let s := s.bump Obj.bufferFullDrops deck
  if s.cross.exhausted.contains deck then s
  else raise Ev.bufferExhausted deck port 0 (s.withCross { s.cross with exhausted := deck :: s.cross.exhausted })

/-- The headroom test of R353 fails for a priority with PFC. -/
def State.overHeadroom (s : State) (port p : Nat) : Bool :=
  bitOf (s.get Obj.pfcTxEnable port) p &&
  decide (s.getS Obj.pfcXoffCells (p + 1) port + s.getS Obj.pfcHeadroomCells (p + 1) port ≤
    s.getS Obj.ingressCells (p + 1) port)

/-- Count a discard beyond the headroom (R353). -/
def headroomDrop (port p : Nat) (s : State) : State :=
  raise Ev.pfcHeadroomOverflow port p (s.getS Obj.ingressCells (p + 1) port) (s.bump Obj.headroomDrops port)

/-- Ingress cells of a port over all priorities. -/
def State.ingressSum (s : State) (port : Nat) : Nat :=
  (List.range 8).foldl (fun n p => n + s.getS Obj.ingressCells (p + 1) port) 0

/-- The tail of a frame is known; a bad frame whose head is still at the ingress stage, before its stamp, is
discarded (R141). A parse ends first; a stored or queued frame is discarded where it stands next. -/
def tailKnown (f : FrameId) (s : State) : State :=
  match s.frame f with
  | none => s
  | some x => match x.tail, x.stage with
    | some false, .ingress => endFrame f s
    | some false, .window _ _ => endFrame f s
    | some false, .punted p _ => discardAt (deckOfPipe p) f s
    | _, _ => s

/-- Truncate a frame: its tail is bad, and its later bytes are not stored (R353).
(DESIGN CHOICE: log entry 46.) -/
def truncate (f : FrameId) (s : State) : State :=
  tailKnown f (s.modFrame f fun x => { x with tail := some false, truncated := some [] })

/-- Admit `n` later cells of a frame one by one (R353). -/
def takeCells (f : FrameId) : Nat → State → State
  | 0, s => s
  | n + 1, s => match s.frame f with
    | none => s
    | some x =>
      let deck := deckOfPort x.inPort
      if x.tail = some false then s
      else if x.inPort < 128 ∧ s.freeCells deck = 0 then truncate f (bufferFull deck x.inPort s)
      else if x.inPort < 128 ∧ s.overHeadroom x.inPort x.priority then truncate f (headroomDrop x.inPort x.priority s)
      else
        let s := s.setFrame f { x with cells := NMap.modify 0 x.cells deck (· + 1), charged := x.charged + 1 }
        takeCells f n (chargeIngress x.inPort x.priority 1 s)

/-- Admission of a frame's first cell (R353); a discarded frame consumes no sequence number. -/
def admitFirst (f : FrameId) (s : State) : State :=
  match s.frame f with
  | none => s
  | some x =>
    let r := x.inPort
    let deck := deckOfPort r
    let p := s.ingressPriority r x.tag.isSome x.data
    let s := s.setFrame f { x with priority := p }
    if r < 128 ∧ s.freeCells deck = 0 then endFrame f (bufferFull deck r s)
    else if r < 128 ∧ bitOf (s.get Obj.pfcTxEnable r) p ∧ s.overHeadroom r p then endFrame f (headroomDrop r p s)
    else if r < 128 ∧ !bitOf (s.get Obj.pfcTxEnable r) p ∧ s.get Obj.ingressLimitCells r ≠ 0 ∧
      s.get Obj.ingressLimitCells r ≤ s.ingressSum r then endFrame f (s.bump Obj.ingressDrops r)
    else
      let s := s.setFrame f { x with priority := p, stage := .ingress, cells := [(deck, 1)], charged := 1 }
      takeCells f (frameCells x.data.length - 1) (chargeIngress r p 1 s)

/-- A transit frame (R438): stateless, routed by its tag's DST, stamped at once. -/
def transitFrame (f : FrameId) (t : FerryTag) (s : State) : State :=
  match s.frame f with
  | none => s
  | some x =>
    let s := s.bump Obj.transitFrames x.inPort
    if t.hops ≤ 1 then endFrame f (s.bump Obj.hopExpiredDrops x.inPort)
    else match s.routePort t.hash t.dst with
      | none => endFrame f (s.bump Obj.noRouteDrops x.inPort)
      | some port =>
        let ip := pipeOfPort x.inPort
        let s := s.setFrame f { x with
          transit := true, port := port, cls := t.cls, hops := some (t.hops - 1), ferryDst := some (t.dst, false),
          hpipe := ip, epipe := pipeOfPort port, result := { x.result with stateless := true, cls := t.cls },
          home := { x.home with hash := t.hash } }
        stampOrWait false ip f s

/-- A frame enters its ingress stage (R353, R438, R442): admitted, then sent on in transit, discarded as a broadcast off
the tree, or left to wait for a parse engine (R144). -/
def enterIngress (f : FrameId) (s : State) : State :=
  let s := admitFirst f s
  match s.frame f with
  | none => s
  | some x =>
    if x.stage ≠ .ingress then s
    else if x.tail = some false then endFrame f s
    else match x.tag with
      | none => s
      | some t =>
        if t.broadcast then
          if bitOf (s.get Obj.treePorts) x.inPort then s else endFrame f (s.bump Obj.treeDrops x.inPort)
        else if t.dst = s.deviceId then s
        else transitFrame f t s

/-- The ferry tag as a ferry port receives it (R436): the sequence gap is counted. -/
def ferryArrive (port : Nat) (t : FerryTag) (s : State) : State :=
  let l := s.link port
  let gap := match l.ferrySeen with
    | some q => (t.seq + 512 - (q + 1)) % 256
    | none => 0
  ((s.setLink port { l with ferrySeen := some t.seq }).bump Obj.ferryRxTagged port).add Obj.ferrySeqGaps port gap

/-! ### The landing buffer (R476 to R479) -/

/-- Ask for a pause of each enabled priority of a deck's front ports, or its end, on behalf of the landing buffer.
(DEDUCED: log entry 72.) -/
def landingPfc (deck : Nat) (on : Bool) (s : State) : State :=
  (List.range 32).foldl (fun s i =>
    let port := deck * 32 + i
    let l := s.link port
    let prios := (List.range 8).filter fun p =>
      bitOf (s.get Obj.pfcTxEnable port) p && (on || (l.xoff.find p).isNone)
    if s.linkState port = 2 ∧ prios ≠ [] then
      pfcSend port (s.setLink port { l with pfcAsked := prios.foldl (fun m p =>
        NMap.put m p (if on then s.get Obj.pfcQuanta else 0)) l.pfcAsked })
    else s) s

/-- `s` with other sleep control. -/
def State.withSleep (s : State) (x : Sleep) : State := { s with sleep := x }

/-- Set LANDING_IN_USE of a deck, with the thresholds of R479. -/
def setLanding (deck n : Nat) (s : State) : State :=
  let before := s.get Obj.landingInUse deck
  let s := s.set Obj.landingInUse deck n
  let s := if n < before then
      s.withSleep { s.sleep with overflowed := s.sleep.overflowed.filter (· != deck) } else s
  if before < s.get Obj.landingXoffBytes ∧ s.get Obj.landingXoffBytes ≤ n then
    landingPfc deck true (s.withSleep { s.sleep with xoff := s.sleep.xoff.put deck s.time.ticks })
  else if n < s.get Obj.landingXonBytes ∧ (s.sleep.xoff.find deck).isSome then
    landingPfc deck false (s.withSleep { s.sleep with xoff := s.sleep.xoff.del deck })
  else s

/-- Size of a landing buffer (R466). -/
def landingSize : Nat := 1048576

/-- Bytes of a frame come to the landing buffer, or the frame is discarded whole (R476, R478).
(DEDUCED: log entry 72.) -/
def landBytes (f : FrameId) (n : Nat) (s : State) : State :=
  match s.frame f with
  | none => s
  | some x =>
    let deck := deckOfPort x.inPort
    let use := s.get Obj.landingInUse deck
    if use + n ≤ landingSize then setLanding deck (use + n) s
    else
      let s := (setLanding deck (use - (x.data.length - n)) s).bump Obj.landingDrops x.inPort
      let s := if s.sleep.overflowed.contains deck then s
        else raise Ev.landingOverflow deck x.inPort use (s.withSleep { s.sleep with overflowed := deck :: s.sleep.overflowed })
      endFrame f s

/-- A landed frame enters its ingress stage after the wake (R477).
(DEDUCED: log entry 72.) -/
def leaveLanding (f : FrameId) (s : State) : State :=
  match s.frame f with
  | none => s
  | some x =>
    let deck := deckOfPort x.inPort
    enterIngress f (setLanding deck (s.get Obj.landingInUse deck - x.data.length) s)

/-- Ingress stages admit frames: the device is AWAKE (R468, R476). -/
def State.awake (s : State) : Bool := s.get Obj.sleepState == 0

/-- R353, R476: the first cell of a frame arrives on a front port.
(DEDUCED: log entry 72.) -/
def firstCell (port : Nat) (data : List Byte) (s : State) : State :=
  if s.linkState port ≠ 2 ∨ beAt data 12 2 = 0x8808 ∨ beAt data 12 2 = 0x88B6 then s
  else
    let s := noteBytes port 0 data.length s
    if s.ferry port && !hasTag data then s.bump Obj.rxAborted port
    else
      let tag := if s.ferry port then some (parseTag data) else none
      let s := match tag with
        | some t => ferryArrive port t s
        | none => s
      let fabric := match tag with
        | some t => capAt 0x0FFFFFFF (t.residence + 16 * s.get Obj.ferryLinkDelayNs port)
        | none => 0
      let f := s.nextFrame
      let x : Frame := { inPort := port, data := data, length := Config.frameLength f, rxTime := s.time.now,
                         rxTick := s.time.ticks, tag := tag, fabric := fabric, stage := if s.awake then .ingress else .landing }
      let s := { s.setFrame f x with nextFrame := f + 1 }
      if s.awake then enterIngress f s else landBytes f data.length (s.bump Obj.landingFrames port)

/-- R353, R436, R476: the first cell of a frame. -/
def execFrameFirstCell (port : FrontPort) (data : List Byte) (s : State) : Host.Outcome State Fault Refusal :=
  .next (firstCell port.val data s)

/-! ### The tail (R140, R141, R436) -/

/-- The check of a frame's tail counts it, and says whether the frame is good (R140, R141).
(DEDUCED: log entry 48.) -/
def countTail (x : Frame) (data : List Byte) (fcs : Nat) (s : State) : Bool × State :=
  let port := x.inPort
  let right := fcs32 data
  let len := data.length - (if x.tag.isSome then 16 else 0)
  if x.tag.isSome ∧ fcs = Nat.xor right 0x5A5A5A5A then
    let s := s.bump Obj.rxAborted port
    (false, if (x.tag.map FerryTag.abort) = some false then s.bump Obj.abortUnarmed port else s)
  else if fcs ≠ right then (false, s.bump Obj.rxFcsErrors port)
  else if s.get Obj.maxFrameBytes port < len then (false, s.bump Obj.rxOversize port)
  else if data.length + 4 < 64 then (false, s.bump Obj.rxRunt port)
  else (true, (s.bump Obj.rxFrames port).add Obj.rxBytes port (data.length + 4))

end Sys2Proof.Machine
end

