-- ==== Sys2Proof/Machine/Edits.lean ====
section
/-! DEFINITION. A frame's bytes as the egress stage sees them: the parse edits (R163), the home stage's rewrites (R274)
and the removal of ferry tags (R440, R441) applied to the frame as received. -/

namespace Sys2Proof.Machine

/-- A byte of a frame under edits: its offset as received, or the offset before which it was pushed. -/
structure Item where
  pos : Nat
  received : Bool
  byte : Byte
  deriving DecidableEq, Repr

/-- The bytes of a frame as received, with their offsets. -/
def itemsFrom : Nat → List Byte → List Item
  | _, [] => []
  | i, b :: bs => { pos := i, received := true, byte := b } :: itemsFrom (i + 1) bs

/-- The byte at received offset `i` with bits [at_, at_ + width) of the bit string replaced (R163). -/
def rewriteByte (at_ width value i : Nat) (b : Byte) : Byte :=
  let lo := Nat.max at_ (8 * i)
  let hi := Nat.min (at_ + width) (8 * i + 8)
  if hi ≤ lo then b
  else
    let sh := 8 * i + 8 - hi
    let n := hi - lo
    let old := b.toNat / 2 ^ sh % 2 ^ n
    BitVec.ofNat 8 (b.toNat - old * 2 ^ sh + value / 2 ^ (at_ + width - hi) % 2 ^ n * 2 ^ sh)

/-- The item stands before a push at received offset `x`: earlier bytes, and earlier pushes at the same offset. -/
def Item.before (x : Nat) (t : Item) : Bool := decide (t.pos < x) || (decide (t.pos = x) && !t.received)

/-- Apply one edit other than CSUM4 (R163). -/
def applyEdit (its : List Item) : Edit → List Item
  | .rewrite at_ w v => its.map fun t => if t.received then { t with byte := rewriteByte at_ w v t.pos t.byte } else t
  | .push x bs =>
    its.takeWhile (·.before x) ++ bs.map (fun b => ({ pos := x, received := false, byte := b } : Item)) ++
      its.dropWhile (·.before x)
  | .pop a n => its.filter fun t => !(t.received && decide (a ≤ t.pos) && decide (t.pos < a + n))
  | .csum4 _ => its

/-- Length of the IPv4 header at `a`: 20 bytes, or IHL × 4 when IHL is above 5 (R152). -/
def ipv4Length (data : List Byte) (a : Nat) : Nat := Nat.max 20 (byteAt data a % 16 * 4)

/-- Put other bytes into items, one for one. -/
def Item.withBytes (its : List Item) (bs : List Byte) : List Item := its.zipWith (fun t b => { t with byte := b }) bs

/-- Recompute the checksum of the IPv4 header that begins with received byte `a`, as all other edits leave it, pushed bytes
included (R163).
(DEDUCED: log entry 29.) -/
def applyCsum (its : List Item) : Edit → List Item
  | .csum4 a =>
    let i := its.findIdx fun t => t.received && t.pos == a
    let rest := its.drop i
    let n := ipv4Length (rest.map Item.byte) 0
    let header := (rest.take n).map Item.byte
    its.take i ++ Item.withBytes (rest.take n) (overlay header 10 (beBytes 2 (ipChecksum (overlay header 10 [0, 0])))) ++
      rest.drop n
  | _ => its

/-- A pushed fabric address (R441): 16 bytes at received offset 12 that begin with the tag's TPID. -/
def Edit.ferryAddress : Edit → Bool
  | .push a bs => a == 12 && bs.length == 16 && beAt bs 0 2 == 0x88B5
  | _ => false

/-- The frame after the edits of its parse, without ferry tags (R163, R440, R441). -/
def Frame.parsedItems (x : Frame) : List Item :=
  let es := x.edits.filter fun e => !e.ferryAddress
  let its := es.foldl applyEdit (itemsFrom 0 x.data)
  let its := es.foldl applyCsum its
  if x.tag.isSome then its.filter fun t => !(t.received && decide (12 ≤ t.pos) && decide (t.pos < 28)) else its

/-- The frame after the home stage's rewrites as well (R274). -/
def Frame.items (x : Frame) : List Item := x.home.edits.foldl applyEdit x.parsedItems

/-- Padding of a whole frame to 60 bytes (R163). -/
def Frame.pad (x : Frame) (bs : List Byte) : List Byte :=
  if x.tail.isSome then bs ++ List.replicate (60 - bs.length) 0 else bs

/-- The frame's bytes without FCS and ferry tag, as they leave the home stage. -/
def Frame.bytes (x : Frame) : List Byte := x.pad (x.items.map Item.byte)

/-- The bytes a frame, or the frame it is a copy of, has at the egress stage. -/
def State.outBytes (s : State) (f : FrameId) : List Byte :=
  match s.body f with
  | some x => x.bytes
  | none => []

/-- Place in the frame as sent of the byte received at `o`; none where an edit removed it. -/
def Frame.place (x : Frame) (o : Nat) : Option Nat :=
  let i := x.items.findIdx fun t => t.received && t.pos == o
  if i < x.items.length then some i else none

/-- Put the egress stage's bytes into a frame. -/
def overlays (bs : List Byte) (l : List (Nat × List Byte)) : List Byte := l.foldl (fun bs w => overlay bs w.1 w.2) bs

end Sys2Proof.Machine
end

