-- ==== Sys2Proof/Machine/Tm.lean ====
section
/-! DEFINITION. The traffic manager (11): shapers, time gates, ECN marking, enqueue and its admission, selection and
transmission, and the refresh of priority flow control. -/

namespace Sys2Proof.Machine

/-! ### Shapers (R363, R364) -/

/-- A credit after `ticks` ticks of refill, never beyond the burst size (R363).
(DESIGN CHOICE: log entry 50.) -/
def refill (rate burst : Nat) (credit : Int) (ticks : Nat) : Int :=
  if rate = 0 then credit else min ((burst * creditUnit : Nat) : Int) (credit + ((rate * 65536 * ticks : Nat) : Int))

/-- A port's shaper credit now. -/
def State.portCredit (s : State) (p : Nat) : Int :=
  let t := s.tmPort p
  refill (s.get Obj.portShaperRateBps p) (s.get Obj.portShaperBurstBytes p) t.credit (s.time.ticks - t.creditAt)

/-- A queue's shaper credit now. -/
def State.queueCredit (s : State) (q : Nat) : Int :=
  let x := s.queue q
  refill (s.get Obj.queueShaperRateBps q) (s.get Obj.queueShaperBurstBytes q) x.credit (s.time.ticks - x.creditAt)

/-- A shaper's credit in whole bytes, rounded towards zero, as 64 bits: the credit counts in 2^-16 byte (R363). -/
def creditBytes (c : Int) : Nat := ofSigned 64 (Int.tdiv (c / 10000000000) 65536)

/-- Charge `n` bytes to a queue's shaper and to its port's; an unlimited shaper is not charged (R363, R364). -/
def chargeShapers (q n : Nat) (s : State) : State :=
  let p := q / 16
  let pay (rate : Nat) (c : Int) : Int := if rate = 0 then c else c - ((n * creditUnit : Nat) : Int)
  let pc := pay (s.get Obj.portShaperRateBps p) (s.portCredit p)
  let qc := pay (s.get Obj.queueShaperRateBps q) (s.queueCredit q)
  let s := s.setTmPort p { s.tmPort p with credit := pc, creditAt := s.time.ticks }
  { s with tm := { s.tm with
      queues := NMap.set {} s.tm.queues q { s.queue q with credit := qc, creditAt := s.time.ticks } } }

/-- The credit of a changed shaper at t_c (R364). -/
def switchCredit (r1 r2 burst : Nat) (c : Int) : Int :=
  let b : Int := ((burst * creditUnit : Nat) : Int)
  if r1 = 0 ∧ r2 ≠ 0 then b
  else min b (if r1 ≠ 0 ∧ r2 = 0 then max 0 c else c)

/-- Switch-over of TM_PORT for a port: every shaper's credit is brought up at the old rate, then follows R364. -/
def applyTmPort (port : Nat) (old : State) (s : State) : State :=
  let pc := switchCredit (old.get Obj.portShaperRateBps port) (s.get Obj.portShaperRateBps port)
    (s.get Obj.portShaperBurstBytes port) (old.portCredit port)
  let s := s.setTmPort port { s.tmPort port with credit := pc, creditAt := s.time.ticks }
  (List.range 16).foldl (fun s c =>
    let q := port * 16 + c
    let qc := switchCredit (old.get Obj.queueShaperRateBps q) (s.get Obj.queueShaperRateBps q)
      (s.get Obj.queueShaperBurstBytes q) (old.queueCredit q)
    { s with tm := { s.tm with
        queues := NMap.set {} s.tm.queues q { s.queue q with credit := qc, creditAt := s.time.ticks } } }) s

/-! ### Time gates (R365 to R370) -/

/-- Entries of a gate list: gate states and interval. -/
def gateEntries (bs : List Byte) : List (Nat × Nat) :=
  (List.range (bs.length / 8)).map fun i => (leAt bs (8 * i) 2, leAt bs (8 * i + 4) 4)

/-- Segments of a cycle, by start and gate states; the list is cut at the cycle's end (R366). -/
def gateSegments (cycle : Nat) : Nat → List (Nat × Nat) → List (Nat × Nat)
  | _, [] => []
  | start, (m, n) :: rest => if cycle ≤ start then [] else (start, m) :: gateSegments cycle (start + n) rest

/-- A list that runs: its base time on the scale of the device time in ns, cycle in ns, segments. -/
structure Gates where
  base : Int
  cycle : Nat
  segs : List (Nat × Nat)
  deriving DecidableEq, Repr

/-- A TIME80 on the scale of the device time in ns, by its signed difference from now (R410). -/
def State.instant (s : State) (t : Nat) : Int := s.nowNs + timeDiff t s.now80

/-- Gates that a base, a cycle and a list make; none where there is no list. -/
def gatesOf (base : Int) (cycle : Nat) (bs : List Byte) : Option Gates :=
  if cycle = 0 ∨ bs.length < 8 then none
  else some { base := base, cycle := cycle, segs := gateSegments cycle 0 (gateEntries bs) }

/-- The operational list of a port (R366). -/
def State.operGates (s : State) (p : Nat) : Option Gates :=
  if s.get Obj.gateEnable p = 0 then none
  else gatesOf (s.instant (s.get Obj.operBaseTime p)) (s.get Obj.operCycleTimeNs p) (s.getDom Obj.operList p)

/-- The list that takes over at CT, if one is pending (R367). -/
def State.nextGates (s : State) (p : Nat) : Option Gates :=
  match (s.tmPort p).pendingGate with
  | some (ct, cycle, bs) => gatesOf (s.instant ct) cycle bs
  | none => none

/-- Position in the cycle at an instant, in ns. -/
def Gates.pos (g : Gates) (t : Int) : Nat := ((t - g.base) % (g.cycle : Int)).toNat

/-- Gate states at a position. -/
def Gates.maskAt (g : Gates) (pos : Nat) : Nat :=
  g.segs.foldl (fun m x => if x.1 ≤ pos then x.2 else m) 0xFFFF

/-- Gate states that hold at the end of a cycle. -/
def Gates.lastMask (g : Gates) : Nat := g.segs.foldl (fun _ x => x.2) 0xFFFF

/-- Time from the start of the last old cycle that would begin before CT to CT, 1 to the cycle time (R368). -/
def Gates.tail (g : Gates) (ct : Int) : Nat := g.pos (ct + g.cycle - 1) + 1

/-- Gate states of a port at an instant in ns, a pending change included (R366 to R368).
(DESIGN CHOICE: log entry 50.) -/
def State.gateMask (s : State) (p : Nat) (t : Int) : Nat :=
  match s.operGates p, s.nextGates p with
  | none, none => 0xFFFF
  | none, some n => if n.base ≤ t then n.maskAt (n.pos t) else 0xFFFF
  | some g, none => g.maskAt (g.pos t)
  | some g, some n =>
    if n.base ≤ t then n.maskAt (n.pos t)
    else if g.tail n.base < s.get Obj.adminCycleExtensionNs p ∧ n.base ≤ t + g.tail n.base then g.lastMask
    else g.maskAt (g.pos t)

/-- Instants after `t` at which the segments of a list begin, over two cycles. -/
def Gates.bounds (g : Gates) (t : Int) : List Int :=
  let start := t - g.pos t
  (g.segs.flatMap fun x => [start + x.1, start + g.cycle + x.1, start + 2 * g.cycle + x.1]).filter fun u => decide (t < u)

/-- Time from now until a queue's gate next closes; none where it stays open (R369). -/
def State.nextClose (s : State) (p c : Nat) : Option Nat :=
  let t : Int := s.nowNs
  let old := match s.operGates p with | some g => g.bounds t | none => []
  let new := match s.nextGates p with | some n => n.base :: n.bounds (max t n.base) | none => []
  let closes := (old ++ new).filter fun u => decide (t < u) && !bitOf (s.gateMask p u) c
  closes.foldl (fun m u => match m with
    | some v => some (Nat.min v (u - t).toNat)
    | none => some (u - t).toNat) none

/-- Longest continuous open time of a queue's gate in one cycle; none where it never closes (R370). -/
def Gates.longestOpen (g : Gates) (c : Nat) : Option Nat :=
  if g.segs.all fun x => bitOf x.2 c then none
  else
    let ends := (g.segs.drop 1).map (·.1) ++ [g.cycle]
    let runs := (g.segs.zip ends).map fun x => (bitOf x.1.2 c, x.2 - x.1.1)
    some ((runs ++ runs).foldl (fun (a : Nat × Nat) r =>
      let cur := if r.1 then a.1 + r.2 else 0
      (cur, Nat.max a.2 cur)) (0, 0)).2

/-- R366: the entry in force of a port's operational list. -/
def State.gateIndex (s : State) (p : Nat) : Nat :=
  match s.operGates p with
  | some g => (g.segs.filter fun x => decide (x.1 ≤ g.pos s.nowNs)).length - 1
  | none => 0

/-- R366: the gates take the states of the next entry. -/
def execGateEntryChange (port : Port) (s : State) : Host.Outcome State Fault Refusal :=
  .next (s.setTmPort port.val { s.tmPort port.val with gateEntry := s.gateIndex port.val })

/-- R367, R368: at CT the pending list becomes the operational list.
(DEDUCED: log entry 49.) -/
def execGateConfigChanged (port : Port) (s : State) : Host.Outcome State Fault Refusal :=
  let p := port.val
  .next (match (s.tmPort p).pendingGate with
    | none => s
    | some (ct, cycle, bs) =>
      if timeDiff s.now80 ct < 0 then s
      else
        let s := match s.operGates p with
          | some g =>
            let tail := g.tail (s.instant ct)
            if tail < s.get Obj.adminCycleExtensionNs p ∨ tail < g.cycle then s.bump Obj.gateCyclesAdjusted p
            else s
          | none => s
        let s := s.setTmPort p { s.tmPort p with pendingGate := none, gateEntry := 0 }
        let s := (s.set Obj.operBaseTime p ct).set Obj.operCycleTimeNs p cycle
        let s := (s.setDom Obj.operList p bs).set Obj.configPending p 0
        raise Ev.gateConfigChanged p (s.group 0x39 p).generation (ct % 2 ^ 32) s)

/-- Validation of GATE_LIST (group 0x39) of a port (R365). -/
def validateGateList (port : Nat) (s : State) : Option (Nat × Nat) :=
  let bs := s.stagedDom Obj.adminList port
  let bad (i : Nat) : Bool := leAt bs (8 * i + 4) 4 == 0 || leAt bs (8 * i + 2) 2 != 0
  if s.staged Obj.gateEnable port = 0 then none
  else if bs = [] ∨ bs.length % 8 ≠ 0 ∨ (List.range (bs.length / 8)).any bad then
    some (St.badValue, addrKey 0x5844 0 port)
  else if s.staged Obj.adminCycleTimeNs port = 0 then some (St.badValue, addrKey 0x5842 0 port)
  else none

/-- Switch-over of GATE_LIST for a port at the TIME80 `tc`: CT is the base time, or the base time a whole number of cycles
later (R367, R410). -/
def applyGateList (port tc : Nat) (s : State) : State :=
  if s.get Obj.gateEnable port = 0 then
    let s := s.setTmPort port { s.tmPort port with pendingGate := none, gateEntry := 0 }
    let s := (s.setDom Obj.operList port []).set Obj.configPending port 0
    (s.set Obj.operBaseTime port 0).set Obj.operCycleTimeNs port 0
  else
    let base := s.get Obj.adminBaseTime port
    let cycle := s.get Obj.adminCycleTimeNs port
    let late := timeDiff tc base
    let ct := if late ≤ 0 then base else time80OfNs (nsOfTime80 base + ceilDiv late.toNat cycle * cycle)
    let s := s.setTmPort port { s.tmPort port with pendingGate := some (ct, cycle, s.getDom Obj.adminList port) }
    (s.set Obj.configChangeTime port ct).set Obj.configPending port 1

/-! ### PTP event messages in a frame (R417, R421) -/

/-- Offset of the first header after the MAC addresses and up to `n` VLAN tags: its EtherType stands there.
(DEDUCED: log entry 48.) -/
def skipVlans : Nat → List Byte → Nat → Nat
  | 0, _, o => o
  | n + 1, bs, o => if beAt bs o 2 = 0x8100 ∨ beAt bs o 2 = 0x88A8 then skipVlans n bs (o + 4) else o

/-- A PTP message in a frame without ferry tag: its offset, and of a UDP message the offset of the UDP header and
whether it is IPv6 (R417). -/
def ptpOffset (bs : List Byte) : Option (Nat × Option (Nat × Bool)) :=
  let o := skipVlans 2 bs 12
  let ip := o + 2
  if beAt bs o 2 = 0x88F7 then some (ip, none)
  else if beAt bs o 2 = 0x0800 ∧ byteAt bs (ip + 9) = 17 then
    let u := ip + byteAt bs ip % 16 * 4
    if beAt bs (u + 2) 2 = 319 ∨ beAt bs (u + 2) 2 = 320 then some (u + 8, some (u, false)) else none
  else if beAt bs o 2 = 0x86DD ∧ byteAt bs (ip + 6) = 17 then
    let u := ip + 40
    if beAt bs (u + 2) 2 = 319 ∨ beAt bs (u + 2) 2 = 320 then some (u + 8, some (u, true)) else none
  else none

/-- The frame is a PTP event message (R417). -/
def ptpEvent (bs : List Byte) : Bool :=
  match ptpOffset bs with
  | none => false
  | some (o, u) =>
    decide (byteAt bs o % 16 ≤ 3) && byteAt bs (o + 1) % 16 == 2 &&
    (match u with | some (h, _) => beAt bs (h + 2) 2 == 319 | none => true)

/-- A UDP message carries a trailer of at least two bytes after the PTP message (R421).
(DESIGN CHOICE: log entry 50.) (DEDUCED: log entry 56.) -/
def ptpTrailer (bs : List Byte) (o u : Nat) : Bool := decide (beAt bs (o + 2) 2 + 2 ≤ beAt bs (u + 4) 2 - 8)

/-- The egress stage stores the frame whole to recompute its UDP checksum (R421). -/
def State.storesWhole (s : State) (bs : List Byte) : Bool :=
  s.get Obj.clockRole == 2 && ptpEvent bs &&
  match ptpOffset bs with
  | some (o, some (u, true)) => !ptpTrailer bs o u
  | _ => false

/-! ### Queues (R355, R358, R361, R371) -/

/-- Charged length of a frame of `b` bytes with FCS (R358).
(DESIGN CHOICE: log entry 46.) -/
def State.chargedLength (s : State) (port b : Nat) : Nat :=
  Nat.max 1 ((b : Int) + toSigned 32 (s.get Obj.lengthOverhead port)).toNat

/-- Length without FCS of a frame at the egress stage, whether or not all of it has arrived (R351, R352): after every edit,
and padded to 60 bytes.
(DESIGN CHOICE: log entry 46.) -/
def State.outLength (s : State) (f : FrameId) : Nat :=
  Nat.max 60 ((s.outBytes f).length + (s.body f).elim 0 Frame.missing)

/-- Length with FCS of a frame as transmitted, without ferry tag (R358). -/
def State.wireLength (s : State) (f : FrameId) : Nat := s.outLength f + 4

/-- Cost of a frame in a queue (R361). -/
def State.wfqCost (s : State) (q : Nat) (f : FrameId) : Nat :=
  s.chargedLength (q / 16) (s.wireLength f) * (2 ^ 20 / s.get Obj.wfqWeight q)

/-- Form the finish tag of a queue that has just become non-empty (R361, R357). -/
def formTag (q : Nat) (s : State) : State :=
  let x := s.queue q
  match x.frames with
  | [] => s
  | e :: _ =>
    let v := (s.tmPort (q / 16)).vtime
    let base := if 0 < toSigned 64 ((v + 2 ^ 64 - x.last) % 2 ^ 64) then v else x.last
    s.setQueue q { x with finish := (base + s.wfqCost q e.frame) % 2 ^ 64 }

/-- Bytes that an ECN mark writes into a frame as sent; none where the frame is not to be marked (R371). -/
def Frame.ecnMarks (x : Frame) : Option (List (Nat × List Byte)) :=
  match x.result.l3 with
  | none => none
  | some o => match x.place o with
    | none => none
    | some i =>
      let bs := x.bytes
      let b := byteAt bs (i + 1)
      if byteAt bs i / 16 = 4 then
        if b % 4 = 1 ∨ b % 4 = 2 then
          let m := beAt bs i 2
          some [(i + 1, leBytes 1 (b / 4 * 4 + 3)),
                (i + 10, beBytes 2 (csumUpdate (beAt bs (i + 10) 2) m (m / 4 * 4 + 3)))]
        else none
      else if byteAt bs i / 16 = 6 then
        if b / 16 % 4 = 1 ∨ b / 16 % 4 = 2 then some [(i + 1, leBytes 1 (b - b / 16 % 4 * 16 + 48))] else none
      else none

/-- Tests 2 to 4 of R355 for `c` cells. -/
def State.admits (s : State) (q c : Nat) : Bool :=
  let n := s.get Obj.queueCells q + c
  let limit := s.get Obj.queueLimitCells q
  s.get Obj.queueLossless q == 1 || decide (n ≤ s.get Obj.queueReservedCells q) ||
  (decide (n * 8 ≤ s.freeCells (deckOfPort (q / 16)) * 2 ^ s.get Obj.queueAlpha q) &&
   (limit == 0 || decide (n ≤ limit)))

/-- What enqueue did with a frame. -/
inductive Enqueued where
  | admitted | flushed | refused
  deriving DecidableEq, Repr

/-- An injected frame is longer than its egress port's maximum frame length (R108).
(DEDUCED: log entry 40.) -/
def State.injectTooLong (s : State) (f : FrameId) (port : Nat) : Bool :=
  decide (port < 128) && (s.body f).elim false (fun x => x.inPort == 128) &&
  decide (s.get Obj.maxFrameBytes port < (s.outBytes f).length)

/-- Frames for a port are discarded at enqueue: its LINK_STATE is DISABLED, TRAINING or DOWN, or it has been flushed since
the link was last declared up (R128, R355). -/
def State.flushing (s : State) (port : Nat) : Bool :=
  (s.linkState port != 2 && s.linkState port != 3) || (s.link port).flushed

/-- Enqueue a frame, or one pointer to it, to a queue (R108, R352, R355, R371); an injected frame that is too long is
counted among the port's oversize frames (log entry 40). -/
def enqueueTo (f : FrameId) (q : Nat) (s : State) : Enqueued × State :=
  let port := q / 16
  if s.flushing port then (.flushed, s.bump Obj.linkFlushed port)
  else if s.injectTooLong f port then (.flushed, s.bump Obj.rxOversize port)
  else
    let c := frameCells (s.outLength f)
    if !s.admits q c then (.refused, s.bump Obj.admitDrops q)
    else
      let x := s.queue q
      let depth := s.get Obj.queueCells q
      let mark := if s.get Obj.ecnMarkCells q ≠ 0 ∧ s.get Obj.ecnMarkCells q ≤ depth then
          (s.body f).bind Frame.ecnMarks else none
      let s := if mark.isSome then s.bump Obj.ecnMarked q else s
      let e : QEntry := { frame := f, cells := c, tick := s.time.ticks, depth := depth,
                          buffer := s.cellsUsed (deckOfPort port), marks := mark.getD [] }
      let s := (s.setQueue q { x with frames := x.frames ++ [e] }).bump Obj.enqFrames q
      let s := if x.frames = [] then formTag q s else s
      (.admitted, lpiWake port s)

/-- A frame that its context released earlier still waits for its enqueue (R33, R334). -/
def State.releasedBefore (s : State) (f : FrameId) (x : Frame) : Bool :=
  match x.stamp with
  | none => false
  | some st => s.frames.any fun y => y.1 != f && y.2.stage == .released && match y.2.stamp with
    | none => false
    | some t =>
      let d := (st.seq + 65536 - t.seq) % 65536
      t.redirect == st.redirect && t.pipe == st.pipe && t.port == st.port && t.cls == st.cls && d != 0 && decide (d < 32768)

/-- R355: a released frame is enqueued, or discarded; the frames of a context in the order of their release (R33), and of
a deck whose clock runs (R526). -/
def execEnqueue (f : FrameId) (s : State) : Host.Outcome State Fault Refusal :=
  .next (match s.frame f with
    | none => s
    | some x =>
      if x.stage ≠ .released ∨ s.releasedBefore f x ∨ !s.ticking (deckOfPort x.port) then s
      else if s.flushing x.port then finishFrame f (s.bump Obj.linkFlushed x.port)
      else if x.tail = some false then finishFrame f s
      else if s.ferry x.port && x.ferryDst.isNone && !bitOf (s.get Obj.neighborId x.port) 16 then
        finishFrame f (s.bump Obj.noRouteDrops x.port)
      else match enqueueTo f (x.port * 16 + x.cls) s with
        | (.admitted, s) => s.modFrame f fun x => { x with stage := .queued (x.port * 16 + x.cls) }
        | (_, s) => finishFrame f s)

/-! ### Selection (R359 to R362, R357, R370) -/

/-- The head frame of a queue is selectable: a frame to be stored whole has its tail in the deck's buffer (R43, R421). -/
def State.headReady (s : State) (port : Nat) (f : FrameId) : Bool :=
  match s.body f with
  | none => true
  | some x =>
    let whole := decide (s.speed x.inPort < s.speed port) || s.storesWhole (s.outBytes f)
    !whole || (x.tail.isSome && s.landedWhole f)

/-- Guard band of a frame of `b` bytes with FCS, ns (R369). -/
def State.guardBand (s : State) (port b : Nat) : Nat := s.txTime port b + s.get Obj.gateGuardNs port

/-- The gate of a queue lets a frame of `b` bytes start (R369). -/
def State.gateAllows (s : State) (port c b : Nat) : Bool :=
  bitOf (s.gateMask port s.nowNs) c &&
  (s.get Obj.gateGuardNs port == 0 || match s.nextClose port c with
    | some n => decide (s.guardBand port b ≤ n)
    | none => true)

/-- A received pause holds a class of a port (R136). -/
def State.classPaused (s : State) (port c : Nat) : Bool :=
  decide (port < 128) && match (s.link port).paused.find (byteAt (leBytes 16 (s.get Obj.classPfcMap port)) c) with
    | some t => decide (s.time.ticks < t)
    | none => false

/-- The perturbation holds the port's selections (R545).
(DESIGN CHOICE: log entry 77.) -/
def State.tmHeld (s : State) (port : Nat) : Bool :=
  let hold := s.get Obj.perturbTmHoldNs port
  hold != 0 && decide (s.time.ticks * 4 / 5 % s.get Obj.perturbTmPeriodNs port < hold)

/-- The port can make a selection (R359, R134, R352, R526, R545). -/
def State.canSelect (s : State) (port : Nat) : Bool :=
  port != 128 && s.ticking (deckOfPort port) && s.linkState port == 2 && (s.tmPort port).sending.isNone && decide (0 ≤ s.portCredit port) &&
  (s.link port).lpiSince.isNone && (s.link port).wakeAt.isNone && !s.tmHeld port &&
  (decide (port < 128) || decide (s.get Obj.landingGuardCells (deckOfPort port) ≤ s.freeCells (deckOfPort port)))

/-- Queue of class `c` is eligible (R360). -/
def State.eligible (s : State) (port c : Nat) : Bool :=
  match (s.queue (port * 16 + c)).frames with
  | [] => false
  | e :: _ => !s.classPaused port c && decide (0 ≤ s.queueCredit (port * 16 + c)) &&
      s.gateAllows port c (s.wireLength e.frame) && s.headReady port e.frame

/-- Discard the head of a queue in place of sending it; the tag is formed anew (R357).
(DEDUCED: log entry 40.) -/
def discardHead (q : Nat) (s : State) : State :=
  let x := s.queue q
  match x.frames with
  | [] => s
  | e :: rest => formTag q (dropPointer e.frame (s.setQueue q { x with frames := rest }))

/-- Discard heads that can never fit their gate (R370).
(DEDUCED: log entry 40.) -/
def dropTooLong (port c : Nat) : Nat → State → State
  | 0, s => s
  | fuel + 1, s =>
    let q := port * 16 + c
    match (s.queue q).frames, s.operGates port with
    | e :: _, some g =>
      let band := s.guardBand port (s.wireLength e.frame)
      match g.longestOpen c with
      | some n =>
        if s.get Obj.gateGuardNs port ≠ 0 ∧ n < band then
          dropTooLong port c fuel (discardHead q (raise Ev.gateFrameTooLong q band n (s.bump Obj.gateTooLongDrops q)))
        else s
      | none => s
    | _, _ => s

/-- The better of two eligible classes, `a` found first (R360): the highest STRICT queue, else the smallest tag. -/
def State.better (s : State) (port a b : Nat) : Nat :=
  let strict (c : Nat) : Bool := s.get Obj.queueMode (port * 16 + c) == 1
  if strict b then b
  else if strict a then a
  else
    let d := ((s.queue (port * 16 + b)).finish + 2 ^ 64 - (s.queue (port * 16 + a)).finish) % 2 ^ 64
    if toSigned 64 d < 0 then b else a

/-- The class to be served (R360). -/
def State.chosen (s : State) (port : Nat) : Option Nat :=
  (List.range 16).foldl (fun m c => if !s.eligible port c then m else match m with
    | none => some c
    | some a => some (s.better port a c)) none

/-- A frame sent to a loopback port re-enters its pipe's ingress stage as a frame received there; its tail follows at the
end of the transmission (R126).
(DEDUCED: log entry 47.) -/
def reenter (port : Nat) (bytes : List Byte) (length : Nat) (s : State) : State :=
  let f := s.nextFrame
  let x : Frame := { inPort := port, data := bytes, length := length, rxTime := s.time.now, rxTick := s.time.ticks }
  enterIngress f { s.setFrame f x with nextFrame := f + 1 }

/-- The head of a queue starts transmission: tags, shapers, sojourn (R360, R361, R363, R374). -/
def startTx (q : Nat) (s : State) : State :=
  let port := q / 16
  let x := s.queue q
  match x.frames with
  | [] => s
  | e :: rest =>
    let b := s.wireLength e.frame
    let n := s.chargedLength port b
    let wfq := s.get Obj.queueMode q == 0
    let sent : Sending := {
      entry := some e, queue := q, start := s.time.ticks, end_ := s.time.ticks + ticksOfNs (s.txTime port b), charged := n,
      before := ((s.tmPort port).vtime, x.last, x.finish) }
    let t := s.tmPort port
    let x' := { x with frames := rest }
    let x' := if wfq then { x' with
        last := x.finish,
        finish := match rest with
          | [] => x.finish
          | h :: _ => (x.finish + s.wfqCost q h.frame) % 2 ^ 64 } else x'
    let s := s.setTmPort port { t with sending := some sent, vtime := if wfq then x.finish else t.vtime }
    let s := chargeShapers q n (s.setQueue q x')
    let sojourn := capAt 0xFFFFFFFF (s.sinceNs e.tick)
    let s := s.set Obj.sojournLastNs q sojourn
    let s := if s.get Obj.sojournPeakNs q < sojourn then s.set Obj.sojournPeakNs q sojourn else s
    let s := s.modFrame e.frame fun y => if y.origin.isNone then { y with stage := .sending port } else y
    if 129 ≤ port then reenter port (overlays (s.outBytes e.frame) e.marks) (b - 4) s else s

/-- Make a selection, discarding heads found bad or too old on the way (R357, R360, R141). -/
def selectLoop (port : Nat) : Nat → State → State
  | 0, s => s
  | fuel + 1, s =>
    match s.chosen port with
    | none => s
    | some c =>
      let q := port * 16 + c
      match (s.queue q).frames with
      | [] => s
      | e :: _ =>
        let limit := s.get Obj.maxResidenceNs port
        if ((s.body e.frame).bind Frame.tail) = some false then selectLoop port fuel (discardHead q s)
        else if limit ≠ 0 ∧ s.exceeds e.tick limit then
          selectLoop port fuel (discardHead q (s.bump Obj.residenceDrops q))
        else startTx q s

/-- Frames in a port's queues. -/
def State.queued (s : State) (port : Nat) : Nat :=
  (List.range 16).foldl (fun n c => n + (s.queue (port * 16 + c)).frames.length) 0

/-- R359 to R361: a selection, if the port can make one. -/
def execSelection (port : Port) (s : State) : Host.Outcome State Fault Refusal :=
  let p := port.val
  .next (if !s.canSelect p then s
    else
      let s := (List.range 16).foldl (fun s c => dropTooLong p c (s.queue (p * 16 + c)).frames.length s) s
      selectLoop p (s.queued p + 1) s)

/-! ### The end of transmission (R126, R138, R140, R369) -/

/-- The frame as it leaves a port, with its ferry tag and without FCS. -/
def State.sentBytes (s : State) (x : Sending) : List Byte :=
  match x.entry with
  | none => x.bytes
  | some e =>
    let bs := overlays (s.outBytes e.frame) (e.marks ++ x.fills)
    if x.tag = [] then bs else bs.take 12 ++ x.tag ++ bs.drop 12

/-- FCS of a frame that ends bad (R140): the abort marker on a ferry port, the complement on another.
(DEDUCED: log entry 78.) -/
def badFcs (ferry : Bool) (bs : List Byte) : Nat :=
  if ferry then Nat.xor (fcs32 bs) 0x5A5A5A5A else 0xFFFFFFFF - fcs32 bs

/-- The transmission is over: its time has run, and the tail of a frame has been sent.
(DEDUCED: log entry 78.) -/
def State.txOver (s : State) (port : Nat) (x : Sending) : Bool :=
  match x.entry with
  | none => decide (x.end_ ≤ s.time.ticks)
  | some e => ((s.body e.frame).bind Frame.tail).isSome && s.landedWhole e.frame && (x.txTime.isSome || decide (128 ≤ port)) &&
      !((s.body e.frame).elim false fun y => y.home.duty) &&
      decide (x.start + ticksOfNs (s.txTime port (s.wireLength e.frame)) ≤ s.time.ticks)

/-- The gate of a frame in transmission has closed with no guard band (R369, R375). -/
def noteOverrun (port : Nat) (s : State) : State :=
  let t := s.tmPort port
  match t.sending with
  | some x =>
    if x.entry.isSome ∧ !x.overrun ∧ s.time.ticks < x.end_ ∧ s.get Obj.gateGuardNs port = 0 ∧
      !bitOf (s.gateMask port s.nowNs) (x.queue % 16) then
      s.setTmPort port { t with sending := some { x with overrun := true } }
    else s
  | none => s

/-- Look at the gates of every frame in transmission, at each tick. -/
def noteOverruns (s : State) : State := (s.tm.ports.map (·.1)).foldl (fun s p => noteOverrun p s) s

/-- Count a frame that has been sent whole, good or bad (R140, R142, R369).
(DEDUCED: log entry 48.) -/
def countSent (port : Nat) (x : Sending) (e : QEntry) (s : State) : State :=
  let good := ((s.body e.frame).bind Frame.tail) != some false
  let bs := s.sentBytes x
  let fcs := if good then fcs32 bs else badFcs (s.ferry port) bs
  let s := if good then
      ((s.bump Obj.txFrames port).add Obj.txBytes port (bs.length + 4)).bump Obj.queueTxFrames x.queue
    else if port < 128 then s.bump Obj.txEndedBad port else s
  let s := if x.overrun then s.bump Obj.gateOverruns x.queue else s
  noteBytes port 1 (bs.length + 4) (s.setLink port { s.link port with out := bs ++ leBytes 4 fcs })

/-! ### Priority flow control (R372) -/

/-- R372: the requests of a port are repeated while the account stays at or above PFC_XON_CELLS.
(DEDUCED: log entry 75.) -/
def execPfcRefresh (port : FrontPort) (s : State) : Host.Outcome State Fault Refusal :=
  let p := port.val
  let due := (s.link p).xoff.filter fun x => s.elapsed x.2 (s.get Obj.pfcRefreshNs) &&
    decide (s.getS Obj.pfcXonCells (x.1 + 1) p ≤ s.getS Obj.ingressCells (x.1 + 1) p)
  .next (pfcSend p (due.foldl (fun s x => pfcAsk p x.1 (s.get Obj.pfcQuanta) s) s))

/-- A write leaves PFC_XON_CELLS at or below PFC_XOFF_CELLS (R372).
(DEDUCED: log entry 75.) -/
def State.pfcOrder (s : State) (port sub : Nat) : Bool :=
  decide (s.getS Obj.pfcXonCells sub port ≤ s.getS Obj.pfcXoffCells sub port)

/-! ### Later cells (R352, R353) -/

/-- More bytes of a frame that is still arriving. -/
def moreBytes (f : FrameId) (data : List Byte) (s : State) : State :=
  match s.frame f with
  | none => s
  | some x => match x.truncated with
    | some rest => s.setFrame f { x with truncated := some (rest ++ data) }
    | none =>
      let s := s.setFrame f { x with data := x.data ++ data }
      match x.stage with
      | .gone => s
      | .landing => landBytes f data.length s
      | _ =>
        let s := takeCells f (frameCells (x.data.length + data.length) - frameCells x.data.length) s
        followHead false x.charged ((s.frame f).elim 0 fun y => y.charged - x.charged) f s

/-- The frame arrives on a front port: its later cells and its tail come from the MAC. -/
def Frame.onMac (x : Frame) : Bool := x.arriving && x.origin.isNone && decide (x.inPort < 128)

/-- R353: a later cell of a frame that is still arriving.
(DEDUCED: log entry 78.) -/
def execFrameCell (f : FrameId) (data : List Byte) (s : State) : Host.Outcome State Fault Refusal :=
  .next (match s.frame f with
    | none => s
    | some x => if x.onMac then moreBytes f data (noteBytes x.inPort 0 data.length s) else s)

end Sys2Proof.Machine
end

