-- ==== Sys2Proof/Machine/Time.lean ====
section
/-! DEFINITION. Device time (13): the counter's tick, steps and jumps, the PTP engine, trigger outputs and capture
inputs. -/

namespace Sys2Proof.Machine

/-! ### The counter (R407 to R415) -/

/-- `s` with another time. -/
def State.withTime (s : State) (t : Time) : State := { s with time := t }

/-- The night watch keeps the time: the device is in Moor (R426). -/
def State.nightWatch (s : State) : Bool := s.time.watching

/-- What the counter adds at this tick: TIME_INCREMENT, or in Moor 50 times that at each 25 MHz edge (R408, R426). -/
def State.tickAmount (s : State) : Nat :=
  let inc := s.get Obj.timeIncrement
  if s.nightWatch then (if s.time.watch = 49 then 50 * inc else 0) else inc

/-- A commit whose t_c a step from `before` to the present time passes takes effect at this tick, once (R83, R431).
(DEDUCED: log entry 54.) -/
def commitPassed (before : Nat) (s : State) (g : Nat × GroupInst) : State :=
  if g.2.state = 2 ∧ g.2.passed = false ∧ timeDiff g.2.tc (time80OfNs (before / nsUnit)) > 0 ∧
      timeDiff g.2.tc s.now80 ≤ 0 then
    raise Ev.schedCommitStepped (g.1 % 65536) (g.1 / 65536) (g.2.tc % 2 ^ 32)
      (s.setGroup (g.1 / 65536) (g.1 % 65536) { g.2 with passed := true })
  else s

/-- The commits that a step passes (R83, R431): `before` is the time without the step. -/
def commitsPassed (before : Nat) (s : State) : State := s.dict.groups.foldl (commitPassed before) s

/-- Pending trigger edges that a step passes over are late (R415). -/
def triggersPassed (natural : Nat) (s : State) : State :=
  let mark (x : Trigger) : Trigger := match x.next with
    | some t => if natural / nsUnit < t ∧ t ≤ s.nowNs then { x with late := true } else x
    | none => x
  { s with ptp := { s.ptp with triggers := s.ptp.triggers.map fun e => (e.1, mark e.2) } }

/-- The first edge START + k × PERIOD of a periodic trigger at or after a time in ns. -/
def firstEdge (start period from_ : Nat) : Nat :=
  if from_ ≤ start ∨ period = 0 then start else start + ceilDiv (from_ - start) period * period

/-- A periodic trigger whose next edge was not passed over follows the new time (R415). -/
def retimeTriggers (s : State) : State :=
  let again (n : Nat) (x : Trigger) : Trigger :=
    if s.get Obj.ttMode n = 2 ∧ x.late = false ∧ x.next.isSome then
      { x with next := some (firstEdge (nsOfTime80 (s.get Obj.ttStart n)) (s.get Obj.ttPeriodNs n) s.nowNs) }
    else x
  { s with ptp := { s.ptp with triggers := s.ptp.triggers.map fun e => (e.1, again e.1 e.2) } }

/-- Device time becomes `new` at this tick where it would have been what it is now: every user of it follows (R83, R415,
R433). -/
def stepTo (kind new : Nat) (stated : Int) (s : State) : State :=
  let before := s.time.now
  let s := s.withTime { s.time with now := new, steps := s.time.steps + 1 }
  let s := retimeTriggers (triggersPassed before (commitsPassed before s))
  raise Ev.timeStepped 0 kind (ofSigned 64 stated) s

/-- One forced change: a set (kind 3) to a time, or a step by `v` ns (R413).
(DEDUCED: log entry 54.) -/
def applyJump (s : State) (j : Nat × Int) : State :=
  let old := s.time.now
  let new : Nat := if j.1 = 3 then j.2.toNat * nsUnit else ((old : Int) + j.2 * nsUnit).toNat
  stepTo j.1 new ((new / nsUnit : Nat) - (old / nsUnit : Nat) : Int) s

/-- The steps that wait, up to the first that starts a hold (R411, R431).
(DEDUCED: log entry 54.) -/
def applySteps : List Int → State → State
  | [], s => s.withTime { s.time with waiting := [] }
  | v :: rest, s =>
    if 0 ≤ v then applySteps rest (stepTo 0 (s.time.now + v.toNat * nsUnit) v s)
    else
      let s := s.withTime { s.time with hold := (-v).toNat * nsUnit, holding := true, waiting := rest,
                                        steps := s.time.steps + 1 }
      raise Ev.timeStepped 0 1 (ofSigned 64 v) s

/-- The counter at one tick: the increment, then forced changes, else waiting steps, less what a hold withholds.
(DESIGN CHOICE: log entry 2.) (DEDUCED: log entry 54.) -/
def timeTick (s : State) : State :=
  let inc := s.tickAmount
  let watch := if s.nightWatch then (s.time.watch + 1) % 50 else 0
  let s := s.withTime { s.time with ticks := s.time.ticks + 1, watch := watch, now := s.time.now + inc }
  if s.time.jumps ≠ [] then
    s.time.jumps.foldl applyJump (s.withTime { s.time with jumps := [], hold := 0, holding := false })
  else
    let s := if s.time.holding then s else applySteps s.time.waiting s
    let held := if inc ≤ s.time.hold then inc else s.time.hold
    s.withTime { s.time with now := s.time.now - held, hold := s.time.hold - held }

/-- TIME_HOLD_END (R411, R431): the whole amount has been withheld; steps that waited for it are free.
(DEDUCED: log entry 54.) -/
def execTimeHoldEnd (s : State) : Host.Outcome State Fault Refusal :=
  .next (if s.time.holding ∧ s.time.hold = 0 then s.withTime { s.time with holding := false } else s)

/-- A write of TIME_STEP_NS (R411, R412): its status. -/
def writeTimeStep (session : Nat) (value : Nat) (s : State) : Nat × State :=
  let v := toSigned 64 value
  let limit := s.get Obj.stepLimitNs
  if limit ≠ 0 ∧ limit < v.natAbs then
    (St.range, raise Ev.stepRefused 0 session (ofSigned 64 v) (s.bump Obj.stepsRefused))
  else if v = 0 then (St.ok, s)
  else (St.ok, s.withTime { s.time with waiting := s.time.waiting ++ [v] })

/-- Device time at the next tick with the forced changes accepted so far, in 2^-32 ns. -/
def State.nextTime (s : State) : Int :=
  s.time.jumps.foldl (fun t j => if j.1 = 3 then j.2 * nsUnit else t + j.2 * nsUnit)
    ((s.time.now + s.tickAmount : Nat) : Int)

/-- A forced step or set is accepted. -/
def forceTime (kind : Nat) (v : Int) (s : State) : State :=
  s.withTime { s.time with jumps := s.time.jumps ++ [(kind, v)] }

/-- A write of TIME_FORCED_STEP_NS (R413): its status. -/
def writeForcedStep (value : Nat) (s : State) : Nat × State :=
  let v := toSigned 64 value
  if s.nextTime + v * nsUnit < 0 then (St.range, s) else (St.ok, forceTime 2 v s)

/-- A write of TIME_SET (R413): its status. -/
def writeTimeSet (value : Nat) (s : State) : Nat × State :=
  if 1000000000 ≤ value % 2 ^ 32 then (St.range, s) else (St.ok, forceTime 3 (nsOfTime80 value) s)

/-! ### The PTP engine (R422 to R425) -/

/-- TIME_STATE changes (R423).
(DEDUCED: log entry 55.) -/
def setTimeState (new : Nat) (s : State) : State :=
  let old := s.get Obj.timeState
  if old = new then s
  else
    let s := s.set Obj.timeState 0 new
    let p := { s.ptp with streak := 0, stepTaken := if new = 1 then false else s.ptp.stepTaken }
    raise Ev.timeStateChanged 0 (old * 16 + new) (s.get Obj.offsetFromSourceNs) { s with ptp := p }

/-- A port as the engine sees it. -/
def State.ptpPort (s : State) (p : Nat) : PtpPort := s.ptp.ports.getD p {}

/-- Change a port as the engine sees it. -/
def setPtpPort (p : Nat) (x : PtpPort) (s : State) : State :=
  { s with ptp := { s.ptp with ports := NMap.set {} s.ptp.ports p x } }

/-- The port takes part in PTP: enabled, in a role that takes messages, with a Pilot running and out of Moor (R422, R425,
R426). -/
def State.ptpRuns (s : State) (p : Nat) : Bool :=
  s.get Obj.ptpEnable == 1 && s.get Obj.ptpPortEnable p == 1 && s.get Obj.clockRole != 2 && s.anyPilot && !s.nightWatch

/-- Increments that the servo wrote in the previous 64 s (R424). -/
def State.servoRecent (s : State) : List (Nat × Nat) := s.ptp.increments.filter fun e => !s.elapsed e.2 64000000000

/-- The servo writes TIME_INCREMENT, within the range of R408. -/
def servoWrite (v : Nat) (s : State) : State :=
  let v := if v < 3432537863 then 3432537863 else capAt 3439409811 v
  let s := s.set Obj.timeIncrement 0 v
  { s with ptp := { s.ptp with increments := (v, s.time.ticks) :: s.servoRecent } }

/-- An offset measurement while LOCKING: a forced step, once, or the count of good offsets (R423).
(DEDUCED: log entry 55.) -/
def lockingOffset (offset : Int) (s : State) : State :=
  let limit := s.get Obj.stepLimitNs
  if s.get Obj.servoStepEnable = 1 ∧ limit ≠ 0 ∧ limit < offset.natAbs ∧ s.ptp.stepTaken = false ∧
      0 ≤ s.nextTime - offset * nsUnit then
    forceTime 4 (-offset) { s with ptp := { s.ptp with stepTaken := true, streak := 0 } }
  else
    let n := if offset.natAbs ≤ 100 then s.ptp.streak + 1 else 0
    let s := { s with ptp := { s.ptp with streak := n } }
    if 16 ≤ n then setTimeState 2 s else s

/-- A Sync's offset from the source (R423, R424).
(DEDUCED: log entry 55.) -/
def takeOffset (p : Nat) (offset : Int) (increment : Nat) (s : State) : State :=
  let s := s.set Obj.offsetFromSourceNs 0 (ofSigned 64 offset)
  if s.get Obj.timeSourceSuspended p = 1 ∨ s.get Obj.ptpPortState p ≠ 9 then s
  else
    let limit := s.get Obj.stepLimitNs
    let st := s.get Obj.timeState
    if st = 2 then
      servoWrite increment (if limit ≠ 0 ∧ limit < offset.natAbs then setTimeState 1 s else s)
    else
      let s := setTimeState 1 s
      servoWrite increment (lockingOffset offset s)

/-- Mean of a list of delays in ns.
(DEDUCED: log entry 55.) -/
def meanOf (l : List Int) : Int := if l = [] then 0 else l.foldl (· + ·) 0 / (l.length : Int)

/-- A suspension ends (R424 step 4): the filtered delay and the port's standing as a time source. -/
def endSuspension (p : Nat) (s : State) : State :=
  let x := s.ptpPort p
  let d := x.sinceSuspend.take 8
  let s := setPtpPort p { x with delays := d, suspendedAt := none, sinceSuspend := [], restarts := 0 } s
  let s := (s.set Obj.timeSourceSuspended p 0).set Obj.meanPathDelayNs p (ofSigned 64 (meanOf d))
  let s := raise Ev.timeSourceResumed p (ofSigned 32 (meanOf d)) x.restarts s
  if s.get Obj.ptpPortState p = 9 ∧ s.get Obj.timeState = 3 then setTimeState 1 s else s

/-- A delay step suspends the port (R424 steps 1 and 2). -/
def suspendPort (p : Nat) (mean : Int) (s : State) : State :=
  let d := toSigned 64 (s.get Obj.meanPathDelayNs p)
  let s := setPtpPort p { s.ptpPort p with suspendedAt := some s.nowNs, sinceSuspend := [mean], restarts := 0 } s
  let s := (s.set Obj.timeSourceSuspended p 1).bump Obj.delaySteps p
  let s := raise Ev.pathDelayStep p (ofSigned 32 d) (ofSigned 64 mean) s
  let s := if s.get Obj.ptpPortState p = 9 then
      let l := s.servoRecent.map Prod.fst
      let s := if l = [] then s else s.set Obj.timeIncrement 0 (l.foldl (· + ·) 0 / l.length)
      setTimeState 3 s
    else s
  if s.get Obj.settleS = 0 then endSuspension p s else s

/-- A completed delay measurement (R424).
(DEDUCED: log entry 55.) -/
def takeDelay (p : Nat) (mean : Int) (s : State) : State :=
  let x := s.ptpPort p
  let limit := s.get Obj.delayStepNs
  let apart (a b : Int) : Bool := limit != 0 && decide (limit < (a - b).natAbs)
  match x.suspendedAt with
  | some t =>
    let again := apart mean (meanOf x.sinceSuspend)
    setPtpPort p { x with sinceSuspend := mean :: x.sinceSuspend, restarts := x.restarts + bit01 again,
                          suspendedAt := some (if again then s.nowNs else t) } s
  | none =>
    if x.delays ≠ [] ∧ apart mean (toSigned 64 (s.get Obj.meanPathDelayNs p)) then suspendPort p mean s
    else
      let d := (mean :: x.delays).take 8
      (setPtpPort p { x with delays := d } s).set Obj.meanPathDelayNs p (ofSigned 64 (meanOf d))

/-- PTP_MESSAGE_RX (R422 to R424): a message of the instance's domain on a port that takes part; a message of another
domain is forwarded as an ordinary frame, and in Moor it is discarded (R474). While a port is suspended it is not chosen as time source. -/
def execPtpMessageRx (port : FrontPort) (m : PtpMessage) (s : State) : Host.Outcome State Fault Refusal :=
  let p := port.val
  let ours (d : BitVec 8) : Bool := s.ptpRuns p && d.toNat == s.get Obj.ptpDomain
  let moor := s.nightWatch && s.get Obj.ptpEnable == 1 && s.get Obj.ptpPortEnable p == 1 && s.get Obj.clockRole != 2
  .next (if moor then s.bump Obj.sleepDiscards p else match m with
    | .announce d st =>
      if !ours d || (s.get Obj.timeSourceSuspended p == 1 && st.toNat == 9) then s
      else s.set Obj.ptpPortState p st.toNat
    | .sync d offset inc => if ours d then takeOffset p offset inc.toNat s else s
    | .delay d mean => if ours d then takeDelay p mean s else s)

/-- TIME_SOURCE_RESUMED (R424, R425, R431): SETTLE_S of device time has run and the engine runs; in Moor it takes effect at
wake. -/
def execTimeSourceResumed (port : FrontPort) (s : State) : Host.Outcome State Fault Refusal :=
  .next (match (s.ptpPort port.val).suspendedAt with
    | some t =>
      if decide (t + s.get Obj.settleS * 1000000000 ≤ s.nowNs) && !s.nightWatch && s.anyPilot then
        endSuspension port.val s else s
    | none => s)

/-- Nanoseconds of an interval of 2^n s, n from −7 on (R432). -/
def intervalNs (n : Int) : Nat := 2 ^ (n + 7).toNat * 7812500

/-- The port sends messages of a kind (0 Announce, 1 Sync, 2 delay), and one is due (R422). -/
def State.ptpDue (s : State) (p kind : Nat) : Bool :=
  let st := s.get Obj.ptpPortState p
  let o := if kind = 0 then Obj.logAnnounceInterval else if kind = 1 then Obj.logSyncInterval else Obj.logDelayInterval
  let due := match (s.ptpPort p).sent.find kind with
    | some x => s.elapsed x.2 (intervalNs (toSigned 32 (s.get o p)))
    | none => true
  due && (if kind = 2 then (s.get Obj.ptpProfile != 0 && st != 3) || st == 9 || st == 8 else st == 6)

/-- Send a message of a kind; a Sync carries the egress timestamp (R418).
(DEDUCED: log entry 55.) -/
def sendPtp (p kind : Nat) (s : State) : State :=
  let x := s.ptpPort p
  let n := (x.sent.getD kind (0, 0)).1
  let s := setPtpPort p { x with
    sent := x.sent.put kind (n + 1, s.time.ticks),
    origin := if kind = 1 then some (s.now80, s.time.now % 2 ^ 32 / 2 ^ 16) else x.origin } s
  if kind = 1 then s.bump Obj.oneStepInserted p else s

/-- PTP_MESSAGE_TX (R422, R418): the first kind of message that is due on the port is sent. -/
def execPtpMessageTx (port : FrontPort) (s : State) : Host.Outcome State Fault Refusal :=
  let p := port.val
  .next (if !s.ptpRuns p || s.linkState p != 2 then s
    else match [0, 1, 2].find? fun k => s.ptpDue p k with
      | some k => sendPtp p k s
      | none => s)

/-! ### Trigger outputs (R427, R428, R557) -/

/-- A trigger output. -/
def State.trigger (s : State) (n : Nat) : Trigger := s.ptp.triggers.getD n {}

/-- Set a trigger output. -/
def setTrigger (n : Nat) (x : Trigger) (s : State) : State :=
  { s with ptp := { s.ptp with triggers := NMap.set {} s.ptp.triggers n x } }

/-- Level of pin TTn (R427, R557): high impedance until the end of BOOT_STAGE 1; then active in a pulse, else inactive. -/
def State.ttLevel (s : State) (n : Nat) : Option Bool :=
  if s.boot.held || decide (s.boot.stage ≤ 1) then none
  else match (s.trigger n).pulseEnd with
    | some (_, low) => some (!low)
    | none => some (s.get Obj.ttActiveLow n == 1)

/-- The edge after one that has been driven: none for a PULSE (R427, R415). -/
def State.edgeAfter (s : State) (n t : Nat) : Option Nat :=
  if s.get Obj.ttMode n = 2 then
    let period := s.get Obj.ttPeriodNs n
    some (firstEdge (nsOfTime80 (s.get Obj.ttStart n)) period (if t + period ≤ s.nowNs then s.nowNs else t + period))
  else none

/-- TRIGGER_EDGE (R427, R428): at an edge time the pin goes active for TT_WIDTH_NS. -/
def execTriggerEdge (n : Fin 4) (s : State) : Host.Outcome State Fault Refusal :=
  let i := n.val
  let x := s.trigger i
  .next (match x.next with
    | none => s
    | some t =>
      if s.nowNs < t ∨ s.get Obj.ttMode i = 0 then s
      else
        let ends := s.time.ticks + ticksOfNs (s.get Obj.ttWidthNs i)
        let pulse : Nat × Bool := (ends, s.get Obj.ttActiveLow i == 1)
        let s := setTrigger i { x with next := s.edgeAfter i t, late := false, pulseEnd := some pulse } s
        let s := s.bump Obj.ttEdges i
        if x.late then raise Ev.triggerLate i (t % 1000000000) (s.nowNs - t) (s.bump Obj.ttLate i) else s)

/-- TRIGGER_PULSE_END (R427): TT_WIDTH_NS after its edge the pulse ends. -/
def execTriggerPulseEnd (n : Fin 4) (s : State) : Host.Outcome State Fault Refusal :=
  let x := s.trigger n.val
  .next (match x.pulseEnd with
    | some (t, _) => if t ≤ s.time.ticks then setTrigger n.val { x with pulseEnd := none } s else s
    | none => s)

/-- Validation of TIME_CONFIG (R422, R427). -/
def validateTime (s : State) : Failed :=
  let domain := s.staged Obj.ptpDomain
  firstFail ([
    if 127 < domain ∨ (s.staged Obj.ptpProfile = 2 ∧ domain ≠ 0) then some (St.badValue, addrKey 0x1813 0 0) else none] ++
    (List.range 4).map fun n =>
      if s.staged Obj.ttWidthNs n < 8 then some (St.badValue, addrKey 0x1840 4 n)
      else if s.staged Obj.ttMode n = 2 ∧
          (s.staged Obj.ttPeriodNs n = 0 ∨ s.staged Obj.ttPeriodNs n ≤ s.staged Obj.ttWidthNs n) then
        some (St.badValue, addrKey 0x1840 3 n)
      else none)

/-- Switch-over of one trigger (R428). -/
def applyTrigger (n : Nat) (s : State) : State :=
  let start := nsOfTime80 (s.get Obj.ttStart n)
  let x := s.trigger n
  let m := s.get Obj.ttMode n
  setTrigger n { x with
    next := if m = 0 then none else if m = 1 then some start else some (firstEdge start (s.get Obj.ttPeriodNs n) s.nowNs),
    late := decide (m = 1) && decide (start < s.nowNs) } s

/-- The members of one trigger differ between two states. -/
def triggerChanged (old s : State) (n : Nat) : Bool :=
  [Obj.ttMode, Obj.ttStart, Obj.ttPeriodNs, Obj.ttWidthNs, Obj.ttActiveLow].any fun o => old.get o n != s.get o n

/-- Switch-over of TIME_CONFIG (R422, R428): a trigger that the commit does not change goes on, and a port that takes
part no longer is DISABLED.
(DESIGN CHOICE: log entry 91.) -/
def applyTime (old s : State) : State :=
  let s := (List.range 4).foldl (fun s n => if triggerChanged old s n then applyTrigger n s else s) s
  (List.range 128).foldl (fun s p =>
    if s.get Obj.ptpEnable = 1 ∧ s.get Obj.ptpPortEnable p = 1 then s else s.set Obj.ptpPortState p 3) s

/-! ### Capture inputs (R429, R430) -/

/-- A capture FIFO. -/
def State.captureFifo (s : State) (n : Nat) : CaptureFifo := s.ptp.captures.getD n {}

/-- Set a capture FIFO. -/
def setCapture (n : Nat) (x : CaptureFifo) (s : State) : State :=
  { s with ptp := { s.ptp with captures := NMap.set {} s.ptp.captures n x } }

/-- The entry of an edge now. -/
def State.captureNow (s : State) (x : CaptureFifo) (falling : Bool) : Capture :=
  { time := s.now80, fraction := s.time.now % 2 ^ 32 / 2 ^ 16, falling := falling, lost := x.lost,
    stepped := x.stepsAt != s.time.steps, coarse := s.nightWatch }

/-- CAPTURE_EDGE (R429). -/
def execCaptureEdge (n : Fin 4) (falling : Bool) (s : State) : Host.Outcome State Fault Refusal :=
  let i := n.val
  let x := s.captureFifo i
  .next (if bitOf (s.get Obj.tcEdge i) (bit01 falling) = false then s
    else if 16 ≤ x.entries.length then
      let s := (setCapture i { x with lost := true, overflowed := true } s).bump Obj.captureOverflows i
      if x.overflowed then s else raise Ev.captureOverflow i 16 (s.get Obj.captureOverflows i) s
    else
      let e := s.captureNow x falling
      let s := setCapture i { x with entries := x.entries ++ [e], lost := false, stepsAt := s.time.steps } s
      raise Ev.timeCaptured i (bit01 falling) (e.time / 2 ^ 32 % 2 ^ 32 * 2 ^ 32 + e.time % 2 ^ 32) (s.bump Obj.captures i))

/-- The 16 bytes of a capture entry (R430). -/
def captureBytes (e : Capture) : List Byte :=
  leBytes 10 e.time ++ leBytes 2 e.fraction ++
  leBytes 1 (128 + 64 * bit01 e.falling + 32 * bit01 e.lost + 16 * bit01 e.stepped + 8 * bit01 e.coarse) ++ [0, 0, 0]

/-- A read of CAPTURE_READ (R430): the oldest entry, removed, or zeros. -/
def readCapture (n : Nat) (s : State) : List Byte × State :=
  let x := s.captureFifo n
  match x.entries with
  | [] => (List.replicate 16 0, s)
  | e :: rest => (captureBytes e, setCapture n { x with entries := rest, overflowed := false } s)

end Sys2Proof.Machine
end

