-- ==== Sys2Proof/Machine/Boundary.lean ====
section
/-! DEFINITION. The egress medium boundary: PTP event messages (R416 to R421), IOAM trace data (R311 to R314), the ferry
tag that a frame leaves with (R435), and inject timestamps (R109). -/

namespace Sys2Proof.Machine

/-! ### Where headers lie in a frame as sent, without ferry tag -/

/-- messageType of the PTP message of a frame, version 2, that goes over Ethernet or to a UDP port (R417).
(DEDUCED: log entry 56.) -/
def ptpKind (port : Nat) (bs : List Byte) : Option Nat :=
  match ptpOffset bs with
  | none => none
  | some (o, u) =>
    let there : Bool := match u with
      | some (h, _) => beAt bs (h + 2) 2 == port
      | none => true
    if there ∧ byteAt bs (o + 1) % 16 = 2 then some (byteAt bs o % 16) else none

/-! ### The correction (R419 to R421, R437) -/

/-- Residence of a frame from its ingress boundary until now, in 2^-32 ns (R420). -/
def State.residence (s : State) (x : Frame) : Nat := (s.time.ticks - x.rxTick) * s.get Obj.timeIncrement

/-- What a transparent clock adds to the correctionField, in 2^-16 ns: residence for an event message, the mean path delay
for a Sync or Follow_Up in DEFAULT_P2P (R419), and fabric residence (R437). -/
def State.correction (s : State) (x : Frame) (event sync : Bool) : Int :=
  let own : Int := if event then ((s.residence x / 2 ^ 16 + (if x.tag.isSome then x.fabric * 2 ^ 12 else 0) : Nat) : Int) else 0
  let path : Int := if s.get Obj.ptpProfile = 1 ∧ sync then toSigned 64 (s.get Obj.meanPathDelayNs x.inPort) * 65536 else 0
  own + path

/-- Checksum changes of a UDP message whose correctionField changes (R421): bytes by offset.
(DEDUCED: log entry 56.) -/
def ptpChecksum (bs new : List Byte) (msg : Nat) (udp : Option (Nat × Bool)) : List (Nat × List Byte) :=
  match udp with
  | none => []
  | some (u, false) => [(u + 6, [0, 0])]
  | some (u, true) =>
    let n := beAt bs (u + 4) 2
    if ptpTrailer bs msg u then
      let o := u + n - 2
      let d := (onesSum (bytesAt bs u n) 0 + 65535 - onesSum (bytesAt new u n) 0) % 65535
      [(o, beBytes 2 ((beAt bs o 2 + (if n % 2 = 0 then d else d * 256)) % 65535))]
    else
      let pseudo := bytesAt new (u - 32) 32 ++ beBytes 4 n ++ [0, 0, 0, 17]
      let c := ipChecksum (pseudo ++ overlay (bytesAt new u n) 6 [0, 0])
      [(u + 6, beBytes 2 (if c = 0 then 0xFFFF else c))]

/-- The bytes of a message corrected by `add`, by offset.
(DEDUCED: log entry 56.) -/
def correctPtp (bs : List Byte) (add : Int) : List (Nat × List Byte) :=
  match ptpOffset bs with
  | none => []
  | some (o, u) =>
    let field := (o + 8, beBytes 8 (ofSigned 64 ((beAt bs (o + 8) 8 : Int) + add)))
    field :: ptpChecksum bs (overlay bs field.1 field.2) o u

/-- The frame leaves by a port of a transparent clock that corrects it (R419, R437): whether it is an event message, and
whether the mean path delay is added; a Follow_Up travels to the general port 320. -/
def State.corrected (s : State) (port : Nat) (x : Frame) (bs : List Byte) : Option (Bool × Bool) :=
  if s.get Obj.clockRole ≠ 2 ∨ s.ferry port ∨ (x.tag.isSome ∧ x.fabric = 0x0FFFFFFF) then none
  else if ptpEvent bs then some (true, ptpKind 319 bs == some 0)
  else if s.get Obj.ptpProfile = 1 ∧ ptpKind 320 bs = some 8 then some (false, true)
  else none

/-! ### IOAM (R311 to R314) -/

/-- First option of a hop-by-hop header that is neither Pad1 nor PadN, within its first 64 bytes. -/
def hbhOption (bs : List Byte) (limit : Nat) : Nat → Nat → Option Nat
  | 0, _ => none
  | fuel + 1, o =>
    if limit ≤ o then none
    else if byteAt bs o = 0 then hbhOption bs limit fuel (o + 1)
    else if byteAt bs o = 1 then hbhOption bs limit fuel (o + 2 + byteAt bs (o + 1))
    else some o

/-- The IPv6 header of a frame and its qualifying IOAM option (R312). -/
def State.ioamOption (s : State) (bs : List Byte) : Option (Nat × Nat) :=
  let e := skipVlans 4 bs 12
  let h := e + 2
  if beAt bs e 2 ≠ 0x86DD ∨ byteAt bs (h + 6) ≠ 0 then none
  else
    let n := (byteAt bs (h + 41) + 1) * 8
    match hbhOption bs (h + 40 + (if n < 64 then n else 64)) 64 (h + 42) with
    | some o =>
      if byteAt bs o = s.get Obj.ioamHbhOptionType ∧ byteAt bs (o + 3) = 0 ∧ beAt bs (o + 4) 2 = s.get Obj.ioamNamespace then
        some (h, o)
      else none
    | none => none

/-- The fields of the IOAM-Trace-Type that the device fills, by bit, with their bytes (R313).
(DESIGN CHOICE: log entry 50.) -/
def ioamFields (s : State) (port : Nat) (x : Frame) (t : Sending) (e : QEntry) (hop : Nat) : List (Nat × List Byte) :=
  let rx := x.rxTime / nsUnit
  let delay := s.residence x / nsUnit
  let node := s.get Obj.ioamNodeId
  [(0, beBytes 1 hop ++ beBytes 3 node), (1, beBytes 2 x.inPort ++ beBytes 2 port),
   (2, beBytes 4 (rx / 1000000000)), (3, beBytes 4 (rx % 1000000000)),
   (4, beBytes 4 (if 2 ^ 31 ≤ delay then 2 ^ 32 - 1 else delay)),
   (5, beBytes 4 (capAt 0xFFFFFFFF ((t.start - e.tick) * 4 / 5))), (6, beBytes 4 e.depth),
   (8, beBytes 1 hop ++ beBytes 7 node),
   (9, beBytes 2 s.deviceId ++ beBytes 2 x.inPort ++ beBytes 2 s.deviceId ++ beBytes 2 port), (11, beBytes 4 e.buffer)]

/-- Fill a qualifying option (R313, R314): the counter of what came of it, and the bytes by offset. -/
def ioamFill (bs : List Byte) (o : Nat) (fields : List (Nat × List Byte)) : ObjRow × List (Nat × List Byte) :=
  let w := beAt bs (o + 6) 2
  let nodeLen := w / 2048
  let left := w % 128
  let trace := beAt bs (o + 8) 3
  let bits := (List.range 24).filter fun i => bitOf trace (23 - i)
  let chosen := fields.filter fun f => bits.contains f.1
  let data := chosen.flatMap fun f => f.2
  let bad := bits.any (fun i => !(fields.any fun f => f.1 == i)) || data.length != nodeLen * 4 ||
    decide (byteAt bs (o + 1) < left * 4 + 10)
  if bad then (Obj.ioamUnsupported, [])
  else if left < nodeLen then (Obj.ioamOverflow, [(o + 6, beBytes 2 (if bitOf w 10 then w else w + 1024))])
  else (Obj.ioamFilled, [(o + 6, beBytes 2 (w - nodeLen)), (o + 12 + (left - nodeLen) * 4, data)])

/-- IOAM data of an offered frame (R311, R312). -/
def ioamFills (port : Nat) (x : Frame) (t : Sending) (e : QEntry) (bs : List Byte) (s : State) :
    List (Nat × List Byte) × State :=
  if !x.home.ioam then ([], s)
  else match s.ioamOption bs with
    | none => ([], s.bump Obj.ioamNotFound port)
    | some (h, o) =>
      let (counter, l) := ioamFill bs o (ioamFields s port x t e (byteAt bs (h + 7)))
      (l, s.bump counter port)

/-! ### The ferry tag (R434, R435) -/

/-- The bytes of a ferry tag (R434). -/
def tagBytes (t : FerryTag) : List Byte :=
  beBytes 2 0x88B5 ++ beBytes 2 t.dst ++ beBytes 2 t.src ++ beBytes 4 t.hash ++
  beBytes 1 (t.cls * 16 + 8 * bit01 t.broadcast + 4 * bit01 t.abort + 2 * bit01 t.served) ++
  beBytes 5 (t.hops * 2 ^ 36 + t.seq * 2 ^ 28 + t.residence)

/-- The tag that a frame leaves a ferry-mode port with (R435): `x` is the frame, or the copy, that was queued; `y` the
frame whose bytes it carries. -/
def State.leavingTag (s : State) (port : Nat) (x y : Frame) : FerryTag :=
  let dst := match x.ferryDst with
    | some d => d
    | none => (s.get Obj.neighborId port % 65536, false)
  { dst := dst.1, broadcast := dst.2,
    src := match y.tag with
      | some t => if y.transit then t.src else s.deviceId
      | none => s.deviceId,
    hash := match y.tag with
      | some t => if y.transit then t.hash else y.home.hash
      | none => y.home.hash,
    cls := x.cls, abort := y.tail.isNone,
    served := (y.tag.elim false FerryTag.served) || y.home.served,
    hops := match x.hops with
      | some n => n
      | none => s.get Obj.maxHops,
    seq := (s.link port).ferrySeq % 256,
    residence := capAt 0x0FFFFFFF ((if y.tag.isSome then y.fabric else 0) + s.residence y / 2 ^ 28) }

/-- The frame takes its tag, and the port's link sequence number moves on. -/
def ferryTagOut (port : Nat) (x y : Frame) (s : State) : List Byte × State :=
  if !s.ferry port then ([], s)
  else
    let l := s.link port
    (tagBytes (s.leavingTag port x y), s.setLink port { l with ferrySeq := (l.ferrySeq + 1) % 256 })

/-! ### TX_START_BOUNDARY -/

/-- Put a correction into the fills of a frame. -/
def ptpFills (port : Nat) (y : Frame) (bs : List Byte) (s : State) : List (Nat × List Byte) × State :=
  match s.corrected port y bs with
  | some (event, sync) => (correctPtp bs (s.correction y event sync), s.bump Obj.tcCorrected port)
  | none => ([], s)

/-- INJECT_TIMESTAMP of a frame with TS_REPORT (R109). -/
def injectTimestamp (port : Nat) (y : Frame) (s : State) : State :=
  match y.cookie with
  | some c => raise Ev.injectTimestamp port c (s.now80 / 2 ^ 32 % 2 ^ 32 * 2 ^ 32 + s.now80 % 2 ^ 32) s
  | none => s

/-- The start of a queued frame passes the boundary of a front port. -/
def passBoundary (port : Nat) (t : Sending) (e : QEntry) (x y : Frame) (s : State) : State :=
  let bs := overlays (s.outBytes e.frame) e.marks
  let (a, s) := ioamFills port y t e bs s
  let (b, s) := ptpFills port y (overlays bs a) s
  let (tag, s) := ferryTagOut port x y s
  let done : Sending := { t with txTime := some s.time.now, fills := a ++ b, tag := tag }
  injectTimestamp port y (s.setTmPort port { s.tmPort port with sending := some done })

/-- TX_START_BOUNDARY (R416, R418 to R421, R311, R435, R109). -/
def execTxStartBoundary (port : Port) (s : State) : Host.Outcome State Fault Refusal :=
  let p := port.val
  .next (match (s.tmPort p).sending with
    | none => s
    | some t =>
      if t.txTime.isSome then s
      else match t.entry with
        | none => s.setTmPort p { s.tmPort p with sending := some { t with txTime := some s.time.now } }
        | some e => match s.frame e.frame, s.body e.frame with
          | some x, some y =>
            if 128 ≤ p then s.setTmPort p { s.tmPort p with sending := some { t with txTime := some s.time.now } }
            else passBoundary p t e x y s
          | _, _ => s)

end Sys2Proof.Machine
end

