-- ==== Sys2Proof/Machine/Fabric.lean ====
section
/-! DEFINITION. The fabric (14): hellos and adjacencies, device IDs, link-state routing, and the Alperen Control
Protocol. -/

namespace Sys2Proof.Machine

/-! ### Frames under EtherType 0x88B6 as received (R446) -/

/-- A control frame's fields. -/
structure Ctrl where
  kind : Nat
  hops : Nat
  dst : Nat
  src : Nat
  slot : Nat
  seq : Nat
  ms : Nat
  body : List Byte
  /-- Header and body, and the MAC over them. -/
  msg : List Byte
  mac : List Byte
  /-- Source MAC address of the frame. -/
  from_ : Nat
  deriving DecidableEq, Repr

/-- The control frame that a frame's bytes hold; none where it is malformed. -/
def parseCtrl (bs : List Byte) : Option Ctrl :=
  let n := beAt bs 30 2
  if beAt bs 12 2 ≠ 0x88B6 ∨ byteAt bs 14 / 16 ≠ 1 ∨ 1200 < n ∨ bs.length < 50 + n then none
  else some {
    kind := byteAt bs 14 % 16, hops := byteAt bs 15 / 16, dst := beAt bs 16 2, src := beAt bs 18 2,
    slot := beAt bs 20 2 % 4096, seq := beAt bs 22 4, ms := beAt bs 26 4, body := bytesAt bs 34 n,
    msg := bytesAt bs 14 (20 + n), mac := bytesAt bs (34 + n) 16, from_ := leAt bs 6 6 }

/-- FABRIC_KEY_SLOT's key, while that slot is VALID (R446). -/
def State.fabricKey (s : State) : Option Nat :=
  let k := s.get Obj.fabricKeySlot
  if s.get Obj.acpKeyValid k = 1 then some (s.get Obj.acpKey k) else none

/-- A fabric control frame passes its check (R446).
(DEDUCED: log entry 57.) -/
def State.ctrlGood (s : State) (c : Ctrl) : Bool :=
  match s.fabricKey with
  | none => true
  | some k => c.slot == s.get Obj.fabricKeySlot && c.mac == ctrlMac k c.msg

/-- The port takes fabric control frames: it is in ferry mode and its link is UP. -/
def State.ferryUp (s : State) (port : Nat) : Bool := s.ferry port && s.linkState port == 2

/-- The bytes of a control frame pass the MAC of a port whose link is UP (R541). -/
def receiveCtrl (port : Nat) (bs : List Byte) (s : State) : State :=
  if s.linkState port = 2 then noteBytes port 0 (bs.length + 4) s else s

/-- The fabric control frame of a kind that a port has received; a frame that fails its check is discarded and counted
(R446, R541).
(DEDUCED: log entry 58.) -/
def takeCtrl (port kind : Nat) (bs : List Byte) (s : State) : Option Ctrl × State :=
  let s := receiveCtrl port bs s
  match parseCtrl bs with
  | none => (none, s)
  | some c =>
    if !s.ferryUp port || c.kind != kind then (none, s)
    else if s.ctrlGood c then (some c, s)
    else (none, raise Ev.acpAuthFailed port c.src (c.slot * 2 ^ 32 + c.seq) (s.bump Obj.acpAuthFails))

/-- A fabric control frame of this device (R446). -/
def State.ownCtrl (s : State) (kind : Nat) (body : List Byte) : List Byte :=
  s.ctrlFrame (s.get Obj.fabricCtrlMac) kind 0 0 (s.get Obj.fabricKeySlot) 0 s.fabricKey body

/-- Ports whose adjacency is UP, in order. -/
def State.upPorts (s : State) : List Nat := (List.range 128).filter fun p => s.get Obj.adjState p == 2

/-- Send a fabric control frame on every UP adjacency but the one it came by.
(DEDUCED: log entry 57.) -/
def flood (kind : Nat) (body : List Byte) (except : Option Nat) (s : State) : State :=
  let bs := s.ownCtrl kind body
  (s.upPorts.filter fun p => some p != except).foldl (fun s p => sendFabric p bs s) s

/-- SERIAL_NUMBER's bytes, byte 0 first. -/
def serialBytes : List Byte := leBytes 16 Config.serialNumber.toNat

/-- A serial number as R450 compares it: byte 0 most significant. -/
def ownSerial : Nat := beNat serialBytes

/-! ### Hellos (R447, R448) -/

/-- The adjacency of a port. -/
def State.adjacency (s : State) (p : Nat) : Option Adjacency := s.fabric.adj.find p

/-- ID_STATE of a hello (R447). -/
def State.idState (s : State) : Nat :=
  if s.get Obj.idMode = 0 then 0 else if s.get Obj.fabricState = 1 then 1 else 2

/-- The body of a hello (R447). -/
def State.helloBody (s : State) (p : Nat) : List Byte :=
  let a := s.adjacency p
  let peer := a.elim [0, 0, 0, 0, 0] fun a => [0x80] ++ beBytes 2 a.peer ++ beBytes 2 a.peerPort
  let echo := a.elim (List.replicate 14 0) fun a =>
    beBytes 10 a.peerTx ++ beBytes 4 (ofSigned 32 (timeDiff s.now80 a.peerRx))
  beBytes 2 p ++ beBytes 1 s.idState ++ peer ++ beBytes 10 s.now80 ++ echo

/-- HELLO_TX (R447). -/
def execHelloTx (port : FrontPort) (s : State) : Host.Outcome State Fault Refusal :=
  let p := port.val
  let due : Bool := match s.fabric.hellos.find p with
    | some x => s.elapsed x.1 (s.get Obj.helloIntervalMs * 1000000)
    | none => true
  let bs := s.ownCtrl 1 (s.helloBody p)
  .next (if s.ferryUp p ∧ due then
      noteBytes p 1 (bs.length + 4) (s.withFabric { s.fabric with hellos := s.fabric.hellos.put p (s.time.ticks, bs) })
    else s)

/-- The LSA is to be originated anew (R452). -/
def lsaNeeded (s : State) : State :=
  s.withFabric { s.fabric with lsaDue := some (s.fabric.lsaDue.getD s.time.ticks) }

/-- The adjacency of a port moves with a hello (R447). -/
def adjHello (p : Nat) (c : Ctrl) (valid mine : Bool) (peerPort : Nat) (s : State) : State :=
  let was := s.get Obj.adjState p
  let renamed := s.get Obj.neighborId p != 2 ^ 16 + c.src
  let s := s.set Obj.neighborId p (2 ^ 16 + c.src)
  if was = 2 then (if renamed then lsaNeeded s else s)
  else if valid && mine then raise Ev.neighborUp p c.src peerPort (lsaNeeded (s.set Obj.adjState p 2))
  else s.set Obj.adjState p 1

/-- One link-delay measurement, in ns (R448). -/
def State.linkDelay (s : State) (body : List Byte) : Int :=
  (timeDiff s.now80 (beAt body 18 10) - (beAt body 28 4 : Int)) / 2

/-- A hello is taken: neighbour, link delay, adjacency (R447, R448). -/
def takeHello (p : Nat) (c : Ctrl) (s : State) : State :=
  let b := c.body
  let a := (s.adjacency p).getD {}
  let valid := bitOf (byteAt b 3) 7
  let mine := beAt b 4 2 == s.deviceId && beAt b 6 2 == p
  let delays := if valid then (s.linkDelay b :: a.delays).take 8 else a.delays
  let next : Adjacency := { peer := c.src, peerPort := beAt b 0 2, lastHello := s.time.ticks, peerTx := beAt b 8 10,
                            peerRx := s.now80, delays := delays }
  let s := s.withFabric { s.fabric with adj := s.fabric.adj.put p next }
  let s := if valid then s.set Obj.ferryLinkDelayNs p (meanOf delays).toNat else s
  adjHello p c valid mine (beAt b 0 2) s

/-- HELLO_RX (R446 to R448). -/
def execHelloRx (port : FrontPort) (frame : List Byte) (s : State) : Host.Outcome State Fault Refusal :=
  .next (match takeCtrl port.val 1 frame s with
    | (some c, s) => if c.body.length = 32 then takeHello port.val c s else s
    | (none, s) => s)

/-- ADJ_DEAD (R447). -/
def execAdjDead (port : FrontPort) (s : State) : Host.Outcome State Fault Refusal :=
  let p := port.val
  .next (match s.adjacency p with
    | some a =>
      if s.elapsed a.lastHello (s.get Obj.helloDeadCount * s.get Obj.helloIntervalMs * 1000000) then adjLeave p 1 s else s
    | none => s)

/-! ### Device IDs (R449 to R451) -/

/-- The body of a CLAIM or a DEFEND (R450). -/
def claimBody (id : Nat) : List Byte := beBytes 2 id ++ serialBytes

/-- Claim a candidate, `rejected` having been rejected before (R450 steps 2 and 3). -/
def claimCandidate (id rejected : Nat) (s : State) : State :=
  let s := s.withFabric { s.fabric with claim := some (id, s.time.ticks, false, rejected) }
  flood 3 (claimBody id) none (s.set Obj.fabricState 0 1)

/-- The claim in progress is for `id`: it is rejected (R450).
(DEDUCED: log entry 57.) -/
def rejectClaim (id : Nat) (s : State) : State :=
  match s.fabric.claim with
  | some (c, t, _, n) => if c = id then s.withFabric { s.fabric with claim := some (c, t, true, n) } else s
  | none => s

/-- CLAIM_RX (R450): re-sent, answered by a DEFEND of this device's own ID, and a rejection where it has the lower
serial number; a device's own claim that comes back is dropped. -/
def execClaimRx (port : FrontPort) (frame : List Byte) (s : State) : Host.Outcome State Fault Refusal :=
  .next (match takeCtrl port.val 3 frame s with
    | (none, s) => s
    | (some c, s) =>
      let id := beAt c.body 0 2
      let serial := beAt c.body 2 16
      if c.body.length ≠ 18 ∨ serial = ownSerial ∨ !s.anyPilot then s
      else
        let s := flood 3 c.body (some port.val) s
        let s := if id = s.deviceId then flood 4 (claimBody id) none s else s
        if serial < ownSerial then rejectClaim id s else s)

/-- DEFEND_RX (R450). -/
def execDefendRx (port : FrontPort) (frame : List Byte) (s : State) : Host.Outcome State Fault Refusal :=
  .next (match takeCtrl port.val 4 frame s with
    | (none, s) => s
    | (some c, s) =>
      if c.body.length ≠ 18 ∨ beAt c.body 2 16 = ownSerial ∨ !s.anyPilot then s
      else rejectClaim (beAt c.body 0 2) (flood 4 c.body (some port.val) s))

/-- The body of an LSA (R452): `links` none deletes the ID (COUNT 0xFFFF, R449). -/
def lsaBody (origin serial seq : Nat) (links : Option (List (Nat × Nat))) : List Byte :=
  beBytes 2 origin ++ beBytes 16 serial ++ beBytes 4 seq ++
  match links with
  | none => [0xFF, 0xFF]
  | some l => beBytes 2 l.length ++ l.flatMap fun e => beBytes 2 e.1 ++ beBytes 2 e.2

/-- The database has changed (R453).
(DEDUCED: log entry 57.) -/
def noteChange (s : State) : State := s.withFabric { s.fabric with changedAt := some s.time.ticks }

/-- ACTIVE_DEVICE_ID becomes `id` (R449): one LSA deletes the old ID everywhere, and the device's LSA is due under the
new one. -/
def setActiveId (id : Nat) (s : State) : State :=
  let old := s.deviceId
  let s := s.set Obj.fabricState 0 2
  if old = id then s
  else
    let seq := (s.fabric.lsaSeq + 1) % 2 ^ 32
    let s := flood 2 (lsaBody old ownSerial seq none) none s
    let s := s.withFabric { s.fabric with lsaSeq := seq, lsdb := s.fabric.lsdb.del old, conflicts := [] }
    noteChange (lsaNeeded (s.set Obj.activeDeviceId 0 id))

/-- The next candidate: the next number that is absent from the database (R450). -/
def State.nextCandidate (s : State) (id : Nat) : Nat :=
  match (List.range 65536).find? fun i => (s.fabric.lsdb.find ((id + 1 + i) % 65536)).isNone with
  | some i => (id + 1 + i) % 65536
  | none => id

/-- CLAIM_WAIT_END (R450).
(DEDUCED: log entry 57.) -/
def execClaimWaitEnd (s : State) : Host.Outcome State Fault Refusal :=
  .next (match s.fabric.claim with
    | none => s
    | some (id, t, rejected, n) =>
      if !s.elapsed t (s.get Obj.claimWaitMs * 1000000) || !s.anyPilot then s
      else if rejected then claimCandidate (s.nextCandidate id) (n + 1) s
      else
        let s := setActiveId id (s.withFabric { s.fabric with claim := none })
        raise Ev.deviceIdAssigned 0 id n s)

/-- Switch-over of FABRIC (R449 to R451): the device's ID follows DEVICE_ID, or a claim begins; a conflict ends when the ID
changes. -/
def applyFabric (old s : State) : State :=
  let id := s.get Obj.deviceId
  let mode := s.get Obj.idMode
  if mode = 0 then
    if s.deviceId = id ∧ s.get Obj.fabricState = 3 then s.withFabric { s.fabric with claim := none }
    else if s.deviceId ≠ id ∨ old.get Obj.idMode ≠ 0 then setActiveId id (s.withFabric { s.fabric with claim := none }) else s
  else if old.get Obj.idMode ≠ mode ∨ old.get Obj.deviceId ≠ id then claimCandidate id 0 s
  else s

/-! ### Link-state advertisements (R451, R452) -/

/-- Cost of a link (R452): FERRY_COST, or 1,600 over the speed in Gb/s, rounded, and at least 1. -/
def State.linkCost (s : State) (p : Nat) : Nat :=
  let c := s.get Obj.ferryCost p
  let v := s.speed p
  if c ≠ 0 then c else if v = 0 then 1 else Nat.max 1 ((1600000 + v / 2) / v)

/-- Neighbour and cost of each UP adjacency, by port. -/
def State.ownLinks (s : State) : List (Nat × Nat) :=
  s.upPorts.map fun p => (s.get Obj.neighborId p % 65536, s.linkCost p)

/-- Store an LSA. -/
def storeLsa (origin : Nat) (x : Lsa) (s : State) : State :=
  let same := match s.fabric.lsdb.find origin with
    | some y => y.links == x.links && y.serial == x.serial
    | none => false
  let s := s.withFabric { s.fabric with lsdb := s.fabric.lsdb.put origin x }
  if same then s else noteChange s

/-- LSA_ORIGINATE (R452): after an adjacency change, and every 60 s. -/
def execLsaOriginate (s : State) : Host.Outcome State Fault Refusal :=
  let f := s.fabric
  let due := f.lsaDue.isSome || match f.lsaAt with
    | some t => s.elapsed t 60000000000
    | none => true
  .next (if !due || !s.anyPilot || s.get Obj.fabricState == 3 then s
    else
      let seq := (f.lsaSeq + 1) % 2 ^ 32
      let s := s.withFabric { f with lsaSeq := seq, lsaAt := some s.time.ticks, lsaDue := none }
      let x : Lsa := { serial := ownSerial, seq := seq, links := s.ownLinks, refreshed := s.time.ticks }
      flood 2 (lsaBody s.deviceId ownSerial seq (some x.links)) none (storeLsa s.deviceId x s))

/-- `a` is newer than `b` by signed comparison of 32-bit numbers (R452). -/
def newer32 (a b : Nat) : Bool := decide (0 < toSigned 32 (a + 2 ^ 32 - b % 2 ^ 32))

/-- The entries of an LSA's body. -/
def lsaLinks (body : List Byte) (n : Nat) : List (Nat × Nat) :=
  (List.range n).map fun i => (beAt body (24 + 4 * i) 2, beAt body (26 + 4 * i) 2)

/-- An LSA under this device's ID from another device (R451): the conflict is reported once for each serial number, and
the higher serial number withdraws.
(DEDUCED: log entry 57.) -/
def idConflict (serial : Nat) (s : State) : State :=
  if s.fabric.conflicts.contains serial then s
  else
    let withdraws := decide (serial < ownSerial)
    let s := s.withFabric { s.fabric with conflicts := serial :: s.fabric.conflicts }
    let s := if withdraws then s.set Obj.fabricState 0 3 else s
    raise Ev.deviceIdConflict 0 s.deviceId (bit01 withdraws) s

/-- A newer LSA is stored, or deletes its ID, and is re-sent (R449, R452).
(DEDUCED: log entry 57.) -/
def acceptLsa (port : Nat) (body : List Byte) (s : State) : State :=
  let origin := beAt body 0 2
  let n := beAt body 22 2
  let s := flood 2 body (some port) s
  if n = 0xFFFF then
    if (s.fabric.lsdb.find origin).isSome then
      noteChange (s.withFabric { s.fabric with lsdb := s.fabric.lsdb.del origin })
    else s
  else storeLsa origin { serial := beAt body 2 16, seq := beAt body 18 4, links := lsaLinks body n,
                         refreshed := s.time.ticks } s

/-- LSA_RX (R451, R452). -/
def takeLsa (port : Nat) (body : List Byte) (s : State) : State :=
  let origin := beAt body 0 2
  let serial := beAt body 2 16
  let seq := beAt body 18 4
  let n := beAt body 22 2
  let fresh : Bool := match s.fabric.lsdb.find origin with
    | some x => newer32 seq x.seq
    | none => true
  if body.length < 24 ∨ (n ≠ 0xFFFF ∧ body.length < 24 + 4 * n) then s
  else if origin = s.deviceId ∧ serial = ownSerial then
    if newer32 seq s.fabric.lsaSeq then lsaNeeded (s.withFabric { s.fabric with lsaSeq := seq }) else s
  else if origin = s.deviceId ∧ n ≠ 0xFFFF then
    let s := idConflict serial s
    if s.get Obj.fabricState = 3 ∧ fresh then acceptLsa port body s else s
  else if fresh then acceptLsa port body s
  else s

/-- LSA_RX (R451, R452). -/
def execLsaRx (port : FrontPort) (frame : List Byte) (s : State) : Host.Outcome State Fault Refusal :=
  .next (match takeCtrl port.val 2 frame s with
    | (some c, s) => if s.anyPilot then takeLsa port.val c.body s else s
    | (none, s) => s)

/-- LSA_AGE_OUT (R452). -/
def execLsaAgeOut (origin : BitVec 16) (s : State) : Host.Outcome State Fault Refusal :=
  .next (match s.fabric.lsdb.find origin.toNat with
    | some x =>
      if s.anyPilot && s.elapsed x.refreshed 180000000000 then
        noteChange (s.withFabric { s.fabric with lsdb := s.fabric.lsdb.del origin.toNat })
      else s
    | none => s)

/-! ### Routes and the broadcast tree (R453, R454) -/

/-- Cost of the best link from `u` to `v` that both ends list (R453). -/
def edgeCost (db : NMap Lsa) (u v : Nat) : Option Nat :=
  match db.find u, db.find v with
  | some x, some y =>
    if y.links.any fun e => e.1 == u then
      (x.links.filter fun e => e.1 == v).foldl (fun m e => match m with
        | none => some e.2
        | some c => some (Nat.min c e.2)) none
    else none
  | _, _ => none

/-- One round of relaxing the distances from a source. -/
def relax (db : NMap Lsa) (dist : NMap Nat) : NMap Nat :=
  db.foldl (fun d x => match dist.find x.1 with
    | none => d
    | some a => (x.2.links.map (·.1)).foldl (fun d v => match edgeCost db x.1 v with
      | none => d
      | some c => match d.find v with
        | some b => if a + c < b then d.put v (a + c) else d
        | none => d.put v (a + c)) d) dist

/-- Distances after `n` rounds. -/
def relaxN (db : NMap Lsa) : Nat → NMap Nat → NMap Nat
  | 0, d => d
  | n + 1, d => relaxN db n (relax db d)

/-- Shortest distances from a device (R453). -/
def distances (db : NMap Lsa) (src : Nat) : NMap Nat := relaxN db db.length [(src, 0)]

/-- The kept port to each neighbour with its cost: the cheapest, and the lowest of those (R453). -/
def State.hops (s : State) : List (Nat × Nat × Nat) :=
  s.upPorts.foldl (fun l p =>
    let n := s.get Obj.neighborId p % 65536
    let c := s.linkCost p
    if (edgeCost s.fabric.lsdb s.deviceId n).isNone then l
    else match l.find? fun e => e.1 == n with
      | none => l ++ [(n, p, c)]
      | some e => if c < e.2.2 then l.map fun e => if e.1 = n then (n, p, c) else e else l) []

/-- Cost of reaching a device through each first hop, with the port.
(DEDUCED: log entry 58.) -/
def reach (hops : List (Nat × Nat × Nat)) (dists : List (Nat × NMap Nat)) (dst : Nat) : List (Nat × Nat) :=
  hops.filterMap fun h => match dists.find? fun d => d.1 == h.1 with
    | some d => (d.2.find dst).map fun x => (h.2.1, h.2.2 + x)
    | none => none

/-- Sort ports into ascending order. -/
def insertPort (p : Nat) : List Nat → List Nat
  | [] => [p]
  | q :: l => if p ≤ q then p :: q :: l else q :: insertPort p l

/-- ROUTE_ENTRY of a device from its ports and cost (R454). -/
def routeValue (ports : List Nat) (cost : Nat) : Nat :=
  ((List.range ports.length).foldl (fun n i => n + ports.getD i 0 * 2 ^ (16 * i)) 0) + ports.length * 2 ^ 64 + 2 ^ 71 +
    capAt 0xFFFF cost * 2 ^ 80

/-- The route to a device: none where it is not reachable (R453). -/
def routeOf (hops : List (Nat × Nat × Nat)) (dists : List (Nat × NMap Nat)) (dst : Nat) : Option Nat :=
  match reach hops dists dst with
  | [] => none
  | l =>
    let best := l.foldl (fun m e => Nat.min m e.2) (l.headD (0, 0)).2
    let ports := ((l.filter fun e => e.2 == best).foldl (fun a e => insertPort e.1 a) []).take 4
    some (routeValue ports best)

/-- The tree's parent of a device: the lowest neighbour on a shortest path from the root (R453). -/
def treeParent (db : NMap Lsa) (fromRoot : NMap Nat) (v : Nat) : Option Nat :=
  (db.keys.find? fun u => match fromRoot.find u, edgeCost db u v, fromRoot.find v with
    | some a, some c, some b => a + c == b
    | _, _, _ => false)

/-- TREE_PORTS (R453). -/
def State.tree (s : State) (hops : List (Nat × Nat × Nat)) : Nat :=
  let db := s.fabric.lsdb
  let me := s.deviceId
  match db.keys.head? with
  | none => 0
  | some root =>
    let d := distances db root
    let linked (n : Nat) : Bool :=
      (me != root && treeParent db d me == some n) || (n != root && treeParent db d n == some me)
    hops.foldl (fun m h => if linked h.1 then setBit m h.2.1 else m) 0

/-- The leader writes the routes (R453). -/
def computeRoutes (s : State) : State :=
  let db := s.fabric.lsdb
  let me := s.deviceId
  let hops := s.hops
  let dists := hops.map fun h => (h.1, distances db h.1)
  let found := (db.keys.filter (· != me)).filterMap fun d => (routeOf hops dists d).map fun v => (d, v)
  let s := s.withDict { s.dict with active := s.dict.active.delRange (addrKey 0x6830 0 0) 65536 }
  let s := s.set Obj.routeEntry me (2 ^ 71 + 2 ^ 70)
  let s := found.foldl (fun s e => s.set Obj.routeEntry e.1 e.2) s
  let s := (s.set Obj.treePorts 0 (s.tree hops)).bump Obj.routeGeneration
  raise Ev.routesChanged 0 (s.get Obj.routeGeneration) found.length s

/-- ROUTE_COMPUTE (R453): 10 ms after the last accepted change, and not within 50 ms of the one before. -/
def execRouteCompute (s : State) : Host.Outcome State Fault Refusal :=
  let f := s.fabric
  let rested := match f.computedAt with
    | some t => s.elapsed t 50000000
    | none => true
  .next (match f.changedAt with
    | some t =>
      if s.elapsed t 10000000 && rested && s.anyPilot then
        computeRoutes (s.withFabric { f with changedAt := none, computedAt := some s.time.ticks })
      else s
    | none => s)

/-! ### The Alperen Control Protocol (R455 to R459) -/

/-- A key slot's grace period has run out (R458). -/
def State.graceOver (s : State) (g : Nat × Nat × Nat) : Bool := s.elapsed g.2.2 (s.get Obj.acpKeyGraceS * 1000000000)

/-- The key that authenticates a REQUEST, and for one in grace the level before t_c (R456, R458). -/
def State.authKey (s : State) (c : Ctrl) : Option (Nat × Option Nat) :=
  let old := (s.fabric.grace.find c.slot).filter fun g => c.mac == ctrlMac g.1 c.msg && !s.graceOver g
  if 255 < c.slot then none
  else if s.get Obj.acpKeyValid c.slot = 1 ∧ c.mac = ctrlMac (s.get Obj.acpKey c.slot) c.msg then
    some (s.get Obj.acpKey c.slot, none)
  else old.map fun g => (g.1, some g.2.1)

/-- SENT_MS lies in the time window (R456). -/
def State.inWindow (s : State) (ms : Nat) : Bool :=
  let w := s.get Obj.acpTimeWindowMs
  w == 0 || decide ((toSigned 32 (ms + 2 ^ 32 - s.sentMs)).natAbs ≤ w)

/-- Forward an ACP frame of another device (R455, R438, R439). -/
def forwardAcp (port : Nat) (c : Ctrl) (bs : List Byte) (s : State) : State :=
  if c.hops ≤ 1 then s.bump Obj.hopExpiredDrops port
  else match s.routePorts c.dst with
    | [] => s.bump Obj.noRouteDrops port
    | p :: _ => sendFabric p (overlay bs 15 [BitVec.ofNat 8 ((c.hops - 1) * 16 + byteAt bs 15 % 16)]) (s.bump Obj.acpForwarded)

/-- Key of an ACP session.
(DEDUCED: log entry 58.) -/
def acpSession (device slot : Nat) : Nat := device * 65536 + slot

/-- The session whose entry a new session takes from a full table: the least recently used whose last request is older
than the window (R457). -/
def State.staleSession (s : State) : Option Nat :=
  let old := s.fabric.sessions.filter fun e => s.elapsed e.2.2 (s.get Obj.acpTimeWindowMs * 1000000)
  (old.foldl (fun (m : Option (Nat × Nat)) e => match m with
    | none => some (e.1, e.2.2)
    | some x => if e.2.2 < x.2 then some (e.1, e.2.2) else some x) none).map (·.1)

/-- Room for a new session: the table with it gone that gives way, or none (R457). -/
def State.sessionRoom (s : State) : Option (NMap (Nat × Nat)) :=
  if s.fabric.sessions.length < 4096 then some s.fabric.sessions
  else s.staleSession.map fun k => s.fabric.sessions.del k

/-- Serve an accepted request (R457): it waits for a Pilot, or 64 of its device already do. -/
def acceptAcp (a : AcpPending) (table : NMap (Nat × Nat)) (s : State) : State :=
  let s := s.withFabric { s.fabric with sessions := table.put (acpSession a.device a.keySlot) (a.seq, s.time.ticks) }
  let s := s.bump Obj.acpRequests
  if 64 ≤ (s.fabric.acp.filter fun b => b.device == a.device).length then sendAcpAnswer a (respond a.request St.busy) s
  else s.withFabric { s.fabric with acp := s.fabric.acp ++ [a] }

/-- An authenticated REQUEST (R457). -/
def sessionAcp (a : AcpPending) (s : State) : State :=
  match s.fabric.sessions.find (acpSession a.device a.keySlot) with
  | some x => if newer32 a.seq x.1 then acceptAcp a s.fabric.sessions s else s.bump Obj.acpReplays
  | none => match s.sessionRoom with
    | some table => acceptAcp a table s
    | none => sendAcpAnswer a (respond a.request St.busy) s

/-- A REQUEST for this device (R455 to R457). -/
def ownAcp (port : Nat) (edge : Bool) (c : Ctrl) (s : State) : State :=
  match s.authKey c, s.inWindow c.ms with
  | some (key, old), true => match parseRequest c.body with
    | none => s
    | some q => sessionAcp { device := c.src, keySlot := c.slot, seq := c.seq, request := q, since := s.time.ticks, port := port,
                             edge := if edge then some c.from_ else none, key := key, old := old } s
  | _, _ => raise Ev.acpAuthFailed port c.src (c.slot * 2 ^ 32 + c.seq) (s.bump Obj.acpAuthFails)

/-- ACP_REQUEST (R455 to R457). -/
def execAcpRequest (port : FrontPort) (frame : List Byte) (s : State) : Host.Outcome State Fault Refusal :=
  let p := port.val
  let s := receiveCtrl p frame s
  .next (match parseCtrl frame with
    | none => s
    | some c =>
      if c.kind ≠ 5 ∨ s.linkState p ≠ 2 then s
      else if s.ferry p then
        if c.dst ≠ s.deviceId then forwardAcp p c frame s
        else if s.get Obj.fabricState = 3 then s else ownAcp p false c s
      else if s.get Obj.acpEdgeEnable p = 1 ∧ c.dst = s.deviceId ∧ s.get Obj.fabricState ≠ 3 then ownAcp p true c s
      else s)

/-- A proxy slot ends its wait. -/
def endProxy (j state : Nat) (s : State) : State :=
  (s.withFabric { s.fabric with proxies := s.fabric.proxies.del j }).set Obj.acpProxyState j state

/-- ACP_RESPONSE (R455, R459).
(DEDUCED: log entry 58.) -/
def execAcpResponse (port : FrontPort) (frame : List Byte) (s : State) : Host.Outcome State Fault Refusal :=
  let p := port.val
  let s := receiveCtrl p frame s
  .next (match parseCtrl frame with
    | none => s
    | some c =>
      if c.kind ≠ 6 ∨ !s.ferryUp p then s
      else if c.dst ≠ s.deviceId then forwardAcp p c frame s
      else match s.fabric.proxies.find? fun e => e.2.device == c.src && e.2.seq == c.seq && e.2.keySlot == c.slot with
        | some e =>
          if c.mac = ctrlMac e.2.key c.msg then
            endProxy e.1 2 (s.setDom Obj.acpProxyResponse e.1 c.body)
          else s
        | none => s)

/-- A complete write of ACP_PROXY_REQUEST (R459): its status.
(DEDUCED: log entry 58.) -/
def writeProxy (j : Nat) (value : List Byte) (s : State) : Nat × State :=
  if s.get Obj.acpProxyState j = 1 then (St.busy, s)
  else
    let device := leAt value 0 2
    let slot := leAt value 2 2
    if value.length < 24 ∨ 255 < slot then (St.badValue, s)
    else
      let seq := (s.fabric.proxySeq.getD slot 0 + 1) % 2 ^ 32
      let key := s.get Obj.acpKey slot
      let x : Proxy := { device := device, keySlot := slot, seq := seq, key := key,
                         deadline := s.time.ticks + ticksOfNs (leAt value 4 4 * 1000000) }
      let s := s.withFabric { s.fabric with proxySeq := s.fabric.proxySeq.put slot seq,
                                            proxies := s.fabric.proxies.put j x }
      let bs := s.ctrlFrame (s.get Obj.fabricCtrlMac) 5 (s.get Obj.maxHops) device slot seq
        (some key) (value.drop 8)
      let s := s.set Obj.acpProxyState j 1
      (St.ok, match s.routePorts device with
        | p :: _ => sendFabric p bs s
        | [] => s)

/-- ACP_PROXY_TIMEOUT (R459). -/
def execAcpProxyTimeout (j : Fin 64) (s : State) : Host.Outcome State Fault Refusal :=
  .next (match s.fabric.proxies.find j.val with
    | some x => if x.deadline ≤ s.time.ticks then endProxy j.val 3 s else s
    | none => s)

/-- ACP_UNSERVED (R457): no Pilot has taken the request within 1 ms. -/
def execAcpUnserved (index : Nat) (s : State) : Host.Outcome State Fault Refusal :=
  .next (match s.fabric.acp[index]? with
    | some a =>
      if a.taken.isNone && s.elapsed a.since 1000000 then
        sendAcpAnswer a (respond a.request St.busy) (s.withFabric { s.fabric with acp := s.fabric.acp.filter (· != a) })
      else s
    | none => s)

/-- Switch-over of ACP_KEYS for one slot (R458). -/
def applyKey (old : State) (k : Nat) (s : State) : State :=
  if s.get Obj.acpKeyValid k ≠ 1 ∨ s.get Obj.acpKeyGraceS = 0 then
    s.withFabric { s.fabric with grace := s.fabric.grace.del k }
  else if old.get Obj.acpKeyValid k = 1 ∧ old.get Obj.acpKey k ≠ s.get Obj.acpKey k then
    let g := (old.get Obj.acpKey k, old.get Obj.acpKeyLevel k, s.time.ticks)
    s.withFabric { s.fabric with grace := s.fabric.grace.put k g }
  else s

/-- Switch-over of ACP_KEYS (R458). -/
def applyKeys (old s : State) : State := (List.range 256).foldl (fun s k => applyKey old k s) s

/-- ACP_KEY_GRACE_END (R458). -/
def execAcpKeyGraceEnd (slot : Fin 256) (s : State) : Host.Outcome State Fault Refusal :=
  .next (match s.fabric.grace.find slot.val with
    | some g =>
      if s.graceOver g then
        s.withFabric { s.fabric with grace := s.fabric.grace.del slot.val }
      else s
    | none => s)

end Sys2Proof.Machine
end

