-- ==== Sys2Proof/Machine/Crossing.lean ====
section
/-! DEFINITION. Crossings, chain links and the landing resequencer (10): slots, landing cells, sequence windows,
contexts, credits, and the two fan-outs of multicast. -/

namespace Sys2Proof.Machine

/-! ### Slots (R317 to R330, R354) -/

/-- Owner of a direction's next slot: stage (true egress) and class (R324). -/
def State.slotOwner (s : State) (d : Nat) : Bool × Nat :=
  let x := s.dir d
  let table := s.getDom Obj.slotEntries d
  let e := byteAt table ((x.slot - x.base) % table.length)
  (bitOf e 7, e % 16)

/-- The cell can cross as far as its own bytes go (R320). -/
def State.cellWhole (s : State) (c : Cell) : Bool := (s.body c.frame).elim true fun x => x.cellWhole c.index

/-- The first cell of a crossing queue that can cross: no earlier cell of its frame waits, and no head passes an earlier
head; `seen` are the cells before that cannot cross yet (R320). -/
def State.firstWhole (s : State) (seen : List Cell) : List Cell → Option Cell
  | [] => none
  | c :: l =>
    if s.cellWhole c && !(seen.any fun e => e.frame == c.frame || (e.index == 0 && c.index == 0)) then some c
    else s.firstWhole (c :: seen) l

/-- The cell that a stage and class of a direction sends next: the two pipes' queues take turns (R320). -/
def State.readyCell (s : State) (x : Link) (egress : Bool) (cls : Nat) : Option Cell :=
  let mine := x.queue.filter fun c => c.egress == egress && c.cls == cls
  match s.firstWhole [] (mine.filter (·.src != x.lastPipe)) with
  | some c => some c
  | none => s.firstWhole [] (mine.filter (·.src == x.lastPipe))

/-- The cell that a slot carries, and whether the slot's owner uses it (R326). -/
def State.choose (s : State) (x : Link) (owner : Bool × Nat) : Option (Cell × Bool) :=
  match s.readyCell x owner.1 owner.2 with
  | some c => some (c, true)
  | none =>
    let same := (List.range 15).map fun i => s.readyCell x owner.1 ((owner.2 + 1 + i) % 16)
    let other := (List.range 16).map fun i => s.readyCell x (!owner.1) ((owner.2 + i) % 16)
    ((same ++ other).findSome? id).map fun c => (c, false)

/-- The destination deck has reported room for landing cells (R354). -/
def State.roomReported (s : State) (d : Nat) : Bool :=
  decide (s.get Obj.landingGuardCells (dirDest d) < s.cross.reports.getD (dirDest d) 262144)

/-- Control messages that a slot delivers to its deck (R327).
(DESIGN CHOICE: log entry 50.) -/
def deliver (ms : List CtrlMsg) (s : State) : State :=
  s.withCross { s.cross with
    holes := s.cross.holes ++ ms.filter (·.hole), credits := s.cross.credits ++ ms.filter fun m => !m.hole }

/-- A new slot table takes effect at the slot that begins now (R329). -/
def takeTable (d : Nat) (s : State) : State :=
  let x := s.dir d
  if !x.switch then s
  else
    let s := (s.setDir d { x with base := x.slot, switch := false, gen := !x.gen }).set Obj.switchSlot d x.slot
    raise Ev.slotTableSwitched d (s.group 0x30 d).generation x.slot s

/-- The direction carries slots: it is UP, its decks are in service, no slot has failed eight times, and the device
is neither in Moor nor entering or leaving it (R322, R468, R470, R525). -/
def State.carriesSlots (s : State) (d : Nat) : Bool :=
  s.get Obj.directionState d == 0 && s.deckUp (dirSource d) && s.deckUp (dirDest d) && decide ((s.dir d).fails < 8) &&
  (s.get Obj.sleepState == 0 || s.get Obj.sleepState == 1) && s.ticking (dirSource d) && s.ticking (dirDest d)

/-- A uniform random delay of 0 to `j` ns from the perturbation generator, whose state PERTURB_SEED is (R545, R546); how
the draw maps to a delay is not stated.
(DESIGN CHOICE: log entry 77.) -/
def perturbDraw (j : Nat) (s : State) : Nat × State :=
  if j = 0 then (0, s)
  else
    let x := xorshift (BitVec.ofNat 64 (s.get Obj.perturbSeed))
    (Config.uniform (BitVec.ofNat 32 x.toNat) j % (j + 1), s.set Obj.perturbSeed 0 x.toNat)

/-- The tick before which the slot sent now does not land: perturbed, and not before the slot sent before it (R545).
(DESIGN CHOICE: log entry 77.) -/
def slotDue (d : Nat) (s : State) : Nat × State :=
  let (j, s) := perturbDraw (s.get Obj.perturbLinkJitterNs d) s
  let t := s.time.ticks + ticksOfNs (s.get Obj.perturbLinkDelayNs d + j)
  let x := s.dir d
  let due := Nat.max t x.lastDue
  (due, if x.lastDue < due ∧ s.time.ticks < due then s.setDir d { x with lastDue := due } else s)

/-! ### The 320 bytes of a slot (R317 to R319, R328) -/

/-- The fields of a cell header that a cell gives (R318). -/
structure CellHeader where
  stage : Nat
  first : Nat
  last : Nat
  bad : Nat
  mcast : Nat
  cls : Nat
  bytes : Nat
  handle : Nat
  redirect : Nat
  stampPipe : Nat
  dest : Nat
  port : Nat
  seq : Nat
  deriving DecidableEq, Repr

/-- Frame bytes in the data area of a cell: 192 in the first, and 256 in each later one (R319). -/
def Frame.cellData (x : Frame) (index : Nat) : List Byte :=
  if index = 0 then x.data.take 192 else (x.data.drop (256 * index - 64)).take 256

/-- The cell holds the frame's tail (R318, R320). -/
def Frame.lastCell (x : Frame) (index : Nat) : Bool := x.tail.isSome && decide (x.charged ≤ index + 1)

/-- The data area of a cell: the first one begins with the frame's descriptor, and zeros fill it up (R317, R319). -/
def dataArea (f : FrameId) (x : Frame) (index : Nat) : List Byte :=
  let bs := (if index = 0 then (List.range 64).map (Config.descriptorByte f) else []) ++ x.cellData index
  bs ++ List.replicate (256 - bs.length) 0

/-- Bits `i` of slot `n` that the spec leaves open. -/
def slotFill (n i w : Nat) : Nat := (Config.slotFill n i).toNat % 2 ^ w

/-- The header's fields of a slot with a cell; the stamp's fields of a frame without one are open, but SEQ, which is 0 for
multicast (R318).
(DESIGN CHOICE: log entry 89.) -/
def cellHeader (n handle : Nat) (c : Cell) (x y : Frame) : CellHeader :=
  let st (i w : Nat) (g : Stamp → Nat) : Nat := match x.stamp with
    | some t => g t
    | none => slotFill n i w
  { stage := bit01 c.egress, first := bit01 (c.index == 0), last := bit01 (y.lastCell c.index),
    bad := bit01 (y.lastCell c.index && y.tail == some false), mcast := bit01 x.origin.isSome, cls := c.cls,
    bytes := (y.cellData c.index).length, handle := handle, redirect := st 8 1 fun t => bit01 t.redirect,
    stampPipe := st 9 3 (·.pipe), dest := c.dst, port := st 11 16 (·.port),
    seq := if x.origin.isSome then 0 else st 12 16 (·.seq) }

/-- The header's fields of a slot without a cell, all open (R318).
(DESIGN CHOICE: log entry 89.) -/
def openHeader (n : Nat) : CellHeader :=
  let v := slotFill n
  { stage := v 0 1, first := v 1 1, last := v 2 1, bad := v 3 1, mcast := v 4 1, cls := v 5 4, bytes := v 6 9,
    handle := v 7 16, redirect := v 8 1, stampPipe := v 9 3, dest := v 10 3, port := v 11 16, seq := v 12 16 }

/-- The 16 bytes of a cell header (R318). -/
def headerBytes (kind gen messages slot : Nat) (h : CellHeader) : List Byte :=
  leBytes 1 (kind * 64 + h.stage * 32 + h.first * 16 + h.last * 8 + gen * 4 + h.bad * 2 + h.mcast) ++
  leBytes 1 (h.cls * 16 + messages) ++ leBytes 2 h.bytes ++ leBytes 2 h.handle ++
  leBytes 1 (h.redirect * 128 + h.stampPipe * 16 + h.dest) ++ [0] ++ leBytes 2 h.port ++ leBytes 2 h.seq ++ leBytes 4 slot

/-- The 16 bytes of a control message (R328). -/
def CtrlMsg.bytes (m : CtrlMsg) : List Byte :=
  leBytes 1 ((if m.hole then 1 else 2) * 16 + m.cls) ++ leBytes 1 (bit01 m.redirect * 128 + m.stampPipe * 16) ++
  leBytes 2 m.port ++ leBytes 2 m.value ++ List.replicate 10 0

/-- The control area: up to three messages, and open bytes after them (R317, R327).
(DESIGN CHOICE: log entry 89.) -/
def controlArea (n : Nat) (ms : List CtrlMsg) : List Byte :=
  ms.flatMap CtrlMsg.bytes ++ (List.range (48 - 16 * ms.length)).map fun i => BitVec.ofNat 8 (slotFill n (16 + i) 8)

/-- The slot that a direction sends (R317): header, data area and control area. -/
def State.slotBytes (s : State) (x : Link) (cell : Option (Cell × Nat)) (ms : List CtrlMsg) : List Byte :=
  let found : Option (Nat × Cell × Frame × Frame) := match cell with
    | some (c, h) => match s.frame c.frame, s.body c.frame with
      | some a, some b => some (h, c, a, b)
      | _, _ => none
    | none => none
  let kind := if cell.isSome then 1 else if ms = [] then 0 else 2
  let header := found.elim (openHeader x.slot) fun e => cellHeader x.slot e.1 e.2.1 e.2.2.1 e.2.2.2
  headerBytes kind (bit01 x.gen) ms.length x.slot header ++
    found.elim (List.replicate 256 0) (fun e => dataArea e.2.1.frame e.2.2.2 e.2.1.index) ++ controlArea x.slot ms

/-- A number from `h` on that is not in use. -/
def freeHandle (used : List Nat) : Nat → Nat → Nat
  | 0, h => h
  | fuel + 1, h => if used.contains h then freeHandle used fuel ((h + 1) % 65536) else h

/-- FRAME_HANDLE of a cell's frame: the one its earlier cells had, or an open one that no other frame in flight from its
source pipe has (R318).
(DESIGN CHOICE: log entry 89.) -/
def Link.handleOf (x : Link) (c : Cell) : Nat :=
  match x.handles.find c.frame with
  | some e => e.2
  | none =>
    let used := (x.handles.filter fun (e : Nat × Nat × Nat) => e.2.1 == c.src).map fun (e : Nat × Nat × Nat) => e.2.2
    freeHandle used used.length (Config.frameHandle c.frame % 65536)

/-- One slot of a direction (R324 to R329): the cell chosen goes out, and up to three control messages with it.
(DESIGN CHOICE: log entry 50.) -/
def sendSlot (d : Nat) (s : State) : State :=
  let (due, s) := slotDue d (takeTable d s)
  let x := s.dir d
  let pick := if s.roomReported d && s.get Obj.sleepState == 0 then s.choose x (s.slotOwner d) else none
  let ms := (x.ctrl.take 3).map fun m => { m with due := due }
  let x := { x with slot := x.slot + 1, fails := 0, ctrl := x.ctrl.drop 3,
                    sent := s.slotBytes x (pick.map fun (e : Cell × Bool) => (e.1, x.handleOf e.1)) ms }
  let s := match pick with
    | some (c, own) =>
      let s := s.setDir d { x with
        queue := x.queue.erase c, flight := x.flight ++ [{ c with due := due }], lastPipe := c.src,
        handles := x.handles.put c.frame (c.src, x.handleOf c) }
      s.bump (if own then Obj.slotsOwnedUsed else Obj.slotsLent) d
    | none => (s.setDir d x).bump Obj.slotsEmpty d
  deliver ms (s.add Obj.ctrlMessages d ms.length)

/-- R326, R327: a slot of a chain-link direction.
(DEDUCED: log entry 73.) -/
def execSlotSend (d : Direction) (s : State) : Host.Outcome State Fault Refusal :=
  .next (if s.carriesSlots d.val then sendSlot d.val s else s)

/-- R322: a slot received with a check error is sent again; the eighth failure in succession stops the direction.
(DEDUCED: log entry 73.) -/
def execSlotRetry (d : Direction) (s : State) : Host.Outcome State Fault Refusal :=
  .next (if !s.carriesSlots d.val then s
    else
      let x := s.dir d.val
      let s := (s.setDir d.val { x with fails := x.fails + 1 }).bump Obj.linkRetries d.val
      if x.fails + 1 = 8 then raise Ev.chainLinkRetryFailed d.val 8 (x.slot - 1) s else s)

/-- Validation of SLOT_TABLE (group 0x30) of a direction (R324). -/
def validateSlotTable (d : Nat) (s : State) : Option (Nat × Nat) :=
  let bs := s.stagedDom Obj.slotEntries d
  if bs.length % 2 = 1 ∨ bs.length < 32 ∨ bs.any fun b => b.toNat / 16 % 8 != 0 then
    some (St.badValue, addrKey 0x5000 0 d) else none

/-- Switch-over of SLOT_TABLE: the next slot is the first of the new table (R329). -/
def applySlotTable (d : Nat) (s : State) : State := s.setDir d { s.dir d with switch := true }

/-- R354: each deck reports its free cell count to the others. -/
def execFreeCountReport (s : State) : Host.Outcome State Fault Refusal :=
  .next (s.withCross { s.cross with
    reports := (List.range 4).foldl (fun m d => NMap.set 262144 m d (s.freeCells d)) s.cross.reports })

/-! ### Landing (R20, R321, R330) -/

/-- One cell of a frame moves from deck `a` to deck `b` (R20). -/
def Frame.moveCell (x : Frame) (a b : Nat) : Frame :=
  { x with cells := NMap.modify 0 (NMap.modify 0 x.cells a (· - 1)) b (· + 1) }

/-- A cell of a frame lands at its destination pipe (R320, R330). -/
def landCell (d : Nat) (c : Cell) (s : State) : State :=
  let x := s.dir d
  let last := (s.body c.frame).elim true fun y => y.lastCell c.index
  let s := s.setDir d { x with
    flight := x.flight.erase c, handles := if last then x.handles.del c.frame else x.handles }
  match s.frame c.frame with
  | none => s
  | some f =>
    let a := deckOfPipe c.src
    let b := deckOfPipe c.dst
    let f' := match f.origin with
      | none => f.moveCell a b
      | some _ => { f with cells := NMap.modify 0 f.cells b (· + 1) }
    let f' := if c.index = 0 then { f' with stage := if c.egress then .landed else .home c.dst } else f'
    let s := noteRoom (s.setFrame c.frame f')
    match f.origin with
    | some o => releaseOrigin o s
    | none => if c.egress then s else followHead true c.index (if c.index = 0 then 0 else 1) c.frame s

/-- The cell of a frame from one pipe to another that can land: no earlier cell of its crossing queue is still in flight
(R320, R322, R346). -/
def Link.landing (x : Link) (src dst : Nat) (f : FrameId) : Option Cell :=
  match x.flight.find? fun c => c.frame == f && c.src == src && c.dst == dst with
  | none => none
  | some c => match x.flight.find? fun e => e.egress == c.egress && e.cls == c.cls && e.src == c.src with
    | some e => if e = c then some c else none
    | none => none

/-- R321, R330: a cell crosses: handed over on one deck, or landing from a chain link.
(DEDUCED: log entry 73.) -/
def execCellLand (src dst : Pipe) (f : FrameId) (s : State) : Host.Outcome State Fault Refusal :=
  let a := deckOfPipe src.val
  let b := deckOfPipe dst.val
  .next (if !s.ticking b then s
    else if a = b then
      match s.frame f with
      | none => s
      | some x =>
        if !s.cellWhole { frame := f, egress := true, cls := x.cls, src := src.val, dst := dst.val, index := 0 } then s
        else if x.stage = .crossing true src.val dst.val then s.setFrame f { x with stage := .landed }
        else if x.stage = .crossing false src.val dst.val then s.setFrame f { x with stage := .home dst.val }
        else s
    else
      match (s.dir (dirOf a b)).landing src.val dst.val f with
      | none => s
      | some c => if c.due ≤ s.time.ticks then landCell (dirOf a b) c s else s)

/-! ### The landing resequencer (R333 to R339) -/

/-- Number of a context. -/
def contextKey (port : Nat) (redirect : Bool) (pipe cls : Nat) : Nat :=
  ((port * 2 + bit01 redirect) * 8 + pipe) * 16 + cls

/-- A context. -/
def State.context (s : State) (k : Nat) : Context := s.cross.contexts.getD k {}

/-- Change a context. -/
def State.setContext (s : State) (k : Nat) (x : Context) : State :=
  s.withCross { s.cross with contexts := NMap.set {} s.cross.contexts k x }

/-- A stream and a number as the events give them (R350). -/
def streamArg (redirect : Bool) (pipe cls seq : Nat) : Nat :=
  bit01 redirect * 2 ^ 31 + pipe * 2 ^ 28 + cls * 2 ^ 24 + seq

/-- Set LANDING_HOLD_IN_USE; below the limit the pool has room again (R338). -/
def setHold (deck n : Nat) (s : State) : State :=
  let s := s.set Obj.landingHoldInUse deck n
  if n < s.get Obj.landingHoldCells deck ∨ s.get Obj.landingHoldCells deck = 0 then
    s.withCross { s.cross with holdFull := s.cross.holdFull.filter (· != deck) }
  else s

/-- Release a frame to the traffic manager's enqueue; a held frame leaves the pool (R334, R338). -/
def releaseFrame (f : FrameId) (s : State) : State :=
  match s.frame f with
  | none => s
  | some x =>
    let deck := deckOfPort x.port
    let s := if x.heldCells = 0 then s else setHold deck (s.get Obj.landingHoldInUse deck - x.heldCells) s
    s.setFrame f { x with stage := .released, heldCells := 0 }

/-- A number of the context after NEXT is HELD (R334). -/
def Context.holds (x : Context) : Bool :=
  x.state.any fun e => match e.2 with | .held _ => true | .hole => false

/-- "arm" of R334: the timer runs while a later number is HELD. -/
def armContext (k : Nat) (s : State) : State :=
  let x := s.context k
  if !x.holds then s.setContext k { x with timer := none }
  else if x.timer.isSome then s
  else s.setContext k { x with timer := some (s.time.ticks, s.get Obj.reseqTimeoutNs) }

/-- The loop of "advance" (R334): numbers that are not EMPTY are passed in order. -/
def passHeld (k : Nat) : Nat → State → State
  | 0, s => s
  | fuel + 1, s =>
    let x := s.context k
    match x.state.find x.next with
    | none => s
    | some e =>
      let s := match e with
        | .held g => releaseFrame g s
        | .hole => s
      passHeld k fuel (s.setContext k { x with
        next := (x.next + 1) % 65536, state := x.state.del x.next, owed := x.owed + 1 })

/-- Pass NEXT, then "advance" (R334): the timer restarts. -/
def advance (k : Nat) (s : State) : State :=
  let x := s.context k
  let s := s.setContext k { x with next := (x.next + 1) % 65536, owed := x.owed + 1, timer := none }
  passHeld k (x.state.length + 1) s

/-- A number that was already passed, or is not EMPTY (R334). -/
def Context.late (x : Context) (n : Nat) : Bool :=
  decide (16384 ≤ (n + 65536 - x.next) % 65536) || (x.state.find n).isSome

/-- The landing hold pool has no room for a frame: it is discarded, and its number becomes a HOLE (R334, R338). -/
def holdDrop (k : Nat) (st : Stamp) (f : FrameId) (s : State) : State :=
  let deck := deckOfPort st.port
  let x := s.context k
  let s := s.setContext k { x with state := x.state.put st.seq .hole }
  let s := finishFrame f (s.bump Obj.reseqHoldDrops st.port)
  if s.cross.holdFull.contains deck then s
  else raise Ev.landingHoldFull deck (s.get Obj.landingHoldCells deck) (streamArg st.redirect st.pipe st.cls st.seq)
    (s.withCross { s.cross with holdFull := deck :: s.cross.holdFull })

/-- "on head of frame f" (R334). -/
def reseqFrame (f : FrameId) (x : Frame) (st : Stamp) (s : State) : State :=
  let k := contextKey st.port st.redirect st.pipe st.cls
  let c := s.context k
  if c.late st.seq then
    raise Ev.reseqLate st.port (streamArg st.redirect st.pipe st.cls st.seq) 0 (finishFrame f (s.bump Obj.reseqLate st.port))
  else if st.seq = c.next then armContext k (advance k (releaseFrame f s))
  else
    let deck := deckOfPort st.port
    let n := frameCells x.full
    let limit := s.get Obj.landingHoldCells deck
    let use := s.get Obj.landingHoldInUse deck
    if use + n ≤ (if limit = 0 then 262144 else limit) then
      let s := s.setContext k { c with state := c.state.put st.seq (.held f) }
      let s := setHold deck (use + n) (s.setFrame f { x with stage := .held, heldCells := n })
      armContext k (s.bump Obj.reseqHeld st.port)
    else armContext k (holdDrop k st f s)

/-- R334: a frame head reaches its context.
(DEDUCED: log entry 73.) -/
def execReseqHead (f : FrameId) (s : State) : Host.Outcome State Fault Refusal :=
  .next (match s.frame f with
    | none => s
    | some x => match x.stamp with
      | none => s
      | some st => if x.stage = .landed ∧ s.ticking (deckOfPipe x.epipe) then reseqFrame f x st s else s)

/-- "on hole notice for s" (R334). -/
def holeNotice (m : CtrlMsg) (s : State) : State :=
  let k := contextKey m.port m.redirect m.stampPipe m.cls
  let s := s.bump Obj.holesReceived m.port
  let c := s.context k
  if c.late m.value then
    raise Ev.reseqLate m.port (streamArg m.redirect m.stampPipe m.cls m.value) 1 (s.bump Obj.holesLate m.port)
  else if m.value = c.next then armContext k (advance k s)
  else armContext k (s.setContext k { c with state := c.state.put m.value .hole })

/-- Take element `i` of those that satisfy `p` out of a list: the element and the rest. -/
def takeNth (p : CtrlMsg → Bool) : Nat → List CtrlMsg → Option (CtrlMsg × List CtrlMsg)
  | _, [] => none
  | i, m :: ms =>
    if p m then
      if i = 0 then some (m, ms) else (takeNth p (i - 1) ms).map fun x => (x.1, m :: x.2)
    else (takeNth p i ms).map fun x => (x.1, m :: x.2)

/-- R334: the hole notice that arrived at a port's deck as number `index`.
(DEDUCED: log entry 73.) -/
def execHoleNotice (port : Port) (index : Nat) (s : State) : Host.Outcome State Fault Refusal :=
  .next (match takeNth (fun m => m.port == port.val && decide (m.due ≤ s.time.ticks)) index s.cross.holes with
    | none => s
    | some (m, rest) => holeNotice m (s.withCross { s.cross with holes := rest }))

/-- R334: a context's timer reaches the timeout it started with. -/
def execReseqTimeout (port : Port) (redirect : Bool) (stampPipe : Pipe) (cls : Fin 16) (s : State) :
    Host.Outcome State Fault Refusal :=
  let k := contextKey port.val redirect stampPipe.val cls.val
  let c := s.context k
  .next (match c.timer with
    | none => s
    | some (t, ns) =>
      if !s.elapsed t ns then s
      else
        let held := (c.state.filter fun e => match e.2 with | .held _ => true | .hole => false).length
        let s := raise Ev.reseqSkip port.val (streamArg redirect stampPipe.val cls.val c.next) held
          (s.bump Obj.reseqSkips port.val)
        armContext k (advance k s))

/-- R339: `n` of the numbers that a context has passed are credited to its stamping pipe. -/
def execCreditSend (port : Port) (redirect : Bool) (stampPipe : Pipe) (cls : Fin 16) (n : Fin 65) (s : State) :
    Host.Outcome State Fault Refusal :=
  let k := contextKey port.val redirect stampPipe.val cls.val
  let c := s.context k
  .next (if n.val = 0 ∨ c.owed < n.val then s
    else sendCtrl (deckOfPort port.val)
      { hole := false, cls := cls.val, redirect := redirect, stampPipe := stampPipe.val, port := port.val,
        value := n.val }
      (s.setContext k { c with owed := c.owed - n.val }))

/-- The first frame that waits for a stream's window. -/
def State.windowHead (s : State) (redirect : Bool) (pipe port cls : Nat) : Option FrameId :=
  s.cross.waiting.find? fun g => match s.frame g with
    | some y => y.stage == .window redirect pipe && y.port == port && y.cls == cls
    | none => false

/-- Stamp the frames that wait for a stream while its window is open (R332). -/
def openWindow (redirect : Bool) (pipe port cls : Nat) : Nat → State → State
  | 0, s => s
  | fuel + 1, s =>
    if s.get Obj.reseqWindow ≤ s.outstanding (streamKey redirect pipe port cls) then s
    else match s.windowHead redirect pipe port cls with
      | none => s
      | some f =>
        let s := s.withCross { s.cross with waiting := s.cross.waiting.erase f }
        let s := stampFrame redirect pipe f s
        openWindow redirect pipe port cls fuel (if redirect then toEgress f s else toHome f s)

/-- R332: a credit message at its stamping pipe.
(DEDUCED: log entry 73.) -/
def execCredit (p : Pipe) (index : Nat) (s : State) : Host.Outcome State Fault Refusal :=
  .next (match takeNth (fun m => m.stampPipe == p.val && decide (m.due ≤ s.time.ticks)) index s.cross.credits with
    | none => s
    | some (m, rest) =>
      let k := streamKey m.redirect m.stampPipe m.port m.cls
      let s := s.withCross { s.cross with
        credits := rest, outstanding := NMap.modify 0 s.cross.outstanding k (· - m.value) }
      openWindow m.redirect m.stampPipe m.port m.cls (s.cross.waiting.length + 1) s)

/-! ### Multicast (R341 to R348, R442) -/

/-- Target ports of a frame's deck fan-out (R342, R442); ports of lost decks are ignored (R529).
(DEDUCED: log entry 47.) -/
def State.mcastTargets (s : State) (x : Frame) : List Nat :=
  let pruned (m : Nat) (g : Nat) : Nat := if s.get Obj.mcastPruneSource g = 1 then clearBit m x.inPort else m
  let group := match x.group with
    | some g => pruned (s.get Obj.mcastPorts g) g
    | none => 0
  let all := match x.ferryDst with
    | some (_, true) =>
      let tree := if x.hops = some 0 then 0 else clearBit (s.get Obj.treePorts) x.inPort
      let own := if x.group.isNone then x.result.egress.elim 0 (2 ^ ·) else 0
      Nat.lor (Nat.lor group own) tree
    | _ => group
  (List.range 137).filter fun p => bitOf all p && p != 128 && s.deckUp (deckOfPort p)

/-- Count under a multicast group, where the frame has one. -/
def countGroup (o : ObjRow) (g : Option Nat) (s : State) : State :=
  match g with
  | some g => s.bump o g
  | none => s

/-- Make the copy of a frame for a deck and start it on its way (R342). -/
def sendCopy (o : FrameId) (x : Frame) (targets : List Nat) (d : Nat) (s : State) : State :=
  let mine := targets.filter fun p => deckOfPort p == d
  if mine = [] then s
  else
    let f := s.nextFrame
    let own := deckOfPipe x.hpipe == d
    let y : Frame := { x with data := [], cells := [], charged := 0, origin := some o, targets := mine,
                              epipe := if own then x.hpipe else 2 * d, stamp := none, refs := 0 }
    let s := { s.setFrame f y with nextFrame := f + 1 }
    let s := s.modFrame o fun z => { z with copies := z.copies + 1 }
    crossTo true x.hpipe y.epipe f s

/-- The deck fan-out at the ingress pipe (R342).
(DEDUCED: log entry 47.) -/
def fanOut (f : FrameId) (s : State) : State :=
  match s.frame f with
  | none => s
  | some x =>
    let targets := s.mcastTargets x
    let disabled : Bool := match x.group with
      | some g => s.get Obj.mcastMode g == 0
      | none => false
    let broadcast : Bool := match x.ferryDst with | some (_, b) => b | none => false
    if targets = [] ∨ (disabled ∧ !broadcast) then
      let s := s.bump Obj.mcastDisabledDrops x.hpipe
      let s := match x.group with
        | some g =>
          if s.cross.disabledSeen.contains g then s
          else raise Ev.mcastGroupDisabled x.hpipe g 0
            (s.withCross { s.cross with disabledSeen := g :: s.cross.disabledSeen })
        | none => s
      endFrame f s
    else
      let mode := match x.group with
        | some g => if disabled then 2 else s.get Obj.mcastMode g
        | none => 2
      let s := countGroup Obj.mcastFrames x.group (s.setFrame f { x with stage := .replicated })
      (List.range 4).foldl (fun s d => sendCopy f { x with mcastMode := mode } targets d s) s

/-- A port is ready for a copy (R344). -/
def State.portReady (s : State) (port : Nat) (x : Frame) : Bool :=
  let link := s.linkState port
  let ready := s.get Obj.mcastReadyCells port
  (link != 2 && link != 3) ||
  (link == 2 && (ready == 0 || decide (s.get Obj.queueCells (port * 16 + x.cls) < ready)) &&
   !(s.residue (deckOfPort port)).any fun e => e.port == port && e.srcPipe == x.hpipe && e.cls == x.cls)

/-- Enqueue one pointer of a copy to a port (R343, R356). -/
def enqueuePointer (f : FrameId) (x : Frame) (port : Nat) (s : State) : State :=
  match enqueueTo f (port * 16 + x.cls) s with
  | (.admitted, s) => (countGroup Obj.mcastCopies x.group s).modFrame f fun y => { y with refs := y.refs + 1 }
  | (.flushed, s) => s
  | (.refused, s) => countGroup Obj.mcastAdmitDrops x.group s

/-- Place an entry for a port on the deck's residue list, or discard the copy (R344, R345). -/
def addResidue (f : FrameId) (x : Frame) (port : Nat) (s : State) : State :=
  let d := deckOfPort port
  let l := s.residue d
  if s.get Obj.mcastResidueMaxNs = 0 then countGroup Obj.mcastResidueDrops x.group s
  else if 16384 ≤ l.length then
    raise Ev.mcastResidueFull d (x.group.getD 0) port (countGroup Obj.mcastResidueDrops x.group s)
  else
    let s := s.setResidue d (l ++ [{ frame := f, port := port, cls := x.cls, srcPipe := x.hpipe,
                                     group := x.group.getD 0, since := s.time.ticks }])
    s.modFrame f fun y => { y with refs := y.refs + 1 }

/-- A copy of an earlier frame from the same ingress pipe, in the same class, has still to reach the deck's fan-out (R346).
(DEDUCED: log entry 73.) -/
def State.copyBefore (s : State) (f : FrameId) (x : Frame) : Bool :=
  s.frames.any fun y => decide (y.1 < f) && y.2.origin.isSome && y.2.hpipe == x.hpipe && y.2.cls == x.cls &&
    deckOfPipe y.2.epipe == deckOfPipe x.epipe &&
    (y.2.stage == .landed || y.2.stage == .crossing true y.2.hpipe y.2.epipe)

/-- R342 to R344: a copy reaches a deck and is enqueued to its target ports by the group's mode. -/
def execMcastCopyArrive (f : FrameId) (d : Deck) (s : State) : Host.Outcome State Fault Refusal :=
  .next (match s.frame f with
    | none => s
    | some x =>
      if x.stage ≠ .landed ∨ x.origin = none ∨ deckOfPipe x.epipe ≠ d.val ∨ s.copyBefore f x then s
      else
        let s := s.setFrame f { x with stage := .replicated }
        let s := x.targets.foldl (fun s p =>
          if x.mcastMode = 1 ∧ !s.portReady p x then addResidue f x p s else enqueuePointer f x p s) s
        match s.frame f with
        | some y => if y.refs = 0 then finishFrame f s else s
        | none => s)

/-- R344: a residue entry is served once its port is ready for it: the oldest of its port first. -/
def execResidueServe (d : Deck) (index : Nat) (s : State) : Host.Outcome State Fault Refusal :=
  let l := s.residue d.val
  .next (match l[index]? with
    | none => s
    | some e => match s.frame e.frame with
      | none => s
      | some x =>
        if ((l.take index).any fun a => a.port == e.port) ∨ !(s.setResidue d.val (l.take index)).portReady e.port x then s
        else dropPointer e.frame (enqueuePointer e.frame x e.port (s.setResidue d.val (l.eraseIdx index))))

/-- R345: a residue entry has waited MCAST_RESIDUE_MAX_NS. -/
def execResidueAged (d : Deck) (index : Nat) (s : State) : Host.Outcome State Fault Refusal :=
  let l := s.residue d.val
  .next (match l[index]? with
    | none => s
    | some e =>
      if !s.elapsed e.since (s.get Obj.mcastResidueMaxNs) then s
      else
        let g := match s.frame e.frame with | some x => x.group | none => none
        dropPointer e.frame (countGroup Obj.mcastResidueDrops g (s.setResidue d.val (l.eraseIdx index))))

/-- A MCAST_GROUP commit has taken effect: the next frame to a disabled group raises its event (R342). -/
def applyMcastGroup (g : Nat) (s : State) : State :=
  s.withCross { s.cross with disabledSeen := s.cross.disabledSeen.filter (· != g) }

/-! ### Loss of a deck (R340) -/

/-- Release the frames a context holds in number order; the EMPTY numbers between them count as skips (R340). -/
def drainContext (port k : Nat) : Nat → State → State
  | 0, s => s
  | fuel + 1, s =>
    let x := s.context k
    let ahead (n : Nat) : Nat := (n + 65536 - x.next) % 65536
    match x.state.foldl (fun m e => match m with
        | none => some e
        | some a => if ahead e.1 < ahead a.1 then some e else m) none with
    | none => s
    | some (n, e) =>
      let s := s.add Obj.reseqSkips port (ahead n)
      let s := match e with
        | .held g => releaseFrame g s
        | .hole => s
      drainContext port k fuel (s.setContext k { x with next := (n + 1) % 65536, state := x.state.del n })

/-- The contexts whose stamping pipe lay on a lost deck are emptied and start from 0 again; OUTSTANDING is 0 for the
streams that end on its ports (R340). -/
def loseStreams (d : Nat) (s : State) : State :=
  let s := (s.cross.contexts.map (·.1)).foldl (fun s k =>
    let port := k / 256
    let pipe := k / 16 % 8
    if deckOfPort port = d then s.setContext k {}
    else if deckOfPipe pipe = d then
      (drainContext port k ((s.context k).state.length + 1) s).setContext k {}
    else s) s
  s.withCross { s.cross with
    outstanding := s.cross.outstanding.filter fun x => deckOfPort (x.1 / 16 % 256) != d && deckOfPipe (x.1 / 4096 % 8) != d,
    seqs := s.cross.seqs.filter fun x => deckOfPipe (x.1 / 4096 % 8) != d,
    holes := s.cross.holes.filter fun m => deckOfPort m.port != d,
    credits := s.cross.credits.filter fun m => deckOfPipe m.stampPipe != d }

end Sys2Proof.Machine
end

