-- ==== Sys2Proof/Machine/Tables.lean ====
section
/-! DEFINITION. Forwarding tables and learning (06): the MAC table and its update port, routes, legacy services, spread
tables, and the return-steering lookup (R270). -/

namespace Sys2Proof.Machine

/-! ### Locks of table entries (R114, R195) -/

/-- Number of a table entry, by DMA table, instance and index. -/
def lockKey (table inst index : Nat) : Nat := (table * 65536 + inst) * 2 ^ 32 + index

/-- A table request holds the entry's lock. -/
def State.locked (s : State) (table inst index : Nat) : Bool := (s.host.locks.find (lockKey table inst index)).isSome

/-! ### The MAC table (R184 to R187) -/

/-- First index of the anchorage in the model's numbering of a pipe's MAC berths. -/
def macAnchorage : Nat := 262144

/-- Number of a MAC berth in the device. -/
def macKey (p i : Nat) : Nat := p * 524288 + i

/-- A MAC berth, where valid. -/
def State.mac (s : State) (p i : Nat) : Option MacBerth := s.tables.mac.find (macKey p i)

/-- A MAC berth's lock is held: berths of the piers and of the anchorage are DMA tables of their own. -/
def State.macLocked (s : State) (p i : Nat) : Bool :=
  if i < macAnchorage then s.locked 1 p i else s.locked 2 p (i - macAnchorage)

/-- Write or invalidate a MAC berth; PIER_ENTRIES and ANCHORAGE_ENTRIES count the valid ones. -/
def State.setMac (s : State) (p i : Nat) (b : Option MacBerth) : State :=
  let o := if i < macAnchorage then Obj.pierEntries else Obj.anchorageEntries
  let was := bit01 (s.mac p i).isSome
  let m := match b with
    | some x => s.tables.mac.put (macKey p i) x
    | none => s.tables.mac.del (macKey p i)
  ({ s with tables := { s.tables with mac := m } }).set o p (s.get o p - was + bit01 b.isSome)

/-- The MAC hash of a key under a seed (R184). -/
def macHash (seed fid mac : Nat) : Nat := crc32c (beBytes 4 seed ++ beBytes 2 (fid % 4096) ++ beBytes 6 mac)

/-- Piers A and B of a key under a seed (R184). -/
def macPiers (seed fid mac : Nat) : Nat × Nat := (macHash seed fid mac % 65536, macHash seed fid mac / 65536)

/-- Berth indices that a lookup compares, piers first (R186, R198); the anchorage berths are those listed. -/
def State.macPlaces (s : State) (p fid mac : Nat) : List Nat :=
  let pier (n : Nat) : List Nat := (List.range 4).map (4 * n + ·)
  let cur := macPiers (s.get Obj.fdbSeed p) fid mac
  let old := macPiers (s.get Obj.fdbPrevSeed p) fid mac
  pier cur.1 ++ pier cur.2 ++ (if s.get Obj.rehashState p = 0 then [] else pier old.1 ++ pier old.2) ++
  (s.tables.mac.inRange (macKey p macAnchorage) 4096).map fun e => e.1 - macKey p 0

/-- The valid berth that holds a key (R186). -/
def State.findMac (s : State) (p fid mac : Nat) : Option (Nat × MacBerth) :=
  (s.macPlaces p fid mac).findSome? fun i => match s.mac p i with
    | some b => if b.fid = fid % 4096 ∧ b.mac = mac then some (i, b) else none
    | none => none

/-- A berth is free when it is not valid and not locked (R185). -/
def State.macFree (s : State) (p i : Nat) : Bool := (s.mac p i).isNone && !s.macLocked p i

/-- Free berths of a pier. -/
def State.freeInPier (s : State) (p n : Nat) : List Nat := ((List.range 4).map (4 * n + ·)).filter (s.macFree p)

/-- The free pier berth for a key under FDB_SEED (R185). -/
def State.macPier (s : State) (p fid mac : Nat) : Option Nat :=
  let (a, b) := macPiers (s.get Obj.fdbSeed p) fid mac
  let fa := s.freeInPier p a
  let fb := s.freeInPier p b
  (if fb.length ≤ fa.length then fa else fb).head?

/-- The lowest free anchorage berth. -/
def State.macBerthAshore (s : State) (p : Nat) : Option Nat :=
  ((List.range 4096).find? fun n => s.macFree p (macAnchorage + n)).map (macAnchorage + ·)

/-- Where a new key goes (R185). -/
def State.macPlace (s : State) (p fid mac : Nat) : Option Nat :=
  match s.macPier p fid mac with
  | some i => some i
  | none => s.macBerthAshore p

/-- Low 32 bits of the device time's seconds. -/
def State.nowS (s : State) : Nat := s.nowNs / 1000000000 % 2 ^ 32

/-- Generation bit g of a pipe's seed (R197). -/
def State.macGen (s : State) (p : Nat) : Bool := s.tables.gen.getD p false

/-- GEN of an entry placed at a berth now: g in a pier, 0 in the anchorage. -/
def State.genAt (s : State) (p i : Nat) : Bool := if i < macAnchorage then s.macGen p else false

/-! ### Learning (R189 to R196) -/

/-- A port that an entry can name. -/
def isEgress (port : Nat) : Bool := decide (port < 137) && port != 128

/-- LEARN_COUNT of a berth's DEST in a pipe changes with a learned entry (R187, R191, R194, R201); a DEST that is no port has
none.
(DEDUCED: log entry 26.) -/
def learnCount (p : Nat) (b : MacBerth) (up : Bool) (s : State) : State :=
  if b.isStatic ∨ !isEgress b.dest then s
  else
    let n := s.getS Obj.learnCount (p + 1) b.dest
    s.setS Obj.learnCount (p + 1) b.dest (if up then n + 1 else n - 1)

/-- The learning limit of a port is reached in a pipe (R191).
(DEDUCED: log entry 31.) -/
def State.learnLimited (s : State) (p port : Nat) : Bool :=
  s.get Obj.learnLimit port != 0 && decide (s.get Obj.learnLimit port ≤ s.getS Obj.learnCount (p + 1) port)

/-- LEARN_COUNT of a port has risen: the event is raised where it has come to the limit (R191).
(DEDUCED: log entry 26.) -/
def learnReached (p port : Nat) (s : State) : State :=
  if s.get Obj.learnLimit port ≠ 0 ∧ s.getS Obj.learnCount (p + 1) port = s.get Obj.learnLimit port then
    raise Ev.learnLimitReached port p (s.get Obj.learnLimit port) s
  else s

/-- What a lookup 0x07 finds and does (R189). -/
structure Learned where
  hit : Bool := false
  learned : Bool := false
  moved : Bool := false
  limited : Bool := false
  failed : Bool := false
  isStatic : Bool := false
  dest : Nat := 0
  deriving DecidableEq, Repr

/-- Result register of lookup 0x07 (R189). -/
def Learned.word (r : Learned) : Nat :=
  bit01 r.hit * 2 ^ 31 + bit01 r.learned * 2 ^ 30 + bit01 r.moved * 2 ^ 29 + bit01 r.limited * 2 ^ 28 +
  bit01 r.failed * 2 ^ 27 + bit01 r.isStatic * 2 ^ 26 + r.dest

/-- Key as the events give it (R211). -/
def macArg (fid mac : Nat) : Nat := fid * 2 ^ 48 + mac

/-- A key is found in a berth: refresh, move, or leave it (R191). -/
def learnFound (p i port : Nat) (b : MacBerth) (s : State) : Learned × State :=
  let r : Learned := { hit := true, isStatic := b.isStatic, dest := b.dest }
  if s.macLocked p i then (r, s.bump Obj.lockSkips p)
  else if b.isStatic then ({ r with moved := !b.mcast && b.dest != port }, s)
  else if b.dest = port then (r, s.setMac p i (some { b with lastSeen := s.nowS }))
  else if s.learnLimited p port then ({ r with limited := true }, s)
  else
    let b' := { b with dest := port, lastSeen := s.nowS }
    let s := learnCount p b' true (learnCount p b false s)
    let s := (s.setMac p i (some b')).bump Obj.stationMoves p
    let s := raise Ev.stationMoved p (port * 65536 + b.dest) (macArg b.fid b.mac) s
    ({ r with moved := true }, learnReached p port s)

/-- Learn a key on a port in a pipe (R191). -/
def macLearn (p fid mac port : Nat) (s : State) : Learned × State :=
  let found := s.findMac p fid mac
  if mac / 2 ^ 40 % 2 = 1 ∨ !isEgress port then
    (match found with
     | some (_, b) => { hit := true, isStatic := b.isStatic, dest := b.dest }
     | none => {}, s)
  else match found with
    | some (i, b) => learnFound p i port b s
    | none =>
      if s.learnLimited p port then ({ limited := true }, s)
      else match s.macPlace p fid mac with
        | some i =>
          let b : MacBerth := { mac := mac, fid := fid % 4096, dest := port, isStatic := false, gen := s.genAt p i,
                                mcast := false, lastSeen := s.nowS }
          ({ learned := true }, learnReached p port (learnCount p b true (s.setMac p i (some b))))
        | none =>
          let (a, b) := macPiers (s.get Obj.fdbSeed p) fid mac
          let s := s.bump Obj.fdbInsertFails p
          ({ failed := true }, raise Ev.fdbInsertFailed p (b * 65536 + a) (macArg (fid % 4096) mac) s)

/-- Key of lookups 0x01 and 0x07 in K0 and K1: FID and MAC (R188). -/
def macOfKey (k0 k1 : Nat) : Nat × Nat := (k1 % 4096, k0 * 65536 + k1 / 65536)

/-- A learning request of the home stage joins the update port's queue (R190, R193). -/
def queueLearn (p : Nat) (k : Nat × Nat × Nat) (s : State) : State :=
  let l := s.tables.queue.getD p []
  if 256 ≤ l.length then s.bump Obj.homeLearnOverruns p
  else { s with tables := { s.tables with queue := NMap.set [] s.tables.queue p (l ++ [k]) } }

/-- R190, R193: the update port serves the oldest learning request of the home stage. -/
def execHomeLearn (p : Pipe) (s : State) : Host.Outcome State Fault Refusal :=
  .next (match s.tables.queue.getD p.val [] with
    | [] => s
    | (k0, k1, k2) :: rest =>
      let s := { s with tables := { s.tables with queue := NMap.set [] s.tables.queue p.val rest } }
      let (fid, mac) := macOfKey k0 k1
      let (r, s) := macLearn p.val fid mac (k2 % 65536) s
      if r.limited then s.bump Obj.learnLimitHits (k2 % 65536) else s)

/-- Invalidate a berth that the table itself removes; a learned entry stops counting. -/
def macRemove (p i : Nat) (b : MacBerth) (s : State) : State := learnCount p b false (s.setMac p i none)

/-- The berths of a pipe by index. -/
def State.macBerths (s : State) (p : Nat) : List (Nat × MacBerth) :=
  (s.tables.mac.inRange (macKey p 0) 524288).map fun e => (e.1 - macKey p 0, e.2)

/-- R194: the aging sweep of a pipe, once in each second of device time.
(DEDUCED: log entry 31.) -/
def execFdbSweep (p : Pipe) (s : State) : Host.Outcome State Fault Refusal :=
  let sec := s.nowNs / 1000000000 + 1
  .next (if s.tables.swept.getD p.val 0 = sec ∨ !s.awake then s
    else
      let s := { s with tables := { s.tables with swept := NMap.set 0 s.tables.swept p.val sec } }
      let age := s.get Obj.fdbAgeS
      if age = 0 then s
      else (s.macBerths p.val).foldl (fun s e =>
        if !e.2.isStatic && !s.macLocked p.val e.1 && decide (age ≤ (s.nowS + 2 ^ 32 - e.2.lastSeen) % 2 ^ 32) then
          (macRemove p.val e.1 e.2 s).bump Obj.fdbAged p.val
        else s) s)

/-! ### Rehash (R197 to R200) -/

/-- Valid pier berths whose GEN is not g. -/
def State.oldBerths (s : State) (p : Nat) : List (Nat × MacBerth) :=
  (s.macBerths p).filter fun e => decide (e.1 < macAnchorage) && e.2.gen != s.macGen p

/-- Validation of FDB_GENERATION (R197). -/
def validateFdb (p : Nat) (s : State) : Failed :=
  if s.get Obj.rehashState p = 0 then none else some (St.busy, addrKey 0x2800 0 p)

/-- Switch-over of FDB_GENERATION: a rehash starts (R197). -/
def applyFdb (p : Nat) (old : State) (s : State) : State :=
  let s := s.set Obj.fdbPrevSeed p (old.get Obj.fdbSeed p)
  let g := (s.group 0x10 p).generation % 2 == 1
  let s := { s with tables := { s.tables with
    gen := NMap.set false s.tables.gen p g, rehash := s.tables.rehash.put p (s.time.ticks, 0) } }
  (s.set Obj.rehashState p 1).set Obj.rehashRemaining p (s.oldBerths p).length

/-- The mover on one pier berth of an old generation; true where it changed something (R199). -/
def moveBerth (p i : Nat) (s : State) : Bool × State :=
  match s.mac p i with
  | none => (false, s)
  | some b =>
    let g := s.macGen p
    let (pa, pb) := macPiers (s.get Obj.fdbSeed p) b.fid b.mac
    if s.macLocked p i ∨ b.gen = g then (false, s)
    else if i / 4 = pa ∨ i / 4 = pb then (true, s.setMac p i (some { b with gen := g }))
    else match s.macPlace p b.fid b.mac with
      | some j => (true, (s.setMac p j (some { b with gen := s.genAt p j })).setMac p i none)
      | none => (false, s)

/-- The mover on one anchorage berth (R199). -/
def moveAshore (p i : Nat) (s : State) : Bool × State :=
  match s.mac p i with
  | none => (false, s)
  | some b =>
    if s.macLocked p i then (false, s)
    else match s.macPier p b.fid b.mac with
      | some j => (true, (s.setMac p j (some { b with gen := s.macGen p })).setMac p i none)
      | none => (false, s)

/-- A rehash settles (R200). -/
def settleRehash (p : Nat) (s : State) : State :=
  let (at_, n) := s.tables.rehash.getD p (s.time.ticks, 0)
  let s := { s with tables := { s.tables with rehash := s.tables.rehash.del p } }
  raise Ev.rehashDone p n (s.sinceNs at_) (s.set Obj.rehashState p 0)

/-- A whole pass moved nothing: the learned berths that remain are discarded (R200). -/
def discardRemaining (p : Nat) (s : State) : State :=
  (s.oldBerths p).foldl (fun s e =>
    if e.2.isStatic ∨ s.macLocked p e.1 then s
    else
      let s := (macRemove p e.1 e.2 s).bump Obj.rehashDiscards p
      let (at_, n) := s.tables.rehash.getD p (s.time.ticks, 0)
      { s with tables := { s.tables with rehash := s.tables.rehash.put p (at_, n + 1) } }) s

/-- R199, R200: one pass of the mover of a pipe, and its end. -/
def rehashPass (p : Nat) (s : State) : State :=
  let all := (s.macBerths p).map (·.1)
  let step (f : Nat → Nat → State → Bool × State) (acc : Bool × State) (i : Nat) : Bool × State :=
    let (m, s) := f p i acc.2
    (acc.1 || m, s)
  let acc := (all.filter (· < macAnchorage)).foldl (step moveBerth) (false, s)
  let (moved, s) := ((s.macBerths p).map (·.1)).filter (macAnchorage ≤ ·) |>.foldl (step moveAshore) acc
  let s := s.set Obj.rehashRemaining p (s.oldBerths p).length
  if s.get Obj.rehashRemaining p = 0 then settleRehash p s
  else if moved then s
  else
    let s := discardRemaining p s
    let s := s.set Obj.rehashRemaining p (s.oldBerths p).length
    if s.get Obj.rehashRemaining p = 0 then settleRehash p s
    else if s.get Obj.rehashState p = 2 then s
    else
      let n := (s.tables.rehash.getD p (0, 0)).2
      raise Ev.rehashBlocked p (s.get Obj.rehashRemaining p) n (s.set Obj.rehashState p 2)

/-- R199, R200: a pass of the mover, while a rehash runs.
(DEDUCED: log entry 31.) -/
def execRehashPass (p : Pipe) (s : State) : Host.Outcome State Fault Refusal :=
  .next (if s.get Obj.rehashState p.val = 0 ∨ !s.awake then s else rehashPass p.val s)

/-! ### The other lookups (R203, R206, R208, R270) -/

/-- Longest matching route of an address of `bits` bits in a VRF (R203). -/
def State.route (s : State) (m : NMap Route) (bits addr vrf : Nat) : Option Route :=
  let live := s.get Obj.lpmLiveSet
  let fits (r : Route) : Bool := r.valid && bitOf live (bit01 r.set) && r.vrf == vrf &&
    r.pfx / 2 ^ (bits - r.len) == addr / 2 ^ (bits - r.len)
  m.foldl (fun b e => if !fits e.2 then b else match b with
    | none => some e.2
    | some r => if r.len < e.2.len then some e.2 else b) none

/-- Result register of a route lookup (R203). -/
def State.routeWord (s : State) (m : NMap Route) (bits addr vrf : Nat) : Nat :=
  match s.route m bits addr vrf with
  | some r => 2 ^ 31 + r.result
  | none => 0

/-- Result registers of lookup 0x04 (R206). -/
def State.serviceWords (s : State) (id : Nat) : Nat × Nat :=
  match s.tables.service.find id with
  | some e => if e.valid then (2 ^ 31 + bit01 e.mcast * 2 ^ 30 + e.cls * 65536 + e.dest, e.metadata) else (0, 0)
  | none => (0, 0)

/-- Result register of lookup 0x05 for a finished hash (R208). -/
def State.spreadWord (s : State) (p t hash : Nat) : Nat :=
  let i := p * 16 + t
  let k := s.get Obj.spreadLog2Size i
  if k = 0 then 0
  else
    let e := leAt (s.getDom Obj.spreadEntries i) (2 * (Nat.xor hash (s.get Obj.spreadSeed i) % 2 ^ k)) 2
    if bitOf e 15 then 2 ^ 31 + e % 2 ^ 15 else 0

/-- Validation of SPREAD_TABLES of a pipe (R207). -/
def validateSpread (p : Nat) (s : State) : Failed :=
  firstFail ((List.range 16).map fun t =>
    let i := p * 16 + t
    let k := s.staged Obj.spreadLog2Size i
    if (s.stagedDom Obj.spreadEntries i).length = (if k = 0 then 0 else 2 * 2 ^ k) then none
    else some (St.badValue, addrKey 0x2840 3 i))

/-- Validation of LPM_CONFIG (R205). -/
def validateLpm (s : State) : Failed :=
  if s.staged Obj.lpmLiveSet = 0 then some (St.badValue, addrKey 0x2820 0 0) else none

/-- The pools that are configured, lowest first. -/
def State.pools (s : State) : List Nat := (s.dict.active.inRange (addrKey 0x4100 1 0) 65536).map fun e => e.1 % 65536

/-- An address of 16 octets as one number, first octet most significant. -/
def addr16 (v : Nat) : Nat := beNat (leBytes 16 v)

/-- A pool matches the key of lookup 0x06 (R270). -/
def State.poolMatches (s : State) (q k0 k1 k2 : Nat) : Bool :=
  let vrf := k2 % 65536
  if s.get Obj.poolKind q = 1 then
    !bitOf k2 31 && k0 == s.get Obj.publicAddr q && decide (4096 ≤ k1 / 65536) &&
    [1, 6, 17, 136].contains (k1 % 256) &&
    (vrf == s.get Obj.outsideVrf q || (s.get Obj.hairpin q == 1 && vrf == s.get Obj.insideVrf q))
  else if s.get Obj.poolKind q = 2 then
    let n := s.get Obj.nptPrefixLen q
    bitOf k2 31 && vrf == s.get Obj.outsideVrf q &&
    (k0 * 2 ^ 32 + k1) / 2 ^ (64 - n) == addr16 (s.get Obj.nptOutsidePrefix q) / 2 ^ (128 - n)
  else false

/-- Result register of lookup 0x06 (R270). -/
def State.steerWord (s : State) (k0 k1 k2 : Nat) : Nat :=
  match s.pools.find? fun q => s.poolMatches q k0 k1 k2 with
  | none => 0
  | some q => 2 ^ 31 + (if s.get Obj.poolKind q = 2 then 2 ^ 30 else k1 / 65536) + q * 65536

end Sys2Proof.Machine
end

