-- ==== Sys2Proof/Machine/ParseEnd.lean ====
section
/-! DEFINITION. The end of a parse (05): fail actions, punts and their policers (R177 to R180), the canonical key and
flow hash (R24 to R27, R159, R280), anchors (R443, R444), the choice of the home pipe (R29) and the stamp. -/

namespace Sys2Proof.Machine

/-! ### Engines and banks -/

/-- `s` with other parse stages. -/
def State.withParse (s : State) (x : Parse) : State := { s with parse := x }

/-- An engine with a frame. -/
def State.engine (s : State) (e : Nat) : Option Engine := s.parse.engines.find e

/-- Set an engine. -/
def State.setEngine (s : State) (e : Nat) (x : Engine) : State :=
  s.withParse { s.parse with engines := s.parse.engines.put e x }

/-- The state object of a bank (R171). -/
def bankObj (aft : Bool) : ObjRow := if aft then Obj.aftState else Obj.foreState

/-- State of a bank: 0 EMPTY, 1 LOADING, 2 LOADED, 3 ACTIVE, 4 DRAINING. -/
def State.bank (s : State) (p : Nat) (aft : Bool) : Nat := s.get (bankObj aft) p

/-- A DRAINING bank on which no engine runs a frame becomes LOADED (R175). -/
def bankDrain (p : Nat) (aft : Bool) (s : State) : State :=
  if s.bank p aft = 4 ∧ !(s.parse.engines.any fun x => x.1 / 128 == p && x.2.aft == aft) then
    raise Ev.bankDrained p (bit01 aft) (s.sinceNs (s.parse.swapAt.getD p 0)) (s.set (bankObj aft) p 2)
  else s

/-- An engine is free again after a parse, or has left its bank (R175). -/
def banksDrain (p : Nat) (s : State) : State := bankDrain p true (bankDrain p false s)

/-- A parse ends: it is counted, and its engine is free (R162, R175). -/
def leaveEngine (e : Nat) (s : State) : State :=
  let s := s.withParse { s.parse with engines := s.parse.engines.del e }
  banksDrain (e / 128) (s.bump Obj.framesParsed (e / 128))

/-! ### Punts (R106, R179, R180) -/

/-- A token in the units of a bucket. -/
def token : Nat := 10000000000

/-- Level of a bucket: `rate` units a tick up to `depth` tokens; a bucket that nothing has drawn on is full. -/
def State.tokens (s : State) (k rate depth : Nat) : Nat :=
  match s.parse.buckets.find k with
  | none => depth * token
  | some b => capAt (depth * token) (b.level + rate * (s.time.ticks - b.at_))

/-- Draw one token from a bucket at level `n`. -/
def drawToken (k n : Nat) (s : State) : State :=
  s.withParse { s.parse with buckets := s.parse.buckets.put k { level := n - token, at_ := s.time.ticks } }

/-- The reasons that have a policer (R178). -/
def puntReasons : List Nat := [1, 2, 3, 4, 5, 8, 9] ++ (List.range 192).map (0x40 + ·)

/-- A bucket's rate or depth changes: it is brought up at the old ones, and never holds more than the new depth.
(DEDUCED: log entry 29.) -/
def changeBucket (k level depth : Nat) (s : State) : State :=
  s.withParse { s.parse with buckets := s.parse.buckets.put k { level := capAt (depth * token) level, at_ := s.time.ticks } }

/-- Switch-over of PUNT of a pipe; `old` is the state before the new values (R179). -/
def applyPunt (p : Nat) (old s : State) : State :=
  puntReasons.foldl (fun s r =>
    let rate (s : State) : Nat := s.getS Obj.puntRateFps r p
    let depth (s : State) : Nat := s.getS Obj.puntBurst r p
    if rate old = rate s ∧ depth old = depth s then s
    else changeBucket (p * 256 + r) (old.tokens (p * 256 + r) (8 * rate old) (depth old)) (depth s) s) s

/-- PUNT_CEILING_FPS is about to change: the share of every pipe is brought up at the old rate (R179). -/
def settleCeiling (s : State) : State :=
  (List.range 8).foldl (fun s p => changeBucket (p * 256) (s.tokens (p * 256) (s.get Obj.puntCeilingFps) 256) 256 s) s

/-- The punt record of a frame (R106).
(DEDUCED: log entry 29.) -/
def State.puntRecord (s : State) (reason : Nat) (x : Frame) : List Byte :=
  let snap := s.get Obj.puntSnapBytes
  let copied := x.data.take (if snap = 0 then 16352 else snap)
  leBytes 1 1 ++ leBytes 1 (bit01 (decide (copied.length < x.data.length))) ++ leBytes 2 (32 + copied.length) ++
  leBytes 2 x.data.length ++ leBytes 2 x.inPort ++ leBytes 2 reason ++ leBytes 1 (x.result.vrf / 256) ++
  leBytes 1 (x.result.vrf % 256) ++ leBytes 4 (if x.result.stateless then 0 else x.home.hash) ++
  leBytes 10 (time80OfNs (x.rxTime / nsUnit)) ++ List.replicate 6 0 ++ copied

/-- A frame that both policers pass goes to the punt ring of its pipe (R104, R106, R179). -/
def puntWrite (p reason : Nat) (x : Frame) (s : State) : State :=
  let s := s.addS Obj.puntPassed reason p 1
  match produce p (s.puntRecord reason x) s with
  | (true, s) => s
  | (false, s) => ringDropped p (s.bump Obj.ringDrops p)

/-- Police a frame and punt it (R179).
(DEDUCED: log entry 29.) -/
def policePunt (p reason : Nat) (x : Frame) (s : State) : State :=
  let fps := s.getS Obj.puntRateFps reason p
  let own := s.tokens (p * 256 + reason) (8 * fps) (s.getS Obj.puntBurst reason p)
  let ceiling := s.tokens (p * 256) (s.get Obj.puntCeilingFps) 256
  if fps ≠ 0 ∧ own < token then s.addS Obj.puntPoliced reason p 1
  else if ceiling < token then s.bump Obj.puntCeilingDrops p
  else
    let s := if fps = 0 then s else drawToken (p * 256 + reason) own s
    puntWrite p reason x (drawToken (p * 256) ceiling s)

/-- Punt a frame at a pipe: at its tail it is policed and recorded, or discarded if it is bad (R141, R179); a stamp
leaves a hole notice (R180).
(DEDUCED: log entry 29.) -/
def puntFrame (p reason : Nat) (f : FrameId) (s : State) : State :=
  match s.frame f with
  | none => s
  | some x => match x.tail with
    | none => s.setFrame f { x with stage := .punted p reason }
    | some false => discardAt (deckOfPipe p) f s
    | some true => discardAt (deckOfPipe p) f (policePunt p reason x s)

/-! ### Ends other than SEQ END (R177, R178) -/

/-- Counter of a fail reason (R177). -/
def failObj (reason : Nat) : ObjRow :=
  if reason = 1 then Obj.failCycleLimit else if reason = 2 then Obj.failNested else if reason = 3 then Obj.failEdit
  else if reason = 4 then Obj.failIllegal else Obj.failNoEgress

/-- Punt at the ingress pipe (R180): the frame has no stamp. -/
def puntIngress (p reason : Nat) (f : FrameId) (s : State) : State :=
  puntFrame p reason f (s.modFrame f fun x => { x with hpipe := p })

/-- Count and report the end of a frame's parse with a reason of R177. -/
def noteFail (p reason : Nat) (f : FrameId) (s : State) : State :=
  let port := match s.frame f with | some x => x.inPort | none => 0
  raise Ev.parseFail p reason port (s.bump (failObj reason) p)

/-- The fail action of a generation on a frame (R177). -/
def failFrame (p reason : Nat) (drop : Bool) (f : FrameId) (s : State) : State :=
  let s := noteFail p reason f s
  if drop then endFrame f (s.addS Obj.parseDrops reason p 1) else puntIngress p reason f s

/-- The engine's frame met a learning limit whose action is DROP (R192): the port. -/
def State.limitDrop (s : State) (x : Engine) : Option Nat := x.limited.filter fun p => s.get Obj.learnLimitAction p == 0

/-- A frame that met a learning limit under DROP is discarded when its parse ends, however it ends; else `k` handles it
(R192).
(DEDUCED: log entry 29.) -/
def orLimitDrop (x : Engine) (k : State → State) (s : State) : State :=
  match s.limitDrop x with
  | some port => endFrame x.frame (s.bump Obj.learnLimitDrops port)
  | none => k s

/-- A parse ends with a reason of R177: counted and reported, and the fail action taken. -/
def failParse (reason e : Nat) (s : State) : State :=
  match s.engine e with
  | none => s
  | some x =>
    let s := s.modFrame x.frame fun y => { y with result := { y.result with vrf := x.result.vrf } }
    let s := leaveEngine e s
    match s.limitDrop x with
    | some port => endFrame x.frame (noteFail (e / 128) reason x.frame (s.bump Obj.learnLimitDrops port))
    | none => failFrame (e / 128) reason x.failDrop x.frame s

/-! ### Key, hash and home pipe (R24 to R29, R159, R280) -/

/-- An IPv6 fragment header stands in the chain that begins with next header `nh` at byte `o` (R27): hop-by-hop options,
routing, destination options, mobility, HIP, shim6 and authentication headers are walked.
(DEDUCED: log entry 30.) -/
def fragmentWalk (d : List Byte) : Nat → Nat → Nat → Bool
  | 0, _, _ => false
  | fuel + 1, nh, o =>
    if nh = 44 then true
    else if d.length ≤ o then false
    else if [0, 43, 60, 135, 139, 140].contains nh then fragmentWalk d fuel (byteAt d o) (o + (byteAt d (o + 1) + 1) * 8)
    else if nh = 51 then fragmentWalk d fuel (byteAt d o) (o + (byteAt d (o + 1) + 2) * 4)
    else false

/-- The header marked by KEY_L3 makes its frame a fragment (R27, R159, R230).
(DEDUCED: log entry 30.) -/
def headerFragment (d : List Byte) (o : Nat) : Bool :=
  if byteAt d o / 16 = 4 then beAt d (o + 6) 2 % 2 ^ 14 != 0
  else fragmentWalk d (d.length / 8 + 1) (byteAt d (o + 6)) (o + 40)

/-- A source or destination endpoint: address and port in one 144-bit number (R26).
(DEDUCED: log entry 30.) -/
def endpoint (addr port : Nat) : Nat := addr * 65536 + port % 65536

/-- The canonical key (R25, R26). -/
def RawKey.bytes (k : RawKey) : List Byte :=
  beBytes 2 k.vrf ++ leBytes 1 k.proto ++ leBytes 1 k.family ++
  (if k.src ≤ k.dst then beBytes 18 k.src ++ beBytes 18 k.dst else beBytes 18 k.dst ++ beBytes 18 k.src)

/-- The key's parts from the marks of a parse (R25, R27, R159); none where the marked header is no IP header.
(DEDUCED: log entry 30.) -/
def keyOf (d : List Byte) (r : ParseResult) : Option RawKey :=
  match r.l3 with
  | none => none
  | some o =>
    let v := byteAt d o / 16
    if v ≠ 4 ∧ v ≠ 6 then none
    else
      let (l4, mode, proto) := match r.l4 with
        | some m => m
        | none => (0, 2, byteAt d (o + if v = 4 then 9 else 6))
      let mode := if v = 4 ∧ headerFragment d o then 2 else mode
      let sp := if mode = 0 then beAt d l4 2 else if mode = 1 then beAt d (l4 + 4) 2 else 0
      let dp := if mode = 0 then beAt d (l4 + 2) 2 else if mode = 1 then beAt d (l4 + 4) 2 else 0
      let n := if v = 4 then 4 else 16
      let a := o + if v = 4 then 12 else 8
      some { vrf := r.vrf, proto := proto, family := v, src := endpoint (beAt d a n) sp,
             dst := endpoint (beAt d (a + n) n) dp }

/-- Sum of the 16-bit words of a 128-bit number, in ones' complement. -/
def wordSum (a : Nat) : Nat := onesSum (beBytes 16 a) 0

/-- The 16-bit word of an address that takes up the change of its prefix (RFC 6296): bits 48 to 63 for a prefix of at
most 48 bits, else the first of the last four words that is not 0xFFFF. -/
def neutralWord (n a : Nat) : Nat :=
  if n ≤ 48 then 3
  else match [4, 5, 6, 7].find? fun i => bitsOf a (127 - 16 * i) (112 - 16 * i) != 0xFFFF with
    | some i => i
    | none => 7

/-- Prefix translation of an address, checksum-neutral (R279, RFC 6296). -/
def nptMap (n oldPfx newPfx a : Nat) : Nat :=
  let low := 2 ^ (128 - n)
  let b := newPfx / low * low + a % low
  let i := neutralWord n a
  let sh := 2 ^ (112 - 16 * i)
  let w := b / sh % 65536
  let diff := onesSum (beBytes 2 (wordSum (oldPfx / low * low)) ++ beBytes 2 (65535 - wordSum (newPfx / low * low))) 0
  let w' := onesSum (beBytes 2 w ++ beBytes 2 diff) 0
  b - w * sh + (if w' = 65535 then 0 else w') * sh

/-- The key of a frame whose lookup 0x06 hit an NPT66 pool (R280). -/
def State.nptKey (s : State) (q : Nat) (k : RawKey) : RawKey :=
  let a := nptMap (s.get Obj.nptPrefixLen q) (addr16 (s.get Obj.nptOutsidePrefix q))
    (addr16 (s.get Obj.nptInsidePrefix q)) (k.dst / 65536)
  { k with vrf := s.get Obj.insideVrf q, dst := endpoint a (k.dst % 65536) }

/-- The home of a frame: by its own device at an anchor, at a home pipe, or discarded. -/
inductive Anchor where
  | local_
  | away (device : Nat)
  | lost
  deriving DecidableEq, Repr

/-- The anchor test (R443, R444): hash, anchor index. -/
def anchorTest (hash index : Nat) (fromFerry : Bool) (s : State) : Anchor × State :=
  let a := s.get Obj.anchorDevice index
  let dev := a % 65536
  if fromFerry || !bitOf a 16 || dev == s.deviceId then (.local_, s)
  else match s.routePort hash dev with
    | some _ =>
      (.away dev, { s with fabric := { s.fabric with unreachable := s.fabric.unreachable.filter (· != index) } })
    | none =>
      let s := s.bump Obj.anchorUnreachableCount
      let action := s.get Obj.anchorUnreachableAction
      let s := if s.fabric.unreachable.contains index then s
        else raise Ev.anchorUnreachable index dev action
          { s with fabric := { s.fabric with unreachable := index :: s.fabric.unreachable } }
      (if action = 1 then .lost else .local_, s)

/-! ### SEQ END (R162) -/

/-- DST and BROADCAST of the address that a program pushed (R441): the last one.
(DEDUCED: log entry 29.) -/
def pushedAddress (es : List Edit) : Option (Nat × Bool) :=
  match es.reverse.find? Edit.ferryAddress with
  | some (.push _ bs) => let t := parseTag (List.replicate 12 0 ++ bs); some (t.dst, t.broadcast)
  | _ => none

/-- Steps 5 and 6 of R162: the frame is stamped for its egress and leaves. A multicast frame takes no stamp (R341); a
frame with a ferry address takes its egress port from the route (R441). -/
def sendParsed (ip : Nat) (f : FrameId) (x : Frame) (s : State) : State :=
  if x.group.isSome || (x.ferryDst.map (·.2)).getD false then s.setFrame f { x with stage := .home ip }
  else match x.ferryDst with
    | none => stampOrWait false ip f (s.setFrame f x)
    | some (d, _) => match s.routePort x.home.hash d with
      | none => endFrame f (s.bump Obj.noRouteDrops x.inPort)
      | some port => stampOrWait false ip f (s.setFrame f { x with port := port, epipe := pipeOfPort port })

/-- A stateless frame: its home pipe is its ingress pipe (R29). -/
def statelessFrame (ip : Nat) (x : Frame) : Frame :=
  { x with result := { x.result with stateless := true }, hpipe := ip }

/-- Steps 3 and 4 of R162 for a frame that is not stateless, with its key: hash, anchor and home pipe. -/
def chooseHome (ip : Nat) (f : FrameId) (x : Frame) (k : RawKey) (s : State) : State :=
  let npt := match x.home.steer with | some w => bitOf w 30 | none => false
  let k := match x.home.steer with
    | some w => if npt then s.nptKey (bitsOf w 27 16) k else k
    | none => k
  let key := k.bytes
  let hash := match x.tag with
    | some t => if npt then crc32c key else t.hash
    | none => crc32c key
  let index := match x.home.steer with
    | some w => if npt then hash / 2 ^ 20 else w % 4096
    | none => hash / 2 ^ 20
  let x := { x with result := { x.result with vrf := k.vrf },
                    home := { x.home with key := some k, hash := hash } }
  match anchorTest hash index (s.ferry x.inPort) s with
  | (.lost, s) => endFrame f s
  | (.away dev, s) => sendParsed ip f { statelessFrame ip x with ferryDst := some (dev, false) } (s.bump Obj.anchoredAway)
  | (.local_, s) =>
    let home := s.get Obj.homePipe index
    if !s.deckUp (deckOfPipe home) then endFrame f (s.bump Obj.lostHomeDrops ip)
    else sendParsed ip f { x with hpipe := home } s

/-- Steps 1 to 6 of R162 for a frame whose egress is known. -/
def finishEnd (ip : Nat) (f : FrameId) (x : Frame) (s : State) : State :=
  let served := match x.tag with | some t => t.served | none => false
  let mcast := x.group.isSome || (x.ferryDst.map (·.2)).getD false
  match keyOf x.data x.result with
  | none => sendParsed ip f (statelessFrame ip x) s
  | some k =>
    if x.result.stateless || mcast || served then sendParsed ip f (statelessFrame ip x) s
    else chooseHome ip f x k s

/-- R162, R192, R441, R442: SEQ END hands the frame on. -/
def endParse (e : Nat) (s : State) : State :=
  match s.engine e with
  | none => s
  | some n => match s.frame n.frame with
    | none => leaveEngine e s
    | some x =>
      let f := n.frame
      let ip := e / 128
      let s := leaveEngine e s
      let tagHash := match x.tag with
        | some t => if n.result.stateless || (keyOf x.data n.result).isNone then 0 else t.hash
        | none => 0
      let x := { x with result := n.result, edits := n.edits, cls := n.result.cls, group := n.result.mcast,
                        home := { x.home with steer := n.steer, learn := n.learn, hash := tagHash } }
      let s := s.setFrame f x
      if x.tail = some false then endFrame f s
      else orLimitDrop n (fun s =>
        let received : Option (Nat × Bool) := match x.tag with
          | some t => if t.broadcast then some (t.dst, true) else none
          | none => none
        let hops := match x.tag with
          | some t => if t.broadcast then some (if t.hops ≤ 1 then 0 else t.hops - 1) else none
          | none => none
        let addr : Option (Nat × Bool) := match received with
          | some a => some a
          | none => (pushedAddress n.edits).filter fun a => a.2 || a.1 != s.deviceId
        match addr with
        | some (d, true) => finishEnd ip f { x with ferryDst := some (d, true), hops := hops } s
        | some (d, false) => finishEnd ip f { x with ferryDst := some (d, false) } s
        | none =>
          if x.group.isSome then finishEnd ip f x s
          else match n.result.egress with
            | none => failFrame ip 5 n.failDrop f s
            | some port => finishEnd ip f { x with port := port, epipe := pipeOfPort port } s) s

/-! ### The tail (R141) -/

/-- The tail of a frame that is still arriving; `check` says whether the frame is good, and counts it. -/
def takeTail (f : FrameId) (check : Frame → List Byte → State → Bool × State) (s : State) : State :=
  match s.frame f with
  | none => s
  | some x => match x.truncated with
    | some rest =>
      let s := (check x (x.data ++ rest) s).2
      if x.stage = .gone ∧ !x.home.duty then s.freeFrame f else s.setFrame f { x with truncated := none }
    | none =>
      let (good, s) := check x x.data s
      if x.stage = .gone ∧ !x.home.duty then s.freeFrame f
      else
        let s := tailKnown f (s.setFrame f { x with tail := some (good && !x.spoiled) })
        match x.stage with
        | .punted p reason => puntFrame p reason f s
        | _ => s

/-- R141: the tail of a received frame. -/
def execFrameTailRx (f : FrameId) (fcs : Word32) (s : State) : Host.Outcome State Fault Refusal :=
  .next (match s.frame f with
    | none => s
    | some x =>
      if x.onMac then takeTail f (fun x data s => countTail x data fcs.toNat s) (noteBytes x.inPort 0 4 s) else s)

/-! ### The end of transmission (R126, R138, R140, R369) -/

/-- The frame that a loopback port is receiving again.
(DEDUCED: log entry 47.) -/
def State.reentered (s : State) (port : Nat) : Option FrameId :=
  (s.frames.find? fun y => y.2.inPort == port && y.2.tail.isNone && y.2.origin.isNone).map (·.1)

/-- The last bytes and the tail of a frame that re-enters: no FCS is checked, and a bad marking is kept (R126).
(DEDUCED: log entry 47.) -/
def reenterTail (port : Nat) (x : Sending) (e : QEntry) (s : State) : State :=
  match s.reentered port with
  | none => s
  | some f =>
    let bs := s.sentBytes x
    let good := ((s.body e.frame).bind Frame.tail) != some false
    let had := (s.frame f).elim 0 fun y => y.data.length + (y.truncated.getD []).length
    takeTail f (fun _ data s => (good,
      if good then (s.bump Obj.rxFrames port).add Obj.rxBytes port (data.length + 4) else s)) (moreBytes f (bs.drop had) s)

/-- R126, R138, R140: what the port sends ends; a PFC frame asked for meanwhile goes next.
(DEDUCED: log entry 78.) -/
def execTxEnd (port : Port) (s : State) : Host.Outcome State Fault Refusal :=
  let p := port.val
  .next (match (s.tmPort p).sending with
    | none => s
    | some x =>
      if !s.txOver p x then s
      else match x.entry with
        | some e =>
          let s := if p < 128 then s else reenterTail p x e s
          pfcSend p (dropPointer e.frame (endSending p (countSent p x e s)))
        | none =>
          let s := (endSending p s).bump Obj.pfcTxFrames p
          let s := s.setLink p { s.link p with out := x.bytes ++ leBytes 4 (fcs32 x.bytes) }
          pfcSend p (noteBytes p 1 (x.bytes.length + 4) s))

end Sys2Proof.Machine
end

