-- ==== Sys2Proof/Machine/Parse.lean ====
section
/-! DEFINITION. Parse engines (05): dispatch, the micro-word and its operations, sequencing, lookups and micro-traps. One
command is one cycle of one engine, or the sequencing of the word whose operation has been done. -/

namespace Sys2Proof.Machine

/-! ### The micro-word (R149) -/

/-- A field of a micro-word. -/
def fld (w : MicroWord) (hi lo : Nat) : Nat := bitsOf w.toNat hi lo
/-- OP. -/
def mwOp (w : MicroWord) : Nat := fld w 127 122
/-- DST. -/
def mwDst (w : MicroWord) : Nat := fld w 121 118
/-- SRCA. -/
def mwA (w : MicroWord) : Nat := fld w 117 114
/-- SRCB. -/
def mwB (w : MicroWord) : Nat := fld w 113 110
/-- IMM. -/
def mwImm (w : MicroWord) : Nat := fld w 109 94
/-- HOFF. -/
def mwHoff (w : MicroWord) : Nat := fld w 93 85
/-- HBIT. -/
def mwHbit (w : MicroWord) : Nat := fld w 84 82
/-- Header field length in bits: HLEN + 1. -/
def mwBits (w : MicroWord) : Nat := fld w 81 77 + 1
/-- SEQ. -/
def mwSeq (w : MicroWord) : Nat := fld w 63 61
/-- Condition codes in use: NCOND, at most 4. -/
def mwConds (w : MicroWord) : List Nat :=
  [fld w 57 52, fld w 51 46, fld w 45 40, fld w 39 34].take (Nat.min (fld w 60 58) 4)
/-- TARGET. -/
def mwTarget (w : MicroWord) : Nat := fld w 31 19

/-! ### Engines -/

/-- Clusters of a pipe in service (R145). -/
def State.clustersUp (s : State) (p : Nat) : Nat :=
  ((List.range 8).filter fun c => s.get Obj.clusterState (p * 8 + c) == 0).length

/-- EFFECTIVE_CYCLE_LIMIT (R145). -/
def State.cycleLimit (s : State) (p : Nat) : Nat := Nat.min (s.get Obj.parseCycleLimit p) (8 * s.clustersUp p)

/-- The bank that new frames use: ACTIVE_BANK is AFT (R174). -/
def State.activeAft (s : State) (p : Nat) : Bool := s.get Obj.activeBank p == 1

/-- Value of a working register. -/
def Engine.reg (x : Engine) (n : Nat) : Nat := (x.regs.getD (n % 16) 0).toNat

/-- Write a working register. -/
def Engine.setReg (x : Engine) (n v : Nat) : Engine := { x with regs := x.regs.set (n % 16) (BitVec.ofNat 32 v) }

/-- W15 at dispatch (R148): bit 16 is 1 on a port in ferry mode. -/
def flagsAtDispatch (ferry : Bool) : Word32 := BitVec.ofNat 32 (bit01 ferry * 65536)

/-- The micro-state at dispatch (R148). -/
def freshEngine (f : FrameId) (aft ferry : Bool) (entry window limit timeout : Nat) (failDrop : Bool) : Engine :=
  { frame := f, aft := aft, entry := entry, pc := entry,
    regs := List.replicate 15 0 ++ [flagsAtDispatch ferry], window := window, window0 := window, limit := limit,
    timeout := timeout, failDrop := failDrop }

/-- Registers of a lookup in flight. -/
def Lookup.regs (l : Lookup) : List Nat := (List.range l.count).map fun i => (l.first + i) % 16

/-- The pending set (R158). -/
def Engine.pending (x : Engine) : List Nat := x.lookups.flatMap Lookup.regs

/-- How an engine's cycle is counted (R539). -/
inductive Slot where
  | retired | wasted | front | back
  deriving DecidableEq, Repr

/-- Count one cycle of an engine of a pipe (R539).
(DEDUCED: log entry 27.) -/
def countSlot (p : Nat) (k : Slot) (s : State) : State :=
  let o := match k with
    | .retired => Obj.slotsRetired | .wasted => Obj.slotsWasted | .front => Obj.slotsFront | .back => Obj.slotsBack
  (s.bump o p).bump Obj.slotsTotal p

/-- An engine spends a cycle: it counts against the limit unless header bytes are awaited (R146), and as wasted while a
trap is raised or handled (R539).
(DEDUCED: log entry 27.) -/
def spend (k : Slot) (e : Nat) (s : State) : State :=
  match s.engine e with
  | none => s
  | some x =>
    let s := s.setEngine e { x with cycles := if k = .front then x.cycles else x.cycles + 1, total := x.total + 1 }
    countSlot (e / 128) (if x.inTrap || x.trap.isSome then .wasted else k) s

/-- A trap cause arises at the word at pc (R164); in a handler it ends the parse (R167).
(DEDUCED: log entry 27.) -/
def raiseTrap (cause detail e : Nat) (s : State) : State :=
  match s.engine e with
  | none => s
  | some x =>
    if x.inTrap then failParse 2 e (spend .wasted e s)
    else spend .wasted e (s.setEngine e { x with trap := some (cause, detail, x.pc) })

/-! ### Dispatch (R144, R145) -/

/-- The first cell of a frame is complete, or its tail has arrived (R144). -/
def Frame.firstCell (x : Frame) : Bool := x.tail.isSome || decide (256 ≤ x.data.length)

/-- The dispatcher can take the frame next: frames of one port go in arrival order (R144). -/
def State.dispatchable (s : State) (f : FrameId) (x : Frame) : Bool :=
  x.stage == .ingress && x.firstCell && s.awake && s.ticking (deckOfPort x.inPort) &&
  !s.frames.any fun y => decide (y.1 < f) && y.2.inPort == x.inPort && y.2.stage == .ingress

/-- An engine of the frame's pipe is free and in an in-service cluster. -/
def State.engineFree (s : State) (p e : Nat) : Bool :=
  e / 128 == p && (s.engine e).isNone && s.get Obj.clusterState (e / 16) == 0

/-- Count a frame that finds no free engine, once (R144). -/
def noteWait (f p : Nat) (s : State) : State :=
  if s.parse.waited.contains f then s
  else (s.withParse { s.parse with waited := f :: s.parse.waited }).bump Obj.dispatchWaits p

/-- R144, R145: a received frame is given to an engine, or is counted as waiting where none is free.
(DEDUCED: log entry 31.) -/
def execParseDispatch (f : FrameId) (e : EngineId) (s : State) : Host.Outcome State Fault Refusal :=
  .next (match s.frame f with
    | none => s
    | some x =>
      let p := pipeOfPort x.inPort
      if !s.dispatchable f x then s
      else if s.engineFree p e.val then
        let n := freshEngine f (s.activeAft p) (s.ferry x.inPort) (s.get Obj.parseEntry x.inPort)
          (s.get Obj.parseWindowBytes p) (s.cycleLimit p) (s.get Obj.lookupTimeoutCycles p)
          (s.get Obj.parseFailAction p == 1)
        let n := { n with result := { n.result with vrf := x.result.vrf } }
        let s := s.withParse { s.parse with waited := s.parse.waited.erase f }
        (s.setEngine e.val n).setFrame f { x with stage := .parsing e.val }
      else if (List.range 128).any fun i => s.engineFree p (p * 128 + i) then s
      else noteWait f p s)

/-! ### Fetch and waits (R156, R168) -/

/-- Key of a control-store word: cluster, bank, address. -/
def storeKey (cluster : Nat) (aft : Bool) (addr : Nat) : Nat := (cluster * 2 + bit01 aft) * 8192 + addr

/-- A word of a cluster's control store; words never written hold ones (R173). -/
def State.ctlWord (s : State) (k : Nat) : CtlWord := s.parse.stores.getD k {}

/-- Set a word of a control store. -/
def setCtl (k : Nat) (w : CtlWord) (s : State) : State :=
  s.withParse { s.parse with stores := NMap.set {} s.parse.stores k w }

/-- The word an engine fetches next.
(DEDUCED: log entry 28.) -/
def State.fetchKey (e : Nat) (x : Engine) : Nat := storeKey (e / 16) x.aft x.pc

/-! ### Fences (R176) -/

/-- The clusters of a pipe that are in service. -/
def State.liveClusters (s : State) (p : Nat) : List Nat :=
  ((List.range 8).map (p * 8 + ·)).filter fun c => s.get Obj.clusterState c == 0

/-- A fence can be made: another cluster of the pipe stays in service, or this one is fenced already (R176). -/
def State.canFence (s : State) (cl : Nat) : Bool :=
  s.get Obj.clusterState cl == 1 || (s.liveClusters (cl / 8)).any (· != cl)

/-- Fence a cluster (R176): by the Pilot (0) or software (1), with the word address or 0. -/
def fenceCluster (cl by_ addr : Nat) (s : State) : State :=
  if s.get Obj.clusterState cl = 1 then s.withParse { s.parse with restoring := s.parse.restoring.filter (· != cl) }
  else if s.canFence cl then raise Ev.clusterFenced cl by_ addr (s.set Obj.clusterState cl 1)
  else s

/-- Software returns a cluster to service: its banks are rewritten first (R176). -/
def unfenceCluster (cl : Nat) (s : State) : State :=
  if s.get Obj.clusterState cl = 1 ∧ !s.parse.restoring.contains cl then
    s.withParse { s.parse with restoring := cl :: s.parse.restoring }
  else s

/-- The Pilot that serves a pipe's deck is RUNNING (R515). -/
def State.pilotServes (s : State) (p : Nat) : Bool := s.pilotUp (s.get Obj.servingPilot (deckOfPipe p))

/-- First detection of a check error is counted; an uncorrectable one is reported (R168), and fences the cluster where the
word was repaired within the last second and a Pilot runs (R176).
(DEDUCED: log entry 28.) -/
def noteCheck (cluster : Nat) (aft : Bool) (addr : Nat) (c : CtlWord) (s : State) : State :=
  if c.seen then s
  else
    let s := setCtl (storeKey cluster aft addr) { c with seen := true } s
    if c.ecc = .corrected then s.bump Obj.checkCorrected cluster
    else
      let s := raise Ev.checkUncorrectable cluster addr (bit01 aft) (s.bump Obj.checkUncorrected cluster)
      let again := match s.parse.repaired.find (storeKey cluster aft addr) with
        | some t => !s.exceeds t 1000000000
        | none => false
      if again && s.pilotServes (cluster / 8) then fenceCluster cluster 0 addr s else s

/-- Key registers and result registers of a lookup code (R157). -/
def lookupShape (code : Nat) : Option (Nat × Nat) :=
  match code with
  | 1 => some (2, 1) | 2 => some (2, 1) | 3 => some (5, 1) | 4 => some (1, 2) | 5 => some (0, 1) | 6 => some (3, 1)
  | 7 => some (3, 1) | _ => none

/-- Registers that a word reads (R151, R153, R155). -/
def sourcesOf (w : MicroWord) : List Nat :=
  let op := mwOp w
  let run (n : Nat) : List Nat := (List.range n).map fun i => (mwA w + i) % 16
  (if op = 3 then [mwDst w]
   else if [4, 6, 7, 8, 9, 0x0E].contains op then [mwA w, mwB w]
   else if [5, 0x0A, 0x0B, 0x0C, 0x0D, 0x0F, 0x11, 0x13, 0x14, 0x16, 0x1A, 0x1D].contains op then [mwA w]
   else if op = 0x10 then run (((lookupShape (mwImm w % 256)).map (·.1)).getD 0)
   else if op = 0x17 then run (ceilDiv (mwImm w % 128 + 1) 4)
   else []) ++
  (if fld w 67 66 = 0 then [] else [mwB w]) ++
  (if (mwConds w).any fun c => c == 7 || c / 16 == 1 then [15] else [])

/-- The register that a word writes, where it writes one; a LOOKUP's result registers are governed by R158. -/
def destOf (w : MicroWord) : List Nat :=
  if (1 ≤ mwOp w ∧ mwOp w ≤ 0x0D) ∨ mwOp w = 0x1C then [mwDst w] else []

/-- What stands before a word's data operation. -/
inductive Gate where
  /-- The command is not this engine's next happening. -/
  | idle
  /-- The cycle went to a wait, a trap, or the end of the parse. -/
  | spent (s : State)
  /-- The data operation is done in this cycle. -/
  | run (x : Engine) (w : MicroWord)

/-- Steps 1 and 2 of R156 for a word whose OP a command names. -/
def openWord (mine : Nat → Bool) (e : Nat) (s : State) : Gate :=
  match s.engine e with
  | none => .idle
  | some x =>
    let c := s.ctlWord (State.fetchKey e x)
    let w := c.word
    if !s.ticking (e / 256) || x.done.isSome || decide (x.limit ≤ x.cycles) || !mine (mwOp w) then .idle
    else if x.trap.isSome then .spent (spend .wasted e s)
    else if x.swap && !x.inTrap then
      .spent (raiseTrap 4 (bit01 (s.activeAft (e / 128))) e (s.setEngine e { x with swap := false }))
    else if c.ecc = .uncorrectable ∨ (c.ecc = .corrected ∧ !c.seen) then
      .spent (raiseTrap 2 (bit01 (c.ecc == .uncorrectable) * 2 ^ 31 + x.pc) e (noteCheck (e / 16) x.aft x.pc c s))
    else if (sourcesOf w ++ destOf w).any fun r => x.pending.contains r then .spent (spend .back e s)
    else .run x w

/-- What a data operation comes to. -/
inductive Did where
  /-- It is done: the engine, the result and the carry. -/
  | ok (x : Engine) (result : Nat) (carry : Bool)
  /-- It reaches the window at this highest byte offset (R152). -/
  | window (last : Nat)
  /-- It needs header bytes not yet received (R152). -/
  | bytes
  /-- It needs a free lookup place (R158). -/
  | place
  /-- It ends the parse with a reason of R177. -/
  | fail (reason : Nat)

/-- Cursor advance that ADVSRC selects (R149, R153). -/
def advanceOf (x : Engine) (w : MicroWord) : Nat :=
  match fld w 67 66 with
  | 0 => fld w 76 68
  | 1 => x.reg (mwB w) % 512
  | 2 => x.reg (mwB w) % 128 * 4
  | _ => (x.reg (mwB w) % 256 + 1) * 8

/-- What follows the data operation in its cycle: its sequencing waits, and a reserved SEQ ends the parse at step 6
(R154, R156). -/
def settle (e : Nat) (x : Engine) (w : MicroWord) (d : Did) (s : State) : State :=
  match d with
  | .ok y r c =>
    let s := spend .retired e (s.setEngine e { y with done := some (w, BitVec.ofNat 32 r, c, advanceOf x w) })
    if 6 ≤ mwSeq w then failParse 4 e s else s
  | .window n => raiseTrap 1 n e s
  | .bytes => spend .front e s
  | .place => spend .back e s
  | .fail r => failParse r e (spend .retired e s)

/-- One cycle of an engine at a word of an operation.
(DEDUCED: log entry 27.) -/
def runWord (op : Nat) (act : State → Engine → MicroWord → Did) (e : Nat) (s : State) : State :=
  match openWord (· == op) e s with
  | .idle => s
  | .spent s => s
  | .run x w => settle e x w (act s x w) s

/-- An operation that writes DST (R151). -/
def writeDst (x : Engine) (w : MicroWord) (v : Nat) (carry : Bool := false) : Did :=
  .ok (x.setReg (mwDst w) v) (v % 2 ^ 32) carry

/-- The meaning of an operation on registers alone: its value and carry. -/
def aluWord (op : Nat) (g : Engine → MicroWord → Nat × Bool) (e : Nat) (s : State) : State :=
  runWord op (fun _ x w => let (v, c) := g x w; writeDst x w v c) e s

/-- Difference of two 32-bit values, with borrow (R151, R155). -/
def diff32 (a b : Nat) : Nat × Bool := ((a + 2 ^ 32 - b) % 2 ^ 32, decide (a < b))

/-- Sum of two 32-bit values, with carry (R151, R155). -/
def sum32 (a b : Nat) : Nat × Bool := ((a + b) % 2 ^ 32, decide (2 ^ 32 ≤ a + b))

/-! ### Header accesses (R152) -/

/-- The frame's bytes so far, and whether its tail has arrived. -/
def State.header (s : State) (x : Engine) : List Byte × Bool :=
  match s.frame x.frame with
  | some y => (y.data, y.tail.isSome)
  | none => ([], true)

/-- The byte at an offset is known: received, or beyond the frame's end. -/
def known (h : List Byte × Bool) (o : Nat) : Bool := h.2 || decide (o < h.1.length)

/-- First byte of a header access: cursor + HOFF. -/
def Engine.at_ (x : Engine) (w : MicroWord) : Nat := x.cursor + mwHoff w

/-- First bit and last byte of the header field (R152). -/
def fieldBit (x : Engine) (w : MicroWord) : Nat := 8 * x.at_ w + mwHbit w
/-- Last byte of the header field. -/
def fieldLast (x : Engine) (w : MicroWord) : Nat := (fieldBit x w + mwBits w - 1) / 8

/-- Value of the header field; bytes beyond the frame's end read as zero (R152). -/
def fieldValue (d : List Byte) (x : Engine) (w : MicroWord) : Nat :=
  let first := fieldBit x w / 8
  let last := fieldLast x w
  beAt d first (last - first + 1) / 2 ^ (8 * (last + 1) - fieldBit x w - mwBits w) % 2 ^ mwBits w

/-- An access to the header field: window first, then bytes not yet received. -/
def onField (s : State) (x : Engine) (w : MicroWord) (k : List Byte → Did) : Did :=
  let h := s.header x
  if x.window ≤ fieldLast x w then .window (fieldLast x w)
  else if !known h (fieldLast x w) then .bytes
  else k h.1

/-- An access whose highest byte is `last` (R152). -/
def onBytes (x : Engine) (last : Nat) (k : Did) : Did := if x.window ≤ last then .window last else k

/-- An access to an IP header whose length the byte at its start gives: that byte is read first (R152). -/
def onHeader (s : State) (x : Engine) (w : MicroWord) (len : Nat → Nat) (k : Did) : Did :=
  let h := s.header x
  let o := x.at_ w
  let last := o + len (byteAt h.1 o) - 1
  if !known h o then .bytes else if x.window ≤ last then .window last else k

/-! ### Register operations (R151) -/

/-- R151: NOP; a reserved opcode ends the parse as ILLEGAL_WORD. -/
def execMicroNop (e : EngineId) (s : State) : Host.Outcome State Fault Refusal :=
  .next (match openWord (fun op => op == 0 || decide (0x20 ≤ op)) e.val s with
    | .idle => s
    | .spent s => s
    | .run x w => settle e.val x w (if 0x20 ≤ mwOp w then .fail 4 else .ok x 0 false) s)

/-- R152: EXTRACT. -/
def execExtract (e : EngineId) (s : State) : Host.Outcome State Fault Refusal :=
  .next (runWord 0x01 (fun s x w => onField s x w fun d => writeDst x w (fieldValue d x w)) e.val s)

/-- R151: MOVI. -/
def execMovi (e : EngineId) (s : State) : Host.Outcome State Fault Refusal :=
  .next (aluWord 0x02 (fun _ w => (mwImm w, false)) e.val s)

/-- R151: MOVHI. -/
def execMovhi (e : EngineId) (s : State) : Host.Outcome State Fault Refusal :=
  .next (aluWord 0x03 (fun x w => (mwImm w * 65536 + x.reg (mwDst w) % 65536, false)) e.val s)

/-- R151: ADD. -/
def execAdd (e : EngineId) (s : State) : Host.Outcome State Fault Refusal :=
  .next (aluWord 0x04 (fun x w => sum32 (x.reg (mwA w)) (x.reg (mwB w))) e.val s)

/-- R151: ADDI. -/
def execAddi (e : EngineId) (s : State) : Host.Outcome State Fault Refusal :=
  .next (aluWord 0x05 (fun x w => sum32 (x.reg (mwA w)) (mwImm w)) e.val s)

/-- R151: SUB. -/
def execSub (e : EngineId) (s : State) : Host.Outcome State Fault Refusal :=
  .next (aluWord 0x06 (fun x w => diff32 (x.reg (mwA w)) (x.reg (mwB w))) e.val s)

/-- R151: AND. -/
def execAnd (e : EngineId) (s : State) : Host.Outcome State Fault Refusal :=
  .next (aluWord 0x07 (fun x w => (Nat.land (x.reg (mwA w)) (x.reg (mwB w)), false)) e.val s)

/-- R151: OR. -/
def execOr (e : EngineId) (s : State) : Host.Outcome State Fault Refusal :=
  .next (aluWord 0x08 (fun x w => (Nat.lor (x.reg (mwA w)) (x.reg (mwB w)), false)) e.val s)

/-- R151: XOR. -/
def execXor (e : EngineId) (s : State) : Host.Outcome State Fault Refusal :=
  .next (aluWord 0x09 (fun x w => (Nat.xor (x.reg (mwA w)) (x.reg (mwB w)), false)) e.val s)

/-- R151: ANDI. -/
def execAndi (e : EngineId) (s : State) : Host.Outcome State Fault Refusal :=
  .next (aluWord 0x0A (fun x w => (Nat.land (x.reg (mwA w)) (mwImm w), false)) e.val s)

/-- R151: ORI. -/
def execOri (e : EngineId) (s : State) : Host.Outcome State Fault Refusal :=
  .next (aluWord 0x0B (fun x w => (Nat.lor (x.reg (mwA w)) (mwImm w), false)) e.val s)

/-- R151: SHL. -/
def execShl (e : EngineId) (s : State) : Host.Outcome State Fault Refusal :=
  .next (aluWord 0x0C (fun x w => (x.reg (mwA w) * 2 ^ (mwImm w % 32) % 2 ^ 32, false)) e.val s)

/-- R151: SHR. -/
def execShr (e : EngineId) (s : State) : Host.Outcome State Fault Refusal :=
  .next (aluWord 0x0D (fun x w => (x.reg (mwA w) / 2 ^ (mwImm w % 32), false)) e.val s)

/-- R151: CMP. -/
def execCmp (e : EngineId) (s : State) : Host.Outcome State Fault Refusal :=
  .next (runWord 0x0E (fun _ x w => let d := diff32 (x.reg (mwA w)) (x.reg (mwB w)); .ok x d.1 d.2) e.val s)

/-- R151: CMPI. -/
def execCmpi (e : EngineId) (s : State) : Host.Outcome State Fault Refusal :=
  .next (runWord 0x0F (fun _ x w => let d := diff32 (x.reg (mwA w)) (mwImm w); .ok x d.1 d.2) e.val s)

/-! ### Lookups (R157, R158) -/

/-- Result of lookup 0x01 (R188). -/
def State.macWord (s : State) (p k0 k1 : Nat) : Nat :=
  let (fid, mac) := macOfKey k0 k1
  match s.findMac p fid mac with
  | some (_, b) => 2 ^ 31 + bit01 b.mcast * 2 ^ 30 + bit01 b.isStatic * 2 ^ 29 + b.dest
  | none => 0

/-- What a lookup finds, and what it leaves: its result registers, the engine and the state (R157). -/
def doLookup (p code : Nat) (x : Engine) (w : MicroWord) (s : State) : List Word32 × Engine × State :=
  let k (i : Nat) : Nat := x.reg (mwA w + i)
  let one (v : Nat) : List Word32 := [BitVec.ofNat 32 v]
  match code with
  | 1 => (one (s.macWord p (k 0) (k 1)), x, s)
  | 2 => (one (s.routeWord s.tables.route4 32 (k 0) (k 1 % 65536)), x, s)
  | 3 =>
    let a := ((k 0 * 2 ^ 32 + k 1) * 2 ^ 32 + k 2) * 2 ^ 32 + k 3
    (one (s.routeWord s.tables.route6 128 a (k 4 % 65536)), x, s)
  | 4 =>
    let (a, b) := s.serviceWords (k 0 % 4096)
    ([BitVec.ofNat 32 a, BitVec.ofNat 32 b], x, s)
  | 5 => (one (s.spreadWord p (mwImm w / 256) (Nat.xor x.hash.toNat 0xFFFFFFFF)), x, s)
  | 6 =>
    let v := s.steerWord (k 0) (k 1) (k 2)
    (one v, if bitOf v 31 then { x with steer := some v } else x, s)
  | _ =>
    let (fid, mac) := macOfKey (k 0) (k 1)
    let port := k 2 % 65536
    let (r, s) := macLearn p fid mac port s
    let s := if r.limited && x.limited.isNone then s.bump Obj.learnLimitHits port else s
    (one r.word, { x with learn := some (k 0, k 1, k 2), limited := if r.limited then some port else x.limited }, s)

/-- R157: LOOKUP starts a lookup; its result is held until it arrives (R158). -/
def execLookup (e : EngineId) (s : State) : Host.Outcome State Fault Refusal :=
  .next (match openWord (· == 0x10) e.val s with
    | .idle => s
    | .spent s => s
    | .run x w =>
      let code := mwImm w % 256
      match lookupShape code with
      | none => settle e.val x w (.fail 4) s
      | some (_, n) =>
        if code = 5 ∧ 15 < mwImm w / 256 then settle e.val x w (.fail 4) s
        else if 4 ≤ x.lookups.length then settle e.val x w .place s
        else
          let (r, y, s) := doLookup (e.val / 128) code x w s
          let l : Lookup := { first := mwDst w, count := n, result := r, issued := x.total }
          let kept := x.lookups.filter fun o => !o.regs.any fun i => l.regs.contains i
          settle e.val x w (.ok { y with lookups := kept ++ [l] } 0 false) s)

/-- Write consecutive registers. -/
def Engine.setRegs (x : Engine) : Nat → List Word32 → Engine
  | _, [] => x
  | n, v :: vs => (x.setReg n v.toNat).setRegs (n + 1) vs

/-- R158: the result of a lookup arrives in time and is written to its registers. -/
def execLookupResult (e : EngineId) (first : Fin 16) (s : State) : Host.Outcome State Fault Refusal :=
  .next (match s.engine e.val with
    | none => s
    | some x => match x.lookups.find? (·.first == first.val) with
      | none => s
      | some l =>
        if x.timeout < x.total - l.issued then s
        else s.setEngine e.val { x.setRegs l.first l.result with lookups := x.lookups.erase l })

/-- R158: a result is late: its registers are zeroed, and the trap is raised unless one is being entered (R165). -/
def execLookupTimeout (e : EngineId) (first : Fin 16) (s : State) : Host.Outcome State Fault Refusal :=
  .next (match s.engine e.val with
    | none => s
    | some x => match x.lookups.find? (·.first == first.val) with
      | none => s
      | some l =>
        if x.total - l.issued < x.timeout ∨ x.done.isSome then s
        else
          let y := { x.setRegs l.first (List.replicate l.count 0) with lookups := x.lookups.erase l }
          let s := s.setEngine e.val y
          if y.trap.isSome then s
          else if y.inTrap then failParse 2 e.val s
          else s.setEngine e.val { y with trap := some (3, l.first, y.pc) })

/-! ### Hash, key, marks and result vector (R157 to R161) -/

/-- R151: HASHADD. -/
def execHashadd (e : EngineId) (s : State) : Host.Outcome State Fault Refusal :=
  .next (runWord 0x11 (fun _ x w =>
    .ok { x with hash := BitVec.ofNat 32 (crc32cFrom x.hash.toNat (beBytes 4 (x.reg (mwA w)))) } 0 false) e.val s)

/-- R159: KEY_L3. -/
def execKeyL3 (e : EngineId) (s : State) : Host.Outcome State Fault Refusal :=
  .next (runWord 0x12 (fun s x w => onHeader s x w (fun b => if b / 16 = 4 then 20 else 40)
    (.ok { x with result := { x.result with l3 := some (x.at_ w) } } 0 false)) e.val s)

/-- R159: KEY_L4. -/
def execKeyL4 (e : EngineId) (s : State) : Host.Outcome State Fault Refusal :=
  .next (runWord 0x13 (fun _ x w =>
    let mode := if mwImm w % 4 = 3 then 2 else mwImm w % 4
    let last := x.at_ w + (if mode = 0 then 3 else if mode = 1 then 5 else 0)
    onBytes x last (.ok { x with result := { x.result with l4 := some (x.at_ w, mode, x.reg (mwA w) % 256) } } 0 false))
    e.val s)

/-- A result field set by SETRES (R161). -/
def setResult (r : ParseResult) (code v : Nat) : Option ParseResult :=
  match code with
  | 0 => some { r with vrf := v % 65536 }
  | 1 => some { r with egress := some (v % 65536) }
  | 2 => some { r with cls := v % 16 }
  | 3 => some { r with stateless := v % 2 == 1 }
  | 4 => some { r with mcast := if bitOf v 16 then some (v % 65536) else none }
  | 5 => some { r with zone := v % 4096 }
  | 6 => some { r with service := v % 4096 }
  | 7 => some { r with telemetry := v % 256 }
  | 8 => some { r with metadata := v % 2 ^ 32 }
  | _ => none

/-- R161: SETRES. -/
def execSetres (e : EngineId) (s : State) : Host.Outcome State Fault Refusal :=
  .next (runWord 0x14 (fun _ x w =>
    let v := x.reg (mwA w)
    match setResult x.result (mwImm w % 256) v with
    | none => .fail 4
    | some r =>
      if mwImm w % 256 = 1 ∧ !isEgress (v % 65536) then .fail 5 else .ok { x with result := r } 0 false) e.val s)

/-- A header offset joins its kind's marks, up to the kind's limit (R160). -/
def addMark (r : ParseResult) (kind o : Nat) : ParseResult :=
  match kind with
  | 0 => if r.vlans.length < 4 then { r with vlans := r.vlans ++ [o] } else r
  | 1 => if r.mpls.length < 8 then { r with mpls := r.mpls ++ [o] } else r
  | 2 => if r.tunnels.length < 4 then { r with tunnels := r.tunnels ++ [o] } else r
  | _ => r

/-- R160: MARK; kind 3 acts as NOP. -/
def execMark (e : EngineId) (s : State) : Host.Outcome State Fault Refusal :=
  .next (runWord 0x15 (fun _ x w =>
    if mwImm w % 4 = 3 then .ok x 0 false
    else onBytes x (x.at_ w) (.ok { x with result := addMark x.result (mwImm w % 4) (x.at_ w) } 0 false)) e.val s)

/-! ### Edits (R163) -/

/-- Add one edit; a seventeenth is a fault. -/
def addEdit (x : Engine) (d : Edit) : Did :=
  if 16 ≤ x.edits.length then .fail 3 else .ok { x with edits := x.edits ++ [d] } 0 false

/-- A byte that an earlier POP removed lies in [first, last]. -/
def Engine.popped (x : Engine) (first last : Nat) : Bool :=
  x.edits.any fun d => match d with
    | .pop a n => decide (a ≤ last) && decide (first < a + n)
    | _ => false

/-- Bytes pushed so far. -/
def Engine.pushed (x : Engine) : Nat :=
  x.edits.foldl (fun n d => match d with | .push _ bs => n + bs.length | _ => n) 0

/-- R163: REWRITE. -/
def execRewrite (e : EngineId) (s : State) : Host.Outcome State Fault Refusal :=
  .next (runWord 0x16 (fun s x w => onField s x w fun _ =>
    if x.popped (fieldBit x w / 8) (fieldLast x w) then .fail 3
    else addEdit x (.rewrite (fieldBit x w) (mwBits w) (x.reg (mwA w) % 2 ^ mwBits w))) e.val s)

/-- R163: PUSH; its bytes come from SRCA onward, most significant byte first (R151). -/
def execPush (e : EngineId) (s : State) : Host.Outcome State Fault Refusal :=
  .next (runWord 0x17 (fun _ x w =>
    let n := mwImm w % 128 + 1
    let o := x.at_ w
    let inside := x.edits.any fun d => match d with | .pop a m => decide (a < o) && decide (o < a + m) | _ => false
    let bs := ((List.range (ceilDiv n 4)).flatMap fun i => beBytes 4 (x.reg (mwA w + i))).take n
    onBytes x o (if inside || decide (64 < x.pushed + n) then .fail 3 else addEdit x (.push o bs))) e.val s)

/-- R163: POP; one that removes a header marked for CSUM4 is a fault. -/
def execPop (e : EngineId) (s : State) : Host.Outcome State Fault Refusal :=
  .next (runWord 0x18 (fun _ x w =>
    let n := mwImm w % 512 + 1
    let o := x.at_ w
    let header := x.edits.any fun d => match d with | .csum4 a => decide (o ≤ a) && decide (a < o + n) | _ => false
    onBytes x (o + n - 1) (if header then .fail 3 else addEdit x (.pop o n))) e.val s)

/-- R163: CSUM4. -/
def execCsum4 (e : EngineId) (s : State) : Host.Outcome State Fault Refusal :=
  .next (runWord 0x19 (fun s x w => onHeader s x w (fun b => Nat.max 20 (b % 16 * 4))
    (if x.popped (x.at_ w) (x.at_ w) then .fail 3 else addEdit x (.csum4 (x.at_ w)))) e.val s)

/-! ### Cursor, window and saved state (R151, R165) -/

/-- R151: CURSET. -/
def execCurset (e : EngineId) (s : State) : Host.Outcome State Fault Refusal :=
  .next (runWord 0x1A (fun _ x w => .ok { x with cursor := x.reg (mwA w) % 1024 } 0 false) e.val s)

/-- R151: XWIN. -/
def execXwin (e : EngineId) (s : State) : Host.Outcome State Fault Refusal :=
  .next (runWord 0x1B (fun _ x w =>
    .ok (if mwImm w ≤ 512 ∧ x.window < mwImm w then { x with window := mwImm w } else x) 0 false) e.val s)

/-- A saved element (R165). -/
def Saved.element (v : Saved) (i : Nat) : Nat :=
  if i < 16 then (v.regs.getD i 0).toNat else if i = 16 then v.pc else if i = 17 then v.cursor
  else if i = 18 then v.cause else if i = 19 then v.detail.toNat else 0

/-- Write a saved element; elements from 18 on do nothing (R165). -/
def Saved.setElement (v : Saved) (i a : Nat) : Saved :=
  if i < 16 then { v with regs := v.regs.set i (BitVec.ofNat 32 a) }
  else if i = 16 then { v with pc := a % 8192 }
  else if i = 17 then { v with cursor := a % 1024 }
  else v

/-- R165: RDSAVE; outside a handler it writes 0. -/
def execRdsave (e : EngineId) (s : State) : Host.Outcome State Fault Refusal :=
  .next (aluWord 0x1C (fun x w => (if x.inTrap then x.saved.element (mwImm w % 32) else 0, false)) e.val s)

/-- R165: WRSAVE; outside a handler it does nothing. -/
def execWrsave (e : EngineId) (s : State) : Host.Outcome State Fault Refusal :=
  .next (runWord 0x1D (fun _ x w =>
    .ok (if x.inTrap then { x with saved := x.saved.setElement (mwImm w % 32) (x.reg (mwA w)) } else x) 0 false) e.val s)

/-! ### PUNT and DROP (R178, R179) -/

/-- A PUNT or DROP word: a reason below 0x40 is ILLEGAL_WORD (R178). A frame that met a learning limit under DROP is
discarded in its place (R192). -/
def endWord (op : Nat) (count : Nat → State → State) (act : Nat → Engine → State → State) (e : Nat) (s : State) : State :=
  match openWord (· == op) e s with
  | .idle => s
  | .spent s => s
  | .run x w =>
    if mwImm w % 256 < 0x40 then settle e x w (.fail 4) s
    else orLimitDrop x (act (mwImm w % 256) x) (count (mwImm w % 256) (leaveEngine e (spend .retired e s)))

/-- R179: PUNT. -/
def execPunt (e : EngineId) (s : State) : Host.Outcome State Fault Refusal :=
  .next (endWord 0x1E (fun _ s => s) (fun r x s => puntIngress (e.val / 128) r x.frame
    (s.modFrame x.frame fun y => { y with result := { y.result with vrf := x.result.vrf } })) e.val s)

/-- R178: DROP. -/
def execDrop (e : EngineId) (s : State) : Host.Outcome State Fault Refusal :=
  .next (endWord 0x1F (fun r s => s.addS Obj.parseDrops r (e.val / 128) 1) (fun _ x s => endFrame x.frame s) e.val s)

/-! ### Sequencing (R153 to R156) -/

/-- A condition (R155): engine, whether the tail is known with the frame's length, result, carry. -/
def condition (x : Engine) (h : List Byte × Bool) (r : Word32) (carry : Bool) (c : Nat) : Bool :=
  if 0x20 ≤ c then bitOf r.toNat (c - 0x20)
  else if 0x10 ≤ c then bitOf (x.reg 15) (c - 0x10)
  else match c with
    | 1 => true
    | 2 => r == 0
    | 3 => carry
    | 4 => bitOf r.toNat 31
    | 5 => h.2 && decide (h.1.length ≤ x.cursor)
    | 6 => decide (x.window ≤ x.cursor)
    | 7 => bitOf (x.reg 15) 16
    | 8 => decide (4 ≤ x.result.vlans.length)
    | 9 => decide (8 ≤ x.result.mpls.length)
    | 10 => decide (4 ≤ x.result.tunnels.length)
    | 11 => x.inTrap
    | _ => false

/-- The branch value of a list of conditions, bit 0 first (R154). -/
def branchBits : List Bool → Nat
  | [] => 0
  | b :: bs => bit01 b + 2 * branchBits bs

/-- An engine whose word's operation is done and whose SEQ is `seq`: the engine with the cursor advanced (R153), the
word, and the branch value taken before the advance (R154 to R156). -/
def State.sequencing (s : State) (seq e : Nat) : Option (Engine × MicroWord × Nat) :=
  match s.engine e with
  | none => none
  | some x => match x.done with
    | none => none
    | some (w, r, carry, adv) =>
      if mwSeq w ≠ seq then none
      else
        let v := branchBits ((mwConds w).map (condition x (s.header x) r carry))
        some ({ x with done := none, cursor := capAt 1023 (x.cursor + adv) }, w, v)

/-- R154: SEQ BRANCH. -/
def execBranch (e : EngineId) (s : State) : Host.Outcome State Fault Refusal :=
  .next (match s.sequencing 0 e.val with
    | none => s
    | some (x, w, v) => s.setEngine e.val { x with pc := Nat.lor (mwTarget w) v })

/-- R154: SEQ CALL; a fifth return address is ILLEGAL_WORD. -/
def execCall (e : EngineId) (s : State) : Host.Outcome State Fault Refusal :=
  .next (match s.sequencing 1 e.val with
    | none => s
    | some (x, w, v) =>
      if 4 ≤ x.stack.length then failParse 4 e.val s
      else s.setEngine e.val { x with pc := Nat.lor (mwTarget w) v, stack := (x.pc + 1) % 8192 :: x.stack })

/-- R154, R539: SEQ RETURN, with its bubble; an empty stack is ILLEGAL_WORD. -/
def execRet (e : EngineId) (s : State) : Host.Outcome State Fault Refusal :=
  .next (match s.sequencing 2 e.val with
    | none => s
    | some (x, _, v) => match x.stack with
      | [] => failParse 4 e.val s
      | a :: rest => spend .wasted e.val (s.setEngine e.val { x with pc := Nat.lor a v, stack := rest }))

/-- The bytes of the marked headers that the key takes have come (R25, R159). -/
def keyKnown (h : List Byte × Bool) (r : ParseResult) : Bool :=
  (match r.l3 with
   | some o => known h o && known h (o + if byteAt h.1 o / 16 = 4 then 19 else 39)
   | none => true) &&
  match r.l4 with
  | some (o, mode, _) => known h (o + if mode = 0 then 3 else if mode = 1 then 5 else 0)
  | none => true

/-- R162: SEQ END; a frame whose key needs header bytes not yet received waits for them first (R146, R162 step 3).
(DEDUCED: log entry 27.) -/
def execEnd (e : EngineId) (s : State) : Host.Outcome State Fault Refusal :=
  .next (match s.sequencing 3 e.val with
    | none => s
    | some (x, _, _) =>
      if !x.result.stateless && !keyKnown (s.header x) x.result then spend .front e.val s
      else endParse e.val (s.setEngine e.val x))

/-- R166, R539: SEQ TRAP_RETURN, with its bubble; outside a handler it is ILLEGAL_WORD. -/
def execTrapReturn (e : EngineId) (s : State) : Host.Outcome State Fault Refusal :=
  .next (match s.sequencing 4 e.val with
    | none => s
    | some (x, _, _) =>
      if x.inTrap then
        spend .wasted e.val (s.setEngine e.val
          { x with pc := x.saved.pc, regs := x.saved.regs, cursor := x.saved.cursor, inTrap := false })
      else failParse 4 e.val s)

/-- R166: everything of R148 is cleared but the cycle count, on the bank that is active now; that a learning limit was met
stays with the frame (R192). -/
def Engine.restarted (x : Engine) (aft ferry : Bool) (vrf : Nat) : Engine :=
  let n := freshEngine x.frame aft ferry x.entry x.window0 x.limit x.timeout x.failDrop
  { n with cycles := x.cycles, limited := x.limited, result := { n.result with vrf := vrf } }

/-- R166, R539: SEQ RESTART, with its bubble. -/
def execRestart (e : EngineId) (s : State) : Host.Outcome State Fault Refusal :=
  .next (match s.sequencing 5 e.val with
    | none => s
    | some (x, _, _) =>
      let p := e.val / 128
      let (port, vrf) := match s.frame x.frame with | some y => (y.inPort, y.result.vrf) | none => (0, 0)
      let s := s.setEngine e.val (x.restarted (s.activeAft p) (s.ferry port) vrf)
      banksDrain p (spend .wasted e.val s))

/-! ### Micro-traps and the cycle limit (R146, R164, R165) -/

/-- Counter of a trap cause (R164). -/
def trapObj (cause : Nat) : ObjRow :=
  if cause = 1 then Obj.trapsWindow else if cause = 2 then Obj.trapsCheck else if cause = 3 then Obj.trapsLookup
  else Obj.trapsSwap

/-- R165: once the pending set is empty, the engine saves its state and starts the handler at the vector.
(DEDUCED: log entry 27.) -/
def execTrapEntry (e : EngineId) (s : State) : Host.Outcome State Fault Refusal :=
  .next (match s.engine e.val with
    | none => s
    | some x => match x.trap with
      | none => s
      | some (cause, detail, pc) =>
        if x.lookups ≠ [] ∨ x.limit ≤ x.cycles then s
        else
          let v : Saved := { pc := pc, regs := x.regs, cursor := x.cursor, cause := cause,
                             detail := BitVec.ofNat 32 detail }
          (s.setEngine e.val { x with trap := none, inTrap := true, saved := v, pc := cause }).bump
            (trapObj cause) (e.val / 128))

/-- R146: the counted cycles of a frame have reached its limit.
(DEDUCED: log entry 27.) -/
def execCycleLimit (e : EngineId) (s : State) : Host.Outcome State Fault Refusal :=
  .next (match s.engine e.val with
    | none => s
    | some x => if x.limit ≤ x.cycles ∧ x.done = none then failParse 1 e.val s else s)

end Sys2Proof.Machine
end

