-- ==== Sys2Proof/Machine/Poison.lean ====
section
/-! DEFINITION. Poisoned bursts and the poison lists (12: R397). -/

namespace Sys2Proof.Machine

/-- An uncorrectable burst is poisoned and entered in the poison list; a full list records nothing more, and a burst that
it left out is entered when it is read again (R397). -/
def poisonBurst (k : Nat) (s : State) : State :=
  let d := k / 2 ^ 28
  let l := s.hbm.poison.getD d []
  if l.contains (k % 2 ^ 28) then s
  else
    let s := if s.poisonedBurst k then s else s.withHbm { s.hbm with poisoned := s.hbm.poisoned ++ [k] }
    if 256 ≤ l.length then raise Ev.poisonListFull d 0 (k % 2 ^ 28 * 64) s
    else
      let s := s.withHbm { s.hbm with poison := NMap.put s.hbm.poison d (l ++ [k % 2 ^ 28]) }
      s.set Obj.poisoned d (l.length + 1)

end Sys2Proof.Machine
end

