-- ==== Sys2Proof/Machine/Control.lean ====
section
/-! DEFINITION. Control stores of the parse clusters (05): repair of words, the scrubber and golden copies, microcode
images, the change of the active bank, and fencing. -/

namespace Sys2Proof.Machine

/-! ### Golden copies and fences (R169, R176) -/

/-- Key of a golden word. -/
def goldenKey (p : Nat) (aft : Bool) (addr : Nat) : Nat := (p * 2 + bit01 aft) * 8192 + addr

/-- A word of a golden copy. -/
def State.golden (s : State) (k : Nat) : CtlWord := s.parse.golden.getD k {}

/-- Set a golden word. -/
def setGolden (k : Nat) (w : CtlWord) (s : State) : State :=
  s.withParse { s.parse with golden := NMap.set {} s.parse.golden k w }

/-! ### Golden words (R170) -/

/-- The version object of a bank (R171).
(DEDUCED: log entry 28.) -/
def versionObj (aft : Bool) : ObjRow := if aft then Obj.aftVersion else Obj.foreVersion

/-- The value that most of a list holds, if more than half hold it (R170). -/
def majority (l : List MicroWord) : Option MicroWord := l.find? fun w => decide (l.length < 2 * l.count w)

/-- A golden word that HBM returns uncorrectable is rebuilt from the copies of the clusters in service, or its bank is marked
failed: the bank is EMPTY and shows version 0 (R170, R181).
(DESIGN CHOICE: log entry 90.) -/
def rebuildGolden (p : Nat) (aft : Bool) (addr : Nat) (s : State) : State :=
  let copies := ((s.liveClusters p).map fun c => s.ctlWord (storeKey c aft addr)).filter fun c => c.ecc == .clean
  match majority (copies.map CtlWord.word) with
  | some w =>
    let s := clearPoison p (goldenOffset aft addr) (setGolden (goldenKey p aft addr) { word := w } s)
    let s := wantBurst .scrub true p (goldenOffset aft addr) s
    raise Ev.goldenRepaired p addr 0 s
  | none =>
    let s := s.withParse { s.parse with failed := (p * 2 + bit01 aft) :: s.parse.failed }
    raise Ev.goldenRepaired p addr 1 ((s.set (bankObj aft) p 0).set (versionObj aft) p 0)

/-- A golden word that a repair reads: one that is uncorrectable is rebuilt first (R170). -/
def readGolden (p : Nat) (aft : Bool) (addr : Nat) (s : State) : State :=
  let s := wantBurst .scrub false p (goldenOffset aft addr) s
  if (s.golden (goldenKey p aft addr)).ecc = .uncorrectable ∧ !s.parse.failed.contains (p * 2 + bit01 aft) then
    rebuildGolden p aft addr s
  else s

/-! ### Unfencing (R176) -/

/-- A bank of a cluster is rewritten from the golden copy, whose uncorrectable words are rebuilt first; a bank whose golden
copy has failed is left as it is (R170, R176).
(DESIGN CHOICE: log entry 90.) -/
def rewriteBank (cl : Nat) (aft : Bool) (s : State) : State :=
  let p := cl / 8
  let lost := (s.parse.golden.inRange (goldenKey p aft 0) 8192).filter fun e => e.2.ecc == .uncorrectable
  let s := lost.foldl (fun s e => readGolden p aft (e.1 - goldenKey p aft 0) s) s
  if s.parse.failed.contains (p * 2 + bit01 aft) then s
  else
    let s := wantBurst .scrub false p (goldenOffset aft 0) s 4096
    let words : List CtlWord := (List.range 8192).map fun a => { word := (s.golden (goldenKey p aft a)).word }
    s.withParse { s.parse with stores := NMap.fill {} s.parse.stores (storeKey cl aft 0) 8192 words }

/-- Both banks of a cluster are rewritten from the golden copies (R176). -/
def rewriteCluster (cl : Nat) (s : State) : State := rewriteBank cl true (rewriteBank cl false s)

/-- R176: the rewrite of an unfenced cluster ends. -/
def execClusterRestored (cl : ClusterId) (s : State) : Host.Outcome State Fault Refusal :=
  .next (if s.parse.restoring.contains cl.val then
      let s := rewriteCluster cl.val s
      let s := s.withParse { s.parse with restoring := s.parse.restoring.filter (· != cl.val) }
      raise Ev.clusterRestored cl.val 0 0 (s.set Obj.clusterState cl.val 0)
    else s)

/-! ### Repair of a word (R168, R176) -/

/-- R168: a corrected word is written back, or an uncorrectable word is rewritten from the golden copy; without a golden
word it stays as it is (R170).
(DEDUCED: log entry 28.) -/
def execControlStoreRepair (cl : ClusterId) (aft : Bool) (addr : BitVec 13) (s : State) :
    Host.Outcome State Fault Refusal :=
  let k := storeKey cl.val aft addr.toNat
  let p := cl.val / 8
  .next (match (s.ctlWord k).ecc with
    | .clean => s
    | .corrected => setCtl k { word := (s.ctlWord k).word } s
    | .uncorrectable =>
      let s := readGolden p aft addr.toNat s
      let g := s.golden (goldenKey p aft addr.toNat)
      if g.ecc = .uncorrectable then s
      else
        let s := setCtl k { word := g.word } s
        s.withParse { s.parse with repaired := s.parse.repaired.put k s.time.ticks })

/-! ### The scrubber (R169, R170) -/

/-- The scrubber on one word of one cluster: a mismatch is rewritten and counted (R169). -/
def scrubWord (p : Nat) (aft : Bool) (addr cl : Nat) (s : State) : State :=
  let g := (s.golden (goldenKey p aft addr)).word
  let c := s.ctlWord (storeKey cl aft addr)
  if c.word = g ∧ c.ecc = .clean then s
  else (setCtl (storeKey cl aft addr) { word := g } s).bump Obj.scrubRepairs cl

/-- A bank that counts as loaded for the scrubber (R169). -/
def State.scrubs (s : State) (p : Nat) (aft : Bool) : Bool :=
  (s.bank p aft == 2 || s.bank p aft == 3 || s.bank p aft == 4) && !s.parse.failed.contains (p * 2 + bit01 aft)

/-- Addresses at which a pipe's golden copy or a cluster's copy of a bank lists a word. -/
def State.listedWords (s : State) (p : Nat) (aft : Bool) : List Nat :=
  let own := (s.parse.golden.inRange (goldenKey p aft 0) 8192).map fun e => e.1 - goldenKey p aft 0
  (own ++ (s.liveClusters p).flatMap fun c =>
    (s.parse.stores.inRange (storeKey c aft 0) 8192).map fun e => e.1 - storeKey c aft 0).eraseDups

/-- One pass over a bank. -/
def scrubBank (p : Nat) (aft : Bool) (s : State) : State :=
  let s := if s.scrubs p aft then wantBurst .scrub false p (goldenOffset aft 0) s 4096 else s
  (s.listedWords p aft).foldl (fun s a =>
    if !s.scrubs p aft then s
    else
      let s := if (s.golden (goldenKey p aft a)).ecc = .uncorrectable then rebuildGolden p aft a s else s
      if s.scrubs p aft then (s.liveClusters p).foldl (fun s c => scrubWord p aft a c s) s else s) s

/-- R169, R170: a full pass of a pipe's scrubber, once in each SCRUB_PERIOD_MS. -/
def execScrubPass (p : Pipe) (s : State) : Host.Outcome State Fault Refusal :=
  .next (if s.awake && s.elapsed (s.parse.scrubAt.getD p.val 0) (s.get Obj.scrubPeriodMs p.val * 1000000) then
      let s := scrubBank p.val true (scrubBank p.val false s)
      s.withParse { s.parse with scrubAt := s.parse.scrubAt.put p.val s.time.ticks }
    else s)

/-! ### Images (R171 to R173) -/

/-- The bank that UCODE_LOAD targets: the one that is not active (R173). -/
def State.targetAft (s : State) (p : Nat) : Bool := !s.activeAft p

/-- Pages that a load under way reads. -/
def State.loadPages (s : State) : List Nat :=
  s.parse.jobs.flatMap (fun e => rangePages (e.2.first * 2 ^ 32 + e.2.bytes)) ++
  (if s.get Obj.fwUpdateState = 1 then rangePages s.avail.fw.1 else [])

/-- A refused load passes its pages back at once (R118), but for those of a load under way. -/
def refuseLoad (v : Nat) (s : State) : State :=
  ((rangePages v).filter fun n => !s.loadPages.contains n).foldl (fun s n => s.setBollard n 0) s

/-- UCODE_LOAD is accepted, or refused with a status (R173).
(DEDUCED: log entry 11.) -/
def ucodeLoad (p v : Nat) (s : State) : Nat × State :=
  let b := s.bank p (s.targetAft p)
  let bytes := s.rangeBytes v
  if (s.group 0x08 p).state = 2 then (St.locked, refuseLoad v s)
  else if b = 1 ∨ b = 4 then (St.busy, refuseLoad v s)
  else if !s.rangeOk v ∨ v % 2 ^ 32 ≠ 240 + 16 * leAt bytes 12 4 then (St.badValue, refuseLoad v s)
  else
    let job : UcodeJob := { aft := s.targetAft p, first := bitsOf v 47 32, bytes := v % 2 ^ 32 }
    let s := s.withParse { s.parse with jobs := s.parse.jobs.put p job }
    let s := quayAsk .dma false (job.first * pageSize) job.bytes s
    (St.ok, s.set (bankObj job.aft) p 1)

/-- The image's words, decrypted: word 0 first, little-endian (R150). -/
def wordsOf (n : Nat) (bs : List Byte) : List CtlWord :=
  (List.range n).map fun i => { word := BitVec.ofNat 128 (leNat ((bs.drop (16 * i)).take 16)) }

/-- Steps 1 to 4 of R173: the failing step, or the words.
(DEDUCED: log entry 28.) -/
def ucodeCheck (keys : List (List Byte)) (hashes : List Nat) (b : List Byte) : Nat ⊕ List CtlWord :=
  let n := leAt b 12 4
  let signer := bytesAt b 32 96
  let slot := leAt b 16 2
  if leAt b 0 4 ≠ 0x31574D4C ∨ leAt b 4 2 ≠ 1 ∨ n = 0 ∨ 8192 < n ∨ leAt b 6 2 ≠ 0 ∨ leAt b 18 2 ≠ 0 then .inl 1
  else if !hashes.contains (Config.sha384 signer).toNat then .inl 2
  else if !Config.ecdsaValid signer (b.take (144 + 16 * n)) (bytesAt b (144 + 16 * n) 96) then .inl 3
  else match (keys[slot]?).bind fun k => Config.aesGcmOpen k (bytesAt b 20 12) (b.take 128) (bytesAt b 144 (16 * n))
      (bytesAt b 128 16) with
    | none => .inl 4
    | some text => .inr (wordsOf n text)

/-- Write an image into the golden copy of a bank and every in-service cluster; the rest holds ones (R173). -/
def writeBank (p : Nat) (aft : Bool) (ws : List CtlWord) (s : State) : State :=
  let s := clearRange p (goldenOffset aft 0) 262144 s
  let s := s.withParse { s.parse with
    golden := NMap.fill {} s.parse.golden (goldenKey p aft 0) 8192 ws,
    failed := s.parse.failed.filter (· != p * 2 + bit01 aft) }
  (s.liveClusters p).foldl (fun s c =>
    s.withParse { s.parse with stores := NMap.fill {} s.parse.stores (storeKey c aft 0) 8192 ws }) s

/-- R173, R176: the Pilot's checks of an image end; `readBackFails` are the clusters of the pipe whose read-back differs, and
the number of any other cluster in it says that the golden copy's differs.
(DEDUCED: log entry 28.) (DESIGN CHOICE: log entry 90.) -/
def execUcodeLoaded (p : Pipe) (readBackFails : List ClusterId) (s : State) : Host.Outcome State Fault Refusal :=
  .next (match s.parse.jobs.find p.val with
    | none => s
    | some j =>
      if !s.pilotServes p.val then s else
      let v := j.first * 2 ^ 32 + j.bytes
      let b := s.rangeBytes v
      let version := leAt b 8 4
      let s := passBack v (s.withParse { s.parse with jobs := s.parse.jobs.del p.val })
      let refuse (step : Nat) (s : State) : State :=
        raise Ev.ucodeRefused p.val step (if step = 1 then 0 else version)
          ((s.set (bankObj j.aft) p.val 0).set (versionObj j.aft) p.val 0)
      let bad := readBackFails.filter fun c => (s.liveClusters p.val).contains c.val
      let golden := readBackFails.any fun c => c.val / 8 != p.val
      match ucodeCheck s.parse.keys ((List.range 4).map fun i => s.getS Obj.ucodeKeyHash (i + 1) 0) b with
      | .inl step => refuse step s
      | .inr ws =>
        let s := wantBurst .dma true p.val (goldenOffset j.aft 0) (writeBank p.val j.aft ws s) 4096
        if bad ≠ [] ∨ golden then bad.foldl (fun s c => fenceCluster c.val 0 0 s) (refuse 5 s)
        else raise Ev.ucodeLoaded p.val version (bit01 j.aft)
          ((s.set (bankObj j.aft) p.val 2).set (versionObj j.aft) p.val version))

/-! ### The change of the active bank (R174, R175) -/

/-- Validation of PARSE_BANK of a pipe (R174, R181). -/
def validateParseBank (p : Nat) (s : State) : Failed :=
  let b := s.bank p (s.staged Obj.activeBank p == 1)
  firstFail [
    if b = 2 ∨ b = 3 then none else some (St.badValue, addrKey 0x2100 0 p),
    if s.staged Obj.lookupTimeoutCycles p < s.staged Obj.parseCycleLimit p then none
    else some (St.badValue, addrKey 0x2104 0 p)]

/-- Switch-over of PARSE_BANK of a pipe; `old` is the state before the new values (R174, R175). -/
def applyParseBank (p : Nat) (old : State) (s : State) : State :=
  let was := old.activeAft p
  if was = s.activeAft p then s
  else
    let s := s.set (bankObj (s.activeAft p)) p 3
    let s := if s.bank p was = 3 then s.set (bankObj was) p 4 else s
    let trap := old.get Obj.swapTrapEnable p == 1
    let engines := s.parse.engines.map fun e =>
      if e.1 / 128 = p ∧ e.2.aft = was ∧ trap then (e.1, { e.2 with swap := true }) else e
    banksDrain p (s.withParse { s.parse with engines := engines, swapAt := s.parse.swapAt.put p s.time.ticks })

end Sys2Proof.Machine
end

