-- ==== Sys2Proof/Machine/Hbm.lean ====
section
/-! DEFINITION. The HBM controllers (12): address mapping, queues and arbitration, panic, refresh, error handling,
sparing and retraining. -/

namespace Sys2Proof.Machine

/-! ### Address mapping (R380, R383) -/

/-- The regions of a half in order: first row, number of rows, and the MAP_ORDER object of those whose order can be
set (R380). -/
def hbmRegions : List (Nat × Nat × Option ObjRow) :=
  [(0, 512, none), (512, 4096, none), (4608, 512, none), (5120, 512, none), (5632, 64, some Obj.mapOrderQuay),
   (5696, 240, some Obj.mapOrderExport), (5936, 16, none), (5952, 2, none), (5954, 126, none), (6080, 512, none),
   (6592, 9792, some Obj.mapOrderHistory)]

/-- Where a burst lies: pseudo-channel of the stack, bank, row and column. -/
structure Place where
  pc : Nat
  bank : Nat
  row : Nat
  column : Nat
  deriving DecidableEq, Repr

/-- The place of region offset `o` in a region of `n` rows from row `first`, by map order (R383). -/
def mapOffset (order first n o : Nat) : Place :=
  let pc := bitsOf o 9 6
  let col := bitsOf o 13 10
  if order = 1 then { pc := pc, bank := o / (n * 2 ^ 14), row := first + o / 2 ^ 14 % n, column := col }
  else
    let r := o / 2 ^ 19
    if order = 0 then { pc := pc, bank := bitsOf o 18 14, row := first + r, column := col }
    else { pc := Nat.xor pc (bitsOf r 8 5), bank := Nat.xor (bitsOf o 18 14) (r % 32), row := first + r, column := col }

/-- The place of a burst address of a stack (R378, R383). -/
def State.place (s : State) (d burst : Nat) : Place :=
  let h := burst / 2 ^ 27
  let off := burst % 2 ^ 27 * 64
  let row := off / 2 ^ 19
  match hbmRegions.find? fun g => decide (g.1 ≤ row) && decide (row < g.1 + g.2.1) with
  | none => { pc := 16 * h, bank := 0, row := row, column := 0 }
  | some (first, n, o) =>
    let order := match o with
      | some o => s.get o d
      | none => 2
    let x := mapOffset order first n (off - first * 2 ^ 19)
    { x with pc := 16 * h + x.pc }

/-! ### Pseudo-channels -/

/-- A pseudo-channel's controller. -/
def State.pc (s : State) (c : Nat) : PcCtl := s.hbm.pcs.getD c {}

/-- Set a pseudo-channel's controller. -/
def setPc (c : Nat) (x : PcCtl) (s : State) : State := s.withHbm { s.hbm with pcs := NMap.set {} s.hbm.pcs c x }

/-- Pipe of a pseudo-channel's half (R378). -/
def pipeOfPc (c : Nat) : Nat := c / 16

/-- The stack of a pseudo-channel is served: its deck is in service, and it is not in self-refresh (R396, R528). -/
def State.pcLive (s : State) (c : Nat) : Bool :=
  s.deckUp (c / 32) && !s.hbm.selfRefresh && (s.avail.unlocked.find (c / 32 * 8 + 1)).isNone

/-- A retraining step of at most 44 ns is under way (R403). -/
def State.inStep (s : State) (x : PcCtl) : Bool := x.stepAt != 0 && !s.elapsed x.stepAt 44

/-- The pseudo-channel may issue a burst: it is served, no retraining step holds it, and its stack has read its
temperature since self-refresh (R396, R403). -/
def State.mayBurst (s : State) (c : Nat) : Bool :=
  s.pcLive c && !s.hbm.unread.contains (c / 32) && !s.inStep (s.pc c)

/-- A bank is in refresh, for at most 44 ns (R378, R404). -/
def State.bankRefreshing (s : State) (x : PcCtl) (bank : Nat) : Bool :=
  match x.refreshing.find bank with
  | some t => !s.elapsed t 44
  | none => false

/-- Panic is raised for a pipe (R392). -/
def State.panicOn (s : State) (p : Nat) : Bool := (s.hbm.panic.find p).isSome

/-- Requester code rr (R388). -/
def rrCode : Requester → Nat
  | .lookup => 1 | .writeback => 2 | .insert => 3 | .dma => 4 | .exporter => 5 | .scrub => 6

/-- The requesters in code order. -/
def requesters : List Requester := [.lookup, .writeback, .insert, .dma, .exporter, .scrub]

/-- INSERT, DMA, EXPORT and SCRUB (R391). -/
def isBackground : Requester → Bool
  | .lookup | .writeback => false
  | _ => true

/-- Two queued requests of one bank match: one burst, and one of the two a write (R387). -/
def matching (a b : HbmReq) : Bool := a.bank == b.bank && a.burst == b.burst && (a.write || b.write)

/-- Some two requests of a list match. -/
def anyMatch : List HbmReq → Bool
  | [] => false
  | a :: l => l.any (matching a) || anyMatch l

/-- Banks leave in-order mode when no two of their queued requests match (R387). -/
def PcCtl.settleOrder (x : PcCtl) : PcCtl :=
  { x with inOrder := x.inOrder.filter fun b => anyMatch (x.queue.filter fun q => q.bank == b) }

/-- Writes in the write queue. -/
def PcCtl.writes (x : PcCtl) : Nat := (x.queue.filter (·.write)).length

/-- The write drain begins at 24 entries and ends at 8 (R386). -/
def PcCtl.settleDrain (x : PcCtl) : PcCtl :=
  { x with draining := if 24 ≤ x.writes then true else if x.writes ≤ 8 then false else x.draining }

/-- The write queue has room for a write to a bank: 32 entries, 4 for one bank (R386). -/
def PcCtl.writeRoom (x : PcCtl) (bank : Nat) : Bool :=
  decide (x.writes < 32) && decide ((x.queue.filter fun q => q.write && q.bank == bank).length < 4)

/-! ### Serving (R385 to R391) -/

/-- The request may be served now: not while its bank is in refresh; in arrival order in an in-order bank; else a read at
any time, and a write in a drain or after 500 ns (R386, R387, R404). -/
def State.servable (s : State) (x : PcCtl) : List HbmReq → HbmReq → Bool
  | older, q =>
    if s.bankRefreshing x q.bank then false
    else if x.inOrder.contains q.bank then (older.filter fun o => o.bank == q.bank).isEmpty
    else if q.write then x.draining || s.elapsed q.since 500
    else true

/-- Position of a requester's oldest read that 16 later reads have passed: no later read goes before it (R386).
(DEDUCED: log entry 51.) -/
def PcCtl.mustGo (x : PcCtl) (r : Requester) : Option Nat :=
  (x.queue.zipIdx.find? fun e => e.1.rr == r && !e.1.write && decide (16 ≤ e.1.passed)).map (·.2)

/-- Of the servable requests, those of a requester, without the reads that would pass one which 16 have passed (R386). -/
def PcCtl.mine (x : PcCtl) (all : List (Nat × HbmReq)) (r : Requester) : List (Nat × HbmReq) :=
  all.filter fun e => e.2.rr == r && (e.2.write || (x.mustGo r).elim true fun k => decide (e.1 ≤ k))

/-- The servable requests of a queue, in arrival order, each with its position.
(DEDUCED: log entry 51.) -/
def State.servables (s : State) (x : PcCtl) : Nat → List HbmReq → List HbmReq → List (Nat × HbmReq)
  | _, _, [] => []
  | i, older, q :: rest =>
    let t := s.servables x (i + 1) (older ++ [q]) rest
    if s.servable x older q then (i, q) :: t else t

/-- The request that a grant's owner issues next: a read that hits an open row, else its oldest read, else its oldest
write (R386).
(DEDUCED: log entry 51.) -/
def pickOf (x : PcCtl) (l : List (Nat × HbmReq)) : Option (Nat × HbmReq) :=
  match l.find? fun e => !e.2.write && x.rows.find e.2.bank == some e.2.row with
  | some e => some e
  | none => match l.find? fun e => !e.2.write with
    | some e => some e
    | none => l.head?

/-- Effective priority of a requester on a pseudo-channel (R389, R392). -/
def State.rrPriority (s : State) (c : Nat) (r : Requester) : Nat :=
  if r = .lookup ∧ s.panicOn (pipeOfPc c) then 8 else s.getS Obj.reqPriority (rrCode r) (c / 32)

/-- The requester of a list with the highest effective priority; ties in turn, after the last grant (R389). -/
def State.highest (s : State) (c last : Nat) (l : List Requester) : Option Requester :=
  let turn (r : Requester) : Nat := (rrCode r + 5 - last) % 6
  l.foldl (fun m r => match m with
    | none => some r
    | some b =>
      if s.rrPriority c b < s.rrPriority c r ∨ (s.rrPriority c b = s.rrPriority c r ∧ turn r < turn b) then some r
      else some b) none

/-- Background bursts of the last 64 burst slots of 1.667 ns (R391). -/
def State.recentBackground (s : State) (x : PcCtl) : List Nat :=
  x.history.filter fun t => decide ((s.time.ticks - t) * 3 < 400)

/-- A decision (R389, R391): the requester granted and its limit.
(DEDUCED: log entry 51.) -/
def State.grantNext (s : State) (c : Nat) (x : PcCtl) (waiting : List Requester) : Option (Requester × Nat) :=
  let got := (s.recentBackground x).length
  let floor := s.get Obj.backgroundFloor (c / 32)
  let limitOf (r : Requester) : Nat := s.getS Obj.reqBurstLimit (rrCode r) (c / 32)
  let floored := if got < floor ∧ !s.panicOn (pipeOfPc c) then s.highest c x.lastGrant (waiting.filter isBackground)
    else none
  match floored with
  | some r => some (r, if floor - got ≤ limitOf r then floor - got else limitOf r)
  | none => (s.highest c x.lastGrant waiting).map fun r => (r, limitOf r)

/-- Issue one request: the bank's row is opened where another stood (R385), and later reads note whom they pass.
(DESIGN CHOICE: log entry 77.) -/
def issueBurst (c : Nat) (i : Nat) (q : HbmReq) (owner : Requester) (n limit : Nat) (s : State) : State :=
  let x := s.pc c
  let s := match x.rows.find q.bank with
    | some r => if r = q.row then s.bump Obj.rowHits c else s.bump Obj.rowConflicts c
    | none => s
  let older := (x.queue.take i).map fun o =>
    if !q.write && !o.write && o.rr == q.rr then { o with passed := o.passed + 1 } else o
  let q := if q.write then q else { q with due := s.time.ticks + ticksOfNs (s.get Obj.perturbHbmPadNs c) }
  let history := if isBackground owner then s.time.ticks :: s.recentBackground x else s.recentBackground x
  setPc c ({ x with queue := older ++ x.queue.drop (i + 1), issued := [q], rows := x.rows.put q.bank q.row,
                    grant := some (owner, n + 1, limit), lastGrant := rrCode owner, history := history } : PcCtl).settleOrder.settleDrain s

/-- At a burst boundary of an idle pseudo-channel: the grant goes on, or a decision is made (R389).
(DEDUCED: log entry 51.) -/
def serve (c : Nat) (s : State) : State :=
  let x := s.pc c
  if x.issued ≠ [] ∨ !s.mayBurst c then s
  else
    let of := x.mine (s.servables x 0 [] x.queue)
    let held := match x.grant with
      | some (r, n, limit) => if n < limit then (pickOf x (of r)).map fun e => (e, r, n, limit) else none
      | none => none
    match held with
    | some (e, r, n, limit) => issueBurst c e.1 e.2 r n limit s
    | none =>
      match s.grantNext c x (requesters.filter fun r => of r != []) with
      | none => setPc c { x with grant := none } s
      | some (r, limit) => match pickOf x (of r) with
        | none => s
        | some e => issueBurst c e.1 e.2 r 0 limit s

/-- A match with a queued request puts the bank in in-order mode (R387). -/
def enterOrder (c : Nat) (q : HbmReq) (s : State) : State :=
  let x := s.pc c
  if !x.queue.any (matching q) || x.inOrder.contains q.bank then s
  else setPc c { x with inOrder := x.inOrder ++ [q.bank] } (s.bump Obj.inOrderEntries c)

/-- Queue a request.
(DEDUCED: log entry 51.) -/
def queueBurst (c : Nat) (q : HbmReq) (s : State) : State :=
  let s := enterOrder c q s
  let x := s.pc c
  setPc c ({ x with queue := x.queue ++ [q] } : PcCtl).settleDrain s

/-! ### Panic (R392) -/

/-- The LOOKUP bursts of a pipe that are outstanding rise to `n`, or fall to it. -/
def setOutstanding (p n : Nat) (up : Bool) (s : State) : State :=
  let s := s.set Obj.lookupOutstanding p n
  match s.hbm.panic.find p with
  | none =>
    if up && s.get Obj.panicLevel p != 0 && decide (s.get Obj.panicLevel p ≤ n) then
      let s := s.withHbm { s.hbm with panic := s.hbm.panic.put p s.time.ticks }
      raise Ev.panicRaised p n 0 (s.bump Obj.panicEntries p)
    else s
  | some t =>
    if !up && decide (n ≤ s.get Obj.panicRelease p) then
      let ns := s.sinceNs t
      let s := s.withHbm { s.hbm with panic := s.hbm.panic.del p }
      raise Ev.panicCleared p 0 ns (s.add Obj.panicNs p ns)
    else s

/-! ### Refresh (R394 to R396) -/

/-- The next refresh is issued: its bank's row closes, and the bank is busy (R385, R394). -/
def refresh (c : Nat) (s : State) : State :=
  let x := s.pc c
  let busy := x.refreshing.filter fun e => s.bankRefreshing x e.1
  setPc c { x with rows := x.rows.del x.nextBank, nextBank := (x.nextBank + 1) % 32, refreshAt := some s.time.ticks,
                   refreshing := NMap.put busy x.nextBank s.time.ticks } (s.bump Obj.refreshes c)

/-- A refresh command may be issued: tRREFD of 8 ns has passed since the last, and no retraining step runs (R378,
R403). -/
def State.mayCommand (s : State) (c : Nat) : Bool :=
  let x := s.pc c
  s.pcLive c && !s.inStep x && match x.refreshAt with
  | some t => decide (10 ≤ s.time.ticks - t)
  | none => true

/-- An owed refresh may be paid: the next bank in turn has no request (R394). -/
def State.mayRefresh (s : State) (c : Nat) : Bool :=
  let x := s.pc c
  s.mayCommand c && !((x.queue ++ x.issued).any fun q => q.bank == x.nextBank)

/-- An owed refresh is paid where that is possible now (R394). -/
def payOwed (c : Nat) (s : State) : State :=
  if s.get Obj.refreshOwed c ≠ 0 ∧ s.mayRefresh c then refresh c (s.drop Obj.refreshOwed c) else s

/-- A forced refresh is issued at a burst boundary, ahead of every burst; those that pay what is owed go first (R394,
R395). -/
def forceRefresh (c : Nat) (s : State) : State :=
  let x := s.pc c
  if x.issued ≠ [] ∨ !s.mayCommand c then s
  else if x.payments ≠ 0 then
    refresh c (setPc c { x with payments := x.payments - 1 } ((s.drop Obj.refreshOwed c).bump Obj.refreshesForced c))
  else if x.forced ≠ 0 then refresh c (setPc c { x with forced := x.forced - 1 } (s.bump Obj.refreshesForced c))
  else s

/-- Refreshes that may be owed: 8, and 4 in hot mode (R394). -/
def State.allowance (s : State) (d : Nat) : Nat := if s.get Obj.refreshMode d = 1 then 4 else 8

/-- Refresh interval of a stack in 64ths of a tick: 121.875 ns, and 60.9375 ns in hot mode (R394, R395). -/
def State.refreshInterval (s : State) (d : Nat) : Nat := if s.get Obj.refreshMode d = 1 then 4875 else 9750

/-- A refresh falls due (R394). -/
def dueRefresh (c : Nat) (s : State) : State :=
  let x := s.pc c
  let base := if x.refreshNext = 0 then 64 * s.time.ticks else x.refreshNext
  let s := setPc c { x with refreshNext := base + s.refreshInterval (c / 32) } s
  let n := s.get Obj.refreshOwed c
  if s.allowance (c / 32) ≤ n then forceRefresh c (setPc c { s.pc c with forced := (s.pc c).forced + 1 } s)
  else
    let s := payOwed c (s.bump Obj.refreshOwed c)
    if n < s.get Obj.refreshOwed c then s.bump Obj.refreshesPostponed c else s

/-- REFRESH_DUE (R394): nothing before the next refresh falls due.
(DEDUCED: log entry 52.) -/
def execRefreshDue (pc : Pc) (s : State) : Host.Outcome State Fault Refusal :=
  .next (if !s.pcLive pc.val ∨ 64 * s.time.ticks < (s.pc pc.val).refreshNext then s else dueRefresh pc.val s)

/-- The pseudo-channels of a stack are to pay by force what they owe above 4 (R395); answers how many refreshes that
takes. The first of each is issued at once where no burst is under way. -/
def orderPayments (d : Nat) (s : State) : Nat × State :=
  (List.range 32).foldl (fun (a : Nat × State) i =>
    let c := d * 32 + i
    let n := a.2.get Obj.refreshOwed c - 4
    if n = 0 then a else (a.1 + n, forceRefresh c (setPc c { a.2.pc c with payments := n } a.2))) (0, s)

/-- A stack may read its temperature: every 8 µs, and after self-refresh before its first burst (R395, R396). -/
def State.mayReadTemp (s : State) (d : Nat) : Bool :=
  s.deckUp d && !s.hbm.selfRefresh && (s.hbm.unread.contains d || match s.hbm.tempAt.find d with
    | some t => s.elapsed t 8000
    | none => true)

/-- A temperature reading of a stack (R395). -/
def readTemp (d : Nat) (celsius : Int) (s : State) : State :=
  let t := ofSigned 32 celsius
  let s := (s.withHbm { s.hbm with tempAt := s.hbm.tempAt.put d s.time.ticks,
                                   unread := s.hbm.unread.filter (· != d) }).set Obj.hbmTempC d t
  if s.get Obj.refreshMode d = 0 then
    if celsius ≤ 85 then s
    else match orderPayments d (s.set Obj.refreshMode d 1) with
      | (n, s) => raise Ev.refreshHot d t n s
  else if 82 ≤ celsius then s
  else raise Ev.refreshNormal d t 0 (s.set Obj.refreshMode d 0)

/-- HBM_TEMP_READ (R395). -/
def execHbmTempRead (d : Deck) (celsius : Int) (s : State) : Host.Outcome State Fault Refusal :=
  .next (if s.mayReadTemp d.val then readTemp d.val celsius s else s)

/-! ### Sparing (R400 to R402) -/

/-- The Pilot of the deck starts sparing a pseudo-channel for a cause (R400, R401); no sparing starts while no Pilot
runs (R402). -/
def startSpare (c cause : Nat) (s : State) : State :=
  let d := c / 32
  let h := c % 32 / 16
  if !s.anyPilot then s
  else if !bitOf (s.get Obj.spareFree d) h || s.get Obj.pcState c != 0 then raise Ev.spareUnavailable c cause 0 s
  else
    let s := (s.set Obj.spareFree d (clearBit (s.get Obj.spareFree d) h)).set Obj.pcState c 1
    let s := setPc c { s.pc c with copyAt := some s.time.ticks, copied := 0, copyFrom := s.time.ticks }
      (s.set Obj.spareProgress c 0)
    raise Ev.spareStarted c cause 0 s

/-- Bursts × 1.25 × 10^9 that a running copy has done: SPARE_COPY_RATE of them in a second, or one in each burst slot of
1.667 ns where the rate is 0 (R378, R401).
(DESIGN CHOICE: log entry 17.) -/
def State.copyDone (s : State) (c : Nat) : Nat :=
  let x := s.pc c
  let rate := s.get Obj.spareCopyRate (c / 32)
  x.copied + (s.time.ticks - x.copyFrom) * (if rate = 0 then 600000000 else rate)

/-- The next row of a copy, of 512 bursts each: SPARE_PROGRESS (R401).
(DESIGN CHOICE: log entry 17.) -/
def State.copyRows (s : State) (c : Nat) : Nat :=
  if (s.pc c).copyAt.isNone then s.get Obj.spareProgress c else capAt 16384 (s.copyDone c / (512 * 1250000000))

/-- The copies of a stack have come so far, before their rate changes or while they rest. -/
def settleCopies (d : Nat) (s : State) : State :=
  (List.range 32).foldl (fun s i =>
    let c := d * 32 + i
    if (s.pc c).copyAt.isNone then s
    else setPc c { s.pc c with copied := s.copyDone c, copyFrom := s.time.ticks } s) s

/-- The copies of the stacks go on after self-refresh. -/
def resumeCopies (s : State) : State :=
  s.hbm.pcs.foldl (fun s e => if e.2.copyAt.isNone then s else setPc e.1 { s.pc e.1 with copyFrom := s.time.ticks } s) s

/-- SPARE_DONE (R401 steps 4 and 5): the copy has read and written each of the 8,388,608 bursts.
(DEDUCED: log entry 53.) -/
def execSpareDone (pc : Pc) (s : State) : Host.Outcome State Fault Refusal :=
  let c := pc.val
  .next (match s.get Obj.pcState c == 1 && s.pcLive c, (s.pc c).copyAt with
    | true, some t =>
      if 16384 ≤ s.copyRows c then
        let s := setPc c { s.pc c with copyAt := none } ((s.set Obj.pcState c 2).set Obj.spareProgress c 16384)
        raise Ev.spareDone c 0 (s.sinceNs t) ((s.add Obj.burstsRead c 8388608).add Obj.burstsWritten c 8388608)
      else s
    | _, _ => s)

/-! ### Errors (R397, R398) -/

/-- A corrected burst is queued to be written back where the write queue has room, else it waits (R397).
(DEDUCED: log entry 52.) -/
def writeFix (c burst : Nat) (s : State) : State :=
  let x := s.pc c
  let y := s.place (c / 32) burst
  if x.queue.any fun q => q.write && q.burst == burst then s
  else if x.writeRoom y.bank then
    queueBurst c { rr := .scrub, write := true, burst := burst, bank := y.bank, row := y.row, since := s.time.ticks,
                   fix := true } s
  else setPc c { x with fixes := x.fixes ++ [burst] } s

/-- The write-backs that waited for room.
(DEDUCED: log entry 52.) -/
def retryFixes (c : Nat) (s : State) : State :=
  let l := (s.pc c).fixes
  l.foldl (fun s b => writeFix c b s) (setPc c { s.pc c with fixes := [] } s)

/-- A requester writes the burst before its correction is written back: the write-back is not made (R397). -/
def cancelFix (c burst : Nat) (s : State) : State :=
  let x := s.pc c
  setPc c { x with fixes := x.fixes.filter (· != burst),
                   queue := x.queue.filter fun q => !(q.fix && q.burst == burst) } s

/-- Device time in whole seconds. -/
def State.deviceSecond (s : State) : Nat := s.nowNs / 1000000000

/-- A corrected read (R397, R400 cause 1): sparing is asked for once in a second.
(DEDUCED: log entry 52.) -/
def correctedRead (c : Nat) (r : Requester) (burst : Nat) (s : State) : State :=
  let s := raise Ev.hbmCorrected c (rrCode r) (burst * 64) (s.bump Obj.eccCorrected c)
  let x := s.pc c
  let n := if x.ceSecond = s.deviceSecond then x.ceInSecond + 1 else 1
  let s := writeFix c burst (setPc c { x with ceInSecond := n, ceSecond := s.deviceSecond } s)
  let least := s.get Obj.spareCePerS (c / 32)
  if least ≠ 0 ∧ least ≤ n ∧ s.anyPilot ∧ x.ceAsked ≠ some s.deviceSecond then
    startSpare c 1 (setPc c { s.pc c with ceAsked := some s.deviceSecond } s)
  else s

/-- The golden words that a poisoned burst holds are found uncorrectable; the scrubber's own read of them rebuilds
them (R398, R170). -/
def poisonGolden (p off : Nat) (scrub : Bool) (s : State) : State :=
  if off < goldenOffset false 0 ∨ goldenOffset false 0 + 0x80000 ≤ off then s
  else
    let n := (off - goldenOffset false 0) / 32
    [n, n + 1].foldl (fun s i =>
      let aft := decide (8192 ≤ i)
      let k := goldenKey p aft (i % 8192)
      let s := setGolden k { s.golden k with ecc := .uncorrectable } s
      if scrub && s.scrubs p aft then rebuildGolden p aft (i % 8192) s else s) s

/-- An uncorrectable read (R397, R400 cause 2).
(DEDUCED: log entry 53.) -/
def poisonedRead (c : Nat) (r : Requester) (burst : Nat) (s : State) : State :=
  let s := raise Ev.hbmUncorrected c (rrCode r) (burst * 64) (s.bump Obj.eccUncorrected c)
  let s := poisonBurst (c / 32 * 2 ^ 28 + burst) s
  let s := poisonGolden (c / 32 * 2 + burst / 2 ^ 27) (burst % 2 ^ 27 * 64) (r == .scrub) s
  let x := s.pc c
  let again := match x.firstUe with
    | some t => !s.elapsed t 86400000000000
    | none => false
  if again then startSpare c 2 s else setPc c { x with firstUe := some s.time.ticks } s

/-- The result of a read's code check. -/
def checkRead (c : Nat) (r : Requester) (burst : Nat) (ecc : EccResult) (s : State) : State :=
  match ecc with
  | .clean => s
  | .corrected => correctedRead c r burst s
  | .uncorrectable => poisonedRead c r burst s

/-! ### The commands of the controller -/

/-- The controller takes a request over (R384, R387, R392, R397): a victim write-back goes as LOOKUP while panic is
raised. -/
def acceptBurst (c : Nat) (q : HbmReq) (s : State) : State :=
  let p := pipeOfPc c
  let q := if q.rr = .writeback ∧ s.panicOn p then { q with rr := .lookup } else q
  let s := queueBurst c q (if q.write then cancelFix c q.burst s else s)
  serve c (if q.rr = .lookup then setOutstanding p (s.get Obj.lookupOutstanding p + 1) true s else s)

/-- HBM_REQUEST (R386 to R389, R392): a burst is queued at its pseudo-channel; a write that finds no room waits at its
requester, and a burst of another pseudo-channel is not this controller's.
(DEDUCED: log entry 51.) -/
def execHbmRequest (pc : Pc) (r : Requester) (write : Bool) (burst : BitVec 28) (s : State) :
    Host.Outcome State Fault Refusal :=
  let c := pc.val
  let y := s.place (c / 32) burst.toNat
  .next (if y.pc ≠ c % 32 ∨ !s.pcLive c then s
    else if write ∧ !(s.pc c).writeRoom y.bank then
      askBurst { rr := r, write := true, stack := c / 32, burst := burst.toNat } s
    else acceptBurst c { rr := r, write := write, burst := burst.toNat, bank := y.bank, row := y.row,
                         since := s.time.ticks } s)

/-- A requester hands over the first of its bursts; what is left waits. The bursts of a lost deck's stack are dropped
(R528). -/
def takeAsk (b : BurstAsk) (s : State) : Option BurstAsk × State :=
  let y := s.place b.stack b.burst
  let c := b.stack * 32 + y.pc
  if b.n = 0 ∨ !s.deckUp b.stack then (none, s)
  else if !s.pcLive c ∨ (b.write ∧ !(s.pc c).writeRoom y.bank) then (some b, s)
  else (if b.n = 1 then none else some { b with burst := b.burst + 1, n := b.n - 1 },
        acceptBurst c { rr := b.rr, write := b.write, burst := b.burst, bank := y.bank, row := y.row,
                        since := s.time.ticks, op := b.op, part := b.part } s)

/-- The controllers take the requesters' bursts over, in order. -/
def takeAsks (s : State) : State :=
  s.hbm.due.foldl (fun s b => match takeAsk b s with
    | (rest, s) => s.withHbm { s.hbm with due := s.hbm.due ++ rest.toList }) (s.withHbm { s.hbm with due := [] })

/-- A burst is complete (R392, R397). -/
def finishBurst (c : Nat) (q : HbmReq) (ecc : EccResult) (s : State) : State :=
  let s := if q.write then
      let s := s.bump Obj.burstsWritten c
      if q.part then s else clearBurst (c / 32 * 2 ^ 28 + q.burst) s
    else checkRead c q.rr q.burst (q.patrol.getD ecc) (s.bump Obj.burstsRead c)
  let p := pipeOfPc c
  if q.rr = .lookup then setOutstanding p (s.get Obj.lookupOutstanding p - 1) false s else s

/-- BURST_COMPLETE (R397, R392, R394, R389): a forced refresh goes first at the burst boundary. -/
def execBurstComplete (pc : Pc) (ecc : EccResult) (s : State) : Host.Outcome State Fault Refusal :=
  let c := pc.val
  .next (match (s.pc c).issued with
    | [] => s
    | q :: _ =>
      if s.time.ticks < q.due then s
      else
        let s := retryFixes c (finishBurst c q ecc (setPc c { s.pc c with issued := [] } s))
        serve c (payOwed c (forceRefresh c s)))

/-- Requests of a pseudo-channel for which `pick` holds complete at once. -/
def finishWhere (c : Nat) (pick : HbmReq → Bool) (s : State) : State :=
  let x := s.pc c
  let done := (x.issued ++ x.queue).filter pick
  if done.isEmpty then s
  else
    let rest : PcCtl := { x with issued := x.issued.filter (!pick ·), queue := x.queue.filter (!pick ·) }
    done.foldl (fun s q => finishBurst c q .clean s) (setPc c rest.settleOrder.settleDrain s)

/-- Bursts that a requester still had to hand over complete at once. -/
def finishAsk (b : BurstAsk) (s : State) : State :=
  if !s.deckUp b.stack then s
  else (List.range b.n).foldl (fun s i =>
    let c := b.stack * 32 + (s.place b.stack (b.burst + i)).pc
    let s := s.bump (if b.write then Obj.burstsWritten else Obj.burstsRead) c
    if b.write && !b.part then clearBurst (b.stack * 2 ^ 28 + b.burst + i) s else s) s

/-- The reads of an operation slot have returned: those not yet complete are complete with them (R222, R38).
(DESIGN CHOICE: log entry 74.) -/
def returnReads (p : Nat) (f : FrameId) (s : State) : State :=
  let mine (op : Option (Nat × FrameId)) (write : Bool) : Bool := op == some (p, f) && !write
  let asks := s.hbm.due.filter fun b => mine b.op b.write
  let s := s.withHbm { s.hbm with due := s.hbm.due.filter fun b => !mine b.op b.write }
  (List.range 16).foldl (fun s i => finishWhere (16 * p + i) (fun q => mine q.op q.write) s) (asks.foldl (fun s b => finishAsk b s) s)

/-- Everything the controllers have to do is done, as it is before self-refresh (R396). -/
def finishAll (s : State) : State :=
  let asks := s.hbm.due
  let s := asks.foldl (fun s b => finishAsk b s) (s.withHbm { s.hbm with due := [] })
  s.hbm.pcs.foldl (fun s e => finishWhere e.1 (fun _ => true) s) s

/-- What the controllers do at a tick: requests are taken over, forced and owed refreshes issued, and bursts granted. -/
def hbmTick (s : State) : State :=
  let s := takeAsks s
  s.hbm.pcs.foldl (fun s e => serve e.1 (payOwed e.1 (forceRefresh e.1 s))) s

/-- WRITE_DRAIN_TIMEOUT (R386): a write that has waited 500 ns may be served. -/
def execWriteDrainTimeout (pc : Pc) (s : State) : Host.Outcome State Fault Refusal := .next (serve pc.val s)

/-- The patrol of a stack may read its next burst: a pass begins once PATROL_PERIOD_S has passed since the one before
began (R399). -/
def State.patrolDue (s : State) (d : Nat) : Bool :=
  s.hbm.patrol.getD d 0 != 0 ||
  (match s.hbm.patrolAt.find d with
   | some t => s.elapsed t (s.get Obj.patrolPeriodS d * 1000000000)
   | none => true)

/-- PATROL_SCRUB (R399): the next burst of the stack is read on the SCRUB requester, and its code check takes effect when
the read completes; PATROL_POSITION is the row that comes next. -/
def execPatrolScrub (d : Deck) (ecc : EccResult) (s : State) : Host.Outcome State Fault Refusal :=
  let b := s.hbm.patrol.getD d.val 0
  let y := s.place d.val b
  let c := d.val * 32 + y.pc
  .next (if !s.pcLive c || !s.patrolDue d.val then s
    else
      let s := if b = 0 then s.withHbm { s.hbm with patrolAt := s.hbm.patrolAt.put d.val s.time.ticks } else s
      let s := acceptBurst c { rr := .scrub, write := false, burst := b, bank := y.bank, row := y.row,
                               since := s.time.ticks, patrol := some ecc } s
      let b := (b + 1) % 2 ^ 28
      (s.withHbm { s.hbm with patrol := NMap.set 0 s.hbm.patrol d.val b }).set Obj.patrolPosition d.val (b / 8192))

/-! ### Retraining (R403) -/

/-- The temperature of a stack. -/
def State.hbmTemp (s : State) (d : Nat) : Int := toSigned 32 (s.get Obj.hbmTempC d)

/-- The pseudo-channel is the next in turn, and its pass may begin or has begun (R403). -/
def State.trainTurn (s : State) (c : Nat) : Bool :=
  let d := c / 32
  match s.hbm.trainPass.find d with
  | none => c % 32 == 0
  | some (next, t) => next == c % 32 && (next != 0 || s.elapsed t (s.get Obj.retrainPeriodMs d * 1000000))

/-- HBM_TEMP_C has moved by 10 °C since the pseudo-channel's last retraining.
(DEDUCED: log entry 53.) -/
def State.tempMoved (s : State) (c : Nat) : Bool := decide (10 ≤ (s.hbmTemp (c / 32) - (s.pc c).lastTemp).natAbs)

/-- A retraining begins: none where it may not. -/
def State.startTrain (s : State) (c : Nat) : Option State :=
  let d := c / 32
  if (s.hbm.retraining.find d).isSome then none
  else if s.trainTurn c then
    let pass := match s.hbm.trainPass.find d with
      | some (next, t) => if next = 0 then (0, s.time.ticks) else (next, t)
      | none => (0, s.time.ticks)
    some (s.withHbm { s.hbm with trainPass := s.hbm.trainPass.put d pass, retraining := s.hbm.retraining.put d (c % 32, true) })
  else if s.tempMoved c then
    some (s.withHbm { s.hbm with retraining := s.hbm.retraining.put d (c % 32, false) })
  else none

/-- A retraining ends. -/
def endTrain (c : Nat) (s : State) : State :=
  let d := c / 32
  let turn := match s.hbm.retraining.find d with
    | some x => x.2
    | none => false
  let pass := match s.hbm.trainPass.find d with
    | some (next, t) => if turn then s.hbm.trainPass.put d ((next + 1) % 32, t) else s.hbm.trainPass
    | none => s.hbm.trainPass
  let s := s.withHbm { s.hbm with retraining := s.hbm.retraining.del d, trainPass := pass }
  setPc c { s.pc c with steps := 0, lastTemp := s.hbmTemp d } (s.bump Obj.retrains c)

/-- A step waits while a bank refreshes, a refresh is owed or a burst is under way, and for 1 µs after the last (R403). -/
def State.stepWaits (s : State) (c : Nat) : Bool :=
  let x := s.pc c
  s.get Obj.refreshOwed c != 0 || x.forced != 0 || x.issued != [] || (x.steps != 0 && !s.elapsed x.stepAt 1000) ||
  match x.refreshAt with
  | some t => !s.elapsed t 44
  | none => false

/-- One step: a failed lane is moved to a redundant lane, or the pseudo-channel is spared (R403).
(DEDUCED: log entry 53.) -/
def trainStep (c : Nat) (failedLane : Option Nat) (left : Nat) (s : State) : State :=
  let x := s.pc c
  let s := setPc c { x with steps := x.steps + 1, stepAt := s.time.ticks } s
  match failedLane with
  | some l =>
    if left = 0 then
      startSpare c 3 (endTrain c (raise Ev.retrainFailed c l 0 (s.bump Obj.retrainFails c)))
    else
      let s := raise Ev.laneRepaired c l (left - 1) (s.bump Obj.lanesRepaired c)
      if 64 ≤ (s.pc c).steps then endTrain c s else s
  | none => if 64 ≤ (s.pc c).steps then endTrain c s else s

/-- RETRAIN_STEP (R403). -/
def execRetrainStep (pc : Pc) (failedLane : Option (BitVec 8)) (redundantLeft : Nat) (s : State) :
    Host.Outcome State Fault Refusal :=
  let c := pc.val
  let lane := failedLane.map BitVec.toNat
  .next (if !s.pcLive c || s.stepWaits c then s
    else match s.hbm.retraining.find (c / 32) with
      | some x => if x.1 = c % 32 then trainStep c lane redundantLeft s else s
      | none => match s.startTrain c with
        | some s => trainStep c lane redundantLeft s
        | none => s)

/-! ### Self-refresh (R396) -/

/-- The controllers finish what they have, pay every owed refresh and enter self-refresh, in which no row stays open. -/
def enterSelfRefresh (s : State) : State :=
  let s := (List.range 4).foldl (fun s d => settleCopies d s) (finishAll s)
  let s := (List.range 128).foldl (fun s c =>
    (s.add Obj.refreshes c (s.get Obj.refreshOwed c)).set Obj.refreshOwed c 0) s
  s.withHbm { s.hbm with
    selfRefresh := true,
    pcs := s.hbm.pcs.map fun e => (e.1, { e.2 with rows := [], forced := 0, payments := 0, refreshing := [], grant := none }) }

/-- The controllers leave self-refresh; each takes a temperature reading before its first burst, and the refreshes fall
due from now on. -/
def exitSelfRefresh (s : State) : State :=
  let s := resumeCopies s
  s.withHbm { s.hbm with
    selfRefresh := false, unread := [0, 1, 2, 3],
    pcs := s.hbm.pcs.map fun e => (e.1, { e.2 with refreshNext := 64 * s.time.ticks }) }

/-! ### HBM_MAP (R384) -/

/-- A page of a stack's quay window lies within a ring that has pages (R102, R384). -/
def State.ringOnStack (s : State) (d : Nat) : Bool :=
  (List.range 29).any fun r => s.ringPages r != 0 &&
    decide (s.ringFirst r < (d + 1) * 16384) && decide (d * 16384 < s.ringFirst r + s.ringPages r)

/-- Validation of HBM_MAP of a stack: the status and the member that fails (R384). -/
def validateHbmMap (d : Nat) (s : State) : Option (Nat × Nat) :=
  if s.staged Obj.mapOrderQuay d ≠ s.get Obj.mapOrderQuay d ∧
      (((s.host.bollards.inRange (d * 16384) 16384).any fun e => e.2 == 1) ∨ s.ringOnStack d) then
    some (St.badValue, addrKey 0x6000 1 d)
  else if s.staged Obj.mapOrderExport d ≠ s.get Obj.mapOrderExport d ∧
      (s.get Obj.exportEnable = 1 ∨ [2 * d, 2 * d + 1].any fun p => ((s.exports.getD p {}).staging != [])) then
    some (St.badValue, addrKey 0x6000 2 d)
  else none

/-- Switch-over of HBM_MAP: the bytes of a quay-window region whose order changes are undefined from t_c (R384). -/
def applyHbmMap (old : State) (d : Nat) (s : State) : State :=
  if old.get Obj.mapOrderQuay d = s.get Obj.mapOrderQuay d then s
  else
    let h := s.host
    { s with drawn := s.drawn + 0x10000000,
             host := { h with scrambled := h.scrambled.put d s.drawn, quay := NMap.delRange h.quay (d * 0x4000000) 0x4000000 } }

end Sys2Proof.Machine
end

