-- ==== Sys2Proof/Machine/Host.lean ====
section
/-! DEFINITION. The host's paths: mailbox, two-wire target, PCIe endpoint, MSI-X, and the emergency window with the
flash engine (02, 03, 17, 19). -/

namespace Sys2Proof.Machine

/-! ### Mailbox (R94 to R96, R63) -/

/-- Count and report a doorbell (`what` 0) or release (1) that is ignored (R96). -/
def mbIgnore (slot what : Nat) (s : State) : State :=
  raise Ev.mbWriteIgnored 0 slot what
    (s.withHost { s.host with ignored := capAt 0xFFFFFFFF (s.host.ignored + 1) })

/-- A slot's request area (R93). -/
def State.requestArea (s : State) (k : Nat) : List Byte :=
  (List.range 256).map fun i => s.host.areas.getD (k * 256 + i) 0

/-- The host writes into a slot's request area: ignored while the slot is TAKEN or DONE (R94). -/
def mbWriteArea (k off : Nat) (bs : List Byte) (s : State) : State :=
  if (s.slot k).state = 0 then s.withHost { s.host with areas := putBytes 0 s.host.areas (k * 256 + off) bs } else s

/-- A doorbell for a FREE slot copies the request area, takes the slot and submits the request (R94). -/
def mbSubmit (k : Nat) (s : State) : State :=
  let s := s.setSlot k { state := 1, area := s.requestArea k, since := s.time.ticks }
  s.withHost { s.host with order := s.host.order ++ [k] }

/-- A write of MB_DOORBELL (R94, R96). -/
def mbDoorbell (v : Nat) (s : State) : State :=
  if (s.slot (v % 16)).state = 0 then mbSubmit (v % 16) s else mbIgnore (v % 16) 0 s

/-- MB_DOORBELL (R94, R96): the host writes the bytes the command carries into the slot's request area, then the
doorbell; with none it writes the doorbell alone (log entry 83).
(DESIGN CHOICE: log entry 83.) -/
def execMbDoorbell (value : Word32) (area : List Byte) (s : State) : Host.Outcome State Fault Refusal :=
  .next (mbDoorbell value.toNat (mbWriteArea (value.toNat % 16) 0 (area.take 256) s))

/-- A write of MB_RELEASE (R95, R96); the response area of the slot reads 0 from then on (log entry 84).
(DESIGN CHOICE: log entry 84.) -/
def mbRelease (v : Nat) (s : State) : State :=
  if (s.slot (v % 16)).state = 2 then s.setSlot (v % 16) {} else mbIgnore (v % 16) 1 s

/-- MB_RELEASE (R95, R96).
(DESIGN CHOICE: log entry 84.) -/
def execMbRelease (value : Word32) (s : State) : Host.Outcome State Fault Refusal := .next (mbRelease value.toNat s)

/-- Put a response record into the slot: DONE, and vector 1 signalled (R95). -/
def mbFinish (k : Nat) (r : Response) (s : State) : State :=
  let s := s.setSlot k { s.slot k with state := 2, response := responseBytes r, answer := none, taken := none }
  signalVector 1 (s.withHost { s.host with order := s.host.order.filter (· != k) })

/-- MB_RESPONSE_READY (R95): the slot's response has been made. -/
def execMbResponseReady (slot : Fin 16) (s : State) : Host.Outcome State Fault Refusal :=
  .next (match (s.slot slot.val).state == 1, (s.slot slot.val).answer with
    | true, some r => mbFinish slot.val r s
    | _, _ => s)

/-- BUSY for the request that a record spells (R63). -/
def busyFor (area : List Byte) : Response :=
  { opcode := byteAt area 0 % 128, status := St.busy, tag := BitVec.ofNat 16 (leAt area 2 2),
    index := BitVec.ofNat 16 (leAt area 4 2), sub := BitVec.ofNat 8 (byteAt area 6),
    inst := BitVec.ofNat 16 (leAt area 8 2) }

/-- A request that an endpoint reset freed of its slot, and that no Pilot has taken for 1 ms: its BUSY is discarded (R63,
R92). -/
def orphanUnserved (k : Nat) (s : State) : State :=
  match s.host.orphans.find? fun o => o.1 == k && s.elapsed o.2.2 1000000 with
  | some o => raise Ev.mailboxUnserved 0 k 0 (s.withHost { s.host with orphans := s.host.orphans.erase o })
  | none => s

/-- MAILBOX_UNSERVED (R63): 1 ms after its doorbell no Pilot has taken the request. -/
def execMailboxUnserved (slot : Fin 16) (s : State) : Host.Outcome State Fault Refusal :=
  let x := s.slot slot.val
  .next (if x.state = 1 ∧ x.taken = none ∧ x.answer = none ∧ s.elapsed x.since 1000000 then
      raise Ev.mailboxUnserved 0 slot.val 0 (mbFinish slot.val (busyFor x.area) s)
    else orphanUnserved slot.val s)

/-! ### Two-wire target (R64, R65, R572, R574, R582) -/

/-- The target's 7-bit address from the straps (R491). -/
def State.twAddress (s : State) : Nat := 0x3C + s.get Obj.straps % 4

/-- `s` with another two-wire target. -/
def State.withTw (s : State) (t : TwoWire) : State := { s with tw := t }

/-- A request transaction whose PEC holds is taken unless one is being served; it replaces an unread response
(R582). -/
def twAccept (q : Request) (s : State) : State :=
  s.withTw { s.tw with serving := some (q, s.time.ticks), taken := none, answer := none, ready := none,
                       pecFailed := false }

/-- TWO_WIRE_REQUEST (R64, R582): the bytes of the transaction, address and PEC included. -/
def execTwoWireRequest (bytes : List Byte) (s : State) : Host.Outcome State Fault Refusal :=
  .next (
    if byteAt bytes 0 ≠ s.twAddress * 2 then s
    else if s.tw.serving.isSome then s
    else if pec bytes ≠ 0 ∨ bytes.length < 3 then
      raise Ev.twoWirePec 0 (byteAt bytes 1) 0 (s.withTw { s.tw with pecFailed := true, ready := none })
    else if byteAt bytes 1 ≠ 1 then s
    else match parseRequest (bytes.drop 2).dropLast with
      | some q => twAccept q s
      | none => s)

/-- What a response transaction returns: READY, and the record when READY is 0x01 (R64). -/
def State.twReadyBytes (s : State) : List Byte :=
  if s.tw.pecFailed then [0x0A]
  else match s.tw.ready with
    | some r => 0x01 :: responseBytes r
    | none => [0x00]

/-- TWO_WIRE_RESPONSE (R64): READY, the record and the PEC are driven; what was read is no longer held. -/
def execTwoWireResponse (s : State) : Host.Outcome State Fault Refusal :=
  let a := s.twAddress
  let head : List Byte := [BitVec.ofNat 8 (a * 2), 0x02, BitVec.ofNat 8 (a * 2 + 1)]
  let body := s.twReadyBytes
  .next (s.withTw { s.tw with out := body ++ [BitVec.ofNat 8 (pec (head ++ body))], ready := none,
                              pecFailed := false })

/-- TWO_WIRE_RESPONSE_READY (R582): service ends, and the response is ready. -/
def execTwoWireResponseReady (s : State) : Host.Outcome State Fault Refusal :=
  .next (match s.tw.answer with
    | some r => s.withTw { s.tw with serving := none, taken := none, answer := none, ready := some r }
    | none => s)

/-- TWO_WIRE_UNSERVED (R582): 1 ms after the request's transaction no Pilot has answered for it. -/
def execTwoWireUnserved (s : State) : Host.Outcome State Fault Refusal :=
  .next (match s.tw.serving with
    | some (q, at_) =>
      if s.tw.taken = none ∧ s.tw.answer = none ∧ s.elapsed at_ 1000000 then
        s.withTw { s.tw with serving := none, ready := some (respond q St.busy) }
      else s
    | none => s)

/-- SCL_STUCK_TIMEOUT (R574): SDA is released and the transaction in progress discarded. -/
def execSclStuckTimeout (s : State) : Host.Outcome State Fault Refusal :=
  .next (s.withTw { s.tw with inProgress := false, out := [] })

/-- ALERT_RESPONSE_READ (R572): while TW_ALERT_N is low the target answers with its address; the lowest bit of that
byte is left open by SMBus and drawn free. -/
def execAlertResponseRead (s : State) : Host.Outcome State Fault Refusal :=
  .next (if s.twAlertN then
      let (v, s) := s.draw
      s.withTw { s.tw with out := [BitVec.ofNat 8 (s.twAddress * 2 + v % 2)] }
    else s.withTw { s.tw with out := [] })

/-! ### PCIe endpoint and MSI-X (R92, R559, R584) -/

/-- The request of a TAKEN slot that no Pilot has taken yet, with its slot and tick. -/
def State.untaken (s : State) (k : Nat) : Option (Nat × List Byte × Nat) :=
  let x := s.slot k
  if x.state = 1 ∧ x.taken = none ∧ x.answer = none then some (k, x.area, x.since) else none

/-- Effects of an endpoint reset: slots FREE, MSI-X and cause registers cleared, raw window closed. Every request whose
slot is TAKEN still takes effect, be it that no Pilot has taken it yet; its response is discarded (R92; log entry 85).
(DEDUCED: log entry 85.) -/
def endpointReset (s : State) : State :=
  let s := dropReplies (fun p => match p with | .mailbox _ => true | _ => false) s
  s.withHost { s.host with slots := [], order := [], orphans := s.host.orphans ++ s.host.order.filterMap s.untaken,
                           vectorCause := 0, msixEnabled := false, functionMask := false, unmasked := 0, pba := 0,
                           msixTable := [], rawStatus := 0 }

/-- The PCIe link is lost (R92). -/
def loseLink (s : State) : State :=
  let s := endpointReset s
  s.withHost { s.host with linkUp := false, lostAt := if s.host.linkUp then some s.time.ticks else s.host.lostAt }

/-- PCIE_RESET (R92). -/
def execPcieReset (kind : PcieResetKind) (s : State) : Host.Outcome State Fault Refusal :=
  .next (match kind with
    | .linkLoss => loseLink s
    | _ => endpointReset s)

/-- Space returns to every ring that the device produces. -/
def ringsResume (s : State) : State := (List.range 29).foldl (fun s r => ringSpaceReturned r s) s

/-- The endpoint may have its link: PERST_N high, not strapped off, boot begun (R491, R492, R559).
(DEDUCED: log entry 14.) -/
def State.pcieMayTrain (s : State) : Bool := s.host.perstHigh && !bitOf (s.get Obj.straps) 5 && !s.boot.held && s.deckUp 0

/-- The link trains to one of the rates and widths of R90, which the partner decides: they are drawn.
(DESIGN CHOICE: log entry 4.) -/
def trainLink (s : State) : State :=
  let (a, s) := s.draw
  let (b, s) := s.draw
  s.withHost { s.host with linkUp := true, linkRate := a % 5 + 1, linkLanes := 2 ^ (b % 3) }

/-- The link is up: a loss before it is reported with its time in µs, and the rings that stalled go on (R92, R104). -/
def linkReturns (s : State) : State :=
  let s := trainLink s
  ringsResume (match s.host.lostAt with
    | some t => raise Ev.pcieLinkDown 0 (capAt 0xFFFFFFFF (s.sinceNs t / 1000)) 0 (s.withHost { s.host with lostAt := none })
    | none => s)

/-- PCIE_LINK_DOWN (R92): the link returns after a loss. -/
def execPcieLinkDown (s : State) : Host.Outcome State Fault Refusal :=
  .next (if s.pcieMayTrain ∧ s.host.lostAt.isSome then linkReturns s else s)

/-- The link trains where it is down and may. -/
def linkMayReturn (s : State) : State := if s.pcieMayTrain && !s.host.linkUp then linkReturns s else s

/-- PCIE_PERST (R559): low resets the endpoint alone; the rising edge starts training, and the model takes the link
as up from there (log entry 14).
(DEDUCED: log entry 14.) -/
def execPciePerst (high : Bool) (s : State) : Host.Outcome State Fault Refusal :=
  .next (if high then linkMayReturn (s.withHost { s.host with perstHigh := true })
    else
      let s := loseLink s
      s.withHost { s.host with perstHigh := false })

/-- Bits of VECTOR_CAUSE are cleared (R93, R584). -/
def clearCauses (mask : Nat) (s : State) : State :=
  s.withHost { s.host with vectorCause := clearMask s.host.vectorCause mask }

/-- VECTOR_CAUSE_CLEAR (R93, R584): each 1 bit written clears that bit of the word. -/
def execVectorCauseClear (upper : Bool) (value : Word32) (s : State) : Host.Outcome State Fault Refusal :=
  .next (clearCauses (if upper then value.toNat * 2 ^ 32 else value.toNat) s)

/-- A pending vector that is enabled and no longer masked sends its one message (R584). -/
def sendPending (v : Nat) (s : State) : State :=
  let h := s.host
  if h.msixEnabled ∧ h.functionMask = false ∧ bitOf h.unmasked v ∧ bitOf h.pba v then
    s.withHost { h with pba := clearBit h.pba v, messages := NMap.modify 0 h.messages v (· + 1) }
  else s

/-- The mask bit of a vector is written (R584). -/
def maskVector (v : Nat) (masked : Bool) (s : State) : State :=
  sendPending v (s.withHost { s.host with unmasked := if masked then clearBit s.host.unmasked v else setBit s.host.unmasked v })

/-- MSI-X is enabled or disabled, and the function masked or unmasked (R584). -/
def controlMsix (enable mask : Bool) (s : State) : State :=
  (List.range 64).foldl (fun s v => sendPending v s) (s.withHost { s.host with msixEnabled := enable, functionMask := mask })

/-- MSIX_UNMASK (R584): a pending bit sends its one message. -/
def execMsixUnmask (v : Fin 64) (s : State) : Host.Outcome State Fault Refusal := .next (maskVector v.val false s)

/-! ### Emergency raw window and flash engine (R516, R517) -/

/-- No Pilot runs firmware, or recovery is active: OPEN succeeds (R516). -/
def State.rawMayOpen (s : State) : Bool := !s.anyPilot || s.get Obj.bootSlot == 2

/-- TARGET and PAGE of RAW_WINDOW_CTRL as written (R516). -/
def rawSelect (v : Nat) (s : State) : State :=
  let target := bitsOf v 27 24
  s.withHost { s.host with rawTarget := target, rawPage := if target = 4 then bitsOf v 23 20 else 0 }

/-- OP OPEN (R516). -/
def rawOpen (v : Nat) (s : State) : State :=
  let s := rawSelect v s
  let s := s.withHost { s.host with rawStatus := if s.rawMayOpen then 1 else 3 }
  if s.host.rawStatus = 1 then raise Ev.rawWindowOpened 0 s.host.rawTarget s.host.rawPage s else s

/-- RAW_WINDOW_OPEN (R516): the written word with OP OPEN. -/
def execRawWindowOpen (value : Word32) (s : State) : Host.Outcome State Fault Refusal := .next (rawOpen value.toNat s)

/-- The raw window closes. -/
def rawClose (s : State) : State := s.withHost { s.host with rawStatus := 0 }

/-- RAW_WINDOW_CLOSE (R516). -/
def execRawWindowClose (s : State) : Host.Outcome State Fault Refusal := .next (rawClose s)

/-- `s` with another flash engine. -/
def State.withFe (s : State) (f : FlashEngine) : State := s.withHost { s.host with fe := f }

/-- The flash engine takes a command: 1 erase, 2 program; only while not BUSY, and ERROR where FE_ADDR is not on
the command's boundary (R517). Without VDDIO the operation waits (R577). -/
def feCommand (cmd : Nat) (s : State) : State :=
  let f := s.host.fe
  if f.status = 1 then s
  else if f.addr % (if cmd = 1 then 65536 else 256) ≠ 0 then s.withFe { f with status := 3 }
  else s.withFe { f with status := 1, cmd := cmd, waiting := !s.power.vddio }

/-- The raw window shows the flash engine (R517). -/
def State.feOpen (s : State) : Bool := s.host.rawStatus == 1 && s.host.rawTarget == 5

/-- FE_ERASE (R517). -/
def execFeErase (s : State) : Host.Outcome State Fault Refusal := .next (if s.feOpen then feCommand 1 s else s)

/-- FE_PROGRAM (R517). -/
def execFeProgram (s : State) : Host.Outcome State Fault Refusal := .next (if s.feOpen then feCommand 2 s else s)

/-- Flash after the engine's command: an erased sector reads 0xFF; programming NOR flash clears bits (R494, R517). -/
def flashAfter (s : State) : NMap Byte :=
  let f := s.host.fe
  if f.cmd = 1 then s.host.flash.delRange f.addr 65536
  else (List.range 256).foldl (fun m i =>
    NMap.set 0xFF m (f.addr + i) (m.getD (f.addr + i) 0xFF &&& f.data.getD i 0)) s.host.flash

/-- FE_DONE (R517): the running operation ends. -/
def execFeDone (ok : Bool) (s : State) : Host.Outcome State Fault Refusal :=
  let f := s.host.fe
  .next (if f.status = 1 ∧ f.waiting = false then
      if ok then (s.withHost { s.host with flash := flashAfter s, fe := { f with status := 2 } })
      else s.withFe { f with status := 3 }
    else s)

/-- VDDIO_RETURNED (R577): waiting flash operations go on. -/
def execVddioReturned (s : State) : Host.Outcome State Fault Refusal :=
  .next { (s.withFe { s.host.fe with waiting := false }) with power := { s.power with vddio := true } }

/-- A flash-engine register word (R517).
(DESIGN CHOICE: log entry 71.) -/
def State.feRead (s : State) (off : Nat) : Nat :=
  let f := s.host.fe
  if off = 4 then f.addr
  else if off = 8 then f.status
  else if 0x100 ≤ off ∧ off < 0x200 then leNat ((List.range 4).map fun i => f.data.getD (off - 0x100 + i) 0)
  else 0

/-- A write of a flash-engine register word (R517). -/
def feWrite (off v : Nat) (s : State) : State :=
  let f := s.host.fe
  if off = 0 then (if v = 1 ∨ v = 2 then feCommand v s else s)
  else if off = 4 then s.withFe { f with addr := v }
  else if 0x100 ≤ off ∧ off < 0x200 then s.withFe { f with data := putBytes 0 f.data (off - 0x100) (leBytes 4 v) }
  else s

/-- A word through the open raw window (R516).
(DESIGN CHOICE: log entry 71.) -/
def State.rawRead (s : State) (off : Nat) : Nat :=
  let t := s.host.rawTarget
  if t < 4 then leNat ((List.range 4).map fun i => s.host.pilotMem.getD (t * 4194304 + off + i) 0)
  else if t = 4 then leNat ((List.range 4).map fun i => s.host.flash.getD (s.host.rawPage * 4194304 + off + i) 0xFF)
  else if t = 5 then s.feRead off
  else 0xFFFFFFFF

/-- A write through the open raw window: local memory only of a HELD_DOWN Pilot, flash read-only (R516). -/
def rawWrite (off v : Nat) (s : State) : State :=
  let t := s.host.rawTarget
  if t < 4 then
    if s.get Obj.pilotState t = 2 then
      s.withHost { s.host with pilotMem := putBytes 0 s.host.pilotMem (t * 4194304 + off) (leBytes 4 v) }
    else s
  else if t = 5 then feWrite off v s
  else s

end Sys2Proof.Machine
end

