-- ==== Sys2Proof/Machine/Image.lean ====
section
/-! DEFINITION. Boot images (16, 17): their layout and checks, the flash slots, the firmware copies in HBM, and what a
device takes from an image. -/

namespace Sys2Proof.Machine

/-! ### Layout (R494, R497) -/

/-- PAYLOAD_BYTES of an image. -/
def payloadBytes (b : List Byte) : Nat := leAt b 12 4
/-- SECURITY_VERSION of an image. -/
def securityVersion (b : List Byte) : Nat := leAt b 6 2
/-- VERSION of an image. -/
def imageVersion (b : List Byte) : Nat := leAt b 8 4
/-- PAYLOAD_BYTES is valid (R494). -/
def payloadOk (n : Nat) : Bool := n % 16 == 0 && decide (16 ≤ n) && decide (n ≤ 16776864)
/-- Length of an image (R494). -/
def imageLength (b : List Byte) : Nat := 352 + payloadBytes b

/-- The decrypted payload, where GCM_TAG is valid (R494, R495 check 5). -/
def payloadOf (b : List Byte) : Option (List Byte) :=
  Config.aesGcmOpen Config.bootKey (bytesAt b 16 12) (b.take 128) (bytesAt b 256 (payloadBytes b)) (bytesAt b 128 16)

/-- The section table of a payload: TYPE, OFFSET and LENGTH of each entry (R497). -/
def sectionsOf (p : List Byte) : List (Nat × Nat × Nat) :=
  (List.range (leAt p 0 4)).map fun i => (leAt p (8 + 16 * i) 2, leAt p (12 + 16 * i) 4, leAt p (16 + 16 * i) 4)

/-- Two sections share no byte. -/
def apart (a b : Nat × Nat × Nat) : Bool :=
  decide (a.2.1 + a.2.2 ≤ b.2.1) || decide (b.2.1 + b.2.2 ≤ a.2.1) || a.2.2 == 0 || b.2.2 == 0

/-- No section of a list overlaps another. -/
def allApart : List (Nat × Nat × Nat) → Bool
  | [] => true
  | a :: l => l.all (apart a) && allApart l

/-- The first section of a type. -/
def sectionBytes (p : List Byte) (type : Nat) : List Byte :=
  match (sectionsOf p).find? fun e => e.1 == type with
  | some e => bytesAt p e.2.1 e.2.2
  | none => []

/-- Key slots of a KEY_SLOTS section (R497). -/
def keysOf (p : List Byte) : List (List Byte) :=
  let b := sectionBytes p 3
  (List.range (b.length / 32)).map fun i => bytesAt b (32 * i) 32

/-- Hashes of a UCODE_KEY_HASHES section; those beyond it read as zero (R497). -/
def hashesOf (p : List Byte) : List Nat := (List.range 4).map fun i => leAt (sectionBytes p 4) (48 * i) 48

/-- Check 6: the section table is valid, and every required section is present once (R495, R497). -/
def sectionsOk (p : List Byte) : Bool :=
  let n := leAt p 0 4
  let l := sectionsOf p
  let keys := (sectionBytes p 3).length
  let hashes := (sectionBytes p 4).length
  decide (1 ≤ n) && decide (n ≤ 16) && l.all (fun e => decide (1 ≤ e.1) && decide (e.1 ≤ 5) &&
    decide (e.2.1 + e.2.2 ≤ p.length)) && allApart l &&
  ([1, 2, 3, 4] : List Nat).all (fun t => l.countP (·.1 == t) == 1) &&
  keys % 32 == 0 && decide (32 ≤ keys) && decide (keys ≤ 512) &&
  hashes % 48 == 0 && decide (48 ≤ hashes) && decide (hashes ≤ 192)

/-- Check 7: the microcode section passes steps 1 to 4 of R173 against the image's own hashes and key slots. -/
def ucodeSectionOk (p : List Byte) : Bool :=
  let u := sectionBytes p 2
  u.length == 240 + 16 * leAt u 12 4 &&
  match ucodeCheck (keysOf p) (hashesOf p) u with
  | .inl _ => false
  | .inr _ => true

/-! ### Checks (R495) -/

/-- Check 1 of R495. -/
def headerOk (b : List Byte) : Bool :=
  leAt b 0 4 == 0x31424748 && leAt b 4 2 == 1 && payloadOk (payloadBytes b) && leAt b 28 4 == 0 &&
  leAt b 144 112 == 0

/-- Check 3 of R495. -/
def signatureOk (b : List Byte) : Bool :=
  let n := 256 + payloadBytes b
  Config.ecdsaValid (bytesAt b 32 96) (b.take n) (bytesAt b n 96)

/-- The first check of R495 that an image fails against a rollback counter, 0 for none; check 7 only where `all`. -/
def imageCheck (all : Bool) (rollback : Nat) (b : List Byte) : Nat :=
  if !headerOk b then 1
  else if Config.sha384 (bytesAt b 32 96) != Config.vendorKeyHash then 2
  else if !signatureOk b then 3
  else if securityVersion b < rollback then 4
  else match payloadOf b with
    | none => 5
    | some p => if !sectionsOk p then 6 else if all && !ucodeSectionOk p then 7 else 0

/-! ### Flash (R494, R496) -/

/-- Flash offset of a slot: 0 A, 1 B. -/
def slotBase (k : Nat) : Nat := k * 0x2000000

/-- Bytes of the flash.
(DESIGN CHOICE: log entry 71.) -/
def State.flashBytes (s : State) (a n : Nat) : List Byte := (List.range n).map fun i => s.host.flash.getD (a + i) 0xFF

/-- The image in a flash slot; the header alone where its length is not valid. -/
def State.flashImage (s : State) (k : Nat) : List Byte :=
  let head := s.flashBytes (slotBase k) 256
  if payloadOk (payloadBytes head) then s.flashBytes (slotBase k) (imageLength head) else head

/-- The rollback counter (R498). -/
def State.rollback (s : State) : Nat := s.get Obj.rollbackCounter

/-- Try the flash slots in the order of STRAP_SLOT: the slot and image that pass, and the failing checks by slot, in
the order they were met (R495, R496). -/
def State.tryFlash (s : State) : Option (Nat × List Byte) × List (Nat × Nat) :=
  let a := bit01 (bitOf (s.get Obj.straps) 2)
  let first := s.flashImage a
  let second := s.flashImage (1 - a)
  match imageCheck true s.rollback first with
  | 0 => (some (a, first), [])
  | n => match imageCheck true s.rollback second with
    | 0 => (some (1 - a, second), [(a, n)])
    | m => (none, [(a, n), (1 - a, m)])

/-- Report the slots that failed (R495). -/
def slotsFailed (l : List (Nat × Nat)) (s : State) : State :=
  l.foldl (fun s e => raise Ev.bootSlotFailed 0 e.1 e.2 s) s

/-! ### Firmware copies (R514, R524) -/

/-- `s` with another availability state. -/
def State.withAvail (s : State) (a : Avail) : State := { s with avail := a }

/-- The current and previous copies of a stack. -/
def State.copies (s : State) (d : Nat) : Option Image × Option Image := s.avail.copies.getD d (none, none)

/-- Replace the copies in every stack in service; FW_PREVIOUS_VERSION is that of the previous copy. -/
def changeCopies (f : Option Image × Option Image → Option Image × Option Image) (s : State) : State :=
  let s := (List.range 4).foldl (fun s d =>
    if s.deckUp d then s.withAvail { s.avail with copies := s.avail.copies.put d (f (s.copies d)) } else s) s
  match (s.copies s.homeDeck).2 with
  | some i => s.set Obj.fwPreviousVersion 0 (imageVersion i.bytes)
  | none => s

/-- A new current copy: the former one becomes the previous copy (R518, R519). -/
def newCopies (b : List Byte) (s : State) : State := changeCopies (fun c => (some { bytes := b }, c.1)) s

/-- The current copy of a stack, if it is valid and passes checks 1 to 6 (R513). -/
def State.usableCopy (s : State) (d : Nat) : Option (List Byte) :=
  match (s.copies d).1 with
  | some i => if i.valid && imageCheck false s.rollback i.bytes == 0 then some i.bytes else none
  | none => none

/-- A copy that fails a check is marked invalid (R514).
(DEDUCED: log entry 62.) -/
def markCopy (d : Nat) (s : State) : State :=
  match s.copies d with
  | (some i, prev) => s.withAvail { s.avail with copies := s.avail.copies.put d (some { i with valid := false }, prev) }
  | _ => s

/-! ### What the device takes from an image (R497, R520) -/

/-- KEY_SLOTS and UCODE_KEY_HASHES replace the ones held. -/
def takeKeys (p : List Byte) (s : State) : State :=
  let s := s.withParse { s.parse with keys := keysOf p }
  (List.range 4).foldl (fun s i => s.setS Obj.ucodeKeyHash (i + 1) 0 ((hashesOf p).getD i 0)) s

/-- The configuration records of a CONFIG section, back to back at multiples of 4 bytes, and whether a record would
carry past the section's end (R499). -/
def configRecords : Nat → List Byte → List Request × Bool
  | 0, _ => ([], false)
  | fuel + 1, b =>
    if b.length < 16 then ([], decide (b.length ≠ 0))
    else
      let n := 16 + leAt b 10 2
      if b.length < n then ([], true)
      else match parseRequest (b.take n) with
        | none => ([], true)
        | some q =>
          let (l, bad) := configRecords fuel (b.drop (roundUp n 4))
          (q :: l, bad)

end Sys2Proof.Machine
end

