-- ==== Sys2Proof/Machine/Pilots.lean ====
section
/-! DEFINITION. Pilots (17): heartbeats, declarations, leadership, adoption, restart, and live firmware update. -/

namespace Sys2Proof.Machine

/-- A Pilot. -/
def State.pilot (s : State) (d : Nat) : Pilot := s.avail.pilots.getD d {}

/-- Set a Pilot. -/
def setPilot (d : Nat) (x : Pilot) (s : State) : State :=
  s.withAvail { s.avail with pilots := NMap.set {} s.avail.pilots d x }

/-- HEARTBEAT (R510): a RUNNING Pilot sends its heartbeat and kicks its watchdog. -/
def execHeartbeat (d : Deck) (s : State) : Host.Outcome State Fault Refusal :=
  .next (if s.pilotUp d.val then
      setPilot d.val { s.pilot d.val with heartbeatAt := s.time.ticks, kickedAt := s.time.ticks } s
    else s)

/-! ### Leadership (R511) -/

/-- The RUNNING Pilots in ascending number. -/
def State.running (s : State) : List Nat := (List.range 4).filter fun d => s.pilotUp d

/-- The lowest-numbered RUNNING Pilot becomes leader: it recomputes the routes, restarts the servo from HOLDOVER and a
claim in progress from its first step (R511, R522); without a RUNNING Pilot there is no leader.
(DEDUCED: log entry 61.) -/
def electLeader (s : State) : State :=
  match s.running with
  | [] => s.set Obj.leader 0 0xFF
  | d :: _ =>
    let s := (s.set Obj.leader 0 d).bump Obj.leaderTerm
    let s := raise Ev.leaderElected 0 d (s.get Obj.leaderTerm) s
    let s := noteChange s
    let s := if s.get Obj.timeState = 0 then s else setTimeState 3 s
    if s.fabric.claim.isSome then claimCandidate (s.get Obj.deviceId) 0 s else s

/-- A leader that no longer runs is replaced.
(DEDUCED: log entry 61.) -/
def keepLeader (s : State) : State :=
  let l := s.get Obj.leader
  if decide (l < 4) && s.pilotUp l then s else electLeader s

/-! ### What a Pilot carries (R512, R522) -/

/-- Requests that a Pilot had taken and not answered: mailbox requests are answered BUSY, ACP requests get no response,
and a two-wire request waits for the target's BUSY (R512). -/
def dropTaken (d : Nat) (s : State) : State :=
  let slots := (s.host.slots.filter fun e => e.2.state == 1 && e.2.taken == some d && e.2.answer.isNone).map (·.1)
  let twp := s.tw.taken == some d && s.tw.answer.isNone
  let gone (p : Path) : Bool := match p with
    | .mailbox k => slots.contains k.val
    | .twoWire => twp
    | .acp dev k q => match s.acpPending dev.toNat k.val q.toNat with
      | some a => a.taken == some d
      | none => true
    | .boot => false
  let s := dropReplies gone s
  let s := slots.foldl (fun s k => mbFinish k (busyFor (s.slot k).area) s) s
  let s := s.withFabric { s.fabric with acp := s.fabric.acp.filter fun a => a.taken != some d }
  if twp then s.withTw { s.tw with taken := none } else s

/-- A validation that ends with its Pilot: the time since the COMMIT's acceptance is no idle time (R72).
(DEDUCED: log entry 61.) -/
def stopValidation (now : Nat) (x : GroupInst) : GroupInst :=
  match x.validating with
  | some v => { x with validating := none, idleFrom := x.idleFrom + (now - v.since) }
  | none => x

/-- Work of the serving Pilot that its failure ends (R522): commit validations, partial DOMAIN writes, proxy requests and
microcode loads; the step at which a load stood is left open and drawn free.
(DEDUCED: log entry 61.) -/
def dropWork (s : State) : State :=
  let s := s.withDict { s.dict with
    groups := s.dict.groups.map fun e => (e.1, stopValidation s.time.ticks e.2), partials := [] }
  let s := s.fabric.proxies.foldl (fun s e => endProxy e.1 3 s) s
  s.parse.jobs.foldl (fun s e =>
    let j := e.2
    let v := j.first * 2 ^ 32 + j.bytes
    let version := leAt (s.rangeBytes v) 8 4
    let (n, s) := (passBack v (s.withParse { s.parse with jobs := s.parse.jobs.del e.1 })).draw
    raise Ev.ucodeRefused e.1 (n % 5 + 1) version ((s.set (bankObj j.aft) e.1 0).set (versionObj j.aft) e.1 0)) s

/-- A Pilot runs no more: its requests, its work, its sessions at VENDOR (R54) and its leadership end. `before` is the
state in which it still ran. -/
def pilotGone (d : Nat) (before s : State) : State :=
  let s := dropTaken d s
  let s := if before.pilotUp d && before.servingPilot == d then dropWork s else s
  let s := s.withDict { s.dict with vendor := s.dict.vendor.filter (·.2 != d) }
  if before.get Obj.leader = d then electLeader s else s

/-! ### Declaration, adoption, release (R510, R512, R513) -/

/-- The adopter of a Pilot's decks: the first RUNNING one after it (R512). -/
def State.adopter (s : State) (d : Nat) : Option Nat :=
  ([(d + 1) % 4, (d + 2) % 4, (d + 3) % 4] : List Nat).find? fun p => s.pilotUp p

/-- Hold a Pilot's core in reset: PILOT_STATE RESTARTING, and what it carried ends.
(DEDUCED: log entry 61.) -/
def holdPilot (d : Nat) (onPurpose : Bool) (s : State) : State :=
  let before := s
  let s := setPilot d { s.pilot d with declaredAt := s.time.ticks, onPurpose := onPurpose, booting := none }
    (s.set Obj.pilotState d 1)
  pilotGone d before s

/-- Ticks within the last 600 s. -/
def State.recent (s : State) (l : List Nat) : List Nat := l.filter fun t => !s.elapsed t 600000000000

/-- Declare a Pilot failed for a cause (R510, R513). -/
def declarePilot (d cause : Nat) (s : State) : State :=
  let s := holdPilot d false s
  let x := s.pilot d
  let s := setPilot d { x with declared := s.time.ticks :: s.recent x.declared } (s.bump Obj.pilotRestarts d)
  raise Ev.pilotFailed d cause ((s.adopter d).getD 0xFF) s

/-- Code of a declaration's cause (R510). -/
def failCode : PilotFailCause → Nat
  | .watchdog => 1 | .heartbeat => 2 | .gangway => 3 | .memory => 4

/-- The test that a cause of R510 makes. -/
def State.failMet (s : State) (d : Nat) : PilotFailCause → Bool
  | .watchdog => s.elapsed (s.pilot d).kickedAt (s.get Obj.watchdogMs * 1000000)
  | .heartbeat => (s.running.any (· != d)) &&
      s.elapsed (s.pilot d).heartbeatAt (s.get Obj.heartbeatMisses * s.get Obj.heartbeatNs)
  | .gangway => s.get Obj.gangwayState (d * 128 + 103) == 4
  | .memory => true

/-- DECK_ADOPT (R512): the decks that Pilot d served, which runs no more, pass to its adopter.
(DEDUCED: log entry 61.) -/
def execDeckAdopt (d : Deck) (s : State) : Host.Outcome State Fault Refusal :=
  .next (if s.pilotUp d.val then s
    else match s.adopter d.val with
      | none => s
      | some a => (List.range 4).foldl (fun s k =>
          if s.get Obj.servingPilot k = d.val then s.set Obj.servingPilot k a else s) s)

/-- The image that a released Pilot boots: its stack's current copy, else what the flash holds; VERSION and whether it
is the current copy (R513). -/
def bootPilot (d : Nat) (s : State) : State :=
  match s.usableCopy d with
  | some b => setPilot d { s.pilot d with booting := some (imageVersion b, true) } s
  | none =>
    let s := markCopy d s
    let (found, failed) := s.tryFlash
    let s := slotsFailed failed s
    match found with
    | some (_, b) => setPilot d { s.pilot d with booting := some (imageVersion b, true) } s
    | none => s

/-- A Pilot has been declared more often in 600 s than RESTART_LIMIT allows (R513).
(DEDUCED: log entry 61.) -/
def State.overLimit (s : State) (d : Nat) : Bool :=
  let limit := s.get Obj.restartLimit
  limit != 0 && decide (limit < (s.recent (s.pilot d).declared).length) && !(s.pilot d).onPurpose

/-- PILOT_RELEASE (R513): 10 µs after its declaration a Pilot boots, or is held down.
(DEDUCED: log entry 61.) -/
def execPilotRelease (d : Deck) (s : State) : Host.Outcome State Fault Refusal :=
  let d := d.val
  let x := s.pilot d
  .next (if s.get Obj.pilotState d ≠ 1 ∨ x.booting.isSome ∨ !s.elapsed x.declaredAt 10000 then s
    else if s.overLimit d then
      raise Ev.pilotHeldDown d (s.recent x.declared).length 0 (s.set Obj.pilotState d 2)
    else bootPilot d s)

/-! ### Live firmware update (R519 to R521) -/

/-- The next Pilot of an update: RUNNING and not on the current copy, ascending with the leader last (R520). -/
def State.nextUpdate (s : State) : Option Nat :=
  let l := s.running.filter fun d => !(s.pilot d).current
  match l.find? fun d => d != s.get Obj.leader with
  | some d => some d
  | none => l.head?

/-- The current copy of the lowest deck in service.
(DEDUCED: log entry 62.) -/
def State.currentCopy (s : State) : List Byte :=
  match (s.copies s.homeDeck).1 with
  | some i => i.bytes
  | none => []

/-- An update is complete (R520 step 3). -/
def updateDone (s : State) : State :=
  let v := imageVersion s.currentCopy
  let s := ((s.set Obj.fwUpdateState 0 0).set Obj.fwUpdateNext 0 0xFF).set Obj.pilotFirmwareVersion 0 v
  raise Ev.fwUpdateDone 0 v (s.sinceNs s.avail.fw.2) s

/-- Every Pilot is on the current copy: key slots and hashes are replaced, and the flash is written if asked (R520), or
a reversed update ends (R521). -/
def updateEnds (s : State) : State :=
  if s.get Obj.fwUpdateState = 4 then
    let s := (s.set Obj.fwUpdateState 0 0).set Obj.fwUpdateNext 0 0xFF
    raise Ev.fwUpdateFailed 0 s.avail.fwReason.1 s.avail.fwReason.2 s
  else
    let s := match payloadOf s.currentCopy with
      | some p => takeKeys p s
      | none => s
    if s.get Obj.fwFlashSlot = 0 then updateDone s
    else ((s.withAvail { s.avail with fwSlot := s.get Obj.fwFlashSlot }).set Obj.fwUpdateState 0 3).set Obj.fwUpdateNext 0 0xFF

/-- A Pilot that the update restarts is still on its way. -/
def State.updateRestarts (s : State) : Bool :=
  (List.range 4).any fun d => s.get Obj.pilotState d == 1 && (s.pilot d).onPurpose

/-- Restart the next Pilot of an update, or end it, once the one before is RUNNING (R520). -/
def updateStep (s : State) : State :=
  let st := s.get Obj.fwUpdateState
  if (st ≠ 2 ∧ st ≠ 4) ∨ s.updateRestarts then s
  else match s.nextUpdate with
    | some d => (holdPilot d true s).set Obj.fwUpdateNext 0 d
    | none => if s.anyPilot then updateEnds s else s

/-- Reverse an update (R521): the copies exchange roles, and the Pilots on the abandoned image restart.
(DEDUCED: log entry 62.) -/
def reverseUpdate (check pilot : Nat) (s : State) : State :=
  let s := changeCopies (fun c => (c.2, c.1)) (s.set Obj.fwUpdateState 0 4)
  let s := s.withAvail { s.avail with fwReason := (check, pilot) }
  let s := (List.range 4).foldl (fun s d =>
    let x := s.pilot d
    let x := { x with current := !x.current }
    setPilot d (if s.get Obj.pilotState d = 1 then { x with booting := none, declaredAt := s.time.ticks } else x) s) s
  updateStep s

/-- FW_LOAD (R519): its status at acceptance.
(DEDUCED: log entry 11.) (DEDUCED: log entry 62.) -/
def fwLoad (v : Nat) (s : State) : Nat × State :=
  if s.get Obj.fwUpdateState ≠ 0 ∨ (List.range 4).any (fun d => s.get Obj.pilotState d == 2) then (St.busy, refuseLoad v s)
  else if !s.rangeOk v ∨ v % 2 ^ 32 ≠ imageLength (s.rangeBytes v) then (St.badValue, refuseLoad v s)
  else
    let s := quayAsk .dma false (bitsOf v 47 32 * pageSize) (v % 2 ^ 32) s
    (St.ok, (s.set Obj.fwUpdateState 0 1).withAvail { s.avail with fw := (v, s.time.ticks) })

/-- FW_CHECK_DONE (R519).
(DEDUCED: log entry 62.) -/
def execFwCheckDone (s : State) : Host.Outcome State Fault Refusal :=
  .next (if s.get Obj.fwUpdateState ≠ 1 ∨ !s.anyPilot then s
    else
      let v := s.avail.fw.1
      let b := s.rangeBytes v
      let check := imageCheck false s.rollback b
      if check ≠ 0 then
        raise Ev.fwUpdateFailed 0 check 0xFF (passBack v (s.set Obj.fwUpdateState 0 0))
      else
        let s := passBack v (newCopies b (s.set Obj.fwUpdateState 0 2))
        updateStep ((List.range 4).foldl (fun s d => setPilot d { s.pilot d with current := false } s) s))

/-- FW_FLASH_DONE (R515, R520 step 2): a Pilot writes the image to the slot.
(DEDUCED: log entry 62.) -/
def execFwFlashDone (s : State) : Host.Outcome State Fault Refusal :=
  .next (if s.get Obj.fwUpdateState ≠ 3 ∨ !s.power.vddio ∨ !s.anyPilot then s
    else
      let m := putBytes 0xFF s.host.flash (slotBase (s.avail.fwSlot - 1)) s.currentCopy
      updateDone (s.withHost { s.host with flash := m }))

/-- FW_UPDATE_ABORT (R521): its status.
(DEDUCED: log entry 62.) -/
def fwAbort (v : Nat) (s : State) : Nat × State :=
  if v = 0 then (St.ok, s)
  else match s.get Obj.fwUpdateState with
    | 1 => (St.ok, raise Ev.fwUpdateFailed 0 0 0xFF (passBack s.avail.fw.1 (s.set Obj.fwUpdateState 0 0)))
    | 2 => (St.ok, reverseUpdate 0 0xFF s)
    | _ => (St.ok, s)

/-- FW_RESTART_TIMEOUT (R521): a Pilot restarted on the current copy is not RUNNING within 250 ms. -/
def execFwRestartTimeout (d : Deck) (s : State) : Host.Outcome State Fault Refusal :=
  .next (if s.get Obj.fwUpdateState = 2 ∧ s.get Obj.pilotState d.val = 1 ∧
      s.elapsed (s.pilot d.val).declaredAt 250000000 then reverseUpdate 8 d.val s
    else s)

/-- PILOT_FAILED (R510 to R513); in ROLLING, a Pilot that fails within 10 s on the current copy reverses the update
(R521).
(DEDUCED: log entry 61.) -/
def execPilotFailed (d : Deck) (cause : PilotFailCause) (s : State) : Host.Outcome State Fault Refusal :=
  let d := d.val
  .next (if !s.pilotUp d ∨ !s.failMet d cause then s
    else
      let x := s.pilot d
      let early := s.get Obj.fwUpdateState == 2 && x.current && !s.elapsed x.upAt 10000000000
      let s := declarePilot d (failCode cause) s
      if early then reverseUpdate 8 d s else updateStep s)

/-- A Pilot becomes RUNNING (R513): it takes its deck back, and the raw window closes (R516). -/
def pilotRuns (d : Nat) (s : State) : State :=
  let x := s.pilot d
  match x.booting with
  | none => s
  | some (version, current) =>
    let now := s.time.ticks
    let took := s.sinceNs x.declaredAt
    let y : Pilot := { declared := x.declared, declaredAt := x.declaredAt, version := version, current := current,
                       heartbeatAt := now, kickedAt := now, upAt := now }
    let s := (setPilot d y (s.set Obj.pilotState d 0)).set Obj.servingPilot d d
    let s := rawClose (s.withAvail { s.avail with allDownSaid := false })
    updateStep (keepLeader (raise Ev.pilotRestarted d version took s))

/-- PILOT_RESTARTED (R513). -/
def execPilotRestarted (d : Deck) (s : State) : Host.Outcome State Fault Refusal :=
  .next (if s.get Obj.pilotState d.val = 1 then pilotRuns d.val s else s)

/-- PILOT_RESTART (R513): its status; 1 restarts a HELD_DOWN or a RUNNING Pilot.
(DEDUCED: log entry 61.) -/
def restartPilot (d v : Nat) (s : State) : Nat × State :=
  let st := s.get Obj.pilotState d
  if v = 0 then (St.ok, s)
  else if st = 2 then
    (St.ok, setPilot d { s.pilot d with onPurpose := true, declaredAt := s.time.ticks, booting := none }
      (s.set Obj.pilotState d 1))
  else if st = 0 then (St.ok, holdPilot d true s)
  else (St.ok, s)

/-- ALL_PILOTS_DOWN (R515): after start, with no Pilot RUNNING.
(DEDUCED: log entry 61.) -/
def execAllPilotsDown (s : State) : Host.Outcome State Fault Refusal :=
  .next (if s.anyPilot ∨ s.avail.allDownSaid ∨ s.boot.stage ≤ 3 then s
    else
      let s := s.withAvail { s.avail with allDownSaid := true }
      signalVector 63 (raise Ev.allPilotsDown 0 0 0 (setPinCause 1 s)))

end Sys2Proof.Machine
end

