-- ==== Sys2Proof/Machine/Keel.lean ====
section
/-! DEFINITION. The keel store and the rollback counter (16: R498, R501 to R504). -/

namespace Sys2Proof.Machine

/-! ### Calibration values (R501 to R504) -/

/-- Rows of the calibration objects: VALUE, WRITES and ORIGIN (R501). -/
def keelRows : List (ObjRow × ObjRow × ObjRow) :=
  [(Obj.sdTermTrim, Obj.sdTermTrimWrites, Obj.sdTermTrimOrigin),
   (Obj.sdRxOffsetTrim, Obj.sdRxOffsetTrimWrites, Obj.sdRxOffsetTrimOrigin),
   (Obj.sdPllBand, Obj.sdPllBandWrites, Obj.sdPllBandOrigin),
   (Obj.thermOffsetMc, Obj.thermOffsetMcWrites, Obj.thermOffsetMcOrigin),
   (Obj.regVoutTrim, Obj.regVoutTrimWrites, Obj.regVoutTrimOrigin),
   (Obj.hbmDelaySeed, Obj.hbmDelaySeedWrites, Obj.hbmDelaySeedOrigin)]

/-- The rows of a calibration object. -/
def keelRow (index : Nat) : Option (ObjRow × ObjRow × ObjRow) := keelRows.find? fun e => e.1.index == index

/-- Design-centre value of a calibration object (R504). -/
def designCentre (index : Nat) : Nat :=
  match index with
  | 0x9100 => 32 | 0x9101 => 2048 | 0x9102 => 16 | 0x9130 => 0x80000000 | _ => 0

/-- The value that operation uses: the stored one, or the design centre of a corrupt one (R504). -/
def State.keelValue (s : State) (o : ObjRow) (inst : Nat) : Nat :=
  s.boot.keelUsed.getD (addrKey o.index 1 inst) (s.get o inst)

/-- `s` with another start-up state. -/
def State.withBoot (s : State) (b : Boot) : State := { s with boot := b }

/-- Writes of a value that are accepted and not yet stored. -/
def State.keelWaiting (s : State) (key : Nat) : Nat :=
  (s.boot.keelQueue.filter fun j => j.key == key).length + (s.boot.keel.elim 0 fun j => bit01 (j.key == key))

/-- A write of a VALUE (R502, R503): refused with a status, or accepted with its response to come.
(DEDUCED: log entry 69.) -/
def writeKeel (path : Path) (tag : BitVec 16) (index inst v : Nat) (s : State) : Option Nat × State :=
  match keelRow index with
  | none => (some St.noObject, s)
  | some (val, writes, _) =>
    let key := addrKey index 1 inst
    if 10000 ≤ s.get writes inst + s.keelWaiting key then (some St.locked, s)
    else
      let j : KeelJob := { path := some path, tag := tag, key := key, value := v, old := s.get val inst }
      (none, s.withBoot (if s.boot.keel.isNone then { s.boot with keel := some j }
        else { s.boot with keelQueue := s.boot.keelQueue ++ [j] }))

/-- The OK response to a write whose response came later. -/
def lateResponse (tag : BitVec 16) (key : Nat) : Response :=
  { opcode := 2, status := St.ok, tag := tag, index := BitVec.ofNat 16 (key / 2 ^ 24),
    sub := BitVec.ofNat 8 (key / 2 ^ 16), inst := BitVec.ofNat 16 key }

/-- A core regulator's output follows its trim (R501, R566).
(DEDUCED: log entry 69.) -/
def trimOutput (d : Nat) (was now : Nat) (s : State) : State :=
  let mv : Int := s.get Obj.vcoreMv d + toSigned 32 now - toSigned 32 was
  s.set Obj.vcoreMv d (ofSigned 16 mv)

/-- A value is stored: VALUE, WRITES and ORIGIN of the keel store (R502).
(DEDUCED: log entry 69.) -/
def storeKeel (j : KeelJob) (s : State) : State :=
  let index := j.key / 2 ^ 24
  let inst := j.key % 2 ^ 16
  match keelRow index with
  | none => s
  | some (val, writes, origin) =>
    let was := s.keelValue val inst
    let s := ((s.set val inst j.value).bump writes inst).set origin inst 0
    let s := s.withBoot { s.boot with keelUsed := s.boot.keelUsed.del j.key }
    if index = 0x9120 then trimOutput inst was j.value s else s

/-- KEEL_WRITTEN (R502): the write under way is stored and answered, and the next one begins.
(DEDUCED: log entry 69.) -/
def execKeelWritten (s : State) : Host.Outcome State Fault Refusal :=
  .next (match s.boot.keel with
    | none => s
    | some j =>
      let s := storeKeel j s
      let s := s.withBoot { s.boot with keel := s.boot.keelQueue.head?, keelQueue := s.boot.keelQueue.drop 1 }
      let s := raise Ev.keelWritten (j.key % 2 ^ 16) (j.key / 2 ^ 24) j.value s
      answerOpt j.path (lateResponse j.tag j.key) s)

/-- A value is used as the store does not hold it: its check failed, and ORIGIN reads USER (R504). -/
def State.keelOrigin (s : State) (index inst : Nat) : Option Nat :=
  if (s.boot.keelUsed.find (addrKey index 1 inst)).isSome then some 0 else none

/-- A stored value fails its check at stage 4 (R504): the design centre is used, the store is not rewritten, and ORIGIN
reads USER.
(DEDUCED: log entry 69.) -/
def corruptKeel (index inst : Nat) (s : State) : State :=
  match keelRow index with
  | none => s
  | some _ =>
    let used := s.boot.keelUsed.put (addrKey index 1 inst) (designCentre index)
    raise Ev.keelCorrupt inst index 0 (s.withBoot { s.boot with keelUsed := used })

/-- A write that a loss of power or a reset meets leaves the old value or the new one (R502, R577).
(DEDUCED: log entry 69.) -/
def cutKeel (s : State) : State :=
  match s.boot.keel with
  | none => s
  | some j =>
    let (v, s) := s.draw
    if v % 2 = 0 then s else storeKeel j s

/-! ### The rollback counter (R498) -/

/-- A flash slot holds an image that passes checks 1 to 3 with a SECURITY_VERSION below v. -/
def State.slotBelow (s : State) (k v : Nat) : Bool :=
  let b := s.flashImage k
  headerOk b && Config.sha384 (bytesAt b 32 96) == Config.vendorKeyHash && signatureOk b &&
  decide (securityVersion b < v)

/-- SECURITY_VERSION of the running image.
(DEDUCED: log entry 62.) -/
def State.runningSecurity (s : State) : Nat :=
  match (s.copies s.homeDeck).1 with
  | some i => securityVersion i.bytes
  | none => s.get Obj.bootSecurityVersion

/-- A write of ROLLBACK_ADVANCE (R498): refused with a status, or accepted with its response to come.
(DEDUCED: log entry 62.) -/
def writeRollback (path : Path) (tag : BitVec 16) (v : Nat) (s : State) : Option Nat × State :=
  if v ≤ s.rollback ∨ 64 < v then (some St.range, s)
  else if s.runningSecurity < v ∨ s.slotBelow 0 v ∨ s.slotBelow 1 v then (some St.badValue, s)
  else if s.boot.rollback.isSome then (some St.busy, s)
  else
    let j : KeelJob := { path := some path, tag := tag, key := addrKey 0x9012 0 0, value := v, old := s.rollback }
    (none, s.withBoot { s.boot with rollback := some j })

/-- ROLLBACK_ADVANCED (R498). -/
def execRollbackAdvanced (s : State) : Host.Outcome State Fault Refusal :=
  .next (match s.boot.rollback with
    | none => s
    | some j =>
      let s := (s.withBoot { s.boot with rollback := none }).set Obj.rollbackCounter 0 j.value
      answerOpt j.path (lateResponse j.tag j.key) (raise Ev.rollbackAdvanced 0 j.old j.value s))

/-- An advance that a loss of power or a reset meets is complete or not made (R522).
(DEDUCED: log entry 69.) -/
def cutRollback (s : State) : State :=
  match s.boot.rollback with
  | none => s
  | some j =>
    let (v, s) := s.draw
    if v % 2 = 0 then s else s.set Obj.rollbackCounter 0 j.value

/-! ### Reset of the whole device (R490, R565) -/

/-- An object that a reset keeps: the fuses and the keel store. -/
def keptObject (key : Nat) : Bool :=
  let index := key / 2 ^ 24
  index == 0x9011 || (keelRow index).isSome

/-- The whole device is reset, but for the fuses, the keel store, the flash beside it and the pins that the board
drives; it is held until boot start. -/
def resetDevice (s : State) : State :=
  let s := cutRollback (cutKeel s)
  { dict := { active := s.dict.active.filter fun e => keptObject e.1 },
    host := { flash := s.host.flash, perstHigh := s.host.perstHigh },
    power := { vddio := s.power.vddio },
    pending := s.pending, drawn := s.drawn }

end Sys2Proof.Machine
end

