-- ==== Sys2Proof/Machine/Tally.lean ====
section
/-! DEFINITION. Tallies and their random draws (09), and export: IPFIX data records, messages, the staging store and the
templates. -/

namespace Sys2Proof.Machine

/-! ### Random draws (R299, R300) -/

/-- `s` with other flow tables. -/
def State.withFlow (s : State) (x : Flow) : State := { s with flow := x }

/-- State of a pipe's generator; never zero (R299).
(DESIGN CHOICE: log entry 3.) -/
def State.rng (s : State) (p : Nat) : Word64 := s.flow.rng.getD p 1

/-- Set a pipe's generator (R301). -/
def setRng (p : Nat) (x : Word64) (s : State) : State :=
  s.withFlow { s.flow with rng := NMap.set 1 s.flow.rng p x }

/-- One draw: the low 32 bits of the advanced state (R299). -/
def drawRng (p : Nat) (s : State) : Nat × State :=
  let x := xorshift (s.rng p)
  (x.toNat % 2 ^ 32, setRng p x s)

/-! ### Tallies (R294 to R297) -/

/-- The saturated tally. -/
def tallyMax : Nat := 0xFFFFFFFF

/-- The halvings of R296: exponent, mantissa; the tally and whether it saturated. -/
def tallyNorm (p : Nat) : Nat → Nat → Nat → State → (Nat × Bool) × State
  | 0, _, _, s => ((tallyMax, true), s)
  | fuel + 1, e, m, s =>
    if m < 2 ^ 27 then ((e * 2 ^ 27 + m, false), s)
    else if 31 ≤ e then ((tallyMax, true), s)
    else if m % 2 = 1 then
      let (r, s) := drawRng p s
      tallyNorm p fuel (e + 1) (m / 2 + r % 2) s
    else tallyNorm p fuel (e + 1) (m / 2) s

/-- Add an increment to a tally with a pipe's draws: the tally, and whether it has just saturated (R296, R297). -/
def tallyAdd (p t n : Nat) (s : State) : (Nat × Bool) × State :=
  if n = 0 ∨ t = tallyMax then ((t, false), s)
  else
    let e := t / 2 ^ 27
    let m := t % 2 ^ 27 + n / 2 ^ e
    let f := n % 2 ^ e
    if f = 0 then tallyNorm p 33 e m s
    else
      let (r, s) := drawRng p s
      tallyNorm p 33 e (if r % 2 ^ e < f then m + 1 else m) s

/-- The estimate of a tally (R302). -/
def tallyEstimate (t : Nat) : Nat := t % 2 ^ 27 * 2 ^ (t / 2 ^ 27)

/-! ### Endpoints of a record (R215, R216) -/

/-- LOW_ADDR, LOW_PORT, HIGH_ADDR and HIGH_PORT of a record, from its fore half or, for IPv6, its aft half. -/
def recordEnds (r : Fore) (aft : List Byte) : (Nat × Nat) × (Nat × Nat) :=
  if r.family6 then ((leAt aft 0 16, leAt aft 32 2), (leAt aft 16 16, leAt aft 34 2))
  else ((r.keyBits % 2 ^ 32, bitsOf r.keyBits 47 32), (bitsOf r.keyBits 79 48, bitsOf r.keyBits 95 80))

/-- An action enable of a record, by its bit in the ACTIONS byte: 7 XLATE, 6 BALANCE, 5 FILTER, 4 TOLL, 3 HAIRPIN,
0 INSIDE_LOW (R252). -/
def Fore.act (r : Fore) (i : Nat) : Bool := bitOf r.actions i

/-- XKIND (R252). -/
def Fore.xkind (r : Fore) : Nat := bitsOf r.actions 2 1

/-- Low and high endpoint after translation (R305). -/
def State.translatedEnds (s : State) (r : Fore) (aft : List Byte) : (Nat × Nat) × (Nat × Nat) :=
  let (lo, hi) := recordEnds r aft
  if !r.act 7 then (lo, hi)
  else
    let mine : Nat × Nat := if r.xkind = 1 then (leAt aft 36 16, if r.act 0 then lo.2 else hi.2)
      else (s.get Obj.publicAddr (r.xlate / 2 ^ 20), bitsOf r.xlate 19 4)
    let (lo, hi) := if r.act 0 then (mine, hi) else (lo, mine)
    if r.act 3 then
      let resp := (s.get Obj.publicAddr (r.balance / 2 ^ 20), bitsOf r.balance 19 4)
      if r.initLow then (lo, resp) else (resp, hi)
    else (lo, hi)

/-! ### Data records (R305, R306) -/

/-- Full device time in ms. -/
def State.nowMs (s : State) : Nat := s.nowNs / 1000000

/-- The data record of a flow record (R305, R306). -/
def State.dataRecord (s : State) (p : Nat) (r : Fore) (aft : List Byte) (reason : Nat) : List Byte :=
  let n := if r.family6 then 16 else 4
  let (lo, hi) := recordEnds r aft
  let (lo', hi') := s.translatedEnds r aft
  let (a, b) := if r.initLow then (lo, hi) else (hi, lo)
  let (a', b') := if r.initLow then (lo', hi') else (hi', lo')
  let t := s.nowMs
  let end_ := t - (t % 2 ^ 32 + 2 ^ 32 - r.lastSeen) % 2 ^ 32 - 1000 * s.get Obj.exportUtcOffsetS
  beBytes 8 ((r.hash * 256 + p) * 2 ^ 24 + r.slot) ++ beBytes 8 end_ ++ beBytes 8 (tallyEstimate r.tallyPackets) ++
  beBytes 8 (tallyEstimate r.tallyBytes) ++ beBytes 8 (tallyEstimate r.tallyErrored) ++
  beBytes n a.1 ++ beBytes n b.1 ++ beBytes n a'.1 ++ beBytes n b'.1 ++ beBytes 4 r.vrf ++
  beBytes 2 a.2 ++ beBytes 2 b.2 ++ (if r.family6 then [] else beBytes 2 a'.2 ++ beBytes 2 b'.2) ++
  beBytes 1 r.proto ++ beBytes 1 reason

/-- Field specifiers of a template: element and length. -/
def templateFields (v6 : Bool) : List (Nat × Nat) :=
  [(148, 8), (153, 8), (86, 8), (85, 8), (135, 8)] ++
  (if v6 then [(27, 16), (28, 16), (281, 16), (282, 16), (234, 4), (7, 2), (11, 2)]
   else [(8, 4), (12, 4), (225, 4), (226, 4), (234, 4), (7, 2), (11, 2), (227, 2), (228, 2)]) ++ [(4, 1), (136, 1)]

/-- The template set (R306): 132 bytes. -/
def templateSet : List Byte :=
  let one (id : Nat) (fs : List (Nat × Nat)) : List Byte :=
    beBytes 2 id ++ beBytes 2 fs.length ++ fs.flatMap fun f => beBytes 2 f.1 ++ beBytes 2 f.2
  beBytes 2 2 ++ beBytes 2 132 ++ one 256 (templateFields false) ++ one 257 (templateFields true)

/-! ### Messages (R307 to R310) -/

/-- A pipe's export engine. -/
def State.export_ (s : State) (p : Nat) : Export := s.exports.getD p {}

/-- Change a pipe's export engine. -/
def State.setExport (s : State) (p : Nat) (x : Export) : State :=
  let s := { s with exports := NMap.set {} s.exports p x }
  s.set Obj.exportStagedBytes p (x.staging.foldl (fun n m => n + m.1.length) 0)

/-- Data sets of a message: a new set where the family changes (R307). -/
def dataSets : List (Bool × List Byte) → List (Bool × List Byte)
  | [] => []
  | (v, b) :: rest => match dataSets rest with
    | (w, c) :: more => if v = w then (v, b ++ c) :: more else (v, b) :: (w, c) :: more
    | [] => [(v, b)]

/-- Bytes of the data sets. -/
def setsBytes (l : List (Bool × List Byte)) : List Byte :=
  (dataSets l).flatMap fun x => beBytes 2 (if x.1 then 257 else 256) ++ beBytes 2 (4 + x.2.length) ++ x.2

/-- An IPFIX message as it is closed (R307): seconds less the UTC offset, sets; its Sequence Number is put in when it is
written. -/
def State.message (s : State) (p utc : Nat) (sets : List Byte) : List Byte :=
  beBytes 2 10 ++ beBytes 2 (16 + sets.length) ++ beBytes 4 ((s.nowNs / 1000000000 + 2 ^ 32 - utc) % 2 ^ 32) ++
  [0, 0, 0, 0] ++ beBytes 4 (s.get Obj.activeDeviceId * 65536 + p) ++ sets

/-- A message with its Sequence Number: the data records written to the ring before it (R307). -/
def sequenced (seq : Nat) (m : List Byte) : List Byte := m.take 8 ++ beBytes 4 seq ++ m.drop 12

/-- Ring of a pipe's export (R101). -/
def exportRing (p : Nat) : Nat := 12 + p

/-- The export record of a message (R307). -/
def exportRecord (m : List Byte) (n lost : Nat) (templates : Bool) : List Byte :=
  leBytes 1 3 ++ leBytes 1 (2 * bit01 (lost != 0) + bit01 templates) ++ leBytes 2 (16 + m.length) ++
  leBytes 2 m.length ++ leBytes 2 n ++ leBytes 8 lost ++ m

/-- A message goes to the ring, or not: true where it went (R309).
(DEDUCED: log entry 45.) -/
def exportWrite (p : Nat) (m : List Byte × Nat × Bool) (s : State) : Bool × State :=
  let x := s.export_ p
  match produce (exportRing p) (exportRecord (sequenced x.seq m.1) m.2.1 x.lost m.2.2) s with
  | (true, s) =>
    let s := s.setExport p { s.export_ p with lost := 0, seq := (x.seq + m.2.1) % 2 ^ 32 }
    (true, (s.add Obj.exportRecords p m.2.1).bump Obj.exportMessages p)
  | (false, s) => (false, s)

/-- Size of a pipe's staging store (R309). -/
def stagingSize : Nat := 120 * 1048576

/-- Discarding for want of room in the staging store ends, where it had begun (R309). -/
def endDiscard (p : Nat) (s : State) : State :=
  let x := s.export_ p
  match x.discarding with
  | some n => raise Ev.exportStagingFull p 1 n (s.setExport p { x with discarding := none })
  | none => s

/-- A message goes to the back of the staging store, a burst for each 64 bytes, or is discarded where that is full
(R309). -/
def stageMessage (p : Nat) (m : List Byte × Nat × Bool) (s : State) : State :=
  let x := s.export_ p
  let staged := s.get Obj.exportStagedBytes p
  if staged + m.1.length ≤ stagingSize then
    endDiscard p (wantBurst .exporter true p (stagingOffset + staged) (s.setExport p { x with staging := x.staging ++ [m] })
      (ceilDiv m.1.length 64))
  else
    let s := if x.discarding.isNone then raise Ev.exportStagingFull p 0 0 s else s
    (s.setExport p { s.export_ p with lost := x.lost + m.2.1, discarding := some (x.discarding.getD 0 + m.2.1) }).add
      Obj.exportLost p m.2.1

/-- Queue a message: to the ring, to the staging store, or discarded where that is full (R309).
(DEDUCED: log entry 45.) -/
def exportQueue (p : Nat) (m : List Byte × Nat × Bool) (s : State) : State :=
  if s.ringPages (exportRing p) = 0 then s
  else if (s.export_ p).staging = [] then
    match exportWrite p m s with
    | (true, s) => endDiscard p s
    | (false, s) => stageMessage p m s
  else stageMessage p m s

/-- The message at the front of the staging store is read poisoned (R398); where in the store it lies is not stated,
so while a burst of the store is poisoned a free value says whether the message touches it. -/
def stagedPoison (p : Nat) (s : State) : Bool × State :=
  if s.poisonIn p stagingOffset stagingSize then
    let (v, s) := s.draw
    (v % 2 == 1, s)
  else (false, s)

/-- A message is discarded from the front of the staging store, its records counted as lost (R309, R398). -/
def loseStaged (p n : Nat) (rest : List (List Byte × Nat × Bool)) (s : State) : State :=
  let x := s.export_ p
  (s.setExport p { x with staging := rest, lost := x.lost + n }).add Obj.exportLost p n

/-- Messages leave the staging store while the ring has room (R309).
(DEDUCED: log entry 45.) -/
def drainStaging (p : Nat) : Nat → State → State
  | 0, s => s
  | fuel + 1, s => match (s.export_ p).staging with
    | [] => s
    | m :: rest => match stagedPoison p s with
      | (true, s) => drainStaging p fuel (loseStaged p m.2.1 rest s)
      | (false, s) => match exportWrite p m s with
        | (true, s) => drainStaging p fuel (wantBurst .exporter false p stagingOffset
            (s.setExport p { s.export_ p with staging := rest }) (ceilDiv m.1.length 64))
        | (false, s) => s

/-- Close the open message and queue it (R308).
(DEDUCED: log entry 45.) -/
def closeMessage (p utc : Nat) (s : State) : State :=
  let x := s.export_ p
  if x.open_ = [] then s
  else exportQueue p (s.message p utc (setsBytes x.open_), x.open_.length, false)
    (s.setExport p { x with open_ := [] })

/-- Queue a template message (R308). -/
def queueTemplate (p : Nat) (s : State) : State :=
  let s := s.setExport p { s.export_ p with templateAt := some s.time.ticks }
  exportQueue p (s.message p (s.get Obj.exportUtcOffsetS) templateSet, 0, true) s

/-- Export is on for a pipe (R304, R310). -/
def State.exports_ (s : State) (p : Nat) : Bool := s.get Obj.exportEnable == 1 && s.ringPages (exportRing p) != 0

/-- Build the data record of a flow record (R304, R308). -/
def buildRecord (p : Nat) (r : Fore) (aft : List Byte) (reason : Nat) (s : State) : State :=
  if !s.exports_ p then s
  else
    let b := (r.family6, s.dataRecord p r aft reason)
    let utc := s.get Obj.exportUtcOffsetS
    let fits := 16 + (setsBytes ((s.export_ p).open_ ++ [b])).length ≤ s.get Obj.exportMessageBytes
    let s := if fits then s else closeMessage p utc s
    let x := s.export_ p
    let s := s.setExport p { x with open_ := x.open_ ++ [b],
                                    openedAt := if x.open_ = [] then s.time.ticks else x.openedAt }
    if s.get Obj.exportFlushNs = 0 then closeMessage p utc s else s

/-- R308: EXPORT_FLUSH_NS runs out on the open message. -/
def execExportFlush (p : Pipe) (s : State) : Host.Outcome State Fault Refusal :=
  let x := s.export_ p.val
  .next (if x.open_ ≠ [] ∧ s.elapsed x.openedAt (s.get Obj.exportFlushNs) then
      closeMessage p.val (s.get Obj.exportUtcOffsetS) s
    else s)

/-- R308: a template message falls due. -/
def execExportTemplate (p : Pipe) (s : State) : Host.Outcome State Fault Refusal :=
  let period := s.get Obj.exportTemplatePeriodS
  let due := match (s.export_ p.val).templateAt with
    | some t => s.elapsed t (period * 1000000000)
    | none => true
  .next (if s.exports_ p.val && period != 0 && due then queueTemplate p.val s else s)

/-- The staging store and the open message are emptied without export (R310). -/
def emptyExport (p : Nat) (s : State) : State :=
  s.setExport p { s.export_ p with open_ := [], staging := [], templateAt := none }

/-- Switch-over of EXPORT_CONFIG (R308, R310); `old` is the state before the new values. -/
def applyExport (old : State) (s : State) : State :=
  (List.range 8).foldl (fun s p =>
    let s := closeMessage p (old.get Obj.exportUtcOffsetS) s
    if s.get Obj.exportEnable = 0 then emptyExport p s
    else if old.get Obj.exportEnable = 0 ∧ s.exports_ p then queueTemplate p s else s) s

end Sys2Proof.Machine
end

