-- ==== Sys2Proof/Machine/Nat.lean ====
section
/-! DEFINITION. NAT44 (08): the port-block map and its column operations (R264 to R269), and the binding caches (R271,
R276). -/

namespace Sys2Proof.Machine

/-! ### The port-block map (R265, R266) -/

/-- Number of a map entry. -/
def natKey (q c r : Nat) : Nat := q * 65536 + c * 16 + r

/-- An entry of a pool's map; unlisted entries are FREE. -/
def State.natEntry (s : State) (q c r : Nat) : Nat := s.flow.nat.getD (natKey q c r) 0

/-- STATE of a map entry: 0 FREE, 1 BOUND, 2 STATIC. -/
def natState (e : Nat) : Nat := bitsOf e 15 14

/-- An entry's SLB bit.
(DEDUCED: log entry 37.) -/
def natSlb (e : Nat) : Bool := bitOf e 13

/-- Inside address of an entry. -/
def natAddr (e : Nat) : Nat := bitsOf e 63 32

/-- Inside port of an entry. -/
def natPort (e : Nat) : Nat := bitsOf e 31 16

/-- REFS or SERVICE of an entry. -/
def natRefs (e : Nat) : Nat := bitsOf e 11 0

/-- Binding-cache index of a pool's port (R276). -/
def bcacheIndex (q P : Nat) : Nat := crc32c (beBytes 2 q ++ beBytes 2 P) % 32768

/-- The binding-cache entries of a pool's port are invalidated in every pipe (R267). -/
def dropBindings (q P : Nat) (s : State) : State :=
  let forget (m : NMap (Nat × Nat × Nat)) (p : Nat) : NMap (Nat × Nat × Nat) :=
    let k := p * 32768 + bcacheIndex q P
    match m.find k with
    | some x => if x.1 = q ∧ x.2.1 = P then m.del k else m
    | none => m
  s.withFlow { s.flow with bcache := (List.range 8).foldl forget s.flow.bcache }

/-- Write a map entry of a row 1 to 15: the caches forget it, and BINDINGS counts the entries that are not FREE. -/
def setNat (q c r v : Nat) (s : State) : State :=
  let was := bit01 (natState (s.natEntry q c r) != 0)
  let s := dropBindings q (r * 4096 + c) s
  let s := s.withFlow { s.flow with nat := NMap.set 0 s.flow.nat (natKey q c r) v }
  s.set Obj.bindings q (s.get Obj.bindings q + bit01 (natState v != 0) - was)

/-- Set CURSOR of a column (R266). -/
def setCursor (q c r : Nat) (s : State) : State :=
  s.withFlow { s.flow with nat := NMap.set 0 s.flow.nat (natKey q c 0) r }

/-- A burst of the column is poisoned (R398). -/
def State.columnPoisoned (s : State) (q c : Nat) : Bool := s.poisonIn (c % 8) (natOffset q c 0) 128

/-- The column lies on a lost deck (R266, R528), or a burst of it is poisoned (R398).
(DEDUCED: log entry 36.) -/
def State.columnLost (s : State) (q c : Nat) : Bool := !s.deckUp (deckOfPipe (c % 8)) || s.columnPoisoned q c

/-- The bursts of a column operation or a binding read, charged to the lookups of pipe c mod 8 (R267, R278): `n` of the
column from the one that holds row `r` on. -/
def columnBurst (write : Bool) (q c r n : Nat) (s : State) : State :=
  if s.deckUp (deckOfPipe (c % 8)) then wantBurst .lookup write (c % 8) (natOffset q c (r / 8 * 8)) s n else s

/-- A row of a column is read and written: one burst each (R267, R278). -/
def columnUpdate (q c r : Nat) (s : State) : State := columnBurst true q c r 1 (columnBurst false q c r 1 s)

/-- ARG1 of the binding events (R293). -/
def natArg (e : Nat) : Nat := natAddr e * 65536 + natPort e

/-! ### Column operations (R267 to R269) -/

/-- Column of a new binding (R268). -/
def State.natColumn (s : State) (q hash a p : Nat) : Nat :=
  if s.get Obj.mapping q = 1 then crc32c (beBytes 2 (s.get Obj.insideVrf q) ++ beBytes 4 a ++ beBytes 2 p) / 2 ^ 20
  else hash / 2 ^ 20

/-- The row of a column that binds an inside endpoint under endpoint-independent mapping (R268); a binding of a
balanced flow has no reference count, and is not shared.
(DEDUCED: log entry 37.) -/
def State.eimRow (s : State) (q c a p : Nat) : Option Nat :=
  ((List.range 15).map (· + 1)).find? fun r =>
    let e := s.natEntry q c r
    natState e != 0 && bitOf e 12 && !natSlb e && natAddr e == a && natPort e == p

/-- The first FREE row after CURSOR, rows 1 to 15 in turn (R268). -/
def State.freeRow (s : State) (q c : Nat) : Option Nat :=
  let cur := s.natEntry q c 0 % 16
  ((List.range 15).map fun i => (cur + i) % 15 + 1).find? fun r => natState (s.natEntry q c r) == 0

/-- One more reference to a row that has been read: none where REFS is full (R268, R272).
(DEDUCED: log entry 36.) -/
def addReference (q c r : Nat) (s : State) : Option Nat × State :=
  let e := s.natEntry q c r
  if natRefs e = 4095 then (none, s)
  else (some (r * 4096 + c), columnBurst true q c r 1 (setNat q c r (e + 1) s))

/-- Allocate in one pool (R268): the public port. The binding of a balanced flow is its own: its one entry carries the
service (R284).
(DEDUCED: log entry 37.) -/
def columnAllocate (q hash a p : Nat) (service : Option Nat) (s : State) : Option Nat × State :=
  let eim := s.get Obj.mapping q == 1
  let c := s.natColumn q hash a p
  let s := columnBurst false q c 0 2 s
  if s.columnLost q c then (none, s)
  else match (if eim && service.isNone then s.eimRow q c a p else none) with
    | some r => addReference q c r s
    | none => match s.freeRow q c with
      | none => (none, s)
      | some r =>
        let low := match service with
          | some v => 2 ^ 13 + v
          | none => 1
        let e := a * 2 ^ 32 + p * 65536 + 2 ^ 14 + bit01 eim * 2 ^ 12 + low
        let s := columnBurst true q c 0 (r / 8 + 1) (setCursor q c r (setNat q c r e s))
        (some (r * 4096 + c), raise Ev.natBound q (r * 4096 + c) (natArg e) s)

/-- The loop of R268 over a pool set: pool and public port, or the pool and column where it ended; a poisoned column or one of a
lost deck ends it (R398, R528). -/
def bindLoop (first count hash a p : Nat) (service : Option Nat) : Nat → Nat → Nat → State →
    (Option (Nat × Nat) × Nat × Nat) × State
  | 0, q, c, s => ((none, q, c), s)
  | fuel + 1, q, _, s =>
    let c := s.natColumn q hash a p
    match columnAllocate q hash a p service s with
    | (some P, s) => ((some (q, P), q, c), s)
    | (none, s) =>
      if s.columnLost q c then ((none, q, c), s)
      else bindLoop first count hash a p service fuel (first + (q - first + 1) % count) c s

/-- A source binding from a pool set (R268): pool and public port; a failure is counted and reported.
(DEDUCED: log entry 36.) -/
def bindSource (first count hash a p : Nat) (service : Option Nat) (s : State) : Option (Nat × Nat) × State :=
  let q := first + crc32c (beBytes 4 a) % count
  let n := if s.get Obj.spill q = 1 then count else 1
  match bindLoop first count hash a p service n q 0 s with
  | ((some b, _, _), s) => (some b, s)
  | ((none, q, c), s) => (none, raise Ev.natBindFailed q c hash (s.bump Obj.bindFails q))

/-- Add a reference to the binding of a public port; none where there is none to refer to (R272). -/
def columnReference (q P : Nat) (s : State) : Option Nat × State :=
  let e := s.natEntry q (P % 4096) (P / 4096)
  let s := columnBurst false q (P % 4096) (P / 4096) 1 s
  if P < 4096 ∨ natState e = 0 ∨ natSlb e ∨ s.columnLost q (P % 4096) then (none, s)
  else addReference q (P % 4096) (P / 4096) s

/-- Release one use of the binding of a public port (R269). -/
def columnRelease (q P : Nat) (s : State) : State :=
  let c := P % 4096
  let r := P / 4096
  let e := s.natEntry q c r
  let s := columnUpdate q c r s
  if P < 4096 ∨ natState e = 0 ∨ s.columnLost q c then s
  else if natState e = 1 ∧ (natSlb e ∨ natRefs e ≤ 1) then
    raise Ev.natReleased q P (natArg e) (setNat q c r 0 s)
  else if natRefs e = 0 then s
  else setNat q c r (e - 1) s

/-- R267: one column operation of a memory controller.
(DESIGN CHOICE: log entry 74.) -/
def execNatColumnOperation (op : ColumnOp) (s : State) : Host.Outcome State Fault Refusal :=
  .next (match op with
    | .allocate q h a p v => (columnAllocate q.val h.toNat a.toNat p.toNat (v.map Fin.val) s).2
    | .reference q P => (columnReference q.val P.toNat s).2
    | .release q P => columnRelease q.val P.toNat s)

/-! ### Reading a binding (R271, R276) -/

/-- The binding of a steered frame at a pipe: the entry, and whether the pipe's cache held it. -/
def readBinding (p q P : Nat) (s : State) : (Nat × Bool) × State :=
  let k := p * 32768 + bcacheIndex q P
  let e := if s.columnLost q (P % 4096) then 0 else s.natEntry q (P % 4096) (P / 4096)
  let miss (s : State) : (Nat × Bool) × State :=
    let s := columnBurst false q (P % 4096) (P / 4096) 1 s
    ((e, false), (s.withFlow { s.flow with bcache := s.flow.bcache.put k (q, P, e) }).bump Obj.bcacheMisses p)
  match s.flow.bcache.find k with
  | some x => if x.1 = q ∧ x.2.1 = P then ((x.2.2, true), s.bump Obj.bcacheHits p) else miss s
  | none => miss s

/-- Validation of NAT_POOL of a pool (R264): a pool with bindings keeps its address, VRFs and kind. -/
def validatePool (q : Nat) (s : State) : Failed :=
  if s.get Obj.bindings q = 0 then none
  else firstFail ([Obj.poolKind, Obj.publicAddr, Obj.outsideVrf, Obj.insideVrf].map fun o =>
    if s.staged o q = s.get o q then none else some (St.badValue, addrKey o.index o.sub q))

end Sys2Proof.Machine
end

