-- ==== Sys2Proof/Machine/Policy.lean ====
section
/-! DEFINITION. What the flow actions read (08): policy rules and zones (R255, R256), services and their members (R281 to
R285), next hops (R287), toll profiles (R288 to R290), and the validations and switch-overs of their commit groups. -/

namespace Sys2Proof.Machine

/-! ### Rules (R256) -/

/-- A policy rule. -/
structure Rule where
  initZone : Nat
  respZone : Nat
  proto : Nat
  windowCheck : Bool
  pickup : Bool
  pin : Bool
  portLo : Nat
  portHi : Nat
  /-- 0 ALLOW, 1 DENY, 2 DENY_RECORD, 3 PUNT. -/
  verdict : Nat
  nat : Bool
  poolFirst : Nat
  poolCount : Nat
  toll : Option Nat
  telemetry : Option Nat
  deriving DecidableEq, Repr

/-- The rule that starts at byte `o` of POLICY_RULES. -/
def parseRule (bs : List Byte) (o : Nat) : Rule :=
  let flags := byteAt bs (o + 5)
  let n := leAt bs (o + 12) 2
  let t := leAt bs (o + 16) 2
  let m := byteAt bs (o + 18)
  { initZone := leAt bs o 2 % 4096, respZone := leAt bs (o + 2) 2 % 4096, proto := byteAt bs (o + 4),
    windowCheck := bitOf flags 7, pickup := bitOf flags 6, pin := bitOf flags 5,
    portLo := leAt bs (o + 6) 2, portHi := leAt bs (o + 8) 2, verdict := byteAt bs (o + 10),
    nat := bitOf n 15, poolFirst := n % 4096, poolCount := byteAt bs (o + 14),
    toll := if bitOf t 15 then some (t % 4096) else none,
    telemetry := if bitOf m 7 then some (m % 16) else none }

/-- The rules of a POLICY_RULES value, in index order. -/
def parseRules (bs : List Byte) : List Rule := (List.range (bs.length / 32)).map fun i => parseRule bs (32 * i)

/-- Reserved bits of a rule are zero, and its verdict and pool count are in their ranges.
(DEDUCED: log entry 43.) -/
def ruleWhole (bs : List Byte) (o : Nat) : Bool :=
  let r := parseRule bs o
  leAt bs o 2 / 4096 == 0 && leAt bs (o + 2) 2 / 4096 == 0 && byteAt bs (o + 5) % 32 == 0 && byteAt bs (o + 11) == 0 &&
  bitsOf (leAt bs (o + 12) 2) 14 12 == 0 && byteAt bs (o + 15) == 0 && bitsOf (leAt bs (o + 16) 2) 14 12 == 0 &&
  bitsOf (byteAt bs (o + 18)) 6 4 == 0 && leAt bs (o + 19) 13 == 0 && decide (r.verdict < 4) &&
  (!r.nat || r.poolCount != 0)

/-- A rule matches a creating frame (R256). -/
def Rule.matches_ (r : Rule) (initZone respZone proto port : Nat) : Bool :=
  (r.initZone == 0xFFF || r.initZone == initZone) && (r.respZone == 0xFFF || r.respZone == respZone) &&
  (r.proto == 0 || r.proto == proto) && decide (r.portLo ≤ port) && decide (port ≤ r.portHi)

/-- The first rule that matches, with its index (R256). -/
def findRule (initZone respZone proto port : Nat) : Nat → List Rule → Option (Nat × Rule)
  | _, [] => none
  | i, r :: rs =>
    if r.matches_ initZone respZone proto port then some (i, r) else findRule initZone respZone proto port (i + 1) rs

/-- A rule's pool set is refused (R256), under the kinds and VRFs that `kind` and `vrf` give. -/
def poolSetBad (kind : Nat → Nat) (vrf : Nat → Nat × Nat) (r : Rule) : Bool :=
  r.nat && (decide (4096 < r.poolFirst + r.poolCount) || (kind r.poolFirst == 2 && decide (1 < r.poolCount)) ||
    (List.range r.poolCount).any fun i =>
      kind (r.poolFirst + i) != kind r.poolFirst || vrf (r.poolFirst + i) != vrf r.poolFirst)

/-- Validation of ZONE_POLICY (R256, R287).
(DEDUCED: log entry 43.) -/
def validateZonePolicy (s : State) : Failed :=
  let bs := s.stagedDom Obj.policyRules
  let hops := s.stagedDom Obj.nextHops
  let kind (q : Nat) : Nat := s.get Obj.poolKind q
  let vrf (q : Nat) : Nat × Nat := (s.get Obj.outsideVrf q, s.get Obj.insideVrf q)
  if bs.length % 32 ≠ 0 ∨ (List.range (bs.length / 32)).any (fun i => !ruleWhole bs (32 * i)) ∨
      (parseRules bs).any (poolSetBad kind vrf) then some (St.badValue, addrKey 0x4001 0 0)
  else if hops.length % 16 ≠ 0 then some (St.badValue, addrKey 0x4004 0 0)
  else none

/-- Validation of NAT_POOL against the rules in force (R256, R264).
(DEDUCED: log entry 37.) -/
def validateNatPool (q : Nat) (s : State) : Failed :=
  let kind (i : Nat) : Nat := if i = q then s.staged Obj.poolKind i else s.get Obj.poolKind i
  let vrf (i : Nat) : Nat × Nat :=
    if i = q then (s.staged Obj.outsideVrf i, s.staged Obj.insideVrf i) else (s.get Obj.outsideVrf i, s.get Obj.insideVrf i)
  firstFail [validatePool q s,
    if (parseRules (s.getDom Obj.policyRules)).any (poolSetBad kind vrf) then some (St.badValue, addrKey 0x4100 1 q)
    else none]

/-! ### Next hops (R287) -/

/-- A next hop. -/
structure Hop where
  dmac : List Byte
  smac : List Byte
  port : Nat
  cls : Nat
  deriving DecidableEq, Repr

/-- A usable next hop: VALID, within the DOMAIN, and naming an egress port. -/
def State.hop (s : State) (n : Nat) : Option Hop :=
  let bs := s.getDom Obj.nextHops
  let o := 16 * n
  let port := leAt bs (o + 12) 2
  if o + 16 ≤ bs.length ∧ bitOf (byteAt bs (o + 14)) 7 ∧ isEgress port then
    some { dmac := beBytes 6 (leAt bs o 6), smac := beBytes 6 (leAt bs (o + 6) 6), port := port,
           cls := byteAt bs (o + 14) % 16 }
  else none

/-! ### Services (R281, R282, R285) -/

/-- Services that are enabled, lowest first. -/
def State.services (s : State) : List Nat :=
  (s.dict.active.inRange (addrKey 0x4200 1 0) 65536).map fun e => e.1 % 65536

/-- VIP and VPORT of a service as an endpoint of a key. -/
def State.vipEnd (s : State) (v : Nat) : Nat := endpoint (addr16 (s.get Obj.vip v)) (s.get Obj.vport v)

/-- The service that a creating frame's key matches (R281).
(DEDUCED: log entry 36.) -/
def State.serviceOf (s : State) (k : RawKey) : Option Nat :=
  s.services.find? fun v => s.get Obj.serviceEnable v == 1 && k.vrf == s.get Obj.serviceVrf v &&
    k.proto == s.get Obj.serviceProto v && k.family == s.get Obj.vipFamily v && k.dst == s.vipEnd v

/-- A member of a service: address, port, UP, NEXT_HOP. -/
structure Member where
  addr : Nat
  port : Nat
  up : Bool
  hop : Nat
  deriving DecidableEq, Repr

/-- Member `m` of a MEMBERS value.
(DEDUCED: log entry 43.) -/
def memberOf (bs : List Byte) (m : Nat) : Member :=
  let w := leAt bs (32 * m + 18) 2
  { addr := leAt bs (32 * m) 16, port := leAt bs (32 * m + 16) 2, up := bitOf w 15, hop := w % 4096 }

/-- A service's member. -/
def State.member (s : State) (v m : Nat) : Member := memberOf (s.getDom Obj.members v) m

/-- A slot of a service's active slot table. -/
def State.slbSlot (s : State) (v i : Nat) : Nat := s.flow.slbSlots.getD (v * 65536 + i) 0

/-- A slot as staged (R112). -/
def State.slbStaged (s : State) (v i : Nat) : Nat := s.flow.slbStaged.getD (v * 65536 + i) (s.slbSlot v i)

/-- Start index of a flow in a service's slot table (R282). -/
def State.slbStart (s : State) (v hash : Nat) (k : RawKey) : Nat :=
  let x := if s.get Obj.affinity v = 1 then crc32c (beBytes (if k.family = 6 then 16 else 4) (k.src / 65536)) else hash
  Nat.xor x (s.get Obj.slotSeed v) % 2 ^ s.get Obj.slotLog2 v

/-- The member chosen for a flow (R282). -/
def State.chooseMember (s : State) (v start : Nat) : Option Nat :=
  (List.range 8).findSome? fun i =>
    let e := s.slbSlot v ((start + i) % 2 ^ s.get Obj.slotLog2 v)
    if bitOf e 15 && (s.member v (e % 1024)).up then some (e % 1024) else none

/-- A member's family, none for an unused entry: IPv4 stands in [31:0] (R285).
(DEDUCED: log entry 43.) -/
def Member.family (m : Member) : Option Nat := if m.addr = 0 then none else some (if m.addr < 2 ^ 32 then 4 else 6)

/-- Validation of SLB_SERVICE (R284, R285).
(DEDUCED: log entry 43.) -/
def validateService (v : Nat) (s : State) : Failed :=
  let bs := s.stagedDom Obj.members v
  let fam := s.staged Obj.vipFamily v
  let count := s.staged Obj.snatPoolCount v
  let first := s.staged Obj.snatPoolFirst v
  let bad (sub : Nat) : Failed := some (St.badValue, addrKey 0x4200 sub v)
  firstFail [
    if fam = 6 ∧ count ≠ 0 then bad 0x0B else none,
    if 4096 < first + count ∨ (List.range count).any (fun i =>
      s.get Obj.insideVrf (first + i) != s.staged Obj.serviceVrf v) then bad 0x0A else none,
    if bs.length % 32 ≠ 0 then bad 0x0C else none,
    if (List.range (bs.length / 32)).any (fun m => match (memberOf bs m).family with
        | some f => f != fam
        | none => false) then bad 0x0C else none,
    if (List.range (2 ^ s.staged Obj.slotLog2 v)).any (fun i =>
      bitOf (s.slbStaged v i) 15 && decide (bs.length / 32 ≤ s.slbStaged v i % 1024)) then bad 0x0C else none]

/-- Switch-over of SLB_SERVICE: the staged slots become active (R283), but for a service whose deck is lost (R529). -/
def applyService (v : Nat) (s : State) : State :=
  let x := s.flow
  let staged := if s.deckUp (deckOfPipe (v % 8)) then x.slbStaged.inRange (v * 65536) 65536 else []
  s.withFlow { x with slbSlots := staged.foldl (fun m e => NMap.set 0 m e.1 e.2) x.slbSlots,
                      slbStaged := x.slbStaged.delRange (v * 65536) 65536 }

/-! ### Toll profiles (R288) -/

/-- A toll profile as the device derives it at commit. -/
structure Profile where
  /-- 1 SINGLE_RATE, 2 TWO_RATE. -/
  mode : Nat
  rateC : Nat
  rateP : Nat
  quantumC : Nat
  quantumP : Nat
  shift : Nat
  fullMs : Nat
  deriving DecidableEq, Repr

/-- Quantum of a bucket (R288); a bucket of size 0 counts single bytes.
(DEDUCED: log entry 39.) -/
def quantumOf (size : Nat) : Nat := Nat.max 1 (ceilDiv size 4095)

/-- Time in ns to fill `size` bytes at `rate` b/s, rounded up; 0 where the rate is 0.
(DEDUCED: log entry 39.) -/
def fillNs (size rate : Nat) : Nat := if rate = 0 then 0 else ceilDiv (size * 8000000000) rate

/-- Time in ns to fill every bucket of a profile from empty: bucket P of SINGLE_RATE fills from C's overflow.
(DEDUCED: log entry 39.) -/
def profileFill (mode cir cbs pir pbs : Nat) : Nat :=
  if mode = 1 then fillNs (cbs + pbs) cir else Nat.max (fillNs cbs cir) (fillNs pbs pir)

/-- TICK_SHIFT of a fill time (R288). -/
def tickShiftOf (fill : Nat) : Option Nat :=
  ((List.range 17).map (· + 10)).find? fun k => decide (fill + 3000000 ≤ 4096 * 2 ^ k)

/-- The profile that a mode, rates and sizes make; none where R288 refuses it. -/
def profileOf (mode cir cbs pir pbs : Nat) : Option Profile :=
  if (cir ≠ 0 ∧ cbs = 0) ∨ (mode = 2 ∧ pir ≠ 0 ∧ pbs = 0) then none
  else
    let fill := profileFill mode cir cbs pir pbs
    (tickShiftOf fill).map fun k =>
      { mode := mode, rateC := cir, rateP := if mode = 1 then cir else pir, quantumC := quantumOf cbs,
        quantumP := quantumOf pbs, shift := k, fullMs := ceilDiv fill 1000000 + 1 }

/-- A toll profile in force; none while its mode is OFF. -/
def State.profile (s : State) (t : Nat) : Option Profile :=
  if s.get Obj.tollMode t = 0 then none
  else profileOf (s.get Obj.tollMode t) (s.get Obj.cirBps t) (s.get Obj.cbsBytes t) (s.get Obj.pirBps t)
    (s.get Obj.pbsBytes t)

/-- Validation of TOLL_PROFILE (R288).
(DEDUCED: log entry 39.) -/
def validateToll (t : Nat) (s : State) : Failed :=
  let mode := s.staged Obj.tollMode t
  let cir := s.staged Obj.cirBps t
  let pir := s.staged Obj.pirBps t
  if mode = 0 then none
  else if cir ≠ 0 ∧ s.staged Obj.cbsBytes t = 0 then some (St.badValue, addrKey 0x4300 3 t)
  else if mode = 2 ∧ pir ≠ 0 ∧ s.staged Obj.pbsBytes t = 0 then some (St.badValue, addrKey 0x4300 5 t)
  else match profileOf mode cir (s.staged Obj.cbsBytes t) pir (s.staged Obj.pbsBytes t) with
    | some _ => none
    | none => some (St.badValue, addrKey 0x4300 2 t)

/-- Switch-over of TOLL_PROFILE: TICK_SHIFT is derived anew (R288). -/
def applyToll (t : Nat) (s : State) : State :=
  match s.profile t with
  | some x => s.set Obj.tickShift t x.shift
  | none => s

/-! ### Toll evaluation (R289) -/

/-- now_tick of a profile. -/
def State.tollTick (s : State) (x : Profile) : Nat := s.nowNs % 2 ^ 64 / 2 ^ x.shift % 4096

/-- TOLL_STATE with full buckets (R254 step 7).
(DEDUCED: log entry 39.) -/
def State.tollFull (s : State) (t : Nat) (x : Profile) : Nat :=
  t * 2 ^ 36 + s.tollTick x * 2 ^ 24 + 4095 * 4096 + 4095

/-- Rate per tick of a bucket, in quanta with 32 fractional bits, rounded down. -/
def ratePerTick (rate quantum shift : Nat) : Nat := rate * 2 ^ (shift + 32) / (8000000000 * quantum)

/-- Quanta that `n` ticks bring to a bucket; the fraction is rounded up with its own probability (R289). -/
def refillQuanta (p n rpt : Nat) (s : State) : Nat × State :=
  let x := n * rpt
  let f := x % 2 ^ 32
  if f = 0 then (x / 2 ^ 32, s)
  else
    let (r, s) := drawRng p s
    (x / 2 ^ 32 + bit01 (decide (r < f)), s)

/-- Buckets C and P after the refill of steps 1 and 2; a bucket whose rate is 0 is always full.
(DEDUCED: log entry 39.) -/
def refillToll (p : Nat) (x : Profile) (n c b : Nat) (s : State) : (Nat × Nat) × State :=
  if x.rateC = 0 ∧ x.rateP = 0 then ((4095, 4095), s)
  else if x.mode = 1 then
    let (q, s) := refillQuanta p n (ratePerTick x.rateC x.quantumC x.shift) s
    let excess := c + q - 4095
    ((capAt 4095 (c + q), capAt 4095 (b + excess * x.quantumC / x.quantumP)), s)
  else
    let (c, s) := if x.rateC = 0 then (4095, s)
      else
        let (q, s) := refillQuanta p n (ratePerTick x.rateC x.quantumC x.shift) s
        (capAt 4095 (c + q), s)
    let (b, s) := if x.rateP = 0 then (4095, s)
      else
        let (q, s) := refillQuanta p n (ratePerTick x.rateP x.quantumP x.shift) s
        (capAt 4095 (b + q), s)
    ((c, b), s)

/-- Colours of a toll. -/
inductive Colour where
  | green | yellow | red
  deriving DecidableEq, Repr

/-- The colour of a charge and the quanta that it takes from C and P (R289 step 4). -/
def Profile.colour (x : Profile) (c b len : Nat) : Colour × Nat × Nat :=
  let nc := if x.rateC = 0 then 0 else ceilDiv len x.quantumC
  let np := if x.rateP = 0 then 0 else ceilDiv len x.quantumP
  if x.mode = 1 then
    if nc ≤ c then (.green, nc, 0) else if np ≤ b then (.yellow, 0, np) else (.red, 0, 0)
  else if b < np then (.red, 0, 0)
  else if c < nc then (.yellow, 0, np)
  else (.green, nc, np)

/-- Evaluate a record's toll at a pipe for `len` bytes (R289): colour, quanta charged, and the new TOLL_STATE. -/
def evalToll (p : Nat) (x : Profile) (toll lastSeen len : Nat) (s : State) : (Colour × (Nat × Nat) × Nat) × State :=
  let now := s.tollTick x
  let c := bitsOf toll 23 12
  let b := bitsOf toll 11 0
  let ((c, b), s) :=
    if x.fullMs ≤ (s.nowMs + 2 ^ 32 - lastSeen) % 2 ^ 32 then ((4095, 4095), s)
    else refillToll p x ((now + 4096 - bitsOf toll 35 24) % 4096) c b s
  let (col, nc, np) := x.colour c b len
  ((col, (nc, np), toll / 2 ^ 36 * 2 ^ 36 + now * 2 ^ 24 + (c - nc) * 4096 + (b - np)), s)

/-- Give back what a charge of `old` quanta exceeds `new` by, or take the difference (R289, R291). -/
def settleToll (toll : Nat) (old new : Nat × Nat) : Nat :=
  let c := capAt 4095 (bitsOf toll 23 12 + old.1 - new.1)
  let b := capAt 4095 (bitsOf toll 11 0 + old.2 - new.2)
  toll / 2 ^ 24 * 2 ^ 24 + c * 4096 + b

end Sys2Proof.Machine
end

