-- ==== Sys2Proof/Machine/Flow.lean ====
section
/-! DEFINITION. Flow records and their places (07): keys and hashes (R217 to R219), slots, piers, anchorage, the choice map
and the quay cache (R212 to R223), placement (R226, R227), idle records and their reclaim (R234 to R237). -/

namespace Sys2Proof.Machine

/-! ### Keys (R215 to R219) -/

/-- Number of a record in the device: its pipe and slot. -/
def recKey (p slot : Nat) : Nat := p * 2 ^ 24 + slot

/-- Low endpoint of a key (R26). -/
def RawKey.low (k : RawKey) : Nat := if k.src ≤ k.dst then k.src else k.dst

/-- High endpoint of a key. -/
def RawKey.high (k : RawKey) : Nat := if k.src ≤ k.dst then k.dst else k.src

/-- The source is the low endpoint (R26). -/
def RawKey.fromLow (k : RawKey) : Bool := decide (k.src ≤ k.dst)

/-- KEY_DIGEST of a key (R217). -/
def State.digest (s : State) (k : RawKey) : Nat := sipHash128 s.flow.digestKey k.bytes % 2 ^ 96

/-- KEY_TAG of a key (R217). -/
def State.keyTag (s : State) (k : RawKey) : Nat := s.digest k % 2 ^ 32

/-- Bytes 3 to 14 of the fore half for a key (R215). -/
def State.keyBits (s : State) (k : RawKey) : Nat :=
  if k.family = 6 then s.digest k
  else k.low / 65536 % 2 ^ 32 + k.low % 65536 * 2 ^ 32 + k.high / 65536 % 2 ^ 32 * 2 ^ 48 + k.high % 65536 * 2 ^ 80

/-- The key's part of an IPv6 record's aft half (R216). -/
def RawKey.aftKey (k : RawKey) : List Byte :=
  leBytes 16 (k.low / 65536) ++ leBytes 16 (k.high / 65536) ++ leBytes 2 (k.low % 65536) ++ leBytes 2 (k.high % 65536)

/-- A value of R219 formed from the flow hash. -/
def hashWith (suffix hash : Nat) : Nat := crc32c (beBytes 4 hash ++ leBytes 1 suffix)

/-- Pier A and pier B of a flow hash (R219). -/
def flowPiers (hash : Nat) : Nat × Nat :=
  let a := hashWith 1 hash % 2 ^ 22
  let b := hashWith 2 hash % 2 ^ 22
  (a, if b = a then Nat.xor b 1 else b)

/-- Quay-cache set of a flow hash (R219). -/
def setOf (hash : Nat) : Nat := hashWith 1 hash / 2 ^ 18

/-- Choice group of a flow hash (R219). -/
def choiceGroup (hash : Nat) : Nat := hashWith 3 hash % 2 ^ 24

/-- State of a choice group (R221). -/
def State.choice (s : State) (p g : Nat) : Nat := s.flow.choice.getD (p * 2 ^ 24 + g) 0

/-- Set the state of a choice group. -/
def setChoice (p g v : Nat) (s : State) : State :=
  s.withFlow { s.flow with choice := NMap.set 0 s.flow.choice (p * 2 ^ 24 + g) v }

/-- Current pier of a flow hash (R221). -/
def State.pier (s : State) (p hash : Nat) : Nat :=
  let (a, b) := flowPiers hash
  if s.choice p (choiceGroup hash) % 2 = 0 then a else b

/-- Other pier of a flow hash (R221). -/
def State.otherPier (s : State) (p hash : Nat) : Nat :=
  let (a, b) := flowPiers hash
  if s.choice p (choiceGroup hash) % 2 = 0 then b else a

/-! ### Stores (R212, R213) -/

/-- The slot holds a record (slot map). -/
def State.slotUsed (s : State) (p slot : Nat) : Bool := (s.flow.used.find (recKey p slot)).isSome

/-- Aft half in a slot. -/
def State.aft (s : State) (p slot : Nat) : List Byte :=
  s.flow.aft.getD (recKey p slot) (List.replicate 64 0)

/-- Write an aft half. -/
def setAft (p slot : Nat) (bs : List Byte) (s : State) : State :=
  clearPoison p (aftOffset slot)
    (s.withFlow { s.flow with aft := NMap.set (List.replicate 64 0) s.flow.aft (recKey p slot) bs })

/-- Number of an anchorage berth. -/
def berthKey (p n : Nat) : Nat := p * 65536 + n

/-- Valid anchorage berths of a pipe, in order, with their fore halves. -/
def State.ashore (s : State) (p : Nat) : List (Nat × Fore) :=
  (s.flow.anchorage.inRange (berthKey p 0) 65536).map fun e => (e.1 - berthKey p 0, e.2)

/-- Anchorage berth of a slot's record. -/
def State.berthOf (s : State) (p slot : Nat) : Option Nat :=
  ((s.ashore p).find? fun e => e.2.slot == slot).map (·.1)

/-- Number of a pier berth. -/
def pierKey (p pier n : Nat) : Nat := p * 2 ^ 24 + pier * 4 + n

/-- A pier berth, where valid. -/
def State.pierBerth (s : State) (p pier n : Nat) : Option PierBerth := s.flow.piers.find (pierKey p pier n)

/-- The valid berths of a pier, with their numbers. -/
def State.berths (s : State) (p pier : Nat) : List (Nat × PierBerth) :=
  (List.range 4).filterMap fun n => (s.pierBerth p pier n).map fun b => (n, b)

/-- Write or invalidate a pier berth. -/
def setPier (p pier n : Nat) (b : Option PierBerth) (s : State) : State :=
  clearPoison p (pierOffset pier) (s.withFlow { s.flow with piers := match b with
    | some x => s.flow.piers.put (pierKey p pier n) x
    | none => s.flow.piers.del (pierKey p pier n) })

/-- A pier's lock is held (R241). -/
def State.pierLocked (s : State) (p pier : Nat) : Bool := s.locked 0x11 p pier

/-- A slot's lock is held (R240). -/
def State.slotLocked (s : State) (p slot : Nat) : Bool := s.locked 0x10 p slot

/-- An anchorage berth's lock is held (R241). -/
def State.berthLocked (s : State) (p n : Nat) : Bool := s.locked 0x12 p n

/-- Free berth of a pier that is not locked: the lowest (R226). -/
def State.freeBerth (s : State) (p pier : Nat) : Option Nat :=
  if s.pierLocked p pier then none else (List.range 4).find? fun n => (s.pierBerth p pier n).isNone

/-- The lowest free anchorage berth that is not locked. -/
def State.freeAshore (s : State) (p : Nat) : Option Nat :=
  let taken := (s.ashore p).map (·.1)
  let locked := (s.host.locks.inRange (lockKey 0x12 p 0) 65536).map fun e => e.1 - lockKey 0x12 p 0
  ((List.range (taken.length + locked.length + 1)).find? fun n => !taken.contains n && !locked.contains n).filter (· < 65536)

/-- The lowest free slot (R226). -/
def State.freeSlot (s : State) (p : Nat) : Option Nat :=
  let taken := (s.flow.used.inRange (recKey p 0) (2 ^ 24)).map fun e => e.1 - recKey p 0
  ((List.range (taken.length + 1)).find? fun n => !taken.contains n).filter (· < 2 ^ 24)

/-! ### The quay cache (R222, R223) -/

/-- A record's cache line. -/
def State.line (s : State) (p slot : Nat) : Option Line := s.flow.lines.find (recKey p slot)

/-- Set a record's cache line. -/
def setLine (p slot : Nat) (l : Line) (s : State) : State :=
  s.withFlow { s.flow with lines := s.flow.lines.put (recKey p slot) l }

/-- Change a record's cache line, where it has one. -/
def modLine (p slot : Nat) (g : Line → Line) (s : State) : State :=
  match s.line p slot with
  | some l => setLine p slot (g l) s
  | none => s

/-- Lines of a set of a pipe, with their slots. -/
def State.setLines (s : State) (p set : Nat) : List (Nat × Line) :=
  ((s.flow.lines.inRange (recKey p 0) (2 ^ 24)).map fun e => (e.1 - recKey p 0, e.2)).filter fun e =>
    setOf e.2.fore.hash == set

/-- PENDING lines of a set of a pipe. -/
def State.setPendings (s : State) (p set : Nat) : List PendingLine :=
  s.flow.pendings.filter fun x => x.pipe == p && setOf x.hash == set

/-- The line may not be replaced: PINNED, MOVING or MIGRATING. -/
def Line.special (l : Line) : Bool := l.pinned || l.moving || l.migrating

/-- Lines of a set that are PINNED, PENDING or MOVING (R223). -/
def State.specials (s : State) (p set : Nat) : Nat :=
  ((s.setLines p set).filter fun e => e.2.special).length + (s.setPendings p set).length

/-- A set cannot take another PENDING or MOVING line (R223). -/
def State.setFull (s : State) (p set : Nat) : Bool := decide (15 ≤ s.specials p set)

/-- A set cannot take another PINNED line (R223, R240). -/
def State.pinFull (s : State) (p set : Nat) : Bool :=
  decide (12 ≤ ((s.setLines p set).filter fun e => e.2.pinned).length) || s.setFull p set

/-- The fore half as its backing holds it (R213): the anchorage berth of an anchored record, else the slot. -/
def State.backing (s : State) (p slot : Nat) : Option Fore :=
  match s.berthOf p slot with
  | some n => s.flow.anchorage.find (berthKey p n)
  | none => s.flow.slots.find (recKey p slot)

/-- The live fore half of a record (R213); none for a slot that holds no record. -/
def State.fore (s : State) (p slot : Nat) : Option Fore :=
  if !s.slotUsed p slot then none
  else match s.line p slot with
    | some l => some l.fore
    | none => s.backing p slot

/-- Write a fore half to its backing. -/
def writeFore (p slot : Nat) (r : Fore) (s : State) : State :=
  match s.berthOf p slot with
  | some n => s.withFlow { s.flow with anchorage := s.flow.anchorage.put (berthKey p n) r }
  | none => clearPoison p (slotOffset slot) (s.withFlow { s.flow with slots := s.flow.slots.put (recKey p slot) r })

/-- Write a line back to its backing (R223): for a pier-placed record one burst (R39). -/
def writeBack (p slot : Nat) (s : State) : State :=
  match s.line p slot with
  | none => s
  | some l =>
    let s := if (s.berthOf p slot).isNone then wantBurst .writeback true p (slotOffset slot) s else s
    (setLine p slot { l with dirty := false } (writeFore p slot l.fore s)).bump Obj.writeBacks p

/-- The line would have to be written to an anchorage berth whose lock is held (R241). -/
def State.writeHeld (s : State) (p slot : Nat) (l : Line) : Bool :=
  l.dirty && (s.berthOf p slot).elim false fun n => s.berthLocked p n

/-- The line that a fill replaces: the least recently used that may be replaced, and the lowest way of those; one whose
write-back a lock holds stays. -/
def State.victim (s : State) (p : Nat) (l : List (Nat × Line)) : Option (Nat × Line) :=
  l.foldl (fun m e => if e.2.special || s.writeHeld p e.1 e.2 then m else match m with
    | none => some e
    | some v => if e.2.used < v.2.used ∨ (e.2.used = v.2.used ∧ e.2.way < v.2.way) then some e else m) none

/-- A way of a set for a new line: a free one, or the one of the line replaced, which is written back if DIRTY. Where
locks on anchorage berths hold every line of the set, the new line stands beside the 16 ways (log entry 86).
(DESIGN CHOICE: log entry 86.) -/
def takeWay (p set : Nat) (s : State) : Nat × State :=
  let lines := s.setLines p set
  let used := lines.map (·.2.way) ++ (s.setPendings p set).map (·.way)
  match (List.range 16).find? fun w => !used.contains w with
  | some w => (w, s)
  | none => match s.victim p lines with
    | none => (used.foldl Nat.max 15 + 1, s)
    | some (slot, l) =>
      let s := if l.dirty then writeBack p slot s else s
      (l.way, s.withFlow { s.flow with lines := s.flow.lines.del (recKey p slot) })

/-- The pier berths that name a slot, by pier and number: its current pier's first. -/
def State.pierPlaces (s : State) (p slot : Nat) (r : Fore) : List (Nat × Nat) :=
  let (a, b) := flowPiers r.hash
  [a, b].flatMap fun n => ((s.berths p n).filter fun e => e.2.slot == slot).map fun e => (n, e.1)

/-- A relocation that writes a berth of the record is incomplete (R220, R231). -/
def State.berthMoving (s : State) (p slot : Nat) (r : Fore) : Bool :=
  (s.pierPlaces p slot r).any fun e => (s.pierBerth p e.1 e.2).elim false PierBerth.moving

/-- Put a record's fore half into the cache, MOVING while its place changes (R223). -/
def fillLine (p slot : Nat) (r : Fore) (dirty : Bool) (s : State) : State :=
  let (w, s) := takeWay p (setOf r.hash) s
  setLine p slot { fore := r, dirty := dirty, used := s.time.ticks, way := w, moving := s.berthMoving p slot r } s

/-- Load a record into the cache, or note the use of its line. -/
def loadLine (p slot : Nat) (s : State) : State :=
  match s.line p slot with
  | some l => setLine p slot { l with used := s.time.ticks } s
  | none => match s.fore p slot with
    | some r => fillLine p slot r false s
    | none => s

/-- Update the fore half of a record through its line (R213, R223). -/
def updateFore (p slot : Nat) (g : Fore → Fore) (s : State) : State :=
  let s := loadLine p slot s
  match s.line p slot with
  | none => s
  | some l =>
    let r := g l.fore
    setLine p slot { l with fore := r, dirty := l.dirty || (s.backing p slot) != some r } s

/-! ### Finding a record (R218, R222) -/

/-- A fore half matches a key on-die (R218). -/
def State.matchesDie (s : State) (r : Fore) (k : RawKey) (hash : Nat) : Bool :=
  r.vrf == k.vrf && r.proto == k.proto && r.family6 == (k.family == 6) && r.keyBits == s.keyBits k &&
  (!r.family6 || r.hash == hash)

/-- The line of a key (R222 step 1). -/
def State.findLine (s : State) (p : Nat) (k : RawKey) (hash : Nat) : Option Nat :=
  ((s.setLines p (setOf hash)).find? fun e => s.matchesDie e.2.fore k hash).map (·.1)

/-- The anchored record of a key (R222 step 1). -/
def State.findAshore (s : State) (p : Nat) (k : RawKey) (hash : Nat) : Option Nat :=
  ((s.ashore p).find? fun e => s.matchesDie e.2 k hash).map fun e => e.2.slot

/-- The PENDING line of a key (R224). -/
def State.findPending (s : State) (p : Nat) (k : RawKey) : Option PendingLine :=
  s.flow.pendings.find? fun x => x.pipe == p && x.key == k.bytes

/-- A fore half read from HBM matches a key (R218). -/
def State.matchesHbm (s : State) (p slot : Nat) (k : RawKey) : Bool :=
  match s.fore p slot with
  | none => false
  | some r =>
    r.vrf == k.vrf && r.proto == k.proto && r.family6 == (k.family == 6) &&
    (if r.family6 then (s.aft p slot).take 36 == k.aftKey else r.keyBits == s.keyBits k)

/-- Slots whose fore halves a lookup reads in a pier (R222 step 3); two copies of one berth count once. -/
def State.candidates (s : State) (p pier : Nat) (k : RawKey) (hash : Nat) : List Nat :=
  (((s.berths p pier).filter fun e => e.2.hash == hash && e.2.vrf == k.vrf && e.2.proto == k.proto &&
    e.2.keyTag == s.keyTag k).map fun e => e.2.slot).eraseDups

/-- Pier and fore reads of a lookup: the record that matches, with the reads that did not counted (R222). -/
def readPier (p pier : Nat) (k : RawKey) (hash : Nat) (s : State) : Option Nat × State :=
  let all := s.candidates p pier k hash
  let hit := all.find? fun n => s.matchesHbm p n k
  (hit, s.add Obj.extraForeReads p (all.filter fun n => !s.matchesHbm p n k).length)

/-- The fore half of a record would be read from a poisoned burst (R398). -/
def State.forePoisoned (s : State) (p slot : Nat) : Bool :=
  (s.line p slot).isNone && (s.berthOf p slot).isNone && s.poison p (slotOffset slot)

/-- The fore half or the aft half of a record would be read from a poisoned burst (R398). -/
def State.halfPoisoned (s : State) (p slot : Nat) : Bool := s.forePoisoned p slot || s.poison p (aftOffset slot)

/-- A pier, fore or aft read of a lookup is poisoned (R398): all reads of R222 step 3 are issued together. -/
def State.lookupPoisoned (s : State) (p pier : Nat) (k : RawKey) (hash : Nat) : Bool :=
  s.poison p (pierOffset pier) || (s.candidates p pier k hash).any fun n =>
    s.forePoisoned p n || (k.family == 6 && s.poison p (aftOffset n))

/-- The record of a key, wherever its pipe holds it. -/
def State.findRecord (s : State) (p : Nat) (k : RawKey) (hash : Nat) : Option Nat :=
  match s.findLine p k hash with
  | some n => some n
  | none => match s.findAshore p k hash with
    | some n => some n
    | none => (s.candidates p (s.pier p hash) k hash).find? fun n => s.matchesHbm p n k

/-! ### Placement (R226, R227) -/

/-- Records in the device (R227).
(DEDUCED: log entry 32.) -/
def State.flowsTotal (s : State) : Nat := (List.range 8).foldl (fun n p => n + s.get Obj.flows p) 0

/-- Cause of a refusal for want of room in a pipe: 2 PIPE_FULL, 3 NO_BERTH, 0 none (R227).
(DEDUCED: log entry 32.) -/
def State.noRoom (s : State) (p hash : Nat) : Nat :=
  if 2 ^ 24 ≤ s.get Obj.flows p then 2
  else if (s.freeBerth p (s.pier p hash)).isNone && (s.freeAshore p).isNone then 3 else 0

/-- Cause of the refusal of a creation, 0 for none (R227). -/
def State.refusal (s : State) (p hash : Nat) : Nat :=
  let limit := s.get Obj.flowLimit
  if limit ≠ 0 ∧ limit ≤ s.flowsTotal then 1 else s.noRoom p hash

/-- ANCHORED of a pipe changes; the event when the free berths fall to 4,096 (R251). -/
def noteAnchored (p : Nat) (up : Bool) (s : State) : State :=
  let n := s.get Obj.anchored p
  let s := s.set Obj.anchored p (if up then n + 1 else n - 1)
  if up && s.get Obj.anchored p == 61440 then raise Ev.anchorageLow p 4096 61440 s else s

/-- The berth of a record in a pier (R220). -/
def State.berthFor (s : State) (r : Fore) (moving : Bool) : PierBerth :=
  let digest := if r.family6 then r.keyBits else
    let end_ (a b : Nat) : Nat := a * 65536 + b
    s.digest { vrf := r.vrf, proto := r.proto, family := 4,
               src := end_ (r.keyBits % 2 ^ 32) (bitsOf r.keyBits 47 32),
               dst := end_ (bitsOf r.keyBits 79 48) (bitsOf r.keyBits 95 80) }
  { hash := r.hash, slot := r.slot, moving := moving, family6 := r.family6, vrf := r.vrf, proto := r.proto,
    keyTag := digest % 2 ^ 32 }

/-- Place a record in a pipe that has room (R226 steps 2 to 5): lowest slot, berth in the current pier or ashore, DIRTY
line in way `way` or by a fill, aft half; the pier and aft-half writes go by requester `rr` (R39, R388). Answers the
slot. -/
def placeRecord (rr : Requester) (p : Nat) (r : Fore) (aft : Option (List Byte)) (way : Option Nat) (s : State) :
    Option Nat × State :=
  match s.freeSlot p with
  | none => (none, s)
  | some slot =>
    let r := { r with slot := slot, anchored := false }
    let s := s.withFlow { s.flow with used := s.flow.used.put (recKey p slot) 1 }
    let s := s.bump Obj.flows p
    let pier := s.pier p r.hash
    let (r, s) := match s.freeBerth p pier with
      | some n => (r, wantBurst rr true p (pierOffset pier) (setPier p pier n (some (s.berthFor r false)) s))
      | none => match s.freeAshore p with
        | none => (r, s)
        | some n =>
          let r := { r with anchored := true }
          (r, noteAnchored p true
            (s.withFlow { s.flow with anchorage := s.flow.anchorage.put (berthKey p n) r }))
    let s := match way with
      | some w => setLine p slot { fore := r, dirty := true, used := s.time.ticks, way := w } s
      | none => fillLine p slot r true s
    (some slot, match aft with
      | some bs => wantBurst rr true p (aftOffset slot) (setAft p slot bs s)
      | none => s)

/-! ### Aging and reclaim (R234 to R237, R263) -/

/-- Subindex of IDLE_TIMEOUT_MS for a record (R263).
(DEDUCED: log entry 34.) -/
def Fore.timeoutSub (r : Fore) : Nat :=
  if r.tcpState = 9 then 6
  else if r.fragKey then 9
  else if r.proto = 6 then
    (if r.tcpState = 1 ∨ r.tcpState = 2 then 1 else if r.tcpState = 3 then 2
     else if r.tcpState = 4 ∨ r.tcpState = 5 ∨ r.tcpState = 6 then 3
     else if r.tcpState = 7 then 4 else if r.tcpState = 8 then 5 else 10)
  else if r.proto = 17 ∨ r.proto = 136 then 7
  else if r.proto = 1 ∨ r.proto = 58 then 8 else 10

/-- Time since a record's last update, in ms (R234). -/
def State.idleMs (s : State) (r : Fore) : Nat := (s.nowMs + 2 ^ 32 - r.lastSeen) % 2 ^ 32

/-- The record's line is MIGRATING. -/
def State.migrating (s : State) (p slot : Nat) : Bool := (s.line p slot).elim false fun l => l.migrating

/-- The record is MOVING: its line, or for one that is not cached a berth of it (R223, R231). -/
def State.movingLine (s : State) (p slot : Nat) : Bool :=
  match s.line p slot with
  | some l => l.moving
  | none => (s.fore p slot).elim false fun r => s.berthMoving p slot r

/-- The record has been idle for `ms`, with PIN 0, and is neither locked nor MIGRATING (R234, R242). -/
def State.idleSince (s : State) (p slot ms : Nat) : Bool :=
  match s.fore p slot with
  | none => false
  | some r => !r.pin && !s.slotLocked p slot && !s.migrating p slot && decide (ms ≤ s.idleMs r)

/-- The record has been idle for `ms` and may be taken for idle: a MOVING one waits (R234, R242). -/
def State.idleFor (s : State) (p slot ms : Nat) : Bool := s.idleSince p slot ms && !s.movingLine p slot

/-- The idle timeout of a slot's record (R263). -/
def State.timeoutOf (s : State) (p slot : Nat) : Nat :=
  (s.fore p slot).elim 0 fun r => s.getS Obj.idleTimeoutMs r.timeoutSub 0

/-- The record is idle (R234). -/
def State.idle (s : State) (p slot : Nat) : Bool := s.idleFor p slot (s.timeoutOf p slot)

/-- The place of a record is locked: its reclaim waits (R241). -/
def State.placeLocked (s : State) (p slot : Nat) (r : Fore) : Bool :=
  match s.berthOf p slot with
  | some n => s.berthLocked p n
  | none => (s.pierPlaces p slot r).any fun e => s.pierLocked p e.1

/-- A record leaves its pipe: berth, line and slot (R237 steps 2 to 4). -/
def removeRecord (p slot : Nat) (r : Fore) (s : State) : State :=
  let s := match s.berthOf p slot with
    | some n => noteAnchored p false (s.withFlow { s.flow with anchorage := s.flow.anchorage.del (berthKey p n) })
    | none => (s.pierPlaces p slot r).foldl (fun s (e : Nat × Nat) => setPier p e.1 e.2 none s) s
  let x := s.flow
  (s.withFlow { x with lines := x.lines.del (recKey p slot), slots := x.slots.del (recKey p slot),
                       used := x.used.del (recKey p slot) }).drop Obj.flows p

/-- flowEndReason of an end record (R304): `forced` 0 by the sweep or by access, 4 by software, 5 by eviction. -/
def endReason (forced : Nat) (r : Fore) : Nat :=
  if forced ≠ 0 then forced else if r.tcpState = 7 ∨ r.tcpState = 8 then 3 else 1

/-- Release the NAT44 bindings of a record (R269). -/
def releaseBindings (r : Fore) (s : State) : State :=
  let s := if r.act 7 && r.xkind == 0 then columnRelease (bitsOf r.xlate 31 20) (bitsOf r.xlate 19 4) s else s
  if r.act 3 then columnRelease (bitsOf r.balance 31 20) (bitsOf r.balance 19 4) s else s

/-- Reclaim a record from step 2 on (R237, R304). -/
def reclaimNow (p slot forced : Nat) (r : Fore) (s : State) : State :=
  let aft := s.aft p slot
  let s := removeRecord p slot r s
  let s := if bitOf r.telemetry 0 then buildRecord p r aft (endReason forced r) s else s
  releaseBindings r s

/-- Reclaim a record, counting it under `o`; true where it was. A reclaim waits while the record's place is locked
(R241). -/
def reclaim (p slot forced : Nat) (o : ObjRow) (s : State) : Bool × State :=
  match s.fore p slot with
  | none => (false, s)
  | some r =>
    if s.placeLocked p slot r then (false, s)
    else (true, reclaimNow p slot forced r (s.bump o p))

end Sys2Proof.Machine
end

