-- ==== Sys2Proof/Machine/Actions.lean ====
section
/-! DEFINITION. The flow actions (08): the frame as the home pipe reads it, setup (R254 to R257, R262, R268, R272, R273,
R279, R281), TCP tracking (R260, R261), tolls (R289, R290), rewrites (R274, R286), and the updates at the tail (R258,
R291, R295). -/

namespace Sys2Proof.Machine

/-! ### The frame as the home pipe reads it -/

/-- Offset of the IP header whose ICMP error embeds the header at `o`, where the frame is one (R27).
(DEDUCED: log entry 38.) -/
def icmpOuter (d : List Byte) (o : Nat) : Option Nat :=
  let v4 := ((List.range 11).map (· + 5)).findSome? fun n =>
    let w := o - 8 - 4 * n
    if 14 + 8 + 4 * n ≤ o ∧ byteAt d w = 64 + n ∧ byteAt d (w + 9) = 1 ∧ [3, 11, 12].contains (byteAt d (o - 8)) then
      some w else none
  match v4 with
  | some w => some w
  | none =>
    if 62 ≤ o ∧ byteAt d (o - 48) / 16 = 6 ∧ byteAt d (o - 42) = 58 ∧ [1, 2, 3, 4].contains (byteAt d (o - 8)) then
      some (o - 48) else none

/-- The IP header that embeds the marked one.
(DEDUCED: log entry 38.) -/
def Frame.outer (x : Frame) : Option Nat := x.result.l3.bind (icmpOuter x.data)

/-- The key with the frame's sender as its source: an ICMP error comes from the other side of the packet it embeds.
(DEDUCED: log entry 38.) -/
def Frame.oriented (x : Frame) (k : RawKey) : RawKey := if x.outer.isSome then { k with src := k.dst, dst := k.src } else k

/-- The frame comes from the low endpoint (R26, R215). -/
def Frame.fromLow (x : Frame) : Bool :=
  match x.home.key with
  | some k => if x.outer.isSome then !k.fromLow else k.fromLow
  | none => true

/-- The frame is a fragment (R27, R230). -/
def Frame.fragment (x : Frame) : Bool := x.result.l3.elim false (headerFragment x.data)

/-- Length of the IP packet at a header, from its own length fields. -/
def ipLength (d : List Byte) (o : Nat) : Nat :=
  if byteAt d o / 16 = 4 then beAt d (o + 2) 2 else 40 + beAt d (o + 4) 2

/-- Charged length at the head (R289): to the end of the outermost IP packet known, with FCS, at least 64. -/
def Frame.headLength (x : Frame) : Nat :=
  let tag := if x.tag.isSome then 16 else 0
  match x.result.l3 with
  | none => Nat.max 64 (x.data.length + 4 - tag)
  | some o =>
    let w := x.outer.getD o
    Nat.max 64 (w + ipLength x.data w + 4 - tag)

/-- True length with FCS and without ferry tag (R295). -/
def Frame.trueLength (x : Frame) : Nat := x.data.length + 4 - (if x.tag.isSome then 16 else 0)

/-- A TCP segment as R260 and R261 read it. -/
structure Seg where
  syn : Bool
  ack : Bool
  fin : Bool
  rst : Bool
  seq : Nat
  ackNo : Nat
  window : Nat
  /-- Sequence number plus payload length, plus 1 for FIN. -/
  end_ : Nat
  /-- Window-scale option. -/
  scale : Option Nat
  deriving DecidableEq, Repr

/-- The window-scale option among the option bytes (RFC 7323). -/
def scaleOption : Nat → List Byte → Option Nat
  | 0, _ => none
  | fuel + 1, bs =>
    let kind := byteAt bs 0
    if bs = [] ∨ kind = 0 then none
    else if kind = 1 then scaleOption fuel (bs.drop 1)
    else if bs.length < 2 ∨ byteAt bs 1 < 2 then none
    else if kind = 3 ∧ byteAt bs 1 = 3 ∧ 3 ≤ bs.length then some (byteAt bs 2)
    else scaleOption fuel (bs.drop (byteAt bs 1))

/-- The segment of a TCP frame; fragments and ICMP errors carry none. -/
def Frame.segment (x : Frame) : Option Seg :=
  match x.home.key, x.result.l3, x.result.l4 with
  | some k, some o, some (t, _, _) =>
    let d := x.data
    if k.proto ≠ 6 ∨ x.fragment ∨ x.outer.isSome ∨ d.length < t + 20 then none
    else
      let f := byteAt d (t + 13)
      let off := byteAt d (t + 12) / 16 * 4
      let payload := ipLength d o - (t - o) - off
      some { syn := bitOf f 1, ack := bitOf f 4, fin := bitOf f 0, rst := bitOf f 2, seq := beAt d (t + 4) 4, ackNo := beAt d (t + 8) 4,
             window := beAt d (t + 14) 2, end_ := (beAt d (t + 4) 4 + payload + f % 2) % 2 ^ 32,
             scale := scaleOption 40 ((d.drop (t + 20)).take (off - 20)) }
  | _, _, _ => none

/-! ### TCP state and window (R260, R261) -/

/-- TCP_TRACK of its four fields (R253). -/
def trackOf (scaleLow scaleHigh limitLow limitHigh : Nat) : Nat :=
  scaleLow * 2 ^ 44 + scaleHigh * 2 ^ 40 + limitLow * 2 ^ 20 + limitHigh

/-- WSCALE of a side: `low` selects the low endpoint's. -/
def wscale (track : Nat) (low : Bool) : Nat := if low then bitsOf track 47 44 else bitsOf track 43 40

/-- LIMIT of a side. -/
def limitOf (track : Nat) (low : Bool) : Nat := if low then bitsOf track 39 20 else bitsOf track 19 0

/-- Set LIMIT of a side. -/
def setLimit (track : Nat) (low : Bool) (v : Nat) : Nat :=
  if low then trackOf (wscale track true) (wscale track false) v (limitOf track false)
  else trackOf (wscale track true) (wscale track false) (limitOf track true) v

/-- TCP_TRACK set afresh by an initiator's SYN. -/
def synTrack (low : Bool) (g : Seg) : Nat :=
  let w := capAt 14 (g.scale.getD 0)
  if low then trackOf w 0 0 0 else trackOf 0 w 0 0

/-- The limit that a segment's acknowledgement and window give (R261 step 2). -/
def ackLimit (g : Seg) (scale : Nat) : Nat := ceilDiv (g.ackNo + g.window * 2 ^ scale) 4096 % 2 ^ 20

/-- Next state of a record for a segment; none for a state violation (R260). `isn` is the first SYN's sequence number,
which a SYN that repeats it bears.
(DEDUCED: log entry 35.) -/
def tcpNext (st : Nat) (isn : Option Nat) (g : Seg) (fromInit fromLow : Bool) : Option Nat :=
  if g.rst then (if 1 ≤ st ∧ st ≤ 7 then some 8 else none)
  else if g.syn then
    if g.ack then (if st = 1 ∧ !fromInit then some 2 else none)
    else if !fromInit then none
    else if 1 ≤ st ∧ st ≤ 6 then (if isn = some g.seq then some st else none)
    else if st = 7 ∨ st = 8 then some 1 else none
  else if st = 2 then (if fromInit ∧ g.ack then some 3 else none)
  else if st < 3 ∨ 7 < st then none
  else if st = 3 ∧ g.fin then some (if fromLow then 4 else 5)
  else if (st = 4 ∧ g.fin ∧ !fromLow) ∨ (st = 5 ∧ g.fin ∧ fromLow) then some 6
  else if st = 6 ∧ g.ack then some 7
  else some st

/-- The segment opens the connection anew (R260): an initiator's SYN in TIME_WAIT or CLOSED, which the limits of the old
one do not bind.
(DEDUCED: log entry 35.) -/
def reopens (st : Nat) (g : Seg) (fromInit : Bool) : Bool :=
  g.syn && !g.ack && !g.rst && fromInit && decide (st = 7 ∨ st = 8)

/-- The segment is out of window (R261 step 1): from ESTABLISHED onward.
(DEDUCED: log entry 35.) -/
def outOfWindow (r : Fore) (g : Seg) (fromLow : Bool) : Bool :=
  let d := (g.end_ / 4096 + 2 ^ 20 - limitOf r.track fromLow) % 2 ^ 20
  r.windowCheck && decide (3 ≤ r.tcpState ∧ r.tcpState ≤ 8) && !reopens r.tcpState g (fromLow == r.initLow) &&
  bitOf r.limits (if fromLow then 0 else 1) && decide (2 ≤ d ∧ d ≤ 2 ^ 19)

/-- What the TCP step says of a frame: it is no segment, it may pass with a transition, or it is a violation. -/
inductive TcpVerdict where
  | none_
  | pass (next : Nat)
  | state
  | window
  deriving DecidableEq, Repr

/-- Step 2 of R258 on a record and a frame.
(DEDUCED: log entry 34.) (DEDUCED: log entry 35.) -/
def tcpVerdict (r : Fore) (x : Frame) : TcpVerdict :=
  match x.segment with
  | none => .none_
  | some g =>
    if outOfWindow r g x.fromLow then .window
    else match tcpNext r.tcpState r.isn g (x.fromLow == r.initLow) x.fromLow with
      | some n => .pass n
      | none => .state

/-- The TCP update at the tail (R260, R261): state, window scales, limits. The first limit that a side's peer advertises is
taken as it is: there is none yet that it could be ahead of.
(DEDUCED: log entry 35.) -/
def tcpTail (r : Fore) (x : Frame) (st next : Nat) : Fore :=
  match x.segment with
  | none => r
  | some g =>
    let low := x.fromLow
    let fresh := next = 1 ∧ (st = 7 ∨ st = 8)
    let r := if fresh then
        { r with track := synTrack low g, noScale := g.scale.isNone, isn := some g.seq, limits := 0 }
      else r
    let r := if st = 1 ∧ next = 2 then
        let both := !r.noScale && g.scale.isSome
        let wi := if both then wscale r.track r.initLow else 0
        let wr := if both then capAt 14 (g.scale.getD 0) else 0
        let (wl, wh) := if r.initLow then (wi, wr) else (wr, wi)
        { r with track := trackOf wl wh (limitOf r.track true) (limitOf r.track false) }
      else r
    let r := if g.ack then
        let v := ackLimit g (if g.syn then 0 else wscale r.track low)
        let ahead : Nat := (v + 2 ^ 20 - limitOf r.track (!low)) % 2 ^ 20
        let side := if low then 1 else 0
        if !bitOf r.limits side ∨ ahead < 2 ^ 19 then
          { r with track := setLimit r.track (!low) v, limits := setBit r.limits side }
        else r
      else r
    if next = st then r else { r with tcpState := next }

/-! ### Rewrites (R274) -/

/-- A number of `n` bytes at offset `o` as received, with the parse's edits applied. -/
def Frame.peek (x : Frame) (o n : Nat) : Nat :=
  let its := x.parsedItems
  beNat ((List.range n).map fun i => match its.find? fun t => t.received && t.pos == o + i with
    | some t => t.byte
    | none => x.data.getD (o + i) 0)

/-- A change of `n` bytes at an offset. -/
structure Change where
  at_ : Nat
  n : Nat
  value : Nat
  deriving DecidableEq, Repr

/-- The edit that makes a change. -/
def Change.edit (c : Change) : Edit := .rewrite (8 * c.at_) (8 * c.n) c.value

/-- A checksum after a change of whole 16-bit words, as RFC 1624 describes. -/
def Frame.sumAfter (x : Frame) (hc : Nat) (c : Change) : Nat :=
  let old := x.peek c.at_ c.n
  (List.range (c.n / 2)).foldl (fun h i =>
    csumUpdate h (old / 2 ^ (16 * i) % 65536) (c.value / 2 ^ (16 * i) % 65536)) hc

/-- The change of a checksum field by changes of what it covers. -/
def Frame.checksum (x : Frame) (at_ : Nat) (cs : List Change) : Change :=
  { at_ := at_, n := 2, value := cs.foldl x.sumAfter (x.peek at_ 2) }

/-- New source and destination: addresses and ports, where they change. -/
structure NewEnds where
  srcAddr : Option Nat := none
  srcPort : Option Nat := none
  dstAddr : Option Nat := none
  dstPort : Option Nat := none
  deriving DecidableEq, Repr

/-- Address changes of the IP header at `o`. -/
def addrChanges (v6 : Bool) (o : Nat) (e : NewEnds) : List Change :=
  let n := if v6 then 16 else 4
  let a := o + if v6 then 8 else 12
  (e.srcAddr.toList.map fun v => { at_ := a, n := n, value := v % 2 ^ (8 * n) }) ++
  (e.dstAddr.toList.map fun v => { at_ := a + n, n := n, value := v % 2 ^ (8 * n) })

/-- Port changes of the transport header at `t` under the key mode `m` (R159). -/
def portChanges (t m : Nat) (e : NewEnds) : List Change :=
  if m = 0 then (e.srcPort.toList.map fun v => { at_ := t, n := 2, value := v }) ++
    (e.dstPort.toList.map fun v => { at_ := t + 2, n := 2, value := v })
  else if m = 1 then ((e.srcPort.orElse fun _ => e.dstPort).toList.map fun v => { at_ := t + 4, n := 2, value := v })
  else []

/-- The change of the IPv4 header checksum at `o` by address changes. -/
def Frame.headerSum (x : Frame) (v6 : Bool) (o : Nat) (cs : List Change) : List Change :=
  if v6 || cs.isEmpty then [] else [x.checksum (o + 10) cs]

/-- The change of a transport checksum by address and port changes; ICMP covers no address, and a UDP checksum of 0
stays 0. -/
def Frame.transportSum (x : Frame) (proto t m : Nat) (addrs ports : List Change) : List Change :=
  let all := addrs ++ ports
  if m ≠ 0 ∧ m ≠ 1 then []
  else if proto = 6 then (if all.isEmpty then [] else [x.checksum (t + 16) all])
  else if proto = 17 ∨ proto = 136 then
    (if all.isEmpty ∨ (proto = 17 ∧ x.peek (t + 6) 2 = 0) then [] else [x.checksum (t + 6) all])
  else if proto = 1 then (if ports.isEmpty then [] else [x.checksum (t + 2) ports])
  else if proto = 58 then (if all.isEmpty then [] else [x.checksum (t + 2) all])
  else []

/-- The rewrites that new endpoints make in a frame (R274); `neutral` for prefix translation, which changes no
checksum (R279).
(DEDUCED: log entry 44.) -/
def Frame.rewrites (x : Frame) (k : RawKey) (e : NewEnds) (neutral : Bool) : List Edit :=
  match x.result.l3 with
  | none => []
  | some o =>
    let v6 := k.family == 6
    let (t, m, proto) := x.result.l4.getD (0, 2, k.proto)
    let m := if x.fragment then 2 else m
    let cs := match x.outer with
      | none =>
        let a := addrChanges v6 o e
        let p := portChanges t m e
        if neutral then a else a ++ p ++ x.headerSum v6 o a ++ x.transportSum proto t m a p
      | some w =>
        let back : NewEnds := { srcAddr := e.dstAddr, srcPort := e.dstPort, dstAddr := e.srcAddr, dstPort := e.srcPort }
        let a := addrChanges v6 w e
        let b := addrChanges v6 o back
        let p := portChanges t m back
        if neutral then a ++ b
        else
          let h := x.headerSum v6 o b
          let covered := b ++ p ++ h ++ (if v6 then a else [])
          a ++ x.headerSum v6 w a ++ b ++ p ++ h ++ (if covered.isEmpty then [] else [x.checksum (o - 6) covered])
    cs.map Change.edit

/-- The binding that a reference names: public address and port (R253).
(DEDUCED: log entry 38.) -/
def State.refEnd (s : State) (ref : Nat) : Nat × Nat := (s.get Obj.publicAddr (ref / 2 ^ 20), bitsOf ref 19 4)

/-- New endpoints of a frame by its record (R274), and whether it goes to a member. -/
def State.newEnds (s : State) (r : Fore) (aft : List Byte) (fromLow : Bool) : NewEnds × Bool :=
  let (lo, hi) := recordEnds r aft
  let fromInit := fromLow == r.initLow
  let fromInside := fromLow == r.act 0
  let inside := if r.act 0 then lo else hi
  let init := if r.initLow then lo else hi
  let resp := if r.initLow then hi else lo
  let nat := r.act 7 && r.xkind == 0
  let npt := r.act 7 && r.xkind == 1
  let pub := s.refEnd r.xlate
  let e : NewEnds :=
    if r.act 3 then
      if fromInit then { srcAddr := some pub.1, srcPort := some pub.2, dstAddr := some resp.1, dstPort := some resp.2 }
      else
        let own := s.refEnd r.balance
        { srcAddr := some own.1, srcPort := some own.2, dstAddr := some init.1, dstPort := some init.2 }
    else if nat then
      if fromInside then { srcAddr := some pub.1, srcPort := some pub.2 }
      else { dstAddr := some inside.1, dstPort := some inside.2 }
    else if npt then
      if fromInside then { srcAddr := some (leAt aft 36 16) } else { dstAddr := some inside.1 }
    else {}
  if !r.act 6 then (e, false)
  else
    let v := r.balance / 2 ^ 20
    if fromInit then
      let m := s.member v (bitsOf r.balance 19 10)
      ({ e with dstAddr := some m.addr, dstPort := some (if m.port = 0 then s.get Obj.vport v else m.port) }, true)
    else ({ e with srcAddr := some (addr16 (s.get Obj.vip v)), srcPort := some (s.get Obj.vport v) }, false)

/-- The destination address that the frame holds now, in the IP header that carries it. -/
def Frame.dstNow (x : Frame) (v6 : Bool) : Nat :=
  match x.result.l3 with
  | some o => let w := x.outer.getD o; if v6 then x.peek (w + 24) 16 else x.peek (w + 16) 4
  | none => 0

/-- The next hop of a destination in a VRF (R286).
(DEDUCED: log entry 44.) -/
def State.nextHop (s : State) (v6 : Bool) (addr vrf : Nat) : Option Hop :=
  match (if v6 then s.route s.tables.route6 128 addr vrf else s.route s.tables.route4 32 addr vrf) with
  | some r => if bitOf r.result 30 then s.hop (r.result % 4096) else none
  | none => none

/-! ### Setup (R254) -/

/-- How setup ends: a record's fore and aft half, a discard, or a punt with reason 0x09. -/
inductive Setup where
  | record (r : Fore) (aft : Option (List Byte))
  | drop
  | punt
  deriving DecidableEq, Repr

/-- Discard for want of a next hop (R286). -/
def noRoute (p vrf hash : Nat) (s : State) : State :=
  raise Ev.xlateNoRoute p vrf hash (s.bump Obj.xlateNoRouteCount p)

/-- What the bindings of setup's step 6 give a record. -/
structure Bound where
  actions : Nat := 0
  xlate : Nat := 0
  /-- BALANCE_REF of a hairpin. -/
  balance : Nat := 0
  /-- XLATE_ADDR6. -/
  addr6 : Nat := 0
  deriving DecidableEq, Repr

/-- How step 6 ends. -/
inductive Bind where
  | bound (b : Bound)
  | fails
  | punts
  deriving DecidableEq, Repr

/-- A reference field of a NAT44 binding (R253). -/
def State.natRef (s : State) (q P : Nat) : Nat :=
  q * 2 ^ 20 + P * 16 + 8 * bit01 (bitOf (s.natEntry q (P % 4096) (P / 4096)) 12)

/-- Step 6 for an inbound frame resolved through a binding (R272, R273): `set` is the rule's pool set.
(DEDUCED: log entry 36.) -/
def bindResolved (p q P hash : Nat) (hairpin : Bool) (set : Option (Nat × Nat)) (k : RawKey) (s : State) : Bind × State :=
  let e := s.natEntry q (P % 4096) (P / 4096)
  let insideLow := decide (k.dst < k.src)
  let fail (s : State) : Bind × State := (.fails, s.bump Obj.bindFails q)
  if natState e ≠ 2 ∧ s.get Obj.filtering q ≠ 1 then (.fails, s.bump Obj.natFiltered p)
  else if !hairpin then
    match columnReference q P s with
    | (none, s) => fail s
    | (some _, s) => (.bound { actions := 128 + bit01 insideLow, xlate := s.natRef q P }, s)
  else match set with
    | none => fail s
    | some (first, count) =>
      match bindSource first count hash (k.src / 65536) (k.src % 65536) none s with
      | (none, s) => (.fails, s)
      | (some (q', P'), s) =>
        match columnReference q P s with
        | (none, s) => fail (columnRelease q' P' s)
        | (some _, s) =>
          (.bound { actions := 128 + 8 + bit01 k.fromLow, xlate := s.natRef q' P',
                    balance := q * 2 ^ 20 + P * 16 }, s)

/-- Step 6 for a source address translated by prefix (R279). -/
def bindPrefix (q : Nat) (insideAddr : Nat) (insideLow v6 : Bool) (s : State) : Bind × State :=
  let n := s.get Obj.nptPrefixLen q
  let pin := addr16 (s.get Obj.nptInsidePrefix q)
  if !v6 || insideAddr / 2 ^ (128 - n) != pin / 2 ^ (128 - n) then (.fails, s.bump Obj.bindFails q)
  else (.bound { actions := 128 + 2 + bit01 insideLow, xlate := q * 2 ^ 20,
                 addr6 := nptMap n pin (addr16 (s.get Obj.nptOutsidePrefix q)) insideAddr }, s)

/-- Step 6 for a source binding from a pool set (R268, R275).
(DEDUCED: log entry 36.) -/
def bindSet (first count hash : Nat) (service : Option Nat) (frag : Bool) (k : RawKey) (s : State) : Bind × State :=
  let kind := s.get Obj.poolKind first
  if kind = 0 then (.bound {}, s)
  else if kind = 2 then bindPrefix first (k.src / 65536) k.fromLow (k.family == 6) s
  else if k.family = 6 then (.fails, s.bump Obj.bindFails first)
  else if service = none ∧ k.src % 65536 = 0 ∧ k.dst % 65536 = 0 then
    if frag then (.punts, s) else (.fails, s.bump Obj.bindFails first)
  else match bindSource first count hash (k.src / 65536) (k.src % 65536) service s with
    | (none, s) => (.fails, s)
    | (some (q, P), s) => (.bound { actions := 128 + bit01 k.fromLow, xlate := s.natRef q P }, s)

/-- Step 6 of R254 for a frame with its oriented key. -/
def bindFlow (p : Nat) (x : Frame) (k : RawKey) (hash : Nat) (service : Option Nat) (rule : Option Rule) (s : State) :
    Bind × State :=
  let set := match rule with
    | some r => if r.nat then some (r.poolFirst, r.poolCount) else none
    | none => none
  match x.home.resolved with
  | some (q, P) => bindResolved p q P hash x.home.hairpin set k s
  | none =>
    let npt := x.home.steer.bind fun w => if bitOf w 30 then some (bitsOf w 27 16) else none
    match npt with
    | some q => bindPrefix q (k.dst / 65536) (decide (k.dst < k.src)) (k.family == 6) s
    | none =>
      let snat := service.bind fun v =>
        if s.get Obj.snatPoolCount v = 0 then none else some (s.get Obj.snatPoolFirst v, s.get Obj.snatPoolCount v)
      match snat, set with
      | some (first, count), _ => bindSet first count hash service x.fragment k s
      | none, some (first, count) => bindSet first count hash none x.fragment k s
      | none, none => (.bound {}, s)

/-- What a first TCP segment gives its record. -/
structure FirstTcp where
  state : Nat := 0
  track : Nat := 0
  noScale : Bool := false
  isn : Option Nat := none
  limits : Nat := 0
  deriving DecidableEq, Repr

/-- TCP_STATE and TCP_TRACK of a first segment (R262); none where it may not create a record.
(DEDUCED: log entry 34.) -/
def tcpFirst (x : Frame) (pickup : Bool) : Option FirstTcp :=
  let low := x.fromLow
  match x.segment with
  | none => none
  | some g =>
    if g.syn && !g.ack then some { state := 1, track := synTrack low g, noScale := g.scale.isNone, isn := some g.seq }
    else if g.ack && pickup then
      let lx := (ceilDiv g.end_ 4096 + 2 ^ 18) % 2 ^ 20
      let ly := ackLimit g (if g.syn then 0 else 14)
      some { state := 3, track := if low then trackOf 14 14 lx ly else trackOf 14 14 ly lx, limits := 3 }
    else none

/-- TELEMETRY of a new record (R303). -/
def newTelemetry (x : Frame) (rule : Option Rule) : Nat := (rule.bind Rule.telemetry).getD (x.result.telemetry % 16)

/-- The fore half of a new record before its actions. -/
def State.newFore (s : State) (x : Frame) (k : RawKey) (rule : Option Rule) (respZone : Nat) : Fore :=
  { vrf := k.vrf, proto := k.proto, keyBits := s.keyBits k, hash := x.home.hash, slot := 0, family6 := k.family == 6,
    initLow := x.fromLow, pin := (rule.map Rule.pin).getD false, fragKey := x.fragment,
    telemetry := newTelemetry x rule, initZone := x.result.zone, respZone := respZone, lastSeen := s.nowMs % 2 ^ 32 }

/-- The aft half of a new record: written for IPv6 alone (R216). -/
def newAft (k : RawKey) (addr6 : Nat) : Option (List Byte) :=
  if k.family = 6 then some (k.aftKey ++ leBytes 16 addr6 ++ List.replicate 12 0) else none

/-- Steps 5 to 7 of R254 under the verdict ALLOW. -/
def setupAllowed (p : Nat) (x : Frame) (k : RawKey) (rule : Option Rule) (service : Option (Nat × Nat)) (respZone : Nat)
    (s : State) : Setup × State :=
  let s := s.bump Obj.policyAllowed p
  let tcp := k.proto == 6 && !x.fragment
  let first := tcpFirst x ((rule.map Rule.pickup).getD false)
  if tcp && first.isNone then (.drop, s.bump Obj.tcpNoSyn p)
  else
    let t := if tcp then first.getD {} else {}
    match bindFlow p x (x.oriented k) x.home.hash (service.map (·.1)) rule s with
    | (.fails, s) => (.drop, s)
    | (.punts, s) => (.punt, s)
    | (.bound b, s) =>
      let toll := (rule.bind Rule.toll).bind fun t => (s.profile t).map fun y => s.tollFull t y
      let balance := match service with
        | some (v, m) => v * 2 ^ 20 + m * 2 ^ 10
        | none => b.balance
      let actions := b.actions + 64 * bit01 service.isSome + 32 * bit01 tcp + 16 * bit01 toll.isSome
      let s := match service with
        | some (v, _) => s.bump Obj.newFlows v
        | none => s
      (.record { s.newFore x k rule respZone with
          tcpState := t.state, track := t.track, noScale := t.noScale, isn := t.isn, limits := t.limits, windowCheck := tcp && (rule.map Rule.windowCheck).getD false,
          actions := actions, xlate := b.xlate, balance := balance, toll := toll.getD 0 } (newAft k b.addr6), s)

/-- Steps 3 to 7 of R254, with the member chosen and the egress port fixed at step 2. -/
def setupJudged (p : Nat) (x : Frame) (k : RawKey) (service : Option (Nat × Nat)) (port : Nat) (s : State) : Setup × State :=
  let meta_ := x.result.metadata
  let respZone := if bitOf meta_ 31 then meta_ % 4096 else s.get Obj.portZone port
  let o := x.oriented k
  let found := findRule x.result.zone respZone k.proto (o.dst % 65536) 0 (parseRules (s.getDom Obj.policyRules))
  let verdict := match found with
    | some (_, r) => r.verdict
    | none => s.get Obj.policyDefault
  let rule := found.map (·.2)
  if verdict = 0 then setupAllowed p x k rule service respZone s
  else if verdict = 1 then
    (.drop, raise Ev.policyDenied p ((found.map (·.1)).getD 0xFFFFFFFF) x.home.hash (s.bump Obj.policyDenied p))
  else if verdict = 2 then (.record { s.newFore x k rule respZone with tcpState := 9 } (newAft k 0), s)
  else (.punt, s)

/-- A home pipe reads the slots of a service from `start` on, to the one that gives the member; those of another deck by
way of its controller's DMA requester (R381, R382). -/
def readSlots (p v start : Nat) (s : State) : State :=
  if deckOfPipe (v % 8) = deckOfPipe p then s
  else
    let slot (i : Nat) : Nat := (start + i) % 2 ^ s.get Obj.slotLog2 v
    let gives (i : Nat) : Bool :=
      let e := s.slbSlot v (slot i)
      bitOf e 15 && (s.member v (e % 1024)).up
    let n := ((List.range 8).find? gives).getD 7 + 1
    (((List.range n).map fun i => slot i / 8).eraseDups).foldl
      (fun s b => wantBurst .dma false (v % 8) (balanceOffset v (8 * b)) s) s

/-- Setup of a flow (R254) at pipe `p`. A hairpin flow is not balanced: HAIRPIN and BALANCE are never both 1 (R253).
(DEDUCED: log entry 36.) -/
def setupFlow (p : Nat) (x : Frame) (k : RawKey) (s : State) : Setup × State :=
  let o := x.oriented k
  let npt := (x.home.steer.map fun w => bitOf w 30).getD false
  let steered := x.home.resolved.isSome || npt
  match (if x.home.hairpin then none else s.serviceOf o) with
  | some v =>
    let start := s.slbStart v x.home.hash o
    let s := readSlots p v start s
    (match s.chooseMember v start with
     | none =>
       let s := raise Ev.slbNoMember v start x.home.hash (s.bump Obj.noMember v)
       (if s.get Obj.noMemberAction v = 1 then .punt else .drop, s)
     | some m => match s.hop (s.member v m).hop with
       | none => (.drop, noRoute p k.vrf x.home.hash s)
       | some h => setupJudged p x k (some (v, m)) h.port s)
  | none =>
    if steered then
      match s.nextHop (k.family == 6) (o.dst / 65536) k.vrf with
      | none => (.drop, noRoute p k.vrf x.home.hash s)
      | some h => setupJudged p x k none h.port s
    else setupJudged p x k none x.port s

/-! ### The order of actions (R258) -/

/-- Discard a frame by an action at its home pipe (R259). -/
def actionDrop (p : Nat) (f : FrameId) (s : State) : State := discardAt (deckOfPipe p) f s

/-- Send a frame on from its home pipe: under its stamp, or redirected where port or class differ (R32). -/
def sendOn (p : Nat) (f : FrameId) (port cls : Nat) (s : State) : State :=
  match s.frame f with
  | none => s
  | some x =>
    if x.port = port ∧ x.cls = cls then toEgress f s
    else
      let s := match x.stamp with
        | some st => sendHole (deckOfPipe p) st s
        | none => s
      stampOrWait true p f (s.setFrame f { x with
        port := port, cls := cls, epipe := pipeOfPort port, ferryDst := none, stamp := none })

/-- Steps 4 to 6 of R258 for a frame whose class so far is `cls`.
(DEDUCED: log entry 44.) -/
def applyRewrites (p slot : Nat) (r : Fore) (f : FrameId) (x : Frame) (cls : Nat) (s : State) : State :=
  let v6 := r.family6
  let (e, toMember) := s.newEnds r (s.aft p slot) x.fromLow
  let k := x.home.key.getD { vrf := r.vrf, proto := r.proto, family := if v6 then 6 else 4, src := 0, dst := 0 }
  let edits := x.rewrites k e (r.act 7 && r.xkind == 1 && !r.act 6)
  let n := if v6 then 16 else 4
  let changed := match e.dstAddr with
    | some a => a % 2 ^ (8 * n) != x.dstNow v6
    | none => false
  let ioam := bitOf r.telemetry 2 || bitOf x.result.telemetry 4
  let x := { x with home := { x.home with edits := edits, ioam := ioam } }
  if !changed then sendOn p f x.port cls (s.setFrame f x)
  else
    let hop := if toMember then s.hop (s.member (r.balance / 2 ^ 20) (bitsOf r.balance 19 10)).hop
      else s.nextHop v6 (e.dstAddr.getD 0) r.vrf
    match hop with
    | none => actionDrop p f (noRoute p r.vrf x.home.hash (s.setFrame f { x with home := { x.home with duty := false } }))
    | some h =>
      let macs : List Edit := [.rewrite 0 48 (beNat h.dmac), .rewrite 48 48 (beNat h.smac)]
      sendOn p f h.port h.cls (s.setFrame f { x with home := { x.home with edits := edits ++ macs } })

/-- Counter of a colour (R290). -/
def colourObj : Colour → ObjRow
  | .green => Obj.tollGreen
  | .yellow => Obj.tollYellow
  | .red => Obj.tollRed

/-- Step 3 of R258: the toll of a record; the class the frame goes on in, or none where it is discarded. -/
def tollStep (p slot : Nat) (r : Fore) (f : FrameId) (x : Frame) (s : State) : Option Nat × State :=
  let t := r.toll / 2 ^ 36
  match (if r.act 4 then s.profile t else none) with
  | none => (some x.cls, s)
  | some y =>
    let ((col, charged, toll), s) := evalToll p y r.toll r.lastSeen x.headLength s
    let s := updateFore p slot (fun r => { r with toll := toll }) s
    let s := (s.bump (colourObj col) p).modFrame f fun x => { x with home := { x.home with charged := charged } }
    match col with
    | .green => (some x.cls, s)
    | .yellow =>
      if s.get Obj.yellowAction t = 2 then (none, s)
      else (some (if s.get Obj.yellowAction t = 1 then s.get Obj.yellowClass t else x.cls), s)
    | .red => (if s.get Obj.redAction t = 1 then some x.cls else none, s)

/-- Steps 3 to 6 of R258. -/
def actionsFrom3 (p slot : Nat) (r : Fore) (f : FrameId) (x : Frame) (s : State) : State :=
  match tollStep p slot r f x s with
  | (none, s) => actionDrop p f s
  | (some cls, s) =>
    match s.frame f with
    | none => s
    | some x => applyRewrites p slot r f { x with home := { x.home with record := some (p, slot), duty := true } } cls s

/-- R258: the actions of a record on a frame at the head. -/
def applyActions (p slot : Nat) (f : FrameId) (s : State) : State :=
  let s := loadLine p slot s
  match s.fore p slot, s.frame f with
  | some r, some x =>
    if r.tcpState = 9 then actionDrop p f (s.bump Obj.denyRecordDrops p)
    else if !r.act 5 then actionsFrom3 p slot r f x s
    else match tcpVerdict r x with
      | .none_ => actionsFrom3 p slot r f x s
      | .pass n =>
        let x := { x with home := { x.home with tcp := some (r.tcpState, n) } }
        actionsFrom3 p slot r f x (s.setFrame f x)
      | v =>
        let window := v == .window
        let s := s.bump (if window then Obj.tcpWindowViolations else Obj.tcpStateViolations) p
        let s := raise Ev.tcpViolation p (256 * bit01 window + r.tcpState) x.home.hash s
        if s.get Obj.tcpViolationAction = 1 then
          let x := { x with home := { x.home with tcp := some (r.tcpState, r.tcpState) } }
          actionsFrom3 p slot r f x (s.setFrame f x)
        else actionDrop p f s
  | _, _ => s

/-! ### The tail (R258 step 7, R291, R295) -/

/-- Add to a tally of a record: `which` 0 packets, 1 bytes, 2 errored (R296, R297). -/
def addTally (p slot which n : Nat) (s : State) : State :=
  match s.fore p slot with
  | none => s
  | some r =>
    let t := if which = 0 then r.tallyPackets else if which = 1 then r.tallyBytes else r.tallyErrored
    let ((t, sat), s) := tallyAdd p t n s
    let s := updateFore p slot (fun r => if which = 0 then { r with tallyPackets := t }
      else if which = 1 then { r with tallyBytes := t } else { r with tallyErrored := t }) s
    if sat then raise Ev.tallySaturated p slot (which * 2 ^ 32 + r.hash) (s.bump Obj.tallySaturations p) else s

/-- The charge that a length makes on the buckets that were charged at the head. -/
def chargeFor (y : Profile) (old : Nat × Nat) (len : Nat) : Nat × Nat :=
  (if old.1 = 0 then 0 else ceilDiv len y.quantumC, if old.2 = 0 then 0 else ceilDiv len y.quantumP)

/-- Settle the toll of a frame at its tail: `len` bytes are charged in the place of what the head charged. -/
def settleFrame (p slot : Nat) (x : Frame) (len : Option Nat) (s : State) : State :=
  match s.fore p slot with
  | none => s
  | some r =>
    match (if r.act 4 then s.profile (r.toll / 2 ^ 36) else none) with
    | none => s
    | some y =>
      let new := match len with
        | some n => chargeFor y x.home.charged n
        | none => (0, 0)
      updateFore p slot (fun r => { r with toll := settleToll r.toll x.home.charged new }) s

/-- The updates at a frame's tail (R258 step 7, R291, R295): toll, tallies, LAST_SEEN, TCP.
(DEDUCED: log entry 33.) -/
def tailUpdates (p slot : Nat) (x : Frame) (good : Bool) (s : State) : State :=
  if good then
    let s := settleFrame p slot x (some x.trueLength) s
    let s := addTally p slot 1 x.trueLength (addTally p slot 0 1 s)
    let now := s.nowMs % 2 ^ 32
    updateFore p slot (fun r =>
      let r := { r with lastSeen := now }
      match x.home.tcp with
      | some (st, n) => tcpTail r x st n
      | none => r) s
  else addTally p slot 2 1 (settleFrame p slot x none s)

/-- A frame with updates to make has its tail: they are made on its record, if its pipe still holds it.
(DEDUCED: log entry 33.) -/
def makeUpdates (f : FrameId) (s : State) : State :=
  match s.frame f with
  | none => s
  | some x => match x.home.duty, x.tail, x.home.record, x.home.key with
    | true, some good, some (p, slot), some k =>
      let mine := match s.fore p slot with
        | some r => s.matchesDie r k x.home.hash
        | none => false
      let s := if mine then tailUpdates p slot x good s else s
      if x.stage = .gone ∧ x.truncated = none then s.freeFrame f
      else s.setFrame f { x with home := { x.home with duty := false } }
    | _, _, _, _ => s

end Sys2Proof.Machine
end

