-- ==== Sys2Proof/Machine/HomeStage.lean ====
section
/-! DEFINITION. The home stage (07, 08): admission, lookup (R222 to R225), creation and overflow (R226 to R229), return
steering (R271), consults and transfers (R246, R247), and the frame's tail. -/

namespace Sys2Proof.Machine

/-! ### Frames at the home stage -/

/-- The whole frame stands on its pipe's deck. -/
def State.storedWhole (s : State) (f : FrameId) (x : Frame) : Bool := x.tail.isSome && s.landedWhole f

/-- Put a frame into a stage. -/
def setStage (f : FrameId) (g : Stage) (s : State) : State := s.modFrame f fun x => { x with stage := g }

/-- HOME_PIPE of a hash's entry (R28). -/
def State.homeOf (s : State) (hash : Nat) : Nat := s.get Obj.homePipe (hash / 2 ^ 20)

/-- A frame that is to be handed on crosses to its new home pipe (R225). -/
def crossHome (p new : Nat) (f : FrameId) (s : State) : State :=
  crossTo false p new f (s.modFrame f fun x => { x with hpipe := new, home := { x.home with handTo := none } })

/-- Hand a frame on to another pipe's home stage without new stamping (R225, R246), once it stands whole on its deck.
(DEDUCED: log entry 32.) -/
def handOn (p new : Nat) (f : FrameId) (s : State) : State :=
  match s.frame f with
  | none => s
  | some x =>
    let s := (s.setFrame f { x with stage := .stored p, home := { x.home with handedOn := true, handTo := some new, setWait := false } }).bump
      Obj.framesHandedOn p
    if s.storedWhole f x then crossHome p new f s else s

/-- Release a frame's operation slot (R38). -/
def releaseOp (p : Nat) (f : FrameId) (s : State) : State :=
  s.withFlow { s.flow with ops := s.flow.ops.filter (· != (p, f)) }

/-- Take an operation slot for a frame whose lookup reads memory (R38). -/
def takeOp (p : Nat) (f : FrameId) (s : State) : State :=
  if s.flow.ops.contains (p, f) then s else s.withFlow { s.flow with ops := s.flow.ops ++ [(p, f)] }

/-- Operation slots of which a burst is to come, is queued or is under way (R38). -/
def State.burstOps (s : State) : List (Nat × FrameId) :=
  s.hbm.due.filterMap (·.op) ++ s.hbm.pcs.flatMap fun e => (e.2.queue ++ e.2.issued).filterMap (·.op)

/-- Operation slots that a pipe holds: those of lookups, to the end of every memory access that they started (R38). -/
def State.opsHeld (s : State) (p : Nat) : Nat := (((s.flow.ops ++ s.burstOps).filter fun x => x.1 == p).eraseDups).length

/-- The lookup and write-back bursts wanted since `n` were due are those of a frame's operation slot (R38). -/
def tagOps (p : Nat) (f : FrameId) (n : Nat) (s : State) : State :=
  s.withHbm { s.hbm with due := s.hbm.due.take n ++ (s.hbm.due.drop n).map fun b =>
    if b.rr = .lookup ∨ b.rr = .writeback then { b with op := some (p, f) } else b }

/-- The bursts that `g` wants are charged to a frame's operation slot (R38, R39). -/
def charging (p : Nat) (f : FrameId) (g : State → State) (s : State) : State := tagOps p f s.hbm.due.length (g s)

/-- Frames that a pipe's home stage has admitted in the present clock (R37). -/
def State.admittedNow (s : State) (p : Nat) : Nat :=
  match s.flow.admitted.find p with
  | some (t, n) => if t = s.time.ticks then n else 0
  | none => 0

/-- The home stage may admit a frame: fewer than two in this clock, and an operation slot is free (R37, R38); the deck's
clock runs (R526). -/
def State.mayAdmit (s : State) (p : Nat) : Bool := s.ticking (deckOfPipe p) && decide (s.admittedNow p < 2) && decide (s.opsHeld p < 2048)

/-- The home stage admits a frame (R37). -/
def noteAdmitted (p : Nat) (s : State) : State :=
  s.withFlow { s.flow with admitted := s.flow.admitted.put p (s.time.ticks, s.admittedNow p + 1) }

/-! ### PENDING lines (R224) -/

/-- A frame waits on a PENDING line. -/
def joinPending (p : Nat) (f : FrameId) (k : RawKey) (s : State) : State :=
  let s := s.withFlow { s.flow with pendings := s.flow.pendings.map fun x =>
    if x.pipe = p ∧ x.key = k.bytes then { x with waiters := x.waiters ++ [f] } else x }
  (setStage f (.waiting p) (releaseOp p f s)).bump Obj.pendingWaits p

/-- The PENDING line that a frame is to resolve. -/
def State.pendingOf (s : State) (p : Nat) (f : FrameId) : Option PendingLine :=
  s.flow.pendings.find? fun x => x.pipe == p && x.creator == f

/-- Remove the PENDING line that a frame was to resolve. -/
def dropPending (p : Nat) (f : FrameId) (s : State) : State :=
  s.withFlow { s.flow with pendings := s.flow.pendings.filter fun x => !(x.pipe == p && x.creator == f) }

/-- Write the PENDING line of a frame's key (R224). -/
def writePending (p : Nat) (f : FrameId) (k : RawKey) (hash : Nat) (s : State) : State :=
  let (w, s) := takeWay p (setOf hash) s
  s.withFlow { s.flow with pendings := s.flow.pendings ++
    [{ pipe := p, key := k.bytes, hash := hash, way := w, creator := f, waiters := [] }] }

/-- Waiting frames start at the home stage again. -/
def restage (p : Nat) (l : List FrameId) (s : State) : State := l.foldl (fun s g => setStage g (.home p) s) s

/-! ### Lookup (R222, R225, R235) -/

/-- The frame's lookup has missed everywhere (R225): it is handed on, waits for room in its set, or writes a PENDING line
and consults the old home or is stored whole. -/
def lookupMissed (p : Nat) (f : FrameId) (x : Frame) (k : RawKey) (s : State) : State :=
  let hash := x.home.hash
  let e := hash / 2 ^ 20
  let s := if x.home.setWait then s else s.bump Obj.lookupMisses p
  if s.homeOf hash ≠ p then handOn p (s.homeOf hash) f (releaseOp p f s)
  else if s.setFull p (setOf hash) then
    let s := takeOp p f (s.setFrame f { x with stage := .lookup p, home := { x.home with setWait := true } })
    if x.home.setWait then s else s.bump Obj.setFullWaits p
  else
    let s := writePending p f k hash (releaseOp p f s)
    let ask := s.get Obj.homeState e == 1 && !x.home.handedOn && !x.home.consulted &&
      s.deckUp (deckOfPipe (s.get Obj.homeOldPipe e))
    s.setFrame f { x with stage := if ask then .consult p else .stored p }

/-- A frame is held while its record migrates (R225, R247). -/
def holdMigrating (p slot : Nat) (f : FrameId) (s : State) : State :=
  let s := s.withFlow { s.flow with transfers := s.flow.transfers.map fun t =>
    if t.fromPipe = p ∧ t.slot = slot then { t with held := t.held ++ [f] } else t }
  setStage f (.waiting p) (releaseOp p f s)

/-- The frame goes to several ports: a group's or a ferry broadcast (R342). -/
def Frame.replicates (x : Frame) : Bool := x.group.isSome || (x.ferryDst.map (·.2)).getD false

/-- The frame was stored whole before its lookup, and its tail is bad (R291). -/
def Frame.storedBad (x : Frame) : Bool := (x.home.whole || x.home.handedOn) && x.tail == some false

/-- A frame's lookup has found a record (R225): it is held, or its record is reclaimed as idle, or its actions follow; a
frame stored whole whose tail is bad only counts (R291). -/
def lookupFound (p slot : Nat) (f : FrameId) (x : Frame) (k : RawKey) (s : State) : State :=
  if s.migrating p slot then holdMigrating p slot f s
  else if x.storedBad then discardAt (deckOfPipe p) f (addTally p slot 2 1 (releaseOp p f s))
  else if s.idle p slot then
    match reclaim p slot 0 Obj.reclaimedAccess s with
    | (true, s) => lookupMissed p f x k s
    | (false, s) => s
  else applyActions p slot f (releaseOp p f s)

/-- The record is idle, and it is MOVING or its place is locked: its idle check or its reclaim, and the frame with it,
waits (R241, R242).
(DEDUCED: log entry 33.) -/
def State.reclaimWaits (s : State) (p slot : Nat) : Bool :=
  s.idleSince p slot (s.timeoutOf p slot) && (s.movingLine p slot || match s.fore p slot with
    | some r => s.placeLocked p slot r
    | none => false)

/-- A key's PENDING line at its home; where HOME_PIPE names another pipe, only a record keeps the frame (R225). -/
def State.pendsHere (s : State) (p : Nat) (k : RawKey) (hash : Nat) : Bool :=
  (s.findPending p k).isSome && s.homeOf hash == p

/-- The reads of R222 steps 2 and 3 on a pier, by requester `rr`: the pier, and the fore half, and for IPv6 the aft half,
of each berth that matches the key (R39). -/
def startReads (rr : Requester) (p pier : Nat) (k : RawKey) (hash : Nat) (s : State) : State :=
  (s.candidates p pier k hash).foldl (fun s n =>
    let s := wantBurst rr false p (slotOffset n) s
    if k.family = 6 then wantBurst rr false p (aftOffset n) s else s) (wantBurst rr false p (pierOffset pier) s)

/-- The home stage's on-die probe of a frame's key (R222 step 1), and the reads that it starts where that misses. -/
def probe (p : Nat) (f : FrameId) (x : Frame) (k : RawKey) (s : State) : State :=
  let hash := x.home.hash
  match s.findLine p k hash with
  | some n => if s.reclaimWaits p n then s else lookupFound p n f x k (s.bump Obj.cacheHits p)
  | none =>
    if s.pendsHere p k hash then joinPending p f k s
    else match s.findAshore p k hash with
      | some n =>
        if s.reclaimWaits p n then s else lookupFound p n f x k (loadLine p n (s.bump Obj.anchorageHits p))
      | none =>
        let pier := s.pier p hash
        startReads .lookup p pier k hash
          (takeOp p f (s.setFrame f { x with stage := .lookup p, home := { x.home with pier := pier } }))

/-- R222, R225: a frame with a key at the home stage. -/
def homeFlow (p : Nat) (f : FrameId) (x : Frame) (k : RawKey) (s : State) : State :=
  let x := { x with home := { x.home with served := true } }
  probe p f x k (s.setFrame f x)

/-- A steered NAT44 frame whose binding is not resolved yet (R271). -/
def Frame.unresolved (x : Frame) : Bool :=
  match x.home.steer with
  | some w => !bitOf w 30 && x.home.resolved.isNone
  | none => false

/-- A frame that is to be looked up is ready for it: resolved, and stored whole where it has to be (R271, R276). -/
def State.ready (s : State) (f : FrameId) (x : Frame) : Bool :=
  x.result.stateless || x.home.key.isNone || (!x.unresolved && (!x.home.whole || s.storedWhole f x))

/-- The home pipe learns the key of the frame's last lookup 0x07 (R193). -/
def homeLearning (p : Nat) (f : FrameId) (x : Frame) (s : State) : State :=
  match x.home.learn with
  | none => s
  | some key =>
    if p = pipeOfPort x.inPort ∨ s.get Obj.homeLearnEnable p ≠ 1 then s
    else queueLearn p key (s.setFrame f { x with home := { x.home with learn := none } })

/-- R225, R342: what the home stage does with a frame that it admits. -/
def admitFrame (p : Nat) (f : FrameId) (x : Frame) (s : State) : State :=
  let s := homeLearning p f x s
  let x := (s.frame f).getD x
  let marked := { x with home := { x.home with ioam := bitOf x.result.telemetry 4 } }
  if x.replicates then fanOut f (s.setFrame f marked)
  else if x.result.stateless then toEgress f (s.setFrame f marked)
  else match x.home.key with
    | none => toEgress f (s.setFrame f marked)
    | some k => charging p f (homeFlow p f x k) s

/-- R225, R222, R342: a frame is admitted to its home stage, where the stage may admit one (R37, R38).
(DESIGN CHOICE: log entry 74.) -/
def execHomeStageFrame (p : Pipe) (f : FrameId) (s : State) : Host.Outcome State Fault Refusal :=
  .next (match s.frame f with
    | none => s
    | some x =>
      if x.stage ≠ .home p.val ∨ !s.mayAdmit p.val ∨ !(x.replicates || s.ready f x) then s
      else admitFrame p.val f x (noteAdmitted p.val s))

/-- R222, R224: the pier and fore reads of a lookup return. -/
def lookupData (p : Nat) (f : FrameId) (x : Frame) (k : RawKey) (s : State) : State :=
  let hash := x.home.hash
  let found (n : Nat) (o : ObjRow) (s : State) : State :=
    if s.reclaimWaits p n then s else lookupFound p n f x k (loadLine p n (s.bump o p))
  match s.findLine p k hash with
  | some n => found n Obj.cacheHits s
  | none =>
    if s.pendsHere p k hash then joinPending p f k s
    else match s.findAshore p k hash with
      | some n => found n Obj.anchorageHits s
      | none =>
        if s.lookupPoisoned p (if x.home.setWait then s.pier p hash else x.home.pier) k hash then
          discardAt (deckOfPipe p) f (releaseOp p f s)
        else if x.home.setWait then
          match s.findRecord p k hash with
          | some n => found n Obj.pierHits s
          | none => lookupMissed p f x k s
        else match readPier p x.home.pier k hash s with
          | (some n, s) => found n Obj.pierHits s
          | (none, s) => lookupMissed p f x k s

/-- R222: HOME_LOOKUP_DATA. -/
def execHomeLookupData (p : Pipe) (f : FrameId) (s : State) : Host.Outcome State Fault Refusal :=
  .next (match s.frame f with
    | none => s
    | some x => match x.stage == .lookup p.val, x.home.key with
      | true, some k => charging p.val f (lookupData p.val f x k) (returnReads p.val f s)
      | _, _ => s)

/-! ### Return steering (R271, R273, R276) -/

/-- The key of a frame steered to a binding's entry (R271); an ICMP error's embedded source is the endpoint replaced.
(DEDUCED: log entry 37.) -/
def State.resolvedKey (s : State) (x : Frame) (k : RawKey) (q e : Nat) : RawKey :=
  let mine := endpoint (natAddr e) (natPort e)
  let other (o : Nat) : Nat := if natSlb e then s.vipEnd (natRefs e) else o
  let k := { k with vrf := s.get Obj.insideVrf q }
  if x.outer.isSome then { k with src := mine, dst := other k.dst } else { k with dst := mine, src := other k.src }

/-- A steered NAT44 frame is resolved through its binding (R271). -/
def resolveFrame (p : Nat) (f : FrameId) (x : Frame) (k : RawKey) (q P : Nat) (s : State) : State :=
  match readBinding p q P s with
  | ((e, hit), s) =>
    if natState e = 0 then discardAt (deckOfPipe p) f (s.bump Obj.natNoBinding p)
    else
      let hairpin := x.result.vrf == s.get Obj.insideVrf q && x.result.vrf != s.get Obj.outsideVrf q
      let k := s.resolvedKey x k q e
      let hash := crc32c k.bytes
      s.setFrame f { x with
        result := { x.result with vrf := k.vrf },
        home := { x.home with key := some k, hash := hash, resolved := some (q, P), hairpin := hairpin,
                              whole := !(hit && s.homeOf hash == p) } }

/-- R271: STEERED_RESOLVE.
(DEDUCED: log entry 36.) -/
def execSteeredResolve (p : Pipe) (f : FrameId) (s : State) : Host.Outcome State Fault Refusal :=
  .next (match s.frame f with
    | none => s
    | some x => match x.stage == .home p.val && !x.result.stateless && x.home.resolved.isNone, x.home.steer, x.home.key with
      | true, some w, some k =>
        if bitOf w 30 then s else charging p.val f (resolveFrame p.val f x k (bitsOf w 27 16) (w % 65536)) s
      | _, _, _ => s)

/-! ### Creation and overflow (R226 to R229) -/

/-- Counter of a refusal's cause (R227). -/
def overflowObj (cause : Nat) : ObjRow :=
  if cause = 1 then Obj.overflowLimit else if cause = 2 then Obj.overflowPipeFull else Obj.overflowNoBerth

/-- The overflow action on one frame (R228).
(DEDUCED: log entry 32.) -/
def overflowFrame (p : Nat) (f : FrameId) (s : State) : State :=
  let a := s.get Obj.overflowAction
  if a = 1 then discardAt (deckOfPipe p) f s
  else if a = 2 then puntFrame p 8 f s
  else toEgress f (s.modFrame f fun x => { x with home := { x.home with ioam := bitOf x.result.telemetry 4 } })

/-- A creation is refused (R228): the action falls on the frame and on those that waited for it; an eviction may start
(R229).
(DEDUCED: log entry 32.) -/
def refuseCreation (p : Nat) (f : FrameId) (hash cause : Nat) (waiters : List FrameId) (s : State) : State :=
  let s := raise Ev.flowOverflow p cause hash (s.bump (overflowObj cause) p)
  let s := if s.get Obj.evictMinIdleMs = 0 then s
    else
      let (a, b) := flowPiers hash
      s.withFlow { s.flow with evictions := s.flow.evictions ++ [(p, cause, a, b, s.get Obj.flows p - 1024)] }
  (f :: waiters).foldl (fun s g => overflowFrame p g s) (dropPending p f s)

/-- A frame's actions under a new record, and its tail's updates where the tail is known. -/
def proceed (p slot : Nat) (f : FrameId) (s : State) : State := makeUpdates f (applyActions p slot f s)

/-- The record of a frame's flow is made (R226 steps 2 to 6). -/
def createRecord (p : Nat) (f : FrameId) (r : Fore) (aft : Option (List Byte)) (pend : Option PendingLine) (s : State) :
    State :=
  let waiters := (pend.map PendingLine.waiters).getD []
  match placeRecord .lookup p r aft (pend.map PendingLine.way) (dropPending p f s) with
  | (none, s) => s
  | (some slot, s) => (f :: waiters).foldl (fun s g => proceed p slot g s) (s.bump Obj.created p)

/-- A stored first frame has its good tail (R226, R254). -/
def createFlow (p : Nat) (f : FrameId) (x : Frame) (k : RawKey) (s : State) : State :=
  let hash := x.home.hash
  let pend := s.pendingOf p f
  let waiters := (pend.map PendingLine.waiters).getD []
  if s.homeOf hash ≠ p then
    (f :: waiters).foldl (fun s g => handOn p (s.homeOf hash) g s) (dropPending p f s)
  else
    let cause := s.refusal p hash
    if cause ≠ 0 then refuseCreation p f hash cause waiters s
    else match setupFlow p x k s with
      | (.record r aft, s) => createRecord p f r aft pend s
      | (.drop, s) => restage p waiters (discardAt (deckOfPipe p) f (dropPending p f s))
      | (.punt, s) => restage p waiters (puntFrame p 9 f (dropPending p f s))

/-- A stored first frame's tail is bad: the earliest waiting frame takes over the creation (R224, R291). -/
def creatorBad (p : Nat) (f : FrameId) (s : State) : State :=
  let pend := s.pendingOf p f
  let s := discardAt (deckOfPipe p) f (dropPending p f s)
  match pend with
  | none => s
  | some x => match x.waiters with
    | [] => s
    | w :: rest =>
      let s := s.withFlow { s.flow with pendings := s.flow.pendings ++ [{ x with creator := w, waiters := rest }] }
      setStage w (.stored p) s

/-- A frame that was stored for a consult has its record and its tail (R246, R291). -/
def consultedTail (p slot : Nat) (f : FrameId) (x : Frame) (k : RawKey) (s : State) : State :=
  let mine := match s.fore p slot with
    | some r => s.matchesDie r k x.home.hash
    | none => false
  if x.tail = some false then discardAt (deckOfPipe p) f (if mine then addTally p slot 2 1 s else s)
  else if mine then proceed p slot f s
  else s.setFrame f { x with stage := .home p, home := { x.home with record := none } }

/-- R226, R225: FRAME_TAIL_HOME.
(DEDUCED: log entry 32.) -/
def execFrameTailHome (p : Pipe) (f : FrameId) (s : State) : Host.Outcome State Fault Refusal :=
  .next (match s.frame f with
    | none => s
    | some x =>
      if x.stage ≠ .stored p.val then (if x.home.record.map (·.1) = some p.val then makeUpdates f s else s)
      else if !s.storedWhole f x then s
      else match x.home.handTo, x.home.record, x.home.key with
        | some new, _, _ => crossHome p.val new f s
        | none, some (_, slot), some k => charging p.val f (consultedTail p.val slot f x k) s
        | none, none, some k =>
          charging p.val f (if x.tail = some false then creatorBad p.val f else createFlow p.val f x k) s
        | _, _, _ => s)

/-! ### Consults and transfers (R246, R247) -/

/-- A frame that consulted goes on without a record: it is to create one (R246 NONE). -/
def answerNone (p : Nat) (f : FrameId) (s : State) : State :=
  s.modFrame f fun x => { x with stage := .stored p, home := { x.home with consulted := true } }

/-- The consult is answered HELD: the frame, and those that wait for it, go to the old home (R246). -/
def answerHeld (p old : Nat) (f : FrameId) (s : State) : State :=
  let waiters := ((s.pendingOf p f).map PendingLine.waiters).getD []
  let s := (dropPending p f s).modFrame f fun x => { x with home := { x.home with consulted := true } }
  (f :: waiters).foldl (fun s g => handOn p old g s) s

/-- The line of a record can be brought into MOVING or MIGRATING (R223). -/
def State.canMove (s : State) (p slot : Nat) (r : Fore) : Bool :=
  ((s.line p slot).elim false Line.special) || !s.setFull p (setOf r.hash)

/-- A record starts on its way to a new home (R247 steps 1 and 2): its aft half is read, and its fore half too where the
walk comes to it and it is neither cached nor ashore; a consult has read that already. -/
def beginTransfer (old new slot entry : Nat) (frame : Option FrameId) (s : State) : State :=
  let s := if frame.isNone && (s.line old slot).isNone && (s.berthOf old slot).isNone then
      wantBurst .insert false old (slotOffset slot) s
    else s
  let s := loadLine old slot (wantBurst .insert false old (aftOffset slot) s)
  match s.fore old slot with
  | none => s
  | some r =>
    let s := modLine old slot (fun l => { l with migrating := true }) s
    s.withFlow { s.flow with transfers := s.flow.transfers ++
      [{ fromPipe := old, toPipe := new, slot := slot, fore := r, aft := s.aft old slot, entry := entry, frame := frame }] }

/-- A record's transfer starts, unless a poisoned read of it stops the transfer (R398): the record stays, and a frame
that asked for it goes to the old home. -/
def startTransfer (old new slot entry : Nat) (frame : Option FrameId) (s : State) : State :=
  if s.halfPoisoned old slot then
    let s := raise Ev.migrationStalled old entry 2 s
    match frame with
    | some f => answerHeld new old f s
    | none => s
  else beginTransfer old new slot entry frame s

/-- The old home answers a consult (R246). -/
def consult (p : Nat) (f : FrameId) (x : Frame) (k : RawKey) (s : State) : State :=
  let hash := x.home.hash
  let old := s.get Obj.homeOldPipe (hash / 2 ^ 20)
  if !s.deckUp (deckOfPipe old) then answerNone p f s
  else
    let s := s.bump Obj.consults old
    let ashore := (s.findLine old k hash).isSome || (s.findAshore old k hash).isSome
    let pier := s.pier old hash
    let s := if ashore then s else startReads .insert old pier k hash s
    if !ashore && s.lookupPoisoned old pier k hash then
      answerHeld p old f (raise Ev.migrationStalled old (hash / 2 ^ 20) 2 s)
    else match s.findRecord old k hash with
    | none => answerNone p f s
    | some slot => match s.fore old slot with
      | none => answerNone p f s
      | some r =>
        if s.slotLocked old slot || s.migrating old slot || !s.canMove old slot r then answerHeld p old f s
        else startTransfer old p slot (hash / 2 ^ 20) (some f) s

/-- R246: CONSULT_REQUEST, for a frame that waits at pipe `p`. -/
def execConsultRequest (p : Pipe) (f : FrameId) (s : State) : Host.Outcome State Fault Refusal :=
  .next (match s.frame f with
    | none => s
    | some x =>
      if s.flow.transfers.any fun t => t.frame == some f then s
      else match x.stage == .consult p.val, x.home.key with
        | true, some k => consult p.val f x k s
        | _, _ => s)

/-- A transfer of a pipe's record. -/
def State.transfer (s : State) (p slot : Nat) : Option Transfer :=
  s.flow.transfers.find? fun t => t.fromPipe == p && t.slot == slot

/-- The frames that waited for a transferred record: the one that consulted is stored until its tail, those on its
PENDING line use the record at once (R224, R246). -/
def useTransferred (p slot : Nat) (f : FrameId) (waiters : List FrameId) (s : State) : State :=
  let s := s.modFrame f fun x =>
    { x with stage := .stored p, home := { x.home with consulted := true, record := some (p, slot) } }
  waiters.foldl (fun s g => proceed p slot g s) s

/-- The canonical key that a record's halves spell (R25, R215, R216). -/
def recordKey (r : Fore) (aft : List Byte) : RawKey :=
  let (lo, hi) := recordEnds r aft
  { vrf := r.vrf, proto := r.proto, family := if r.family6 then 6 else 4, src := lo.1 * 65536 + lo.2,
    dst := hi.1 * 65536 + hi.2 }

/-- The PENDING line that a transferred record resolves at its new home (R226 step 4, R247): the consulting frame's, or
that of the record's key. -/
def State.pendingFor (s : State) (t : Transfer) : Option PendingLine :=
  match t.frame.bind (s.pendingOf t.toPipe) with
  | some x => some x
  | none => s.findPending t.toPipe (recordKey t.fore t.aft)

/-- The new home places a transferred record, or refuses it (R247 step 3): FLOWS follows the record. -/
def placeTransfer (t : Transfer) (s : State) : State :=
  let mark (v : Option Nat) (s : State) : State := s.withFlow { s.flow with transfers := s.flow.transfers.map fun u =>
    if u.fromPipe = t.fromPipe ∧ u.slot = t.slot then { u with placed := some v } else u }
  let n := t.toPipe
  if s.noRoom n t.fore.hash ≠ 0 then mark none s
  else
    let pend := s.pendingFor t
    let waiters := (pend.map PendingLine.waiters).getD []
    let creator := match pend with
      | some x => some x.creator
      | none => t.frame
    let s := match creator with
      | some f => dropPending n f s
      | none => s
    match placeRecord .insert n t.fore (some t.aft) (pend.map PendingLine.way) (s.drop Obj.flows t.fromPipe) with
    | (none, s) => mark none (s.bump Obj.flows t.fromPipe)
    | (some slot, s) =>
      let s := mark (some slot) s
      match creator with
      | some f => useTransferred n slot f waiters s
      | none => s

/-- R247: RECORD_TRANSFER of the record that was in a slot of pipe `p`.
(DEDUCED: log entry 32.) -/
def execRecordTransfer (p : Pipe) (slot : BitVec 24) (s : State) : Host.Outcome State Fault Refusal :=
  .next (match s.transfer p.val slot.toNat with
    | some t => if t.placed.isNone then placeTransfer t s else s
    | none => s)

/-- A transfer is over. -/
def dropTransfer (t : Transfer) (s : State) : State :=
  s.withFlow { s.flow with transfers := s.flow.transfers.filter fun u => !(u.fromPipe == t.fromPipe && u.slot == t.slot) }

/-- The writes that invalidate a moved record's berth (R247 step 5). -/
def berthWrites (p slot : Nat) (r : Fore) (s : State) : State :=
  (s.pierPlaces p slot r).foldl (fun s (e : Nat × Nat) => wantBurst .insert true p (pierOffset e.1) s) s

/-- The new home has placed the record: the old home frees it and hands on what it held (R247 step 5). -/
def finishTransfer (t : Transfer) (r : Fore) (s : State) : State :=
  let p := t.fromPipe
  let s := berthWrites p t.slot r s
  let s := (removeRecord p t.slot r (s.bump Obj.flows p)).bump Obj.recordsMoved p
  let s := dropTransfer t (s.withFlow { s.flow with moved := NMap.modify 0 s.flow.moved t.entry (· + 1) })
  t.held.foldl (fun s g => handOn p t.toPipe g s) s

/-- The new home has refused the record: the old home keeps it (R247).
(DEDUCED: log entry 32.) -/
def refuseTransfer (t : Transfer) (s : State) : State :=
  let p := t.fromPipe
  let s := restage p t.held (dropTransfer t (modLine p t.slot (fun l => { l with migrating := false }) s))
  let s := raise Ev.migrationStalled p t.entry 2 s
  match t.frame with
  | some f => answerHeld t.toPipe p f s
  | none => s

/-- R247: TRANSFER_ACK at the old home. -/
def execTransferAck (p : Pipe) (slot : BitVec 24) (s : State) : Host.Outcome State Fault Refusal :=
  .next (match s.transfer p.val slot.toNat with
    | none => s
    | some t => match t.placed, s.fore p.val slot.toNat with
      | some (some _), some r => if s.placeLocked p.val slot.toNat r then s else finishTransfer t r s
      | some none, _ => refuseTransfer t s
      | _, _ => s)

end Sys2Proof.Machine
end

