-- ==== Sys2Proof/Machine/Rehome.lean ====
section
/-! DEFINITION. The engines of the flow table (07): eviction (R229), relocation (R231, R233), the sweep (R236), the migration
walk (R248), the commits of the home table (R244, R245), and the loss of a deck's flow tables (R249). -/

namespace Sys2Proof.Machine

/-! ### Records of a pipe in the order of the engines' walks -/

/-- Pier and slot of a pipe's pier berths, in order. -/
def State.pierRecords (s : State) (p : Nat) : List (Nat × Nat) :=
  (s.flow.piers.inRange (pierKey p 0 0) (2 ^ 24)).map fun e => ((e.1 - pierKey p 0 0) / 4, e.2.slot)

/-- Slots of a pipe's anchored records, in order. -/
def State.anchorRecords (s : State) (p : Nat) : List Nat := (s.ashore p).map fun e => e.2.slot

/-- Slots of a pipe's records: piers in order, then the anchorage (R236, R248). -/
def State.records (s : State) (p : Nat) : List Nat :=
  ((s.pierRecords p).map (·.2) ++ s.anchorRecords p).eraseDups

/-- Piers of a pipe (R212). -/
def pierCount : Nat := 2 ^ 22

/-! ### Eviction (R229) -/

/-- Evict a record (R229). -/
def evict (p slot : Nat) (s : State) : State :=
  match s.fore p slot with
  | none => s
  | some r => match reclaim p slot 5 Obj.evicted s with
    | (true, s) => raise Ev.flowEvicted p slot r.hash s
    | (false, s) => s

/-- The record with the longest idle time among slots, if it has been idle for `ms`; the first of equals. -/
def State.mostIdle (s : State) (p ms : Nat) (l : List Nat) : Option (Nat × Nat) :=
  l.foldl (fun (m : Option (Nat × Nat)) slot => match s.fore p slot with
    | none => m
    | some r => if !s.idleFor p slot ms then m else match m with
      | none => some (slot, s.idleMs r)
      | some (_, n) => if n < s.idleMs r then some (slot, s.idleMs r) else m) none

/-- A read of a record's fore half by an engine: a burst, unless the record is cached or ashore (R236). -/
def readFore (rr : Requester) (p slot : Nat) (s : State) : State :=
  if (s.line p slot).isSome || (s.berthOf p slot).isSome then s else wantBurst rr false p (slotOffset slot) s

/-- The sweep engine's scan for an eviction of cause 1 or 2: every pier once, from its position on, until the pipe holds
no more than `target` records (R229). -/
def scanEvict (p ms target : Nat) (s : State) : State :=
  let from_ := s.get Obj.sweepPosition p
  let l := s.pierRecords p
  let l := l.filter (fun e => decide (from_ ≤ e.1)) ++ l.filter fun e => decide (e.1 < from_)
  (l.map (·.2)).eraseDups.foldl (fun s slot =>
    if s.get Obj.flows p ≤ target then s
    else
      let s := readFore .scrub p slot s
      if s.idleFor p slot ms then evict p slot s else s) (wantBurst .scrub false p 0 s pierCount)

/-- Slots that two piers name. -/
def State.pierSlots (s : State) (p a b : Nat) : List Nat := (s.berths p a ++ s.berths p b).map fun e => e.2.slot

/-- The relocation engine reads two piers and the fore halves that they name (R229). -/
def readPiers (p a b : Nat) (s : State) : State :=
  (s.pierSlots p a b).foldl (fun s n => readFore .insert p n s)
    (wantBurst .insert false p (pierOffset b) (wantBurst .insert false p (pierOffset a) s))

/-- The relocation engine's eviction of cause 3: the longest idle record of the key's two piers (R229). -/
def pierEvict (p a b ms : Nat) (s : State) : State :=
  let t := readPiers p a b s
  match s.mostIdle p ms (s.pierSlots p a b) with
  | some (slot, _) => evict p slot t
  | none => t

/-- R229: the oldest eviction asked for in a pipe; the sweep engine, which makes those of cause 1 and 2, stops in sleep
(R238).
(DEDUCED: log entry 31.) -/
def execEviction (p : Pipe) (s : State) : Host.Outcome State Fault Refusal :=
  .next (match s.flow.evictions.find? fun e => e.1 == p.val with
    | none => s
    | some (_, cause, a, b, target) =>
      if cause ≠ 3 ∧ !s.awake then s
      else
        let s := s.withFlow { s.flow with evictions := s.flow.evictions.erase (p.val, cause, a, b, target) }
        let ms := s.get Obj.evictMinIdleMs
        if cause = 3 then pierEvict p.val a b ms s else scanEvict p.val ms target s)

/-! ### Relocation (R231 to R233) -/

/-- A record moves from an anchorage berth into a berth of a pier (R233), the pier's berth written twice: with MOVING, and
without. -/
def moveRecord (p n pier b slot : Nat) (r : Fore) (s : State) : State :=
  let s := loadLine p slot s
  let live := (s.fore p slot).getD r
  let live := { live with anchored := false }
  let x := s.flow
  let s := s.withFlow { x with anchorage := x.anchorage.del (berthKey p n), slots := x.slots.put (recKey p slot) live }
  let s := wantBurst .insert true p (slotOffset slot) (clearPoison p (slotOffset slot) s)
  let s := modLine p slot (fun l => { l with fore := live, dirty := false }) s
  let s := wantBurst .insert true p (pierOffset pier) (setPier p pier b (some (s.berthFor live false)) s)
  (noteAnchored p false (wantBurst .insert true p (pierOffset pier) s)).bump Obj.anchorageDrained p

/-- The anchored record at a berth may be moved: neither it nor its berth is locked, and its set has room (R231, R242). -/
def State.mayMove (s : State) (p n : Nat) (r : Fore) : Bool :=
  !s.slotLocked p r.slot && !s.berthLocked p n && !s.migrating p r.slot && !s.movingLine p r.slot && s.canMove p r.slot r

/-- The direct move of an anchored record, if its current pier has room (R231). -/
def directMove (p n : Nat) (r : Fore) (s : State) : Option State :=
  let pier := s.pier p r.hash
  if !s.mayMove p n r then none
  else (s.freeBerth p pier).map fun b => moveRecord p n pier b r.slot r s

/-- Berths of a group's records, each in its current pier: key and berth. -/
def State.groupBerths (s : State) (p g : Nat) : List (Nat × PierBerth) :=
  (s.flow.piers.inRange (pierKey p 0 0) (2 ^ 24)).filter fun e =>
    choiceGroup e.2.hash == g && (e.1 - pierKey p 0 0) / 4 == s.pier p e.2.hash

/-- Records of a group whose lines a flip would add to the PINNED, PENDING or MOVING ones of a set (R223). -/
def State.newMoving (s : State) (p set : Nat) (l : List (Nat × PierBerth)) : Nat :=
  (l.filter fun e => setOf e.2.hash == set && !((s.line p e.2.slot).elim false Line.special)).length

/-- A group can be flipped: the other piers have room for its records, none of the piers is locked, and the sets can take
their lines as MOVING (R231, R223). -/
def State.canFlip (s : State) (p g : Nat) : Bool :=
  let l := s.groupBerths p g
  let need (pier : Nat) : Nat := (l.filter fun e => s.otherPier p e.2.hash == pier).length
  l.all fun e =>
    let o := s.otherPier p e.2.hash
    let set := setOf e.2.hash
    !s.pierLocked p o && !s.pierLocked p (s.pier p e.2.hash) && decide ((s.berths p o).length + need o ≤ 4) &&
    decide (s.specials p set + s.newMoving p set l ≤ 15)

/-- Steps 1 to 3 of a group flip (R231): the records' lines are MOVING meanwhile (R223, R242).
(DEDUCED: log entry 33.) -/
def startFlip (p g anchor : Nat) (s : State) : State :=
  let l := s.groupBerths p g
  let v := s.choice p g % 2
  let write (acc : State × List Nat) (e : Nat × PierBerth) : State × List Nat :=
    let (s, new) := acc
    let (a, b) := flowPiers e.2.hash
    let pier := if v = 0 then b else a
    match (List.range 4).find? fun n => (s.pierBerth p pier n).isNone with
    | some n =>
      let s := wantBurst .insert true p (pierOffset pier) (setPier p pier n (some { e.2 with moving := true }) s)
      (modLine p e.2.slot (fun l => { l with moving := true }) s, new ++ [pierKey p pier n])
    | none => (s, new)
  let (s, new) := l.foldl write (setChoice p g (2 + v) s, [])
  let readers := (s.frames.filter fun x => x.2.stage == .lookup p).map (·.1)
  let flip : Flip := { group := g, old := l.map (·.1), new := new, anchor := anchor, readers := readers }
  let s := setChoice p g (1 - v) s
  s.withFlow { s.flow with flips := s.flow.flips.put p flip }

/-- Groups that could make room for an anchored record: its own, then those of its current pier's berths (R231). -/
def State.flipGroups (s : State) (p : Nat) (r : Fore) : List Nat :=
  (choiceGroup r.hash :: (s.berths p (s.pier p r.hash)).map fun e => choiceGroup e.2.hash).eraseDups

/-- The relocation engine on one anchored record (R231).
(DEDUCED: log entry 33.) -/
def relocate (p : Nat) (e : Nat × Fore) (s : State) : State :=
  match s.flow.anchorage.find (berthKey p e.1) with
  | none => s
  | some r =>
    let s := wantBurst .insert false p (pierOffset (s.pier p r.hash)) s
    match directMove p e.1 r s with
    | some s => s
    | none =>
      if !s.mayMove p e.1 r ∨ (s.flow.flips.find p).isSome then s
      else match (s.flipGroups p r).find? fun g => s.canFlip p g with
        | some g => startFlip p g e.1 s
        | none => s

/-- A relocation pass begins: 10 ms after the last one, or while the anchorage has fewer than 4,096 free berths (R231). -/
def State.relocationDue (s : State) (p : Nat) : Bool :=
  decide (65536 - s.get Obj.anchored p < 4096) || match s.flow.relocatedAt.find p with
  | some t => s.elapsed t 10000000
  | none => true

/-- R231: a pass of the relocation engine over the anchorage.
(DEDUCED: log entry 31.) -/
def execRelocationPass (p : Pipe) (s : State) : Host.Outcome State Fault Refusal :=
  .next (if !s.awake || !s.relocationDue p.val then s
    else (s.ashore p.val).foldl (fun s e => relocate p.val e s)
      (s.withFlow { s.flow with relocatedAt := s.flow.relocatedAt.put p.val s.time.ticks }))

/-! ### The sweep (R236, R304) -/

/-- The sweep reads the aft half of a record, for IPv6: it is poisoned (R398). -/
def State.aftPoisoned (s : State) (p slot : Nat) (r : Fore) : Bool := r.family6 && s.poison p (aftOffset slot)

/-- The idle check of a MOVING record waits for the flip to end (R242). -/
def waitCheck (p slot : Nat) (report : Bool) (s : State) : State :=
  match s.flow.flips.find p with
  | some x => s.withFlow { s.flow with flips := s.flow.flips.put p { x with checks := x.checks ++ [(slot, report)] } }
  | none => s

/-- The data record of a live record, for which the aft half of an IPv6 record is read (R304). -/
def reportRecord (p slot : Nat) (r : Fore) (s : State) : State :=
  let s := if r.family6 then wantBurst .scrub false p (aftOffset slot) s else s
  buildRecord p r (s.aft p slot) 2 s

/-- The sweep visits a record: it reclaims an idle one, or reports a live one; one that it reads poisoned is skipped for
this pass (R236, R304, R398). -/
def sweepRecord (p slot : Nat) (report : Bool) (s : State) : State :=
  let s := readFore .scrub p slot s
  match s.fore p slot with
  | none => s
  | some r =>
    if s.forePoisoned p slot then s
    else if s.movingLine p slot then waitCheck p slot report s
    else if s.idle p slot then
      (if bitOf r.telemetry 0 && s.aftPoisoned p slot r then s else (reclaim p slot 0 Obj.reclaimedSweep s).2)
    else if report && bitOf r.telemetry 1 && !s.migrating p slot && !s.aftPoisoned p slot r then reportRecord p slot r s
    else s

/-- Slots that a sweep pass visits: those of a pier read poisoned are skipped (R398). -/
def State.sweptRecords (s : State) (p : Nat) : List Nat :=
  (((s.pierRecords p).filter fun e => !s.poison p (pierOffset e.1)).map (·.2) ++ s.anchorRecords p).eraseDups

/-- A pass of the sweep engine may end: one in each FLOW_SWEEP_PERIOD_S (R236). -/
def State.sweepDue (s : State) (p : Nat) : Bool :=
  match s.flow.sweptAt.find p with
  | some t => s.elapsed t (s.get Obj.flowSweepPeriodS * 1000000000)
  | none => true

/-- R236: one pass of a pipe's sweep engine.
(DEDUCED: log entry 31.) -/
def execFlowSweepPass (p : Pipe) (s : State) : Host.Outcome State Fault Refusal :=
  .next (if !s.awake || !s.sweepDue p.val then s
    else
      let s := s.withFlow { s.flow with sweptAt := s.flow.sweptAt.put p.val s.time.ticks }
      let n := s.flow.pass.getD p.val 0
      let every := s.get Obj.exportActivePasses
      let report := every != 0 && n % every == 0
      let s := s.withFlow { s.flow with pass := NMap.set 0 s.flow.pass p.val (n + 1) }
      let s := (s.sweptRecords p.val).foldl (fun s slot => sweepRecord p.val slot report s)
        (wantBurst .scrub false p.val 0 s pierCount)
      s.set Obj.sweepPosition p.val 0)

/-! ### The end of a group flip (R231) -/

/-- A berth of a pier is written by a flip's last steps. -/
def flipBerth (p k : Nat) (b : Option PierBerth) (s : State) : State :=
  let n := k - pierKey p 0 0
  wantBurst .insert true p (pierOffset (n / 4)) (setPier p (n / 4) (n % 4) b s)

/-- Step 5 of a group flip: an old berth is invalidated. -/
def dropOld (p g k : Nat) (s : State) : State :=
  match s.flow.piers.find k with
  | some b =>
    if choiceGroup b.hash = g ∧ (k - pierKey p 0 0) / 4 ≠ s.pier p b.hash then flipBerth p k none s else s
  | none => s

/-- Step 6 of a group flip: MOVING is cleared in a new berth, and in the record's line. -/
def settleNew (p k : Nat) (s : State) : State :=
  match s.flow.piers.find k with
  | some b =>
    modLine p b.slot (fun l => { l with moving := false }) (flipBerth p k (some { b with moving := false }) s)
  | none => s

/-- Steps 5 and 6 of a group flip: old berths are invalidated, MOVING is cleared, and the idle checks that waited are made
(R231, R242). -/
def finishFlip (p : Nat) (x : Flip) (s : State) : State :=
  let s := x.new.foldl (fun s k => settleNew p k s) (x.old.foldl (fun s k => dropOld p x.group k s) s)
  let s := (s.withFlow { s.flow with flips := s.flow.flips.del p }).bump Obj.groupFlips p
  x.checks.foldl (fun s c => sweepRecord p c.1 c.2 s) s

/-- R231: the flip of a pipe is finished once every lookup that read the choice map before its step 3 is over; the
anchored record then moves. -/
def execGroupFlipFinish (p : Pipe) (s : State) : Host.Outcome State Fault Refusal :=
  let reading (f : FrameId) : Bool := (s.frame f).elim false fun x => x.stage == .lookup p.val && !x.home.setWait
  let locked (k : Nat) : Bool := s.pierLocked p.val ((k - pierKey p.val 0 0) / 4)
  .next (match s.flow.flips.find p.val with
    | none => s
    | some x =>
      if x.readers.any reading ∨ (x.old ++ x.new).any locked then s
      else
        let s := finishFlip p.val x s
        match s.flow.anchorage.find (berthKey p.val x.anchor) with
        | some r => (directMove p.val x.anchor r s).getD s
        | none => s)

/-! ### The home table (R243 to R245) -/

/-- Validation of HOME_TABLE (R244). -/
def validateHome (s : State) : Failed :=
  ((List.range 4096).find? fun e =>
    let p := s.staged Obj.homePipe e
    !s.deckUp (deckOfPipe p) ||
    (s.get Obj.homeState e == 1 && p != s.get Obj.homePipe e && p != s.get Obj.homeOldPipe e)).map fun e =>
    (St.badValue, addrKey 0x3010 0 e)

/-- Switch-over of one entry; `old` is the state before the new values (R245). A pass that runs began before its t_c, and
does not settle it (R248). -/
def applyHomeEntry (old : State) (e : Nat) (s : State) : State :=
  let was := old.get Obj.homePipe e
  let now := s.get Obj.homePipe e
  if was = now then s
  else if !s.deckUp (deckOfPipe was) then (s.set Obj.homeOldPipe e now).set Obj.homeState e 0
  else
    let s := if old.get Obj.homeState e = 0 then s.withFlow { s.flow with moved := s.flow.moved.del e } else s
    let s := s.withFlow { s.flow with walks := s.flow.walks.map fun w =>
      (w.1, { w.2 with entries := w.2.entries.filter (· != e) }) }
    (s.set Obj.homeOldPipe e was).set Obj.homeState e 1

/-- Switch-over of HOME_TABLE (R245). -/
def applyHome (old : State) (s : State) : State := (List.range 4096).foldl (fun s e => applyHomeEntry old e s) s

/-! ### The migration walk (R248) -/

/-- Entries that a pipe's walk serves. -/
def State.movingFrom (s : State) (p : Nat) : List Nat :=
  (List.range 4096).filter fun e => s.get Obj.homeState e == 1 && s.get Obj.homeOldPipe e == p

/-- Bursts that a transfer takes: the fore and aft reads and the invalidated berth at the old home, the berth and the aft
half at the new one (R248's example).
(DEDUCED: log entry 31.) -/
def transferBursts : Nat := 5

/-- The walk comes to a record of a MOVING entry that its pipe is the old home of: its transfer starts, or it stays for
another pass (R248, R223). -/
def walkRecord (p : Nat) (slot : Nat) (s : State) : State :=
  match s.fore p slot with
  | none => s
  | some r =>
    let e := r.hash / 2 ^ 20
    let new := s.get Obj.homePipe e
    if s.get Obj.homeState e ≠ 1 ∨ s.get Obj.homeOldPipe e ≠ p ∨ s.migrating p slot ∨ !s.deckUp (deckOfPipe new) then s
    else if s.slotLocked p slot then raise Ev.migrationStalled p e 1 s
    else if s.placeLocked p slot r || !s.canMove p slot r then s
    else startTransfer p new slot e none s

/-- An entry of which the old home holds no record becomes SETTLED (R248). -/
def settleEntry (p e : Nat) (s : State) : State :=
  let left := (s.records p).any fun n => (s.fore p n).elim false fun r => r.hash / 2 ^ 20 == e
  if left ∨ s.get Obj.homeState e ≠ 1 ∨ s.get Obj.homeOldPipe e ≠ p then s
  else
    let n := s.flow.moved.getD e 0
    let s := (s.withFlow { s.flow with moved := s.flow.moved.del e }).set Obj.homeState e 0
    raise Ev.homeSettled e (p * 16 + s.get Obj.homePipe e) n s

/-- Transfers of a pipe's walk are under way. -/
def State.walking (s : State) (p : Nat) : Bool := s.flow.transfers.any fun t => t.fromPipe == p && t.frame.isNone

/-- A pipe's walk. -/
def setWalk (p : Nat) (w : Walk) (s : State) : State := s.withFlow { s.flow with walks := s.flow.walks.put p w }

/-- A pass ends: its entries that are empty settle. -/
def endWalk (p : Nat) (s : State) : State :=
  match s.flow.walks.find p with
  | none => s
  | some w =>
    let s := s.withFlow { s.flow with walks := s.flow.walks.del p }
    w.entries.foldl (fun s e => settleEntry p e s) (s.set Obj.migratePosition p 0)

/-- What MIGRATE_RATE has allowed a walk so far (R248). -/
def State.walkAllowed (s : State) (p : Nat) (w : Walk) : Nat :=
  w.allowed + s.get Obj.migrateRate p * (s.time.ticks - w.at_)

/-- The walk of a pipe has come so far, before its rate changes. -/
def settleWalk (p : Nat) (s : State) : State :=
  match s.flow.walks.find p with
  | some w => setWalk p { w with allowed := s.walkAllowed p w, at_ := s.time.ticks } s
  | none => s

/-- Bursts that a walk may have used: one for each pier read, and those of its transfers; without a rate, as many as it
has (R248, R250). -/
def State.walkBudget (s : State) (p : Nat) (w : Walk) : Option Nat :=
  if s.get Obj.migrateRate p = 0 then none else some (s.walkAllowed p w / 1250000000)

/-- The walk may go on to pier `n`, which it reads with those before it. -/
def State.walkReaches (s : State) (p n : Nat) (w : Walk) : Bool :=
  match s.walkBudget p w with
  | none => true
  | some b => decide (n + 1 + w.spent ≤ b)

/-- One record of a walk: a transfer that it starts counts against the rate. -/
def walkOne (p slot : Nat) (s : State) : State :=
  let n := s.flow.transfers.length
  let s := walkRecord p slot s
  match s.flow.walks.find p with
  | some w => if n < s.flow.transfers.length then setWalk p { w with spent := w.spent + transferBursts } s else s
  | none => s

/-- A walk comes to one berth of a pier, if its rate lets it. -/
def walkPier (p : Nat) (e : Nat × Nat) (s : State) : State :=
  match s.flow.walks.find p with
  | none => s
  | some w =>
    if e.1 < w.pier ∨ !s.walkReaches p e.1 w then s else walkOne p e.2 s

/-- The pier at which a walk stands after its records, as far as its rate lets it come. -/
def State.walkPosition (s : State) (p : Nat) (w : Walk) : Nat :=
  match s.walkBudget p w with
  | none => pierCount
  | some b => Nat.max w.pier (capAt pierCount (b - w.spent))

/-- A walk goes on from its position as far as its rate lets it, then over the anchorage: the piers that it passes are
read, and MIGRATE_POSITION shows the next (R248). -/
def walkOn (p : Nat) (s : State) : State :=
  let s := (s.pierRecords p).foldl (fun s e => walkPier p e s) s
  match s.flow.walks.find p with
  | none => s
  | some w =>
    let n := s.walkPosition p w
    let s := if w.pier < n then wantBurst .insert false p (pierOffset w.pier) s (n - w.pier) else s
    let s := setWalk p { w with pier := n } s
    if n < pierCount then s.set Obj.migratePosition p n
    else (s.anchorRecords p).foldl (fun s slot => walkOne p slot s) (s.set Obj.migratePosition p 0)

/-- A walk has been over every pier and the anchorage, and its transfers are over. -/
def State.walkDone (s : State) (p : Nat) : Bool :=
  match s.flow.walks.find p with
  | some w => decide (pierCount ≤ w.pier) && !s.walking p
  | none => true

/-- A pass begins, where the pipe is the old home of a MOVING entry. -/
def startWalk (p : Nat) (s : State) : State :=
  match s.movingFrom p with
  | [] => s
  | es => setWalk p { entries := es, at_ := s.time.ticks } s

/-- R248, R475: a pipe's migration walk goes on while the device is awake: a pass that has come to its end settles its
entries, and the next begins.
(DEDUCED: log entry 31.) -/
def execMigrationWalk (p : Pipe) (s : State) : Host.Outcome State Fault Refusal :=
  .next (if !s.deckUp (deckOfPipe p.val) ∨ !s.awake then s
    else
      let s := if s.walkDone p.val then startWalk p.val (endWalk p.val s) else s
      let s := walkOn p.val s
      if s.walkDone p.val then endWalk p.val s else s)

/-! ### Loss of a deck (R249) -/

/-- A pipe's flow table is lost with its deck: its records, engines and waiting transfers. -/
def loseFlowTable (p : Nat) (s : State) : State :=
  let x := s.flow
  let r : Flow := { x with
    slots := x.slots.delRange (recKey p 0) (2 ^ 24), aft := x.aft.delRange (recKey p 0) (2 ^ 24),
    used := x.used.delRange (recKey p 0) (2 ^ 24), piers := x.piers.delRange (pierKey p 0 0) (2 ^ 24),
    anchorage := x.anchorage.delRange (berthKey p 0) 65536, lines := x.lines.delRange (recKey p 0) (2 ^ 24),
    pendings := x.pendings.filter (·.pipe != p), choice := x.choice.delRange (p * 2 ^ 24) (2 ^ 24),
    ops := x.ops.filter (·.1 != p), flips := x.flips.del p, walks := x.walks.del p,
    evictions := x.evictions.filter (·.1 != p), relocatedAt := x.relocatedAt.del p,
    reclaims := x.reclaims.filter (·.1 != p), bcache := x.bcache.delRange (p * 32768) 32768 }
  ((s.withFlow r).set Obj.flows p 0).set Obj.anchored p 0

/-- An entry that is MOVING out of a lost pipe settles (R249). -/
def loseEntry (d : Nat) (before : State) (e : Nat) (s : State) : State :=
  let p := s.get Obj.homeOldPipe e
  if s.get Obj.homeState e = 1 ∧ deckOfPipe p = d then
    raise Ev.recordsLost e p (before.get Obj.flows p)
      ((s.withFlow { s.flow with moved := s.flow.moved.del e }).set Obj.homeState e 0)
  else s

/-- A transfer to or from a lost pipe ends: from one, a frame that consulted goes on without a record; to one, the old
home keeps what was not placed and frees what was. -/
def loseTransfer (d : Nat) (t : Transfer) (s : State) : State :=
  if deckOfPipe t.fromPipe = d then
    let s := dropTransfer t s
    match t.frame, t.placed with
    | some f, none => answerNone t.toPipe f s
    | _, _ => s
  else if deckOfPipe t.toPipe = d then
    match t.placed, s.fore t.fromPipe t.slot with
    | some (some _), some r => finishTransfer t r s
    | _, _ => restage t.fromPipe t.held
        (dropTransfer t (modLine t.fromPipe t.slot (fun l => { l with migrating := false }) s))
  else s

/-- The records of a lost deck's pipes are lost (R249). -/
def loseFlows (d : Nat) (s : State) : State :=
  let before := s
  let s := s.flow.transfers.foldl (fun s t => loseTransfer d t s) s
  let s := loseFlowTable (2 * d + 1) (loseFlowTable (2 * d) s)
  (List.range 4096).foldl (fun s e => loseEntry d before e s) s

end Sys2Proof.Machine
end

