-- ==== Sys2Proof/Machine/Sleep.lean ====
section
/-! DEFINITION. Reference clocks and sleep (15): idleness, Doze, Moor entry, wakes, and the landing buffer's pause. -/

namespace Sys2Proof.Machine

/-! ### Reference clocks (R465) -/

/-- The front ports whose first lane lies in a pipe. -/
def portsOfPipe (p : Nat) : List Nat := (List.range 16).map (16 * p + ·)

/-- Set CORE_PLL_STATE of every deck in service that stands at `was`. -/
def setPlls (was new : Nat) (s : State) : State :=
  (List.range 4).foldl (fun s d =>
    if s.deckUp d ∧ s.get Obj.corePllState d = was then s.set Obj.corePllState d new else s) s

/-- A reference is lost (R465). -/
def loseRef (bit : Nat) (s : State) : State :=
  if bit = 0 then setPlls 2 3 s
  else if bit = 9 then loseLink s
  else (portsOfPipe (bit - 1)).foldl (fun s p => if s.portExists p then beginFault p 1 s else s) s

/-- REFCLK_LOST (R465): a reference is lost, or returns. -/
def execRefclkLost (bit : Fin 10) (returned : Bool) (s : State) : Host.Outcome State Fault Refusal :=
  let present := s.get Obj.refclkPresent
  .next (if bitOf present bit.val ≠ returned then
      let s := s.set Obj.refclkPresent 0 (if returned then setBit present bit.val else clearBit present bit.val)
      let s := raise Ev.refclkLost 0 bit.val (bit01 returned) s
      if returned then (if bit.val = 0 then setPlls 3 2 s else s) else loseRef bit.val s
    else s)

/-! ### Idleness (R469) -/

/-- Some listed instance of an object meets a test; the default does not. -/
def State.anyListed (s : State) (o : ObjRow) (p : Nat → Bool) : Bool :=
  (s.dict.active.inRange (addrKey o.index o.sub 0) 65536).any fun e => p e.2

/-- A record waits in a device-owned page of an inject or table request ring (R101, R469). -/
def State.recordWaits (s : State) : Bool :=
  ([8, 9, 10, 11, 21, 22, 23, 24] : List Nat).any fun r => s.ringPages r != 0 && s.owned (s.ringFirst r + (s.ringPos r).page)

/-- The device is idle (R469). -/
def State.idleNow (s : State) : Bool :=
  s.frames.all (fun x => x.2.stage == .gone) && s.tm.ports.all (fun x => x.2.sending.isNone) &&
  s.parse.engines.isEmpty && s.flow.ops.isEmpty && s.burstOps.isEmpty && s.exports.all (fun x => x.2.open_.isEmpty) && !s.recordWaits &&
  s.host.slots.all (fun x => x.2.state != 1) && s.cross.holes.isEmpty && s.cross.credits.isEmpty &&
  s.cross.links.all (fun x => x.2.ctrl.isEmpty) && s.cross.outstanding.isEmpty

/-- MOOR_DEFER (R469); work that a commit starts in Moor begins at the wake (R475). -/
def State.moorDefer (s : State) : Nat :=
  let engines := s.anyListed Obj.rehashState (· != 0) || s.anyListed Obj.homeState (· == 1) ||
    s.anyListed Obj.pcState (· == 1) || s.anyListed Obj.foreState (fun v => v == 1 || v == 4) ||
    s.anyListed Obj.aftState (fun v => v == 1 || v == 4) || !s.hbm.retraining.isEmpty
  bit01 (!s.host.locks.isEmpty) + 2 * bit01 (engines && s.get Obj.sleepState != 2) + 4 * bit01 (!bitOf (s.get Obj.refclkPresent) 0) +
  8 * bit01 (s.anyListed Obj.landingInUse (· != 0))

/-- The idle time has reached a threshold. -/
def State.idleFor_ (s : State) (ns : Nat) : Bool := s.idleNow && s.elapsed s.sleep.idleFrom ns

/-- Where the device is not idle, the idle time starts anew (R469). -/
def noteIdle (s : State) : State :=
  if s.idleNow then s else s.withSleep { s.sleep with idleFrom := s.time.ticks }

/-! ### Gangways in sleep (R480, R482) -/

/-- A gangway. -/
def State.gw (s : State) (g : Nat) : Gw := s.sleep.gangways.getD g {}

/-- Set a gangway. -/
def setGw (g : Nat) (x : Gw) (s : State) : State :=
  s.withSleep { s.sleep with gangways := NMap.set {} s.sleep.gangways g x }

/-- Gangways of every deck with local numbers below `n`: 64 into the pipe domain, 102 with those into the chain-link and
HBM PHY domains (R480).
(DEDUCED: log entry 59.) -/
def gangwaysBelow (n : Nat) : List Nat := (List.range 4).flatMap fun d => (List.range n).map (d * 128 + ·)

/-- A crossing begins with the accumulated count, where none waits for its acknowledge (R482).
(DEDUCED: log entry 60.) -/
def startCrossing (g : Nat) (s : State) : State :=
  let x := s.gw g
  if x.crossing.isNone ∧ x.count ≠ 0 then setGw g { x with crossing := some x.count, count := 0 } s else s

/-- Park a running gangway (R482).
(DEDUCED: log entry 59.) -/
def park (s : State) (g : Nat) : State := if s.get Obj.gangwayState g = 0 then s.set Obj.gangwayState g 1 else s

/-- Unpark a gangway: its pointers are resynchronised, and what accumulated is delivered (R482).
(DEDUCED: log entry 59.) -/
def unpark (s : State) (g : Nat) : State :=
  if s.get Obj.gangwayState g = 1 then startCrossing g (s.set Obj.gangwayState g 0) else s

/-- GANGWAY_EVENT_ACK (R482): the crossing's count is delivered, and the accumulated count crosses next. -/
def execGangwayEventAck (g : Gangway) (s : State) : Host.Outcome State Fault Refusal :=
  let x := s.gw g.val
  .next (match s.get Obj.gangwayState g.val == 0, x.crossing with
    | true, some c => startCrossing g.val (setGw g.val { x with crossing := none, delivered := x.delivered + c } s)
    | _, _ => s)

/-! ### Doze and Moor (R468 to R470) -/

/-- DOZE_ENTER (R469). -/
def execDozeEnter (s : State) : Host.Outcome State Fault Refusal :=
  .next (if s.awake && s.get Obj.dozeEnable == 1 && s.idleFor_ (s.get Obj.dozeIdleNs) then
      let s := (gangwaysBelow 64).foldl park s
      let s := (s.set Obj.sleepState 0 1).bump Obj.dozeEntries
      raise Ev.sleepEntered 0 1 0 (s.withSleep { s.sleep with since := s.time.ticks, asleepAt := s.time.ticks })
    else s)

/-- The time in Doze that ends now is counted. -/
def leaveDoze (s : State) : State :=
  if s.get Obj.sleepState = 1 then s.add Obj.dozeNs 0 (s.sinceNs s.sleep.since) else s

/-- MOOR_ENTER (R469): step 1 of the entry begins. -/
def execMoorEnter (s : State) : Host.Outcome State Fault Refusal :=
  .next (if decide (s.get Obj.sleepState ≤ 1) && s.get Obj.moorEnable == 1 && s.idleFor_ (s.get Obj.moorIdleNs) &&
      s.moorDefer == 0 then
      let asleep := if s.awake then s.time.ticks else s.sleep.asleepAt
      let s := (leaveDoze s).set Obj.sleepState 0 3
      s.withSleep { s.sleep with entryStep := 1, entryAt := s.time.ticks, asleepAt := asleep }
    else s)

/-- Every export engine closes its open message (R470 step 2). -/
def closeExports (s : State) : State :=
  (List.range 8).foldl (fun s p => closeMessage p (s.get Obj.exportUtcOffsetS) s) s

/-- Every DIRTY line is written back, and the flow tables are saved (R238, R470 step 3). -/
def saveFlow (s : State) : State :=
  let s := s.flow.lines.foldl (fun s e => if e.2.dirty then writeBack (e.1 / 2 ^ 24) (e.1 % 2 ^ 24) s else s) s
  let sweep : NMap Nat := (List.range 8).map fun p => (p, s.get Obj.sweepPosition p)
  s.withFlow { s.flow with savedFlow := some (s.flow.anchorage, s.flow.choice, s.flow.used, sweep) }

/-- Streams, windows and contexts start again from 0 (R470 step 4). -/
def clearStreams (s : State) : State := s.withCross { s.cross with seqs := [], outstanding := [], contexts := [] }

/-- TIME_STATE LOCKED or LOCKING becomes HOLDOVER as the night watch takes over (R426, R470 step 7). -/
def startWatch (s : State) : State :=
  let s := s.withTime { s.time with watching := true, watch := 0 }
  if s.get Obj.timeState = 1 ∨ s.get Obj.timeState = 2 then setTimeState 3 s else s

/-- The quay cache and the binding cache are lost (R468, R473). -/
def loseCaches (s : State) : State := s.withFlow { s.flow with lines := [], bcache := [] }

/-- Step 8 of the entry completes: the device is in Moor (R470).
(DEDUCED: log entry 59.) -/
def enterMoor (s : State) : State :=
  let took := s.sinceNs s.sleep.entryAt
  let s := (setPlls 2 0 (loseCaches s)).set Obj.sleepState 0 2
  let s := s.withSleep { s.sleep with entryStep := 0, since := s.time.ticks }
  raise Ev.sleepEntered 0 2 took (s.bump Obj.moorEntries)

/-- Every FIFO into the domains to be gated is empty (R482). -/
def State.fifosEmpty (s : State) : Bool := (gangwaysBelow 102).all fun g => (s.gw g).fifo == 0

/-- The effect of a step of Moor entry as it completes (R470).
(DEDUCED: log entry 59.) -/
def entryEffect (step : Nat) (s : State) : State :=
  match step with
  | 2 => closeExports s
  | 3 => saveFlow s
  | 4 => clearStreams s
  | 5 => (gangwaysBelow 102).foldl park (s.withEvents { s.events with storing := true })
  | 6 => (enterSelfRefresh s).withSleep { (enterSelfRefresh s).sleep with linksOff := true }
  | 7 => startWatch s
  | 8 => enterMoor s
  | _ => s

/-- MOOR_ENTRY_STEP_DONE (R470): step 5 waits for the FIFOs to be empty (R482, R486).
(DEDUCED: log entry 59.) -/
def execMoorEntryStepDone (s : State) : Host.Outcome State Fault Refusal :=
  let k := s.sleep.entryStep
  .next (if s.get Obj.sleepState ≠ 3 ∨ k = 0 ∨ (k = 5 ∧ !s.fifosEmpty) then s
    else
      let s := entryEffect k s
      if k = 8 then s else s.withSleep { s.sleep with entryStep := k + 1 })

/-! ### Wakes (R471 to R473) -/

/-- Code of a wake cause (R471). -/
def wakeCode : WakeCause → Nat
  | .frame => 1 | .eeeWake => 2 | .host => 3 | .pilot => 4 | .policy => 5 | .internal => 6

/-- SLEEP_POLICY forbids the present state (R471, R475).
(DEDUCED: log entry 59.) -/
def State.policyForbids (s : State) : Bool :=
  let st := s.get Obj.sleepState
  (st == 1 && s.get Obj.dozeEnable == 0) || ((st == 2 || st == 3) && s.get Obj.moorEnable == 0)

/-- A wake begins at a step of its list: 1 from Moor, 8 from Doze.
(DEDUCED: log entry 59.) -/
def startWake (step code : Nat) (s : State) : State :=
  let s := (s.set Obj.sleepState 0 4).set Obj.lastWakeCause 0 code
  s.withSleep { s.sleep with wakeStep := step, wakeAt := s.time.ticks, entryStep := 0 }

/-- A wake event stops a Moor entry at the step it has reached (R473).
(DEDUCED: log entry 59.) -/
def abandonMoor (code : Nat) (s : State) : State :=
  let k := s.sleep.entryStep
  let s := if k = 8 then setPlls 2 0 (loseCaches s) else s
  raise Ev.moorAbandoned 0 k code (startWake 1 code (s.bump Obj.moorAbandoned))

/-- WAKE (R471, R473). -/
def execWake (cause : WakeCause) (s : State) : Host.Outcome State Fault Refusal :=
  let code := wakeCode cause
  let st := s.get Obj.sleepState
  .next (if cause = .policy ∧ !s.policyForbids then s
    else if st = 1 then startWake 8 code (leaveDoze s)
    else if st = 2 then startWake 1 code (s.add Obj.moorNs 0 (s.sinceNs s.sleep.since))
    else if st = 3 then abandonMoor code s
    else s)

/-- HBM leaves self-refresh, and the event stores are written out (R467, R472). -/
def leaveSelfRefresh (s : State) : State :=
  let s := if s.hbm.selfRefresh then exitSelfRefresh s else s
  drainStores 256 (s.withEvents { s.events with storing := false })

/-- Chain links that have stopped start again from slot 0 (R324, R472). -/
def restartSlots (s : State) : State :=
  if s.sleep.linksOff then
    (List.range 12).foldl (fun s d => s.setDir d { s.dir d with slot := 0, base := 0, fails := 0 })
      (s.withSleep { s.sleep with linksOff := false })
  else s

/-- Gangways unpark, and the deck counters take the night watch's time (R426, R472). -/
def endWatch (s : State) : State :=
  let s := (gangwaysBelow 102).foldl unpark s
  if s.time.watching then
    let s := s.withTime { s.time with watching := false, watch := 0 }
    if s.get Obj.timeState = 3 then setTimeState 1 s else s
  else s

/-- Anchorage, choice map, slot map and sweep position are restored (R238, R472). -/
def restoreFlow (s : State) : State :=
  match s.flow.savedFlow with
  | none => s
  | some (anchorage, choice, used, sweep) =>
    let s := s.withFlow { s.flow with anchorage := anchorage, choice := choice, used := used, savedFlow := none }
    sweep.foldl (fun s e => s.set Obj.sweepPosition e.1 e.2) s

/-- The landed frames, in arrival order.
(DEDUCED: log entry 72.) -/
def State.landedFrames (s : State) : List FrameId := (s.frames.filter fun e => e.2.stage == .landing).map (·.1)

/-- The engines of the flow table count no time of sleep (R238, R475). -/
def shiftEngines (s : State) : State :=
  let n := s.time.ticks - s.sleep.asleepAt
  let later (m : NMap Nat) : NMap Nat := m.map fun e => (e.1, e.2 + n)
  s.withFlow { s.flow with
    sweptAt := later s.flow.sweptAt, relocatedAt := later s.flow.relocatedAt,
    walks := s.flow.walks.map fun e => (e.1, { e.2 with at_ := e.2.at_ + n }) }

/-- The device is AWAKE: the landing buffers drain (R472, R477).
(DEDUCED: log entry 72.) -/
def finishWake (s : State) : State :=
  let took := s.sinceNs s.sleep.wakeAt
  let s := shiftEngines s
  let s := (s.set Obj.sleepState 0 0).set Obj.lastWakeNs 0 (capAt 0xFFFFFFFF took)
  let s := s.withSleep { s.sleep with wakeStep := 0, idleFrom := s.time.ticks }
  let s := raise Ev.woke 0 (s.get Obj.lastWakeCause) took s
  s.landedFrames.foldl (fun s f => leaveLanding f s) s

/-- The effect of a step of a wake as it completes: 1 to 7 the rows of R472, 8 and 9 the two of a wake from Doze.
(DEDUCED: log entry 59.) -/
def wakeEffect (step : Nat) (s : State) : State :=
  match step with
  | 1 => setPlls 0 1 s
  | 2 => setPlls 1 2 s
  | 3 => leaveSelfRefresh s
  | 4 => restartSlots s
  | 5 => endWatch s
  | 6 => restoreFlow s
  | 7 => finishWake s
  | 9 => finishWake ((gangwaysBelow 64).foldl unpark s)
  | _ => s

/-- WAKE_STEP_DONE (R472).
(DEDUCED: log entry 59.) -/
def execWakeStepDone (s : State) : Host.Outcome State Fault Refusal :=
  let k := s.sleep.wakeStep
  .next (if s.get Obj.sleepState ≠ 4 ∨ k = 0 then s
    else
      let s := wakeEffect k s
      if k = 7 ∨ k = 9 then s else s.withSleep { s.sleep with wakeStep := k + 1 })

/-! ### The landing buffer's pause and the sleep policy (R479, R487) -/

/-- LANDING_PFC_REFRESH (R479). -/
def execLandingPfcRefresh (d : Deck) (s : State) : Host.Outcome State Fault Refusal :=
  .next (match s.sleep.xoff.find d.val with
    | some t =>
      if s.elapsed t (s.get Obj.pfcRefreshNs) then
        landingPfc d.val true (s.withSleep { s.sleep with xoff := s.sleep.xoff.put d.val s.time.ticks })
      else s
    | none => s)

/-- Validation of SLEEP_POLICY (R487). -/
def validateSleep (s : State) : Failed :=
  let xoff := s.staged Obj.landingXoffBytes
  if xoff ≠ 0 ∧ xoff < s.staged Obj.landingXonBytes then some (St.badValue, addrKey 0x7806 0 0) else none

end Sys2Proof.Machine
end

