-- ==== Sys2Proof/Machine/Decks.lean ====
section
/-! DEFINITION. Loss of a deck (17: R526 to R529), chain-link directions (R525) and PLLs (R526). -/

namespace Sys2Proof.Machine

/-! ### Frames at a loss (R528) -/

/-- The ports of a deck: its front ports, its loopback ports, and the host port on D0 (R7). -/
def portsOfDeck (d : Nat) : List Nat := (List.range 137).filter fun p => deckOfPort p == d

/-- A pipe lies on deck d. -/
def onDeck (d p : Nat) : Bool := deckOfPipe p == d

/-- The frame's egress port is fixed. -/
def Frame.routed (x : Frame) : Bool :=
  match x.stage with
  | .ingress | .parsing _ | .landing | .gone | .replicated => false
  | _ => x.targets.isEmpty || x.origin.isSome

/-- The frame's head stands on deck d. -/
def Frame.standsOn (x : Frame) (d : Nat) : Bool :=
  match x.stage with
  | .ingress | .parsing _ | .landing | .window false _ => onDeck d (pipeOfPort x.inPort)
  | .window true p | .home p | .lookup p | .waiting p | .consult p | .stored p | .punted p _ => onDeck d p
  | .crossing _ src _ => onDeck d src
  | .landed | .held | .released | .queued _ | .sending _ => onDeck d x.epipe || deckOfPort x.port == d
  | .replicated => onDeck d x.hpipe
  | .gone => false

/-- What a loss does with one frame: it ends with its deck or with its egress port, without a hole notice; a stamped
frame on its way to the lost deck for its home stage ends with one; an unstamped one is counted; and a frame whose rest
would have come from the lost deck is a bad frame (R528, R291).
(DEDUCED: log entry 63.) -/
def loseFrame (d : Nat) (f : FrameId) (s : State) : State :=
  match s.frame f with
  | none => s
  | some x =>
    let cut := x.tail.isNone && deckOfPort x.inPort == d
    let mark (s : State) : State := if cut then s.modFrame f fun x => { x with tail := some false } else s
    if x.stage = .gone then (if deckOfPort x.inPort = d ∧ !x.home.duty then s.freeFrame f else mark s)
    else if x.standsOn d then finishFrame f s
    else if x.routed && deckOfPort x.port == d then finishFrame f s
    else match x.stage with
      | .crossing false src dst => if onDeck d dst then discardAt (deckOfPipe src) f s else mark s
      | .window false p => if onDeck d x.hpipe then finishFrame f (s.bump Obj.lostHomeDrops p) else mark s
      | _ => mark s

/-- Queues, transmissions, residue and links of a lost deck's ports are gone (R529). -/
def losePorts (d : Nat) (s : State) : State :=
  let mine (p : Nat) : Bool := deckOfPort p == d
  let queues := (s.tm.queues.map (·.1)).filter fun q => mine (q / 16)
  let s := { s with tm := { queues := s.tm.queues.filter fun e => !mine (e.1 / 16),
                            ports := s.tm.ports.filter fun e => !mine e.1 } }
  let s := queues.foldl (fun s q => s.set Obj.queueCells q 0) s
  let s := (s.withCross { s.cross with residue := s.cross.residue.del d }).set Obj.residueInUse d 0
  (portsOfDeck d).foldl (fun s p => if p < 128 then linkLost p s else s) s

/-- The rings that have a page in a lost stack are disabled (R529). -/
def loseRings (d : Nat) (s : State) : State :=
  (List.range 29).foldl (fun s r =>
    let n := s.ringPages r
    if n ≠ 0 ∧ s.ringFirst r / 16384 ≤ d ∧ d ≤ (s.ringFirst r + n - 1) / 16384 then
      (s.set Obj.ringPages r 0).setRing r {}
    else s) s

/-- Parse engines, tables, export engines, services and locks of a lost deck's pipes are gone (R529). -/
def losePipes (d : Nat) (s : State) : State :=
  let mine (p : Nat) : Bool := onDeck d p
  let s := s.withParse { s.parse with engines := s.parse.engines.filter fun e => !mine (e.1 / 128),
                                      jobs := s.parse.jobs.filter fun e => !mine e.1 }
  let t := s.tables
  let s := { s with tables := { t with mac := t.mac.filter fun e => !mine (e.1 / 2 ^ 19),
                                       queue := t.queue.filter fun e => !mine e.1,
                                       rehash := t.rehash.filter fun e => !mine e.1 },
                    exports := s.exports.filter fun e => !mine e.1 }
  s.withFlow { s.flow with slbSlots := s.flow.slbSlots.filter fun e => !mine (e.1 / 65536 % 8) }

/-- Memory controllers and poison of a lost stack are gone, and its bursts with them. -/
def loseStack (d : Nat) (s : State) : State :=
  let h := s.hbm
  let h := { h with pcs := h.pcs.filter fun e => e.1 / 32 != d, poison := h.poison.del d,
                    poisoned := h.poisoned.filter fun k => k / 2 ^ 28 != d, retraining := h.retraining.del d,
                    trainPass := h.trainPass.del d }
  (s.withHbm h).withAvail { s.avail with copies := s.avail.copies.del d }

/-- The six directions of a deck (R10). -/
def directionsOf (d : Nat) : List Nat := (List.range 12).filter fun k => dirSource k == d || dirDest k == d

/-- Entries of the home table whose HOME_PIPE lies on a deck. -/
def State.homedOn (s : State) (d : Nat) : List Nat := (List.range 4096).filter fun e => onDeck d (s.get Obj.homePipe e)

/-- Deck d is lost (R527 to R529): causes 1 gangway, 2 PLL, 3 direction, 4 start, 5 software.
(DEDUCED: log entry 63.) -/
def loseDeck (d cause : Nat) (s : State) : State :=
  if !s.deckUp d then s
  else
    let before := s
    let s := (s.set Obj.deckState d 1).set Obj.pilotState d 3
    let s := (directionsOf d).foldl (fun s k => (s.setDir k {}).set Obj.directionState k 3) s
    let s := (s.frames.map (·.1)).foldl (fun s f => loseFrame d f s) s
    let s := loseStreams d (losePorts d s)
    let s := loseStack d (losePipes d (loseRings d (loseFlows d s)))
    let s := if d = 0 then (endpointReset s).withHost { (endpointReset s).host with linkUp := false } else s
    let s := pilotGone d before s
    let s := s.withAvail { s.avail with rehome := s.avail.rehome ++ [d] }
    updateStep (raise Ev.deckLost d cause (s.homedOn d).length s)

/-- DECK_RETIRE (R527, R531): its status. -/
def retireDeck (d v : Nat) (s : State) : Nat × State :=
  if v = 0 then (St.ok, s)
  else if !((List.range 4).any fun k => k != d && s.deckUp k) then (St.badValue, s)
  else (St.ok, loseDeck d 5 s)

/-! ### Chain-link directions (R525) -/

/-- Gangways of a direction: into it at its source deck and out of it at its destination (R480). -/
def gangwaysOf (d : Nat) : List Nat :=
  [dirSource d * 128 + 96 + d % 3, dirDest d * 128 + 99 + dirBack d % 3]

/-- Key of a PLL: core 0, HBM PHY 1, the link PLL of a deck's k-th outgoing direction 2 + k.
(DEDUCED: log entry 63.) -/
def pllKey (d : Nat) : Pll → Nat
  | .core => d * 8 | .hbmPhy => d * 8 + 1 | .chainLink k => d * 8 + 2 + k.val

/-- Why an UP direction stops: 1 eight retries, 2 an isolated gangway, 3 its PLL. -/
def State.stopCause (s : State) (d : Nat) : Option Nat :=
  if 8 ≤ (s.dir d).fails then some 1
  else if (gangwaysOf d).any fun g => s.get Obj.gangwayState g == 4 then some 2
  else if (s.avail.unlocked.find (dirSource d * 8 + 2 + d % 3)).isSome then some 3
  else none

/-- A direction stops and is retrained; its control messages go by the service path.
(DEDUCED: log entry 63.) -/
def stopDirection (d cause : Nat) (s : State) : State :=
  let x := s.dir d
  deliver x.ctrl ((s.setDir d { x with cause := cause, ctrl := [], trainFails := 0, slot := 0, base := 0, fails := 0 }).set
    Obj.directionState d 1)

/-- DIRECTION_RETRAIN (R525). -/
def execDirectionRetrain (d : Direction) (s : State) : Host.Outcome State Fault Refusal :=
  .next (match s.get Obj.directionState d.val, s.stopCause d.val with
    | 0, some c => stopDirection d.val c s
    | _, _ => s)

/-- Frames that wait for a direction are discarded at its source deck (R525). -/
def discardWaiting (d : Nat) (s : State) : State :=
  (((s.dir d).queue.map Cell.frame).eraseDups).foldl (fun s f =>
    discardAt (dirSource d) f (s.bump Obj.directionDiscards d)) s

/-- A direction is FAILED, and DIRECTION_FAIL_ACTION applies (R525).
(DEDUCED: log entry 68.) -/
def failDirection (d cause tries : Nat) (s : State) : State :=
  let s := (s.setDir d { s.dir d with failedAt := s.time.ticks, retriedAt := s.time.ticks, retrying := false }).set
    Obj.directionState d 2
  let s := raise Ev.directionFailed d cause tries s
  if s.get Obj.directionFailAction = 1 then loseDeck (Nat.max (dirSource d) (dirDest d)) 3 s else discardWaiting d s

/-- A training succeeds: the direction is UP again from slot 0.
(DEDUCED: log entry 63.) -/
def directionUp (d : Nat) (s : State) : State :=
  let failed := s.get Obj.directionState d = 2
  let was := s.dir d
  let s := s.withAvail { s.avail with unlocked := s.avail.unlocked.del (dirSource d * 8 + 2 + d % 3) }
  let s := (s.setDir d { was with trainFails := 0, retrying := false, slot := 0, base := 0, fails := 0 }).set
    Obj.directionState d 0
  if failed then raise Ev.directionRestored d 0 (s.sinceNs was.failedAt) s else s

/-- DIRECTION_RETRAIN_DONE (R525). -/
def execDirectionRetrainDone (d : Direction) (ok : Bool) (s : State) : Host.Outcome State Fault Refusal :=
  let d := d.val
  let x := s.dir d
  .next (match s.get Obj.directionState d with
    | 1 =>
      if ok then directionUp d s
      else if x.trainFails + 1 < 3 then s.setDir d { x with trainFails := x.trainFails + 1 }
      else failDirection d x.cause 3 s
    | 2 =>
      if !x.retrying then s
      else if ok then directionUp d s
      else s.setDir d { x with retrying := false }
    | _ => s)

/-- DIRECTION_RETRY (R525): every 10 s the Pilot retries a FAILED direction.
(DEDUCED: log entry 63.) -/
def execDirectionRetry (d : Direction) (s : State) : Host.Outcome State Fault Refusal :=
  let x := s.dir d.val
  .next (if s.get Obj.directionState d.val = 2 && !x.retrying && s.anyPilot && s.elapsed x.retriedAt 10000000000 then
      s.setDir d.val { x with retrying := true, retriedAt := s.time.ticks }
    else s)

/-! ### PLLs (R526) -/

/-- Code of a PLL in events (R488). -/
def pllCode : Pll → Nat
  | .core => 0 | .hbmPhy => 1 | .chainLink _ => 2

/-- PLL_UNLOCK (R526): while Awake, of a deck in service. -/
def execPllUnlock (d : Deck) (pll : Pll) (s : State) : Host.Outcome State Fault Refusal :=
  let k := pllKey d.val pll
  .next (if !s.awake || !s.deckUp d.val || (s.avail.unlocked.find k).isSome then s
    else
      let s := s.withAvail { s.avail with unlocked := s.avail.unlocked.put k s.time.ticks }
      let s := if pllCode pll = 0 then s.set Obj.corePllState d.val 1 else s
      raise Ev.pllUnlock d.val (pllCode pll) 0 s)

/-- A PLL is locked again.
(DEDUCED: log entry 63.) -/
def relockPll (d : Nat) (pll : Pll) (s : State) : State :=
  let s := s.withAvail { s.avail with unlocked := s.avail.unlocked.del (pllKey d pll) }
  if pllCode pll = 0 then s.set Obj.corePllState d (if bitOf (s.get Obj.refclkPresent) 0 then 2 else 3) else s

/-- PLL_RELOCKED (R526). -/
def execPllRelocked (d : Deck) (pll : Pll) (s : State) : Host.Outcome State Fault Refusal :=
  .next (if s.deckUp d.val && (s.avail.unlocked.find (pllKey d.val pll)).isSome then relockPll d.val pll s else s)

/-- PLL_RELOCK_TIMEOUT (R526): a core or HBM PHY PLL that has not relocked in 100 µs loses its deck. -/
def execPllRelockTimeout (d : Deck) (pll : Pll) (s : State) : Host.Outcome State Fault Refusal :=
  .next (match pllCode pll, s.avail.unlocked.find (pllKey d.val pll) with
    | 2, _ => s
    | _, none => s
    | _, some t => if s.elapsed t 100000 then loseDeck d.val 2 s else s)

end Sys2Proof.Machine
end

