-- ==== Sys2Proof/Machine/Gangways.lean ====
section
/-! DEFINITION. Gangways (15: R480 to R486): isolation, the reset of one side, and resynchronisation. -/

namespace Sys2Proof.Machine

/-- The gangway exists: local numbers 0 to 103, and 104 on D0 (R480). -/
def gangwayExists (g : Nat) : Bool := decide (g % 128 < 104) || g == 104

/-- The port that a lane belongs to. -/
def State.portOfLane (s : State) (lane : Nat) : Option Nat :=
  (List.range 128).find? fun p => decide (p ≤ lane) && decide (lane < p + modeLanes (s.get Obj.lanePortMode p))

/-- The link of a port goes down because its transmit gangway is isolated (R480); it trains again.
(DEDUCED: log entry 60.) -/
def transmitLost (p : Nat) (s : State) : State :=
  restartTraining p (if s.linkState p = 2 then declareDown p 1 s else s)

/-- What the owner of an isolated gangway does (R480). A chain-link direction stops by DIRECTION_RETRAIN, and a Pilot is
declared by PILOT_FAILED; both look at GANGWAY_STATE.
(DEDUCED: log entry 60.) -/
def isolated (g : Nat) (s : State) : State :=
  let d := g / 128
  let i := g % 128
  if i < 32 then
    match s.portOfLane (32 * d + i) with
    | some p => beginFault p 1 s
    | none => s
  else if i < 64 then
    match s.portOfLane (32 * d + i - 32) with
    | some p => transmitLost p s
    | none => s
  else if i < 96 then
    let (v, s) := s.draw
    startSpare (32 * d + i - 64) (v % 4 + 1) s
  else if i = 102 then loseDeck d 1 s
  else if i = 104 then loseLink s
  else s

/-- A handshake can time out here: the beat and the acknowledge only while the gangway runs, and no handshake while it
is parked, held or isolated already (R484). -/
def State.mayTimeOut (s : State) (g handshake : Nat) : Bool :=
  gangwayExists g &&
  match s.get Obj.gangwayState g with
  | 0 => handshake != 1 || (s.gw g).crossing.isSome
  | 3 => handshake == 2
  | _ => false

/-- GANGWAY_TIMEOUT (R484): the gangway is isolated.
(DEDUCED: log entry 60.) -/
def execGangwayTimeout (g : Gangway) (destinationSilent : Bool) (handshake : Fin 3) (s : State) :
    Host.Outcome State Fault Refusal :=
  let g := g.val
  .next (if s.mayTimeOut g handshake.val then
      let s := (s.set Obj.gangwayState g 4).bump Obj.gangwayTimeouts g
      isolated g (raise Ev.gangwayTimeout g (bit01 destinationSilent) handshake.val s)
    else s)

/-- GANGWAY_SIDE_RESET (R485 steps 1 and 2): the running side holds, and what is in flight is discarded.
(DEDUCED: log entry 60.) -/
def execGangwaySideReset (g : Gangway) (destination : Bool) (s : State) : Host.Outcome State Fault Refusal :=
  let g := g.val
  let x := s.gw g
  let n := x.fifo + x.count + x.crossing.getD 0
  .next (if gangwayExists g && s.get Obj.gangwayState g != 2 then
      let s := setGw g { x with fifo := 0, count := 0, crossing := none, flushed := n, side := destination } s
      (s.set Obj.gangwayState g 2).add Obj.crossingFlushed g n
    else s)

/-- GANGWAY_RESYNC (R485 steps 3 and 4): the gangway runs again, and what was discarded is reported.
(DEDUCED: log entry 60.) -/
def execGangwayResync (g : Gangway) (s : State) : Host.Outcome State Fault Refusal :=
  let g := g.val
  let x := s.gw g
  .next (if s.get Obj.gangwayState g = 2 then
      let s := (setGw g { x with flushed := 0 } (s.set Obj.gangwayState g 0)).bump Obj.resyncs g
      if x.flushed = 0 then s else raise Ev.gangwayFlushed g (bit01 x.side) x.flushed s
    else s)

end Sys2Proof.Machine
end

