-- ==== Sys2Proof/Machine/Repair.lean ====
section
/-! DEFINITION. On-die memory errors (17: R523) and the repair of poisoned HBM structures (R524). -/

namespace Sys2Proof.Machine

/-! ### On-die memories (R523) -/

/-- A record is reclaimed from step 2 of R237, without export.
(DEDUCED: log entry 65.) -/
def dropRecord (p slot : Nat) (s : State) : State :=
  match s.fore p slot with
  | some r => releaseBindings r (removeRecord p slot r s)
  | none => s

/-- A frame whose descriptor is lost: it leaves its queue and the device, and its gap closes by the timer. -/
def loseDescriptor (f : FrameId) (s : State) : State :=
  let s := (s.tm.queues.map (·.1)).foldl (fun s q =>
    let x := s.queue q
    if x.frames.any (·.frame == f) then s.setQueue q { x with frames := x.frames.filter (·.frame != f) } else s) s
  finishFrame f s

/-- VALID of a spread table entry is cleared until software writes the table (R523). -/
def clearSpread (i e : Nat) (s : State) : State :=
  let bs := s.getDom Obj.spreadEntries i
  if bs.length ≤ 2 * e + 1 then s
  else s.setDom Obj.spreadEntries i (overlay bs (2 * e) (leBytes 2 (leAt bs (2 * e) 2 % 2 ^ 15)))

/-- Handling of an uncorrectable SRAM error by its array (R523); p is the pipe that holds it.
(DEDUCED: log entry 65.) -/
def sramLost (p : Nat) (a : SramArray) (s : State) : State :=
  match a with
  | .bufferCell f => s.modFrame f fun x => { x with spoiled := true, tail := x.tail.map fun _ => false }
  | .quayLine slot => if (s.line p slot.toNat).isSome then dropRecord p slot.toNat s else s
  | .flowBerth n =>
    match (s.ashore p).find? fun e => e.1 == n.val with
    | some e => dropRecord p e.2.slot s
    | none => s
  | .macBerth ashore n =>
    let i := if ashore then macAnchorage + n.val else n.val
    match s.mac p i with
    | some b => macRemove p i b s
    | none => s
  | .route _ _ => s
  | .service _ => s
  | .spread t e => clearSpread (p * 16 + t.val) e.val s
  | .controlStore c aft addr =>
    let k := storeKey (deckOfPipe p * 16 + c.val) aft addr.toNat
    setCtl k { s.ctlWord k with ecc := .uncorrectable, seen := false } s
  | .descriptor f => loseDescriptor f s

/-- A single-bit error that the scrub finds is corrected; that of a control-store word stands until its write-back, and a
fetch meanwhile finds it (R168).
(DEDUCED: log entry 28.) -/
def sramFound (p : Nat) (a : SramArray) (s : State) : State :=
  match a with
  | .controlStore c aft addr =>
    let k := storeKey (deckOfPipe p * 16 + c.val) aft addr.toNat
    let w := s.ctlWord k
    if w.ecc = .clean then setCtl k { w with ecc := .corrected, seen := false } s else s
  | _ => s

/-- SRAM_SCRUB (R523). The codes of array and address in the events are not stated: drawn free.
(DESIGN CHOICE: log entry 64.) -/
def execSramScrub (p : Pipe) (a : SramArray) (ecc : EccResult) (s : State) : Host.Outcome State Fault Refusal :=
  let d := deckOfPipe p.val
  .next (if !s.deckUp d ∨ ecc = .clean then s
    else
      let (array, s) := s.draw
      let (address, s) := s.draw
      if ecc = .corrected then sramFound p.val a (raise Ev.sramCorrected d array address (s.bump Obj.sramCorrected d))
      else sramLost p.val a (raise Ev.sramUncorrected d array address (s.bump Obj.sramUncorrected d)))

/-! ### Poisoned structures (R524) -/

/-- Records of a pipe whose current pier is `n` and that stand in no anchorage berth. -/
def State.pierMembers (s : State) (p n : Nat) : List (Nat × Fore) :=
  (s.records p).filterMap fun slot => match s.fore p slot with
    | some r => if s.pier p r.hash == n && !r.anchored && !s.forePoisoned p slot then some (slot, r) else none
    | none => none

/-- A poisoned pier is written with zeros, and the records that belong there receive their berths again. -/
def repairPier (p n : Nat) (s : State) : State :=
  let mine := s.pierMembers p n
  let s := (List.range 4).foldl (fun s i => setPier p n i none s) s
  mine.foldl (fun s e => match (List.range 4).find? fun i => (s.pierBerth p n i).isNone with
    | some i => setPier p n i (some (s.berthFor e.2 false)) s
    | none => s) s

/-- A poisoned record slot: the berth is invalidated, and the slot written with zeros and freed.
(DEDUCED: log entry 65.) -/
def repairSlot (p slot : Nat) (s : State) : State :=
  let s := match s.fore p slot with
    | some r => removeRecord p slot r s
    | none => s
  clearRange p (slotOffset slot) 128 (setAft p slot (List.replicate 64 0) s)

/-- Records that name the binding of a pool's port in XLATE_REF or BALANCE_REF.
(DEDUCED: log entry 65.) -/
def State.bindingUses (s : State) (q P : Nat) : Nat :=
  let names (ref : Nat) : Bool := bitsOf ref 31 20 == q && bitsOf ref 19 4 == P
  (List.range 8).foldl (fun n p => (s.records p).foldl (fun n slot => match s.fore p slot with
    | some r => n + bit01 (r.act 7 && r.xkind == 0 && names r.xlate) + bit01 (r.act 3 && names r.balance)
    | none => n) n) 0

/-- A row of a poisoned column burst: a BOUND entry is rebuilt from the records that use it, a STATIC one is lost.
(DEDUCED: log entry 65.) -/
def repairRow (q c r : Nat) (s : State) : State :=
  if r = 0 then setCursor q c 0 s
  else
    let e := s.natEntry q c r
    let n := s.bindingUses q (r * 4096 + c)
    if natState e = 1 ∧ n ≠ 0 then setNat q c r (if natSlb e then e else e - natRefs e + n) s else setNat q c r 0 s

/-- A poisoned burst of a NAT column; the STATIC entries lost.
(DEDUCED: log entry 65.) -/
def repairColumn (p off : Nat) (s : State) : Nat × State :=
  let i := (off - natOffset 0 0 0) / 128
  let q := i / 512
  let c := i % 512 * 8 + p
  let rows := (List.range 8).map (off % 128 / 8 + ·)
  let lost := rows.countP fun r => r != 0 && natState (s.natEntry q c r) == 2
  (lost, clearPoison p off (rows.foldl (fun s r => repairRow q c r s) s))

/-- A poisoned burst of a balancing slot table: copied from the staged copy of a CLEAN service, else eight slots
without VALID. -/
def repairSlots (p off : Nat) (s : State) : State :=
  let i := off - 0xA0000000
  let v := i / 0x80000 * 8 + p
  let k := v * 65536 + i % 0x80000 / 8
  let s := if (s.group 0x21 v).state = 0 then s
    else s.withFlow { s.flow with slbSlots := s.flow.slbSlots.delRange k 8 }
  clearPoison p off s

/-- A poisoned burst of the scratch region of half 0 may belong to a firmware copy, which is then marked invalid; where
the copies lie is not stated. -/
def repairCopy (d : Nat) (s : State) : State :=
  let (v, s) := s.draw
  let inval (i : Option Image) : Option Image := i.map fun i => { i with valid := false }
  let (a, b) := s.copies d
  let c := if v % 3 = 0 then (inval a, b) else if v % 3 = 1 then (a, inval b) else (a, b)
  s.withAvail { s.avail with copies := s.avail.copies.put d c }

/-- A copy of the stack is still valid. -/
def State.copyValid (s : State) (d : Nat) : Bool :=
  let (a, b) := s.copies d
  a.elim false Image.valid || b.elim false Image.valid

/-- A burst that R524 repairs, by its half offset. -/
def State.repairable (s : State) (d half off : Nat) : Bool :=
  decide (off < 0xB0000000) || (decide (0xBA000000 ≤ off) && decide (off < 0xBA080000)) ||
  (half == 0 && decide (0xBA100000 ≤ off) && decide (off < 0xBE000000) && s.copyValid d)

/-- Repair of a burst; the STATIC entries lost.
(DESIGN CHOICE: log entry 64.) -/
def repairBurst (d half off : Nat) (s : State) : Nat × State :=
  let p := 2 * d + half
  if off < 0x10000000 then (0, repairPier p (off / 64) s)
  else if off < 0x90000000 then (0, repairSlot p ((off - 0x10000000) / 128) s)
  else if off < 0xA0000000 then repairColumn p off s
  else if off < 0xB0000000 then (0, repairSlots p off s)
  else if off < 0xBA100000 then
    let n := (off - 0xBA000000) / 32
    (0, [n, n + 1].foldl (fun s i => rebuildGolden p (decide (8192 ≤ i)) (i % 8192) s) s)
  else (0, repairCopy d s)

/-- POISON_REPAIR (R388, R524): the oldest listed burst that is to be repaired; the SCRUB requester writes it. The code of its structure in the event is not
stated: drawn free. -/
def execPoisonRepair (d : Deck) (s : State) : Host.Outcome State Fault Refusal :=
  let d := d.val
  let off (b : Nat) : Nat := b % 2 ^ 27 * 64
  .next (if !s.deckUp d ∨ !s.pilotUp (s.get Obj.servingPilot d) then s
    else match (s.hbm.poison.getD d []).find? fun b => s.repairable d (b / 2 ^ 27) (off b) with
      | none => s
      | some b =>
        let (structure_, s) := s.draw
        let (lost, s) := repairBurst d (b / 2 ^ 27) (off b) (wantBurst .scrub true (2 * d + b / 2 ^ 27) (off b) s)
        raise Ev.poisonRepaired d structure_ (lost * 2 ^ 32 + b) s)

end Sys2Proof.Machine
end

