-- ==== Sys2Proof/Machine/Groups.lean ====
section
/-! DEFINITION. Staging of commit group instances (02): who may stage (R70, R78, R581), the claim (R69), and the return
to the active copy (R72, R73). -/

namespace Sys2Proof.Machine

/-- Checks 6 and 7 of R51 for a staged write, a COMMIT or a write to SCHED_TIME by a session (R70, R78, R581); 0 where
they pass. -/
def State.stageStatus (s : State) (g inst session : Nat) : Nat :=
  let x := s.group g inst
  if x.validating.isSome then St.busy
  else if x.state = 2 ∨ (x.state = 1 ∧ x.owner ≠ session) then St.stagedConflict
  else St.ok

/-- An accepted staged write claims a CLEAN instance and starts the idle time anew (R69, R72). -/
def noteStaged (g inst session : Nat) (s : State) : State :=
  s.setGroup g inst { s.group g inst with state := 1, owner := session, idleFrom := s.time.ticks }

/-- An address key names a member of a group instance. -/
def memberKey (g inst : Nat) (key : Nat) : Bool :=
  let index := key / 2 ^ 24
  let sub := key / 65536 % 256
  let at_ := key % 65536
  (groupRows g).any fun o =>
    o.index == index && decide (o.sub ≤ sub) && decide (sub < o.sub + o.subs) && groupInstOf g o.kind at_ == inst

/-- The staged copy of a group instance equals its active copy again, whatever was written of it. -/
def dropStaged (g inst : Nat) (s : State) : State :=
  let keep {α : Type} (m : NMap α) : NMap α := m.filter fun e => !memberKey g inst e.1
  let s := s.withDict { s.dict with staged := keep s.dict.staged, stagedDoms := keep s.dict.stagedDoms,
                                    partials := keep s.dict.partials }
  if g = 0x21 then { s with flow := { s.flow with slbStaged := s.flow.slbStaged.delRange (inst * 65536) 65536 } } else s

/-- The instance returns to CLEAN with its staged copy reset (R72, R73, R78). -/
def cleanGroup (g inst : Nat) (s : State) : State :=
  let s := dropStaged g inst s
  let x := s.group g inst
  s.setGroup g inst { x with state := 0, owner := 0, validating := none, replyTo := none, tc := 0, passed := false }

/-- The group instances that are not as at reset, as (group, instance). -/
def State.listedGroups (s : State) : List (Nat × Nat) := s.dict.groups.map fun e => (e.1 / 65536, e.1 % 65536)

end Sys2Proof.Machine
end

