-- ==== Sys2Proof/Machine/HostRings.lean ====
section
/-! DEFINITION. The host's side of the rings (03): bollards, BAR2 accesses, ring flush and disable, and the inject
rings. -/

namespace Sys2Proof.Machine

/-! ### Bollards and BAR2 (R97 to R100, R398, R529) -/

/-- A pipe's staging store drains while its ring has room (R309). -/
def drainExports (s : State) : State := (List.range 8).foldl (fun s p => drainStaging p (s.export_ p).staging.length s) s

/-- A write of BOLLARD_GIVE: pages pass to the device, and producers that waited for them go on; a count of 0 is a no-op
(R98, R104). -/
def giveBollards (v : Nat) (s : State) : State :=
  let first := v % 65536
  if v / 65536 = 0 then s
  else drainExports (ringsResume ((List.range (v / 65536)).foldl (fun s i =>
    if first + i < 65536 then s.setBollard (first + i) 1 else s) s))

/-- BOLLARD_GIVE (R93, R98). -/
def execBollardGive (value : Word32) (s : State) : Host.Outcome State Fault Refusal := .next (giveBollards value.toNat s)

/-- The host touched a device-owned page: 0 read, 1 write (R99). -/
def bollardFault (page what : Nat) (s : State) : State := raise Ev.bollardFault 0 page what (s.bump Obj.bollardFaults)

/-- `s` with the data that a host read returned.
(DEDUCED: log entry 23.) -/
def State.withRead (s : State) (v : Nat) (poisoned : Bool) : State :=
  s.withHost { s.host with readData := BitVec.ofNat 32 v, poisonedTlp := poisoned }

/-- HOST_BAR2_READ (R97, R99, R398, R529): one aligned 32-bit word.
(DEDUCED: log entry 23.) -/
def execHostBar2Read (offset : BitVec 28) (s : State) : Host.Outcome State Fault Refusal :=
  let a := offset.toNat / 4 * 4
  let page := a / pageSize
  let (p, off) := quayPlace a
  .next (if !s.deckUp (page / 16384) then s.withRead 0xFFFFFFFF false
    else if s.owned page then (bollardFault page 0 s).withRead 0xFFFFFFFF false
    else if s.poison p off then
      let (v, s) := (quayAsk .dma false a 4 s).draw
      s.withRead v true
    else (quayAsk .dma false a 4 s).withRead (leNat (s.quayRead a 4)) false)

/-- HOST_BAR2_WRITE (R97, R99, R529): one aligned 32-bit word.
(DEDUCED: log entry 23.) -/
def execHostBar2Write (offset : BitVec 28) (data : Word32) (s : State) : Host.Outcome State Fault Refusal :=
  let a := offset.toNat / 4 * 4
  let page := a / pageSize
  .next (if !s.deckUp (page / 16384) then s
    else if s.owned page then bollardFault page 1 s
    else quayAsk .dma true a 4 (s.quayWrite a (leBytes 4 data.toNat)))

/-! ### Flush and disable (R102, R104) -/

/-- The device produces the ring (R101). -/
def deviceProduces (r : Nat) : Bool := decide (r < 8) || (decide (12 ≤ r) && decide (r < 21)) || decide (25 ≤ r)

/-- RING_FLUSH (R104): RING_FLUSH_NS has run since the first record of a partly filled page. -/
def execRingFlush (r : Ring) (s : State) : Host.Outcome State Fault Refusal :=
  .next (match (s.ringPos r.val).firstAt with
    | some t => if deviceProduces r.val ∧ s.elapsed t (s.get Obj.ringFlushNs r.val) then ringPassPartial r.val s else s
    | none => s)

/-- The device passes every page of a ring that it owns back to the host (R102). -/
def returnPages (r n : Nat) (s : State) : State :=
  (List.range n).foldl (fun s i => if s.owned (s.ringFirst r + i) then passPage r (s.ringFirst r + i) s else s) s

/-- RING_PAGES is written (R102): 0 disables the ring and returns its pages; a ring that becomes enabled starts at its
first page, an export ring begins with the templates (R308), and the event log takes what the stores hold (R493).
(DEDUCED: log entry 21.) -/
def ringPagesWritten (r v : Nat) (s : State) : State :=
  let n := s.ringPages r
  if v = 0 then
    let s := if deviceProduces r then ringPassPartial r s else s
    let s := if (s.ringPos r).stalled then endStall r s else s
    let s := ((returnPages r n s).set Obj.ringPages r 0).setRing r {}
    if 12 ≤ r ∧ r < 20 then emptyExport (r - 12) s else s
  else
    let s := s.set Obj.ringPages r v
    let s := if n = 0 ∨ v ≤ (s.ringPos r).page then s.setRing r {} else s
    let s := if 12 ≤ r ∧ r < 20 ∧ n = 0 ∧ s.get Obj.exportEnable = 1 then queueTemplate (r - 12) s else s
    let s := if r = 20 ∧ n = 0 ∧ s.awake then s.withEvents { s.events with storing := false } else s
    ringSpaceReturned r s

/-! ### The device as consumer (R105) -/

/-- What stands next in a ring that the device consumes. -/
inductive Taken where
  /-- No whole record yet. -/
  | nothing
  | invalid
  | pad (n : Nat)
  | record (bytes : List Byte)
  deriving DecidableEq, Repr

/-- Header size of a record type (R103, R107, R111).
(DEDUCED: log entry 21.) -/
def headerSize (type : Nat) : Nat := if type = 0 then 16 else 32

/-- The next record of a ring whose own type is `type` (R105).
(DEDUCED: log entry 21.) -/
def State.nextRecord (s : State) (r type : Nat) : Taken :=
  let x := s.ringPos r
  let off := x.page * pageSize + x.byte
  let total := s.ringPages r * pageSize
  if total = 0 ∨ !s.owned (s.ringFirst r + x.page) then .nothing
  else
    let b := s.quayRead (s.ringFirst r * pageSize + off) 32
    let t := byteAt b 0
    let n := leAt b 2 2
    if (t ≠ type ∧ t ≠ 0) ∨ n < headerSize t ∨ total < off + n ∨ (t = 2 ∧ leAt b 4 2 = 0) then .invalid
    else if !s.ringOwns r off n then .nothing
    else if t = 0 then .pad n
    else .record (s.quayRead (s.ringFirst r * pageSize + off) n)

/-- The device has consumed a ring's bytes up to the next record: pages that end before it return to the host.
(DEDUCED: log entry 21.) -/
def ringConsume (r off' : Nat) (s : State) : State :=
  let page := (s.ringPos r).page
  let s := (List.range (off' / pageSize - page)).foldl (fun s i => passPage r (s.ringFirst r + page + i) s) s
  let w := if s.ringPages r * pageSize ≤ off' then 0 else off'
  s.setRing r { page := w / pageSize, byte := w % pageSize }

/-- Offset in a ring of the device's position. -/
def State.ringOffset (s : State) (r : Nat) : Nat := (s.ringPos r).page * pageSize + (s.ringPos r).byte

/-- Consume a record of `n` bytes. -/
def consumeRecord (r n : Nat) (s : State) : State := ringConsume r (roundUp (s.ringOffset r + n) 64) s

/-- An invalid record is skipped to the start of the next page (R105).
(DEDUCED: log entry 21.) -/
def skipInvalid (r : Nat) (s : State) : State :=
  let x := s.ringPos r
  let s := raise Ev.ringInvalidRecord r (s.ringPage r) x.byte (s.bump Obj.ringInvalid r)
  ringConsume r ((x.page + 1) * pageSize) s

/-- Consume the PAD records that stand next. -/
def skipPads (r type : Nat) : Nat → State → State
  | 0, s => s
  | fuel + 1, s => match s.nextRecord r type with
    | .pad n => skipPads r type fuel (consumeRecord r n s)
    | _ => s

/-- PAD records taken at most in one command: more than a ring of the largest size holds. -/
def padFuel (s : State) (r : Nat) : Nat := s.ringPages r * 64 + 1

/-! ### Inject (R107, R108) -/

/-- The frame of an inject record, padded to 60 bytes (R107).
(DEDUCED: log entry 22.) -/
def injectData (rec : List Byte) : List Byte :=
  let d := (rec.drop 32).take (leAt rec 4 2)
  d ++ List.replicate (60 - d.length) 0

/-- A port that a DIRECT record can name: in the range of R107 and not down.
(DEDUCED: log entry 22.) -/
def State.injectable (s : State) (port : Nat) : Bool :=
  decide (port < 137) && port != 128 && (s.linkState port == 2 || s.linkState port == 3)

/-- A frame comes into pipe 0's ingress stage as port 128 (R7, R108, R125).
(DEDUCED: log entry 22.) -/
def injectFrame (rec : List Byte) (s : State) : State :=
  let flags := byteAt rec 1
  let direct := bitOf flags 0
  let data := injectData rec
  let f := s.nextFrame
  let x : Frame := {
    inPort := 128, data := data, tail := some true, rxTime := s.time.now, rxTick := s.time.ticks,
    direct := direct, cookie := if bitOf flags 1 then some (leAt rec 12 4) else none,
    result := if direct then { stateless := true, cls := byteAt rec 8 % 16, egress := some (leAt rec 6 2) }
              else { vrf := leAt rec 10 2 } }
  let s := { s.setFrame f x with nextFrame := f + 1 }
  let s := (s.bump Obj.rxFrames 128).add Obj.rxBytes 128 (data.length + 4)
  if !direct then enterIngress f s
  else
    let s := admitFirst f s
    match s.frame f with
    | none => s
    | some x =>
      if x.tail = some false then endFrame f s
      else
        let port := leAt rec 6 2
        stampOrWait false 0 f (s.setFrame f { x with port := port, cls := byteAt rec 8 % 16, hpipe := 0,
                                                     epipe := pipeOfPort port })

/-- A DIRECT record that names a wrong or a down port is discarded, and counted as invalid (R108).
(DEDUCED: log entry 22.) -/
def injectOne (r : Nat) (rec : List Byte) (s : State) : State :=
  if bitOf (byteAt rec 1) 0 && !s.injectable (leAt rec 6 2) then s.bump Obj.ringInvalid r
  else injectFrame rec (s.bump Obj.ringRecords r)

/-- INJECT_RECORD (R105, R107, R108): the next record of an inject ring; it waits in the ring while the deck's free cells
are below LANDING_GUARD_CELLS (R352).
(DEDUCED: log entry 22.) -/
def execInjectRecord (k : Fin 4) (s : State) : Host.Outcome State Fault Refusal :=
  let r := 8 + k.val
  .next (if !s.awake ∨ !s.deckUp 0 ∨ s.freeCells 0 < s.get Obj.landingGuardCells 0 then s
    else
      let s := skipPads r 2 (padFuel s r) s
      match s.nextRecord r 2 with
      | .record rec => skipPads r 2 (padFuel s r) (injectOne r rec (consumeRecord r rec.length s))
      | .invalid => skipInvalid r s
      | _ => s)

end Sys2Proof.Machine
end

