-- ==== Sys2Proof/Machine/TableDma.lean ====
section
/-! DEFINITION. Table DMA (03): entry layouts of the tables (R187, R202, R206, R215, R216, R220, R266, R285), the rules of
each table for a written entry (R201, R202, R239, R277), locks (R114, R115, R240, R241), and table requests (R111 to
R116). -/

namespace Sys2Proof.Machine

/-! ### The tables (R112) -/

/-- A table reachable by DMA: instances, entries, entry size in bytes, and whether its entries can be locked. -/
structure DmaTable where
  insts : Nat
  range : Nat
  size : Nat
  lockable : Bool
  deriving DecidableEq, Repr

/-- The table of an identifier (R112). -/
def dmaTable (t : Nat) : Option DmaTable :=
  if t = 0x01 then some { insts := 8, range := 262144, size := 16, lockable := true }
  else if t = 0x02 then some { insts := 8, range := 4096, size := 16, lockable := true }
  else if t = 0x03 then some { insts := 8, range := 524288, size := 16, lockable := false }
  else if t = 0x04 then some { insts := 8, range := 262144, size := 32, lockable := false }
  else if t = 0x05 then some { insts := 1, range := 4096, size := 16, lockable := false }
  else if t = 0x10 then some { insts := 8, range := 16777216, size := 128, lockable := true }
  else if t = 0x11 then some { insts := 8, range := 4194304, size := 64, lockable := true }
  else if t = 0x12 then some { insts := 8, range := 65536, size := 64, lockable := true }
  else if t = 0x20 then some { insts := 4096, range := 65536, size := 8, lockable := false }
  else if t = 0x21 then some { insts := 4096, range := 65536, size := 8, lockable := false }
  else none

/-- An instance of a table exists: a pipe of a lost deck has no tables (R529).
(DEDUCED: log entry 24.) -/
def State.dmaInst (s : State) (t : Nat) (d : DmaTable) (inst : Nat) : Bool :=
  decide (inst < d.insts) && (d.insts != 8 || s.deckUp (deckOfPipe inst)) &&
  (t != 0x21 || s.deckUp (deckOfPipe (inst % 8)))

/-! ### MAC berths (R187, R201) -/

/-- A MAC berth as it reads; a berth without an entry reads as zero but for LOCKED.
(DEDUCED: log entry 26.) -/
def macBytes (b : Option MacBerth) (locked : Bool) : List Byte :=
  match b with
  | none => List.replicate 10 0 ++ leBytes 1 (8 * bit01 locked) ++ List.replicate 5 0
  | some x => leBytes 6 x.mac ++ leBytes 2 x.fid ++ leBytes 2 x.dest ++
    leBytes 1 (128 + 64 * bit01 x.isStatic + 32 * bit01 x.gen + 16 * bit01 x.mcast + 8 * bit01 locked) ++ [0] ++
    leBytes 4 x.lastSeen

/-- The berth that 16 bytes spell, under a GEN. -/
def parseMac (w : List Byte) (gen : Bool) : MacBerth :=
  let f := byteAt w 10
  { mac := leAt w 0 6, fid := leAt w 6 2 % 4096, dest := leAt w 8 2, isStatic := bitOf f 6, gen := gen, mcast := bitOf f 4,
    lastSeen := leAt w 12 4 }

/-- GEN of a written berth by its place, none where the pier is no candidate of the key (R201). -/
def State.writtenGen (s : State) (p i fid mac : Nat) : Option Bool :=
  let among (n : Nat × Nat) : Bool := i / 4 == n.1 || i / 4 == n.2
  if macAnchorage ≤ i then some false
  else if among (macPiers (s.get Obj.fdbSeed p) fid mac) then some (s.macGen p)
  else if s.get Obj.rehashState p ≠ 0 ∧ among (macPiers (s.get Obj.fdbPrevSeed p) fid mac) then some (!s.macGen p)
  else none

/-- A DMA write of a MAC berth (R201): its status.
(DEDUCED: log entry 26.) -/
def writeMac (p i : Nat) (w : List Byte) (s : State) : Nat × State :=
  let x := parseMac w false
  let removed (s : State) : State := match s.mac p i with
    | some b => macRemove p i b s
    | none => s
  if !bitOf (byteAt w 10) 7 then (St.ok, removed s)
  else
    let elsewhere : Bool := match s.findMac p x.fid x.mac with
      | some (j, _) => j != i
      | none => false
    match s.writtenGen p i x.fid x.mac with
    | none => (St.badValue, s)
    | some g =>
      if elsewhere ∨ (!x.mcast ∧ !isEgress x.dest) then (St.badValue, s)
      else
        let b := { x with gen := g }
        let t := learnCount p b true ((removed s).setMac p i (some b))
        let n (s : State) : Nat := s.getS Obj.learnCount (p + 1) b.dest
        (St.ok, if n s < n t then learnReached p b.dest t else t)

/-! ### Routes and services (R202, R204, R206) -/

/-- An entry of a route table that holds nothing. -/
def noRouteEntry : Route := { pfx := 0, vrf := 0, len := 0, valid := false, set := false, result := 0 }

/-- A route entry as it reads; `n` is the size of its prefix in bytes. -/
def routeBytes (n : Nat) (r : Route) : List Byte :=
  leBytes n r.pfx ++ leBytes 2 r.vrf ++ leBytes 1 r.len ++ leBytes 1 (128 * bit01 r.valid + 64 * bit01 r.set) ++
  leBytes 4 r.result ++ List.replicate (if n = 4 then 4 else 8) 0

/-- The route that an entry spells. -/
def parseRoute (n : Nat) (w : List Byte) : Route :=
  { pfx := leAt w 0 n, vrf := leAt w n 2, len := byteAt w (n + 2), valid := bitOf (byteAt w (n + 3)) 7,
    set := bitOf (byteAt w (n + 3)) 6, result := leAt w (n + 4) 4 % 2 ^ 31 }

/-- The route table of a family. -/
def State.routes (s : State) (six : Bool) : NMap Route := if six then s.tables.route6 else s.tables.route4

/-- A DMA write of a route, to the copies of every pipe (R202, R204).
(DEDUCED: log entry 26.) -/
def writeRoute (six : Bool) (i : Nat) (w : List Byte) (s : State) : Nat × State :=
  let n := if six then 16 else 4
  let r := parseRoute n w
  let bits := 8 * n
  if r.valid ∧ (bits < r.len ∨ r.pfx % 2 ^ (bits - r.len) ≠ 0) then (St.badValue, s)
  else
    let o := if six then Obj.routesV6 else Obj.routesV4
    let was := bit01 ((s.routes six).getD i noRouteEntry).valid
    let m := NMap.set noRouteEntry (s.routes six) i r
    let t := if six then { s.tables with route6 := m } else { s.tables with route4 := m }
    (St.ok, ({ s with tables := t }).set o 0 (s.get o - was + bit01 r.valid))

/-- A service entry that holds nothing. -/
def noService : ServiceEntry := { dest := 0, cls := 0, valid := false, mcast := false, metadata := 0 }

/-- A legacy service entry as it reads (R206). -/
def serviceBytes (e : ServiceEntry) : List Byte :=
  leBytes 2 e.dest ++ leBytes 1 e.cls ++ leBytes 1 (128 * bit01 e.valid + 64 * bit01 e.mcast) ++ leBytes 4 e.metadata ++
  List.replicate 8 0

/-- The service entry that 16 bytes spell. -/
def parseService (w : List Byte) : ServiceEntry :=
  { dest := leAt w 0 2, cls := byteAt w 2 % 16, valid := bitOf (byteAt w 3) 7, mcast := bitOf (byteAt w 3) 6,
    metadata := leAt w 4 4 }

/-! ### Flow records (R215, R216, R239) -/

/-- The fore half of a record as 64 bytes (R215).
(DEDUCED: log entry 20.) -/
def foreBytes (r : Fore) : List Byte :=
  leBytes 2 r.vrf ++ leBytes 1 r.proto ++ leBytes 12 r.keyBits ++ leBytes 1 (r.tcpState * 16 + r.telemetry) ++
  leBytes 4 r.hash ++ leBytes 3 r.slot ++
  leBytes 1 (128 + 64 * bit01 r.family6 + 32 * bit01 r.initLow + 16 * bit01 r.pin + 8 * bit01 r.anchored +
    4 * bit01 r.fragKey) ++
  leBytes 4 (r.actions * 2 ^ 24 + r.initZone * 4096 + r.respZone) ++ leBytes 4 r.lastSeen ++ leBytes 4 r.tallyPackets ++
  leBytes 4 r.tallyBytes ++ leBytes 4 r.tallyErrored ++ leBytes 4 r.xlate ++ leBytes 4 r.balance ++ leBytes 6 r.toll ++
  leBytes 6 r.track

/-- A record as 128 bytes: zeros for a slot that holds none (R239).
(DEDUCED: log entry 20.) -/
def State.recordBytes (s : State) (p slot : Nat) : List Byte :=
  match s.fore p slot with
  | some r => foreBytes r ++ s.aft p slot
  | none => List.replicate 128 0

/-- The fields that a write of a record must leave as they are (R239).
(DEDUCED: log entry 25.) -/
def sameRecord (six : Bool) (old w : List Byte) : Bool :=
  old.take 15 == w.take 15 && bytesAt old 16 7 == bytesAt w 16 7 &&
  Nat.land (byteAt old 23) 0x4C == Nat.land (byteAt w 23) 0x4C && (!six || bytesAt old 64 36 == bytesAt w 64 36)

/-- A field that the hardware updates too: the written value, but where it equals the lock's snapshot (R239). -/
def pickField (snap : Option (List Byte)) (read : List Byte → Nat) (w : List Byte) (now : Nat) : Nat :=
  match snap with
  | some b => if read b = read w then now else read w
  | none => read w

/-- XLATE_REF as it is stored: the reserved bits of the layout in use read zero (R16, R253). -/
def xlateStored (acts v : Nat) : Nat :=
  if bitOf acts 7 ∧ bitsOf acts 2 1 = 0 then v / 8 * 8
  else if bitOf acts 7 ∧ bitsOf acts 2 1 = 1 then v / 2 ^ 20 * 2 ^ 20
  else v

/-- BALANCE_REF as it is stored: the reserved bits of the layout in use read zero (R16, R253). -/
def balanceStored (acts v : Nat) : Nat :=
  if bitOf acts 6 then v / 1024 * 1024 else if bitOf acts 3 then v / 16 * 16 else v

/-- A record's fore half after a write of its fields (R239). -/
def writtenFore (r : Fore) (snap : Option (List Byte)) (w : List Byte) : Fore :=
  let pick (o n now : Nat) : Nat := pickField snap (leAt · o n) w now
  let a := leAt w 24 4
  { r with
    tcpState := pickField snap (byteAt · 15 / 16) w r.tcpState, telemetry := byteAt w 15 % 16,
    initLow := bitOf (byteAt w 23) 5, pin := bitOf (byteAt w 23) 4, actions := a / 2 ^ 24,
    initZone := a / 4096 % 4096, respZone := a % 4096, lastSeen := pick 28 4 r.lastSeen,
    tallyPackets := pick 32 4 r.tallyPackets, tallyBytes := pick 36 4 r.tallyBytes,
    tallyErrored := pick 40 4 r.tallyErrored, xlate := xlateStored (a / 2 ^ 24) (leAt w 44 4),
    balance := balanceStored (a / 2 ^ 24) (leAt w 48 4), toll := pick 52 6 r.toll,
    track := pick 58 6 r.track, limits := if pick 58 6 r.track = r.track then r.limits else 3 }

/-- A record's aft half after a write: an IPv6 key stays (R216, R239). -/
def writtenAft (six : Bool) (old w : List Byte) : List Byte :=
  if six then old.take 36 ++ bytesAt w 100 28 else bytesAt w 64 64

/-- A table entry's lock. -/
def State.lockOf (s : State) (t inst i : Nat) : Option TableLock := s.host.locks.find (lockKey t inst i)

/-- Set or clear a lock; LOCKS_HELD counts them. -/
def setLock (t inst i : Nat) (l : Option TableLock) (s : State) : State :=
  let m := match l with
    | some x => s.host.locks.put (lockKey t inst i) x
    | none => s.host.locks.del (lockKey t inst i)
  (s.withHost { s.host with locks := m }).set Obj.locksHeld 0 m.length

/-- Software reclaims a record (R237 from step 2, R239); its lock ends with it.
(DEDUCED: log entry 25.) -/
def reclaimWritten (p slot : Nat) (r : Fore) (s : State) : State :=
  setLock 0x10 p slot none (reclaimNow p slot 4 r (s.bump Obj.reclaimedSoftware p))

/-- The reclaim waits until no lock on the record's place is held (R241).
(DEDUCED: log entry 25.) -/
def awaitReclaim (p slot : Nat) (s : State) : State :=
  if s.flow.reclaims.contains (p, slot) then s
  else s.withFlow { s.flow with reclaims := s.flow.reclaims ++ [(p, slot)] }

/-- The reclaims that waited are made where no lock holds the record's place any more (R241).
(DEDUCED: log entry 25.) -/
def dueReclaims (s : State) : State :=
  s.flow.reclaims.foldl (fun s e => match s.fore e.1 e.2 with
    | none => s
    | some r => if s.placeLocked e.1 e.2 r then awaitReclaim e.1 e.2 s else reclaimWritten e.1 e.2 r s)
    (s.withFlow { s.flow with reclaims := [] })

/-- The record would be read from a poisoned burst (R398): its fore half, or the aft half of an IPv6 key. -/
def State.recordPoisoned (s : State) (p slot : Nat) (r : Fore) : Bool :=
  s.forePoisoned p slot || (r.family6 && s.poison p (aftOffset slot))

/-- A DMA write of a record slot (R239, R242): its status.
(DEDUCED: log entry 25.) -/
def writeSlot (p slot : Nat) (w : List Byte) (s : State) : Nat × State :=
  match s.fore p slot with
  | none => (St.badValue, s)
  | some r =>
    if s.recordPoisoned p slot r ∨ !sameRecord r.family6 (s.recordBytes p slot) w then (St.badValue, s)
    else if s.migrating p slot ∨ s.movingLine p slot then (St.busy, s)
    else if !bitOf (byteAt w 23) 7 then
      (St.ok, if s.placeLocked p slot r then awaitReclaim p slot s else reclaimWritten p slot r s)
    else
      let snap := (s.lockOf 0x10 p slot).map TableLock.snapshot
      let aft := writtenAft r.family6 (s.aft p slot) w
      (St.ok, setAft p slot aft (updateFore p slot (fun r => writtenFore r snap w) s))

/-- A pier as 64 bytes (R220). -/
def State.pierBytes (s : State) (p n : Nat) : List Byte :=
  let locked := 16 * bit01 (s.pierLocked p n)
  (List.range 4).flatMap fun i => match s.pierBerth p n i with
    | some b => leBytes 4 b.hash ++ leBytes 3 b.slot ++
      leBytes 1 (128 + 64 * bit01 b.moving + 32 * bit01 b.family6 + locked) ++ leBytes 2 b.vrf ++ leBytes 1 b.proto ++
      [0] ++ leBytes 4 b.keyTag
    | none => List.replicate 7 0 ++ leBytes 1 locked ++ List.replicate 8 0

/-- An anchorage berth as 64 bytes: the newest fore half of the record anchored there, from its cache line where one
holds it (R239, log entry 20); zeros where it holds no record.
(DEDUCED: log entry 20.) -/
def State.berthBytes (s : State) (p n : Nat) : List Byte :=
  match s.flow.anchorage.find (berthKey p n) with
  | some r => foreBytes (((s.line p r.slot).map (·.fore)).getD r)
  | none => List.replicate 64 0

/-! ### NAT and balancing (R266, R277, R285) -/

/-- A DMA write of a map entry (R277): its status. -/
def writeNat (q i : Nat) (w : List Byte) (s : State) : Nat × State :=
  let c := i / 16
  let r := i % 16
  let was := natState (s.natEntry q c r)
  let v := leNat w
  let fits := decide (natState v = 2 ∧ (was = 0 ∨ was = 2) ∧ !natSlb v ∧ natRefs v = 0) || decide (natState v = 0 ∧ was = 2)
  if r = 0 ∨ s.columnLost q c ∨ !fits then (St.badValue, s) else (St.ok, setNat q c r v s)

/-- The fields of a slot entry: VALID and MEMBER (R285). -/
def slotFields (v : Nat) : Nat := v / 2 ^ 15 % 2 * 2 ^ 15 + v % 1024

/-- Session ID of a table request ring (R61). -/
def ringSession (ring : Nat) : Nat := 0x50000000 + ring

/-- A DMA write of a slot of a service's slot table: its staged copy (R112, R285). -/
def writeBalance (v i ring : Nat) (w : List Byte) (s : State) : Nat × State :=
  let st := s.stageStatus 0x21 v (ringSession ring)
  if st ≠ St.ok then (st, s)
  else
    let s := s.withFlow { s.flow with slbStaged := s.flow.slbStaged.put (v * 65536 + i) (slotFields (leNat w)) }
    (St.ok, noteStaged 0x21 v (ringSession ring) s)

/-! ### Entries (R113) -/

/-- An entry as a read returns it; none where a burst of it is poisoned (R398). -/
def State.readEntry (s : State) (t inst i : Nat) : Option (List Byte) :=
  let bad (p off : Nat) (b : List Byte) : Option (List Byte) := if s.poison p off then none else some b
  if t = 0x01 then some (macBytes (s.mac inst i) (s.macLocked inst i))
  else if t = 0x02 then some (macBytes (s.mac inst (macAnchorage + i)) (s.macLocked inst (macAnchorage + i)))
  else if t = 0x03 then some (routeBytes 4 (s.tables.route4.getD i noRouteEntry))
  else if t = 0x04 then some (routeBytes 16 (s.tables.route6.getD i noRouteEntry))
  else if t = 0x05 then some (serviceBytes (s.tables.service.getD i noService))
  else if t = 0x10 then (if s.slotUsed inst i && s.halfPoisoned inst i then none else some (s.recordBytes inst i))
  else if t = 0x11 then bad inst (pierOffset i) (s.pierBytes inst i)
  else if t = 0x12 then some (s.berthBytes inst i)
  else if t = 0x20 then
    (if s.columnLost inst (i / 16) then none else some (leBytes 8 (s.natEntry inst (i / 16) (i % 16))))
  else bad (inst % 8) (balanceOffset inst i) (leBytes 8 (s.slbSlot inst i))

/-- An access of table DMA to less than a burst. -/
def dmaPart (write : Bool) (p off : Nat) (s : State) : State :=
  askBurst { rr := .dma, write := write, stack := p / 2, burst := p % 2 * 2 ^ 27 + off / 64, n := 1, part := true } s

/-- The bursts of table DMA for an entry of a table in HBM (R111, R388): of a record slot, the fore half where neither the
cache nor the anchorage holds it, and the aft half; of the other tables the entry's burst. -/
def entryBursts (write : Bool) (t inst i : Nat) (s : State) : State :=
  if t = 0x10 then
    let s := if s.slotUsed inst i && (s.line inst i).isNone && (s.berthOf inst i).isNone then
        wantBurst .dma false inst (slotOffset i) s
      else s
    wantBurst .dma write inst (aftOffset i) s
  else if t = 0x11 then wantBurst .dma false inst (pierOffset i) s
  else if t = 0x20 then dmaPart write (i / 16 % 8) (natOffset inst (i / 16) (i % 16)) s
  else if t = 0x21 then
    dmaPart write (inst % 8) (balanceOffset inst i + if write then 0x1E000000 else 0) s
  else s

/-- Write an entry by its table's rules: its status. -/
def writeEntry (t inst i ring : Nat) (w : List Byte) (s : State) : Nat × State :=
  if t = 0x01 then writeMac inst i w s
  else if t = 0x02 then writeMac inst (macAnchorage + i) w s
  else if t = 0x03 then writeRoute false i w s
  else if t = 0x04 then writeRoute true i w s
  else if t = 0x05 then
    (St.ok, { s with tables := { s.tables with service := NMap.set noService s.tables.service i (parseService w) } })
  else if t = 0x10 then writeSlot inst i w s
  else if t = 0x20 then writeNat inst i w s
  else if t = 0x21 then writeBalance inst i ring w s
  else (St.badValue, s)

/-! ### Locks (R114, R240, R241) -/

/-- Locked slots of a pipe. -/
def State.slotLocks (s : State) (p : Nat) : Nat := (s.host.locks.inRange (lockKey 0x10 p 0) (2 ^ 32)).length

/-- Status of a new LOCK on a record slot (R240).
(DEDUCED: log entry 25.) -/
def State.slotLockStatus (s : State) (p slot : Nat) : Nat :=
  match s.fore p slot with
  | none => St.badValue
  | some r =>
    if s.forePoisoned p slot then St.badValue
    else if s.movingLine p slot ∨ s.migrating p slot ∨ 4096 ≤ s.slotLocks p ∨ s.pinFull p (setOf r.hash) then St.busy
    else St.ok

/-- Lock a record slot: its line is loaded, PINNED and written back, and the snapshot taken (R240).
(DEDUCED: log entry 25.) -/
def pinRecord (p slot ring : Nat) (s : State) : State :=
  let s := loadLine p slot s
  let s := writeBack p slot (modLine p slot (fun l => { l with pinned := true }) s)
  setLock 0x10 p slot (some { ring := ring, since := s.time.ticks, snapshot := s.recordBytes p slot }) s

/-- LOCK of an entry by a ring: its status (R114, R240, R241).
(DEDUCED: log entry 25.) -/
def lockEntry (t inst i ring : Nat) (s : State) : Nat × State :=
  match s.lockOf t inst i with
  | some l => if l.ring = ring then (St.ok, setLock t inst i (some { l with since := s.time.ticks }) s) else (St.locked, s)
  | none =>
    if t = 0x10 then
      let st := s.slotLockStatus inst i
      (st, if st = St.ok then pinRecord inst i ring s else s)
    else (St.ok, setLock t inst i (some { ring := ring, since := s.time.ticks }) s)

/-- An entry's lock ends: a record's line becomes unpinned and DIRTY (R240); reclaims that waited for the lock of a place
are made (R241).
(DEDUCED: log entry 25.) -/
def unlockEntry (t inst i : Nat) (s : State) : State :=
  let s := setLock t inst i none s
  if t = 0x10 then modLine inst i (fun l => { l with pinned := false, dirty := true }) s
  else if t = 0x11 ∨ t = 0x12 then dueReclaims s else s

/-- LOCK_BROKEN (R115): a lock is older than LOCK_TIMEOUT_NS. -/
def execLockBroken (table : BitVec 8) (inst : BitVec 16) (index : Word32) (s : State) :
    Host.Outcome State Fault Refusal :=
  let t := table.toNat
  .next (match s.lockOf t inst.toNat index.toNat with
    | none => s
    | some l =>
      if s.elapsed l.since (s.get Obj.lockTimeoutNs) then
        raise Ev.lockBroken l.ring (t * 2 ^ 24 + inst.toNat) index.toNat
          ((unlockEntry t inst.toNat index.toNat s).bump Obj.locksBroken)
      else s)

/-! ### Requests (R111, R113, R116) -/

/-- A table request (R111). -/
structure DmaRequest where
  write : Bool
  lock : Bool
  unlock : Bool
  table : Nat
  inst : Nat
  first : Nat
  count : Nat
  tag : List Byte
  data : List Byte
  deriving DecidableEq, Repr

/-- The request that a record spells.
(DEDUCED: log entry 24.) -/
def parseDma (rec : List Byte) : DmaRequest :=
  let f := byteAt rec 1
  { write := bitOf f 0, lock := bitOf f 1, unlock := bitOf f 2, table := byteAt rec 4, inst := leAt rec 6 2,
    first := leAt rec 8 4, count := leAt rec 12 2, tag := bytesAt rec 16 8, data := rec.drop 32 }

/-- The completion record (R116). -/
def completion (q : DmaRequest) (status done : Nat) (data : List Byte) : List Byte :=
  leBytes 1 6 ++ leBytes 1 status ++ leBytes 2 (32 + data.length) ++ leBytes 1 q.table ++ [0] ++ leBytes 2 q.inst ++
  leBytes 4 q.first ++ leBytes 2 done ++ [0, 0] ++ q.tag ++ List.replicate 8 0 ++ data

/-- The access to one entry by a ring (R113, R114): its status, and what a read returns.
(DEDUCED: log entry 24.) -/
def tryEntry (q : DmaRequest) (ring i : Nat) (w : List Byte) (s : State) : (Nat × List Byte) × State :=
  let (st, s) := if q.lock then lockEntry q.table q.inst i ring s else (St.ok, s)
  let mine := (s.lockOf q.table q.inst i).elim false fun l => l.ring == ring
  let other := (s.lockOf q.table q.inst i).elim false fun l => l.ring != ring
  if st ≠ St.ok then ((st, []), s)
  else if q.write ∧ other then ((St.locked, []), s)
  else if q.unlock ∧ !mine then ((St.badValue, []), s)
  else
    let done (s : State) : State := if q.unlock then unlockEntry q.table q.inst i s else s
    let s := entryBursts q.write q.table q.inst i s
    if q.write then
      let (st, s) := writeEntry q.table q.inst i ring w s
      ((st, []), if st = St.ok then done s else s)
    else match s.readEntry q.table q.inst i with
      | some b => ((St.ok, b), done s)
      | none => ((St.badValue, []), s)

/-- An entry that fails has no effect, its lock included (R113).
(DEDUCED: log entry 24.) -/
def accessEntry (q : DmaRequest) (ring i : Nat) (w : List Byte) (s : State) : (Nat × List Byte) × State :=
  match tryEntry q ring i w s with
  | ((0, b), s) => ((St.ok, b), s)
  | (r, _) => (r, s)

/-- The entries of a request in ascending index, to the first that fails: status, entries done, data read (R113). -/
def accessEntries (q : DmaRequest) (ring size : Nat) : Nat → Nat → List Byte → State → (Nat × Nat × List Byte) × State
  | 0, k, out, s => ((St.ok, k, out), s)
  | fuel + 1, k, out, s =>
    match accessEntry q ring (q.first + k) (bytesAt q.data (k * size) size) s with
    | ((st, b), s) => if st = St.ok then accessEntries q ring size fuel (k + 1) (out ++ b) s else ((st, k, out), s)

/-- Carry out a request of a ring: status, entries done, data read (R111 to R116).
(DEDUCED: log entry 24.) -/
def runDma (q : DmaRequest) (ring : Nat) (s : State) : (Nat × Nat × List Byte) × State :=
  match dmaTable q.table with
  | none => ((St.noObject, 0, []), s)
  | some d =>
    let n := q.count * d.size
    if !s.dmaInst q.table d q.inst then ((St.noInstance, 0, []), s)
    else if q.count = 0 then ((St.ok, 0, []), s)
    else if d.range < q.first + q.count then ((St.range, 0, []), s)
    else if (q.lock ∨ q.unlock) ∧ !d.lockable then ((St.badValue, 0, []), s)
    else if (q.write ∧ (16384 < n ∨ q.data.length < n)) ∨ 65503 < n then ((St.badValue, 0, []), s)
    else accessEntries q ring d.size q.count 0 [] s

/-- Most bytes that the completion of a request can take.
(DEDUCED: log entry 24.) (DEDUCED: log entry 26.) -/
def completionSize (q : DmaRequest) : Nat :=
  if q.write then 32 else Nat.min 65535 (32 + q.count * (dmaTable q.table).elim 0 DmaTable.size)

/-- The completion ring has no room: its stall begins (R104).
(DEDUCED: log entry 26.) -/
def stallCompletion (r n : Nat) (s : State) : State :=
  let (new, s) := ringStall r n s
  if new then raise Ev.ringStall r (s.ringPage r) 0 s else s

/-- One request of a ring: consumed only while its completion has room (R104, R105).
(DEDUCED: log entry 26.) -/
def serveRequest (k : Nat) (rec : List Byte) (s : State) : State :=
  let q := parseDma rec
  let out := 25 + k
  let n := roundUp (completionSize q) 64
  if !s.ringRoom out n then stallCompletion out n s
  else
    let x := s.ringPos (21 + k)
    let s := quayAsk .dma false (s.ringPage (21 + k) * pageSize + x.byte) rec.length s
    let s := (consumeRecord (21 + k) rec.length s).bump Obj.ringRecords (21 + k)
    let ((st, done, data), s) := runDma q (21 + k) s
    skipPads (21 + k) 5 (padFuel s (21 + k)) (produce out (completion q st done data) s).2

/-- TABLE_REQUEST (R105, R111 to R116): the next record of a table request ring.
(DEDUCED: log entry 22.) -/
def execTableRequest (k : Fin 4) (s : State) : Host.Outcome State Fault Refusal :=
  let r := 21 + k.val
  .next (if !s.awake then s
    else
      let s := skipPads r 5 (padFuel s r) s
      match s.nextRecord r 5 with
      | .record rec => serveRequest k.val rec s
      | .invalid => skipInvalid r s
      | _ => s)

end Sys2Proof.Machine
end

