-- ==== Sys2Proof/Machine/Commit.lean ====
section
/-! DEFINITION. Commits of group instances (02: R71 to R83, R581): validation, arming, the switch-over, ABORT and the
staging idle timeout; and the end of a rate-limit second (R86). -/

namespace Sys2Proof.Machine

/-! ### What each group checks and does (R67) -/

/-- Validation of an instance's staged copy (R75): status and address of the first member that fails. -/
def State.validateGroup (s : State) (g inst : Nat) : Failed :=
  match g with
  | 0x01 => validatePortConfig inst s
  | 0x02 => validateLaneMap inst s
  | 0x08 => validateParseBank inst s
  | 0x10 => validateFdb inst s
  | 0x11 => validateLpm s
  | 0x12 => validateSpread inst s
  | 0x18 => validateHome s
  | 0x20 => validateNatPool inst s
  | 0x21 => validateService inst s
  | 0x22 => validateZonePolicy s
  | 0x23 => validateToll inst s
  | 0x30 => validateSlotTable inst s
  | 0x31 => if bitOf (s.staged Obj.mcastPorts inst) 128 then some (St.badValue, addrKey 0x5200 2 inst) else none
  | 0x39 => validateGateList inst s
  | 0x40 => validateHbmMap inst s
  | 0x48 => validateTime s
  | 0x58 => validateSleep s
  | _ => none

/-- What the owner of a group does at its switch-over; `old` is the state before the new values, `tc` the instant.
(DEDUCED: log entry 76.) -/
def applyGroup (g inst tc : Nat) (old s : State) : State :=
  match g with
  | 0x01 => applyPortConfig inst old s
  | 0x02 => applyLaneMap inst old s
  | 0x08 => applyParseBank inst old s
  | 0x09 => applyPunt inst old s
  | 0x10 => applyFdb inst old s
  | 0x18 => applyHome old s
  | 0x21 => applyService inst s
  | 0x23 => applyToll inst s
  | 0x28 => applyExport old s
  | 0x30 => applySlotTable inst s
  | 0x31 => applyMcastGroup inst s
  | 0x38 => applyTmPort inst old s
  | 0x39 => applyGateList inst tc s
  | 0x40 => applyHbmMap old inst s
  | 0x48 => applyTime old s
  | 0x50 => applyFabric old s
  | 0x51 => applyKeys old s
  | _ => s

/-- The written staged values of an instance become active.
(DEDUCED: log entry 76.) -/
def takeStaged (g inst : Nat) (s : State) : State :=
  let values := s.dict.staged.filter fun e => memberKey g inst e.1
  let doms := s.dict.stagedDoms.filter fun e => memberKey g inst e.1
  let s := values.foldl (fun s e => match findRow (e.1 / 2 ^ 24) (e.1 / 65536 % 256) with
    | some o => s.setS o (e.1 / 65536 % 256) (e.1 % 65536) e.2
    | none => s) s
  doms.foldl (fun s e => match findRow (e.1 / 2 ^ 24) (e.1 / 65536 % 256) with
    | some o => s.setDom o (e.1 % 65536) e.2
    | none => s) s

/-! ### COMMIT (R75 to R77, R581) -/

/-- Response of a control object's write that comes later. -/
def lateStatus (tag : BitVec 16) (g inst status : Nat) : Response :=
  { lateResponse tag (addrKey (0x0200 + g) 1 inst) with status := status }

/-- A COMMIT of a session, after checks 1 to 8 of R51: refused or a no-op with a status, or accepted with its response to
come (R75, R77, R82). -/
def beginCommit (p : Path) (tag : BitVec 16) (g inst v : Nat) (s : State) : Option Nat × State :=
  let x := s.group g inst
  if x.state = 0 then (some St.ok, s)
  else if v = 2 ∧ timeDiff x.schedTime s.now80 < s.get Obj.schedMinLeadNs then (some St.range, s)
  else
    let w : Validation := { scheduled := v = 2, path := some p, tag := tag, since := s.time.ticks }
    (none, s.setGroup g inst { x with validating := some w })

/-- Validation refuses the commit: the instance stays STAGED, and its idle time runs afresh (R72, R75, R77); one that the
boot session left behind is aborted (R499). -/
def refuseCommit (g inst status fail : Nat) (v : Validation) (s : State) : State :=
  let x := s.group g inst
  let s := s.setGroup g inst { x with validating := none, lastResult := status, lastFail := fail,
                                      idleFrom := s.time.ticks }
  let s := raise Ev.commitFailed inst (status * 256 + g) fail s
  let s := if x.owner = sessionId .boot ∧ s.boot.config = [] then cleanGroup g inst s else s
  answerOpt v.path (lateStatus v.tag g inst status) s

/-- The commit is armed in one write to the sequencer: PENDING until t_c (R75, R76). -/
def armCommit (g inst : Nat) (v : Validation) (s : State) : State :=
  let x := s.group g inst
  if v.scheduled then
    answerOpt v.path (lateStatus v.tag g inst St.ok)
      (s.setGroup g inst { x with validating := none, state := 2, tc := x.schedTime })
  else
    s.setGroup g inst { x with validating := none, state := 2, tc := time80OfNs (s.nowNs + 2000),
                               replyTo := v.path.map fun p => (p, v.tag) }

/-- COMMIT_VALIDATED (R75, R77): the validation under way ends. -/
def execCommitValidated (g : BitVec 8) (inst : BitVec 16) (s : State) : Host.Outcome State Fault Refusal :=
  let g := g.toNat
  let inst := inst.toNat
  .next (match (s.group g inst).validating with
    | none => s
    | some v => match s.validateGroup g inst with
      | some (status, fail) => refuseCommit g inst status fail v s
      | none =>
        if v.scheduled ∧ timeDiff (s.group g inst).schedTime s.now80 ≤ 2000 then
          refuseCommit g inst St.range 0 v s
        else armCommit g inst v s)

/-! ### The switch-over (R79, R80, R83) -/

/-- The new generation is in force (R79).
(DEDUCED: log entry 76.) -/
def switchOver (g inst : Nat) (s : State) : State :=
  let old := s
  let x := s.group g inst
  let s := takeStaged g inst s
  let n := (x.generation + 1) % 2 ^ 32
  let s := s.setGroup g inst { x with state := 0, owner := 0, generation := n, lastResult := St.ok, commitTime := x.tc,
                                      tc := 0, passed := false, replyTo := none }
  let s := raise Ev.commitDone inst g n s
  let s := dropStaged g inst (applyGroup g inst x.tc old s)
  match x.replyTo with
  | some (p, tag) => answer p (lateStatus tag g inst St.ok) s
  | none => s

/-- A commit is due: device time has reached t_c of the PENDING instance, or a step has passed it (R79, R83). -/
def State.commitDue (s : State) (g inst : Nat) : Bool :=
  (s.group g inst).state == 2 && ((s.group g inst).passed || decide (timeDiff (s.group g inst).tc s.now80 ≤ 0))

/-- The switch-over of one instance, where it is due. -/
def switchIfDue (g inst : Nat) (s : State) : State := if s.commitDue g inst then switchOver g inst s else s

/-- COMMIT_SWITCHOVER (R79): the switch-over of a PENDING instance whose t_c has come.
(DEDUCED: log entry 76.) -/
def execCommitSwitchover (g : BitVec 8) (inst : BitVec 16) (s : State) : Host.Outcome State Fault Refusal :=
  .next (switchIfDue g.toNat inst.toNat s)

/-- The commits that fall due at a tick switch over before anything else that happens at it (R580). -/
def switchDue (s : State) : State := s.listedGroups.foldl (fun s g => switchIfDue g.1 g.2 s) s

/-! ### ABORT and expiry (R72, R73, R78, R581) -/

/-- A write to ABORT: its status (R68, R73, R78, R581); t_c − 2,000 ns is the last instant at which it disarms a commit.
A mode 1 commit that it disarms is answered OK (log entry 41).
(DEDUCED: log entry 13.) (DEDUCED: log entry 41.) -/
def abortGroup (g inst v : Nat) (s : State) : Nat × State :=
  let x := s.group g inst
  if v = 0 then (St.ok, s)
  else if x.validating.isSome then (St.busy, s)
  else if x.state = 0 then (St.ok, s)
  else if x.state = 2 ∧ timeDiff x.tc s.now80 < 2000 then (St.busy, s)
  else
    let s := cleanGroup g inst s
    (St.ok, match x.replyTo with
      | some (p, tag) => answer p (lateStatus tag g inst St.ok) s
      | none => s)

/-- STAGE_EXPIRED (R72, R56). -/
def execStageExpired (g : BitVec 8) (inst : BitVec 16) (s : State) : Host.Outcome State Fault Refusal :=
  let x := s.group g.toNat inst.toNat
  let limit := s.get Obj.stageIdleTimeoutNs
  .next (if x.state = 1 ∧ x.validating.isNone ∧ limit ≠ 0 ∧ s.elapsed x.idleFrom limit then
      raise Ev.stageExpired inst.toNat g.toNat x.owner (cleanGroup g.toNat inst.toNat s)
    else s)

/-! ### The end of a rate-limit second (R86) -/

/-- Report the suppressed events of one second: once for each code but EVENTS_SUPPRESSED's own, whose suppressed
raisings are counted and not reported (R86). -/
def reportSuppressed (s : State) (m : NMap Nat) : State :=
  (m.filter fun e => e.1 != Ev.eventsSuppressed).foldl (fun s e => raise Ev.eventsSuppressed 0 e.1 e.2 s) s

/-- EVENTS_SUPPRESSED (R86): every second that has ended is reported, the oldest first. The raisings count against their
own RATE_LIMIT in the second that has begun (log entry 82).
(DESIGN CHOICE: log entry 82.) -/
def execEventsSuppressed (s : State) : Host.Outcome State Fault Refusal :=
  let ended := s.events.suppressed.filter fun e => decide (e.1 < s.second)
  .next ((ended.map (·.2)).foldl reportSuppressed
    (s.withEvents { s.events with suppressed := s.events.suppressed.filter fun e => !decide (e.1 < s.second) }))

end Sys2Proof.Machine
end

