-- ==== Sys2Proof/Machine/Count.lean ====
section
/-! DEFINITION. Counters and perturbation (18): snapshots, chained pairs, port bandwidth, and the lock of the test
objects. -/

namespace Sys2Proof.Machine

/-! ### Snapshots and chained pairs (R536 to R540) -/

/-- COUNT80 of an even code on a deck (R537). -/
def State.count80 (s : State) (sub code : Nat) : Nat :=
  s.getS Obj.eventCount sub code + s.getS Obj.eventCount sub (code + 1) * 2 ^ 40

/-- The five slot counters of a pipe, in the order of SLOT_SET (R540). -/
def State.slotCounters (s : State) (p : Nat) : List Nat :=
  [s.get Obj.slotsRetired p, s.get Obj.slotsWasted p, s.get Obj.slotsFront p, s.get Obj.slotsBack p,
   s.get Obj.slotsTotal p]

/-- SLOT_SET of a pipe (R540). -/
def State.slotSet (s : State) (p : Nat) : Nat := leNat ((s.slotCounters p).flatMap (leBytes 8))

/-- Every event counter is copied, and the five slot counters of every pipe (R538, R540).
(DEDUCED: log entry 19.) (DEDUCED: log entry 66.) -/
def snapshotCopies (s : State) : State :=
  let counts (dd : Nat) : List (Nat × Nat × Nat) :=
    (s.dict.active.inRange (addrKey Obj.eventCount.index dd 0) 65536).map fun e => (dd, e.1 % 65536, e.2)
  let s := s.withDict { s.dict with active := s.dict.active.delRange (addrKey Obj.snapCount.index 0 0) (2 ^ 24) }
  let s := ((List.range 4).flatMap fun d => counts (d + 1)).foldl (fun s (e : Nat × Nat × Nat) =>
    s.setS Obj.snapCount e.1 e.2.1 e.2.2) s
  (List.range 8).foldl (fun s p =>
    (List.range 5).foldl (fun s i => s.setS Obj.snapSlots (i + 1) p ((s.slotCounters p).getD i 0)) s) s

/-- A write of 1 to SNAPSHOT (R538): the copies are those of the next tick.
(DEDUCED: log entry 66.) -/
def writeSnapshot (s : State) : State :=
  let s := snapshotCopies s
  let s := s.set Obj.snapshotTime 0 (time80OfNs (s.nextTime / nsUnit).toNat)
  s.bump Obj.snapshotGeneration

/-- A write of CHAIN (R536): either way the odd counter is set to 0. -/
def writeChain (sub code v : Nat) (s : State) : State :=
  (s.setS Obj.chain sub code v).setS Obj.eventCount sub (code + 1) 0

/-! ### Port bandwidth (R541, R542) -/

/-- `s` with other counts. -/
def State.withCount (s : State) (c : Count) : State := { s with count := c }

/-- Rate in b/s of so many bytes in `n` windows of `w` ns (R542). -/
def bitRate (bytes n w : Nat) : Nat := 8 * bytes * 1000000000 / (n * w)

/-- The mean and the peak of the completed windows. -/
def windowRates (l : List Nat) (n w : Nat) : Nat × Nat :=
  (bitRate (l.foldl (· + ·) 0) n w, bitRate (l.foldl Nat.max 0) 1 w)

/-- Set the rates of a direction of a port: `tx` 0 received, 1 transmitted. -/
def setRates (port tx : Nat) (r : Nat × Nat) (s : State) : State :=
  if tx = 0 then (s.set Obj.rxMeanBps port r.1).set Obj.rxPeakBps port r.2
  else (s.set Obj.txMeanBps port r.1).set Obj.txPeakBps port r.2

/-- Windows are counted afresh, under new lengths (R542). -/
def freshWindows (s : State) : State :=
  let s := s.withCount { s.count with windowNs := s.get Obj.bwWindowNs, windows := s.get Obj.bwMeanWindows,
                                      history := [], completed := 0, bytes := [] }
  (List.range 256).foldl (fun s k => setRates (k / 2) (k % 2) (0, 0) s) s

/-- A window ends: its bytes join the last N, and the rates follow (R542). -/
def endWindow (s : State) : State :=
  let c := s.count
  let n := if c.completed + 1 < c.windows then c.completed + 1 else c.windows
  let hist : NMap (List Nat) := (List.range 256).filterMap fun k =>
    let l := (c.bytes.getD k 0 :: c.history.getD k []).take n
    if l.all (· == 0) then none else some (k, l)
  let s := s.withCount { c with history := hist, completed := n, bytes := [] }
  (List.range 256).foldl (fun s k => setRates (k / 2) (k % 2) (windowRates (hist.getD k []) n c.windowNs) s) s

/-- BW_WINDOW_END (R542): windows follow one another by the residence counter. -/
def execBwWindowEnd (s : State) : Host.Outcome State Fault Refusal :=
  let c := s.count
  .next (if s.elapsed c.windowAt c.windowNs then
      let s := s.withCount { c with windowAt := c.windowAt + ticksOfNs c.windowNs }
      if s.get Obj.bwWindowNs ≠ c.windowNs ∨ s.get Obj.bwMeanWindows ≠ c.windows then freshWindows s else endWindow s
    else s)

/-! ### The lock of the test objects (R543 to R545) -/

/-- The perturbation objects that a lock returns to 0: those whose range holds 0.
(DEDUCED: log entry 66.) (DESIGN CHOICE: log entry 77.) -/
def perturbObjects : List ObjRow :=
  [Obj.perturbLinkDelayNs, Obj.perturbLinkJitterNs, Obj.perturbTmHoldNs, Obj.perturbHbmPadNs, Obj.perturbGangwayJitter]

/-- Instances of an object that do not hold their default. -/
def State.listed (s : State) (o : ObjRow) : List Nat :=
  (s.dict.active.inRange (addrKey o.index o.sub 0) 65536).map fun e => e.1 % 65536

/-- TEST_ACTIVE (R545). -/
def State.testActive (s : State) : Bool := perturbObjects.any fun o => !(s.listed o).isEmpty

/-- The device locks perturbation again, for a cause (R544).
(DEDUCED: log entry 66.) -/
def lockTest (cause : Nat) (s : State) : State :=
  let l := perturbObjects.flatMap fun o => (s.listed o).map fun i => (o, i)
  let s := l.foldl (fun s (e : ObjRow × Nat) => s.set e.1 e.2 0) s
  let s := (s.withCount { s.count with challenge := none }).set Obj.testState 0 0
  raise Ev.testLocked 0 cause l.length s

/-- A read of TEST_CHALLENGE (R543): a value other than 0, drawn afresh. -/
def drawChallenge (session : Nat) (s : State) : Nat × State :=
  let (v, s) := s.draw
  let c := v % (2 ^ 32 - 1) + 1
  (c, (s.withCount { s.count with challenge := some (c, session, s.time.ticks) }).set Obj.testChallenge 0 c)

/-- A write of TEST_UNLOCK (R543, R544): its status. -/
def writeUnlock (session v : Nat) (s : State) : Nat × State :=
  let valid := match s.count.challenge with
    | some (c, owner, t) => c == v && owner == session && !s.elapsed t 10000000001
    | none => false
  if v = 0 ∧ s.get Obj.testState = 1 ∧ s.count.owner = session then (St.ok, lockTest 1 s)
  else if valid then
    let s := s.withCount { s.count with challenge := none, owner := session, unlockedAt := s.time.ticks }
    (St.ok, raise Ev.testUnlocked 0 session (s.get Obj.testMaxS) (s.set Obj.testState 0 1))
  else
    let (c, s) := s.draw
    (St.badValue, (s.withCount { s.count with challenge := none }).set Obj.testChallenge 0 (c % (2 ^ 32 - 1) + 1))

/-- The owner of the unlock is at VENDOR (R54). -/
def State.ownerAtVendor (s : State) : Bool := s.dict.vendor.any fun x => x.1 == s.count.owner

/-- TEST_LOCKED (R544).
(DEDUCED: log entry 66.) -/
def execTestLocked (s : State) : Host.Outcome State Fault Refusal :=
  .next (if s.get Obj.testState ≠ 1 then s
    else if !s.ownerAtVendor then lockTest 2 s
    else if s.elapsed s.count.unlockedAt (s.get Obj.testMaxS * 1000000000) then lockTest 3 s
    else s)

/-- A perturbation object may be written: unlocked, and by the owner (R543). -/
def State.mayPerturb (s : State) (session : Nat) : Bool := s.get Obj.testState == 1 && s.count.owner == session

end Sys2Proof.Machine
end

