-- ==== Sys2Proof/Machine/Power.lean ====
section
/-! DEFINITION. Supplies, junction sensors, and the test port (19: R560, R565, R568 to R571). -/

namespace Sys2Proof.Machine

/-- `s` with another power state. -/
def State.withPower (s : State) (p : Power) : State := { s with power := p }

/-! ### Supplies (R561, R565) -/

/-- The integrated regulators are off: only the night watch is powered, until the next boot start; after a shutdown it
holds THERM_TRIP_N low until then (R565, R570). -/
def powerOff (s : State) : State :=
  let hot := s.power.shutdown
  let s := resetDevice s
  s.withPower { s.power with on := false, thermTrip := hot, shutdown := hot }

/-- A power loss is long or large enough (R565). -/
def lossMet : PowerCause → Bool
  | .pwrGoodLow ns => decide (1000 ≤ ns)
  | .vinCore mv ns => (decide (mv < 1700) || decide (1900 < mv)) && decide (2000 ≤ ns)

/-- POWER_LOSS (R565).
(DEDUCED: log entry 81.) -/
def execPowerLoss (cause : PowerCause) (s : State) : Host.Outcome State Fault Refusal :=
  .next (if lossMet cause then powerOff s else s)

/-- Limits of a rail in mV (R561): 1 VIN_CORE, 2 VDDA_SD09, 3 VDDA_SD12, 4 VDD_AON, 5 VDDIO by its level.
(DEDUCED: log entry 81.) -/
def State.railLimits (s : State) (rail : Nat) : Nat × Nat :=
  match rail with
  | 1 => (1746, 1854)
  | 2 => (873, 927)
  | 3 => (1164, 1236)
  | 4 => (1710, 1890)
  | _ => if s.get Obj.vddioLevel = 0 then (1710, 1890) else (3135, 3465)

/-- The reading of a rail. -/
def railObj (rail : Nat) : ObjRow :=
  match rail with
  | 1 => Obj.vinCoreMv | 2 => Obj.vddaSd09Mv | 3 => Obj.vddaSd12Mv | 4 => Obj.vddAonMv | _ => Obj.vddioMv

/-- VDDIO is removed: a flash operation that runs waits (R577).
(DEDUCED: log entry 70.) -/
def loseVddio (s : State) : State :=
  (s.withFe { s.host.fe with waiting := s.host.fe.status == 1 }).withPower { s.power with vddio := false }

/-- An excursion of a rail begins, and is counted once (R565, R571).
(DEDUCED: log entry 70.) -/
def beginExcursion (rail mv : Nat) (s : State) : State :=
  let s := s.withPower { s.power with excursion := rail :: s.power.excursion }
  raise Ev.supplyOutOfRange 0 rail mv (setPinCause 4 (s.bump Obj.supplyFaults))

/-- SUPPLY_OUT_OF_RANGE (R565, R577): the reading of a rail; back within its limits, the excursion is over. VIN_CORE
beyond its hard limits is a matter of POWER_LOSS.
(DEDUCED: log entry 70.) (DEDUCED: log entry 81.) -/
def execSupplyOutOfRange (rail : Fin 6) (millivolt : Nat) (s : State) : Host.Outcome State Fault Refusal :=
  let r := rail.val
  .next (if r = 0 then s
    else
      let (lo, hi) := s.railLimits r
      let s := s.set (railObj r) 0 (capAt 65535 millivolt)
      if lo ≤ millivolt ∧ millivolt ≤ hi then
        s.withPower { s.power with excursion := s.power.excursion.filter (· != r) }
      else if r = 1 ∧ (millivolt < 1700 ∨ 1900 < millivolt) then s
      else
        let s := if s.power.excursion.contains r then s else beginExcursion r millivolt s
        if r = 5 ∧ millivolt < lo then loseVddio s else s)

/-! ### Junction sensors (R568 to R570) -/

/-- The reading of a sensor: what it senses, with THERM_OFFSET_MC (R501, R568).
(DEDUCED: log entry 70.) -/
def State.sensorReading (s : State) (k : Nat) (raw : Int) : Int := raw + toSigned 32 (s.keelValue Obj.thermOffsetMc k)

/-- The hottest of some readings: its sensor, and the reading. -/
def hottest : List (Nat × Int) → Nat × Int
  | [] => (0, 0)
  | [x] => x
  | x :: l => let y := hottest l; if y.2 ≤ x.2 then x else y

/-- THERMAL_STATE follows the hottest reading (R569).
(DEDUCED: log entry 70.) -/
def thermalStep (sensor : Nat) (mc : Int) (s : State) : State :=
  let degrees (o : ObjRow) : Int := toSigned 32 (s.get o) * 1000
  let warn := degrees Obj.thermalWarnC
  let trip := degrees Obj.thermalTripC
  let hyst : Int := s.get Obj.thermalHystC * 1000
  let arg := ofSigned 32 mc
  let enterWarn (s : State) : State :=
    let s := (s.set Obj.thermalState 0 1).withPower { s.power with hotSince := s.time.ticks }
    raise Ev.thermalWarning sensor arg (ofSigned 64 (toSigned 32 (s.get Obj.thermalWarnC))) (setPinCause 2 s)
  let enterTrip (s : State) : State :=
    let s := (s.set Obj.thermalState 0 2).withPower { s.power with thermTrip := true }
    raise Ev.thermalTrip sensor arg (ofSigned 64 (toSigned 32 (s.get Obj.thermalTripC))) (setPinCause 3 s)
  let leave (s : State) : State :=
    raise Ev.thermalNormal 0 arg (s.sinceNs s.power.hotSince) (s.set Obj.thermalState 0 0)
  let leaveTrip (s : State) : State := (s.set Obj.thermalState 0 1).withPower { s.power with thermTrip := false }
  match s.get Obj.thermalState with
  | 0 => if trip ≤ mc then enterTrip (enterWarn s) else if warn ≤ mc then enterWarn s else s
  | 1 => if trip ≤ mc then enterTrip s else if mc < warn - hyst then leave s else s
  | _ =>
    if trip - hyst ≤ mc then s
    else if mc < warn - hyst then leave (leaveTrip s)
    else leaveTrip s

/-- JUNCTION_TEMP_READ (R568, R569): what the 16 sensors sense, in m°C. -/
def execJunctionTempRead (milliC : List Int) (s : State) : Host.Outcome State Fault Refusal :=
  let l := (List.range 16).map fun k => (k, s.sensorReading k (milliC.getD k 0))
  let top := hottest l
  let s := l.foldl (fun s (e : Nat × Int) => s.set Obj.junctionTempMc e.1 (ofSigned 32 e.2)) s
  .next (thermalStep top.1 top.2 (s.set Obj.maxJunctionTempMc 0 (ofSigned 32 top.2)))

/-- THERMAL_SHUTDOWN (R570): the comparator switches the regulators off, and THERM_TRIP_N is held low until the next
boot start. -/
def execThermalShutdown (s : State) : Host.Outcome State Fault Refusal :=
  let s := powerOff s
  .next (s.withPower { s.power with thermTrip := true, shutdown := true })

/-! ### The test port (R560) -/

/-- The TAP lets go of the pins that it held. -/
def releasePins (s : State) : State :=
  { s with links := (s.links.map fun e => (e.1, { e.2 with jtag := false })).filter fun e => e.2 != {} }

/-- The logical lane that a physical lane serves: balls carry physical lane numbers (R122, R552). -/
def State.logicalLane (s : State) (lane : Nat) : Option Nat :=
  ((List.range 16).map (lane / 16 * 16 + ·)).find? fun l => s.get Obj.laneSource l == lane % 16

/-- The pins of some physical lanes follow the TAP: the links on them are in fault, and go down under R127. -/
def holdPins (lanes : List Nat) (s : State) : State :=
  ((lanes.filterMap s.logicalLane).filterMap s.portOfLane).eraseDups.foldl (fun s p =>
    beginFault p 1 (s.setLink p { s.link p with jtag := true })) s

/-- The TAP takes an instruction; without VDDIO it is unusable (R577). -/
def tapInstruction (code : Nat) (lanes : List Nat) (data : Nat) (s : State) : State :=
  if !s.power.vddio then s
  else
    let s := s.withPower { s.power with jtag := code, jtagLanes := lanes, jtagData := BitVec.ofNat 32 data }
    holdPins lanes (releasePins s)

/-- BYPASS (R560). -/
def execBypass (s : State) : Host.Outcome State Fault Refusal := .next (tapInstruction 0 [] 0 s)

/-- IDCODE (R560): 0x1648_0A1B, whose [31:28] is 0x1 for step B1. -/
def execIdcode (s : State) : Host.Outcome State Fault Refusal := .next (tapInstruction 1 [] 0x16480A1B s)

/-- SAMPLE/PRELOAD (R560): what the boundary register samples is the pins', drawn free.
(DEDUCED: log entry 70.) -/
def execSamplePreload (s : State) : Host.Outcome State Fault Refusal :=
  let (v, s) := s.draw
  .next (tapInstruction 2 [] v s)

/-- EXTEST (R560). -/
def execExtest (lanes : List (Fin 128)) (s : State) : Host.Outcome State Fault Refusal :=
  .next (tapInstruction 3 (lanes.map (·.val)) 0 s)

/-- EXTEST_PULSE (R560). -/
def execExtestPulse (lanes : List (Fin 128)) (s : State) : Host.Outcome State Fault Refusal :=
  .next (tapInstruction 4 (lanes.map (·.val)) 0 s)

/-- EXTEST_TRAIN (R560). -/
def execExtestTrain (lanes : List (Fin 128)) (s : State) : Host.Outcome State Fault Refusal :=
  .next (tapInstruction 5 (lanes.map (·.val)) 0 s)

/-- CLAMP (R560). -/
def execClamp (lanes : List (Fin 128)) (s : State) : Host.Outcome State Fault Refusal :=
  .next (tapInstruction 6 (lanes.map (·.val)) 0 s)

/-- HIGHZ (R560). -/
def execHighz (lanes : List (Fin 128)) (s : State) : Host.Outcome State Fault Refusal :=
  .next (tapInstruction 7 (lanes.map (·.val)) 0 s)

end Sys2Proof.Machine
end

