-- ==== Sys2Proof/Machine/Dictionary.lean ====
section
/-! DEFINITION. The object dictionary (02): which objects a request reaches (R47, R67, R68), the checks of R51, reads and
writes, DESCRIBE and segments (R58), and the service of the four paths (R60 to R65, R493, R582). -/

namespace Sys2Proof.Machine

/-! ### Objects by address (R47, R67, R68) -/

/-- A control object of a group with `n` instances (R68). -/
def controlRow (g n sub : Nat) : Option ObjRow :=
  let o (ty : Ty) (right : Right) (level : Nat) : Option ObjRow :=
    some { index := 0x0200 + g, sub := sub, kind := .upto n, ty := ty, right := right, level := level }
  match sub with
  | 0 => some { index := 0x0200 + g, kind := .upto n, ty := .u8, right := .ro, level := 0, dflt := fun _ _ => 9 }
  | 1 => some { index := 0x0200 + g, sub := 1, kind := .upto n, ty := .u32, right := .wo, level := 2,
                ok := fun v => v == 1 || v == 2 }
  | 2 => o .time80 .rw 2
  | 3 => o .enum .ro 0
  | 4 => o .bool .wo 2
  | 5 => o .u32 .ro 0
  | 6 => o .u8 .ro 0
  | 7 => o .u64 .ro 0
  | 8 => o .time80 .ro 0
  | 9 => o .u32 .ro 0
  | _ => none

/-- The index is a control index of a group. -/
def controlIndex (index : Nat) : Bool :=
  decide (0x0200 < index) && decide (index < 0x0300) && (groupSize (index - 0x0200)).isSome

/-- The row of any address: an object's, a control object's, or the subindex 0x00 of an index with members (R47). -/
def rowOf (index sub : Nat) : Option ObjRow :=
  if controlIndex index then (groupSize (index - 0x0200)).bind fun n => controlRow (index - 0x0200) n sub
  else match findRow index sub with
    | some o => some o
    | none =>
      if sub = 0 then
        match highestSub index, anyRow index with
        | some h, some o => some { index := index, kind := o.kind, ty := .u8, right := .ro, level := 0,
                                   dflt := fun _ _ => h }
        | _, _ => none
      else none

/-- The counters of a lost deck do not exist (R534).
(DEDUCED: log entry 19.) -/
def State.counterLost (s : State) (index sub : Nat) : Bool :=
  decide (0x8800 ≤ index ∧ index ≤ 0x8803) && decide (1 ≤ sub ∧ sub ≤ 4) && !s.deckUp (sub - 1)

/-- Checks 1 and 2 of R51.
(DEDUCED: log entry 16.) -/
def State.object (s : State) (q : Request) : Except Nat ObjRow :=
  match rowOf q.index.toNat q.sub.toNat with
  | none => .error St.noObject
  | some o =>
    if !o.kind.has q.inst.toNat || s.counterLost q.index.toNat q.sub.toNat then .error St.noInstance else .ok o

/-! ### Reads -/

/-- DEVICE_STATE (R53): STARTING until stage 9, then DEGRADED while a fault of its list holds.
(DEDUCED: log entry 16.) -/
def State.deviceState (s : State) : Nat :=
  if s.get Obj.bootStage < 9 then 0
  else if (List.range 4).any (fun d => !s.deckUp d || !s.pilotUp d) || (List.range 64).any (fun c => s.get Obj.clusterState c != 0) ||
      (List.range 128).any (fun c => s.get Obj.pcState c != 0) ||
      (List.range 12).any (fun d => s.get Obj.directionState d == 2) then 2
  else 1

/-- Default of a transmit equaliser setting by the rate of the lane's port (R505).
(DEDUCED: log entry 16.) -/
def State.txDefault (s : State) (sub lane : Nat) : Nat :=
  let mode := match s.portOfLane lane with
    | some p => s.get Obj.lanePortMode p
    | none => 0x13
  let row : List Int :=
    if mode = 0x12 ∨ mode = 0x21 ∨ mode = 0x31 then [-2, 52, -6]
    else if mode = 0x10 ∨ mode = 0x11 then [0, 56, -4] else [-4, 48, -8]
  ofSigned 32 (row.getD (sub - 1) 0)

/-- Value of a control object (R68). -/
def State.controlValue (s : State) (g sub inst : Nat) : Nat :=
  let x := s.group g inst
  match sub with
  | 0 => 9 | 2 => x.schedTime | 3 => x.state | 5 => x.generation | 6 => x.lastResult | 7 => x.lastFail
  | 8 => x.commitTime | 9 => x.owner | _ => 0

/-- PCIE_LINK_SPEED in GT/s (R90, R102); for 2.5 GT/s the U8 is left open.
(DESIGN CHOICE: log entry 4.) -/
def State.linkSpeed (s : State) : Nat :=
  if s.host.linkRate = 1 then Config.slowestLink.toNat else [0, 0, 5, 8, 16, 32].getD s.host.linkRate 0

/-- Value of an object that is no stored word but follows from the rest of the state; none for every other object.
(DESIGN CHOICE: log entry 4.) (DEDUCED: log entry 16.) (DESIGN CHOICE: log entry 17.) -/
def State.computed (s : State) (p : Path) (index sub inst : Nat) : Option Nat :=
  if controlIndex index then some (s.controlValue (index - 0x0200) sub inst)
  else match index, sub with
    | 0x0010, _ => some s.deviceState
    | 0x0011, _ => some (s.levelOf p index false)
    | 0x1200, _ => some (s.linkState inst)
    | 0x1207, _ => some (s.eeeTwRx inst)
    | 0x1300, 0x10 => some (s.get Obj.lpiTxNs inst + (match (s.link inst).lpiSince with
        | some t => s.sinceNs t
        | none => 0))
    | 0x1800, _ => some s.now80
    | 0x1801, _ => some (s.time.now % nsUnit / 65536)
    | 0x2112, _ => some (s.cycleLimit inst)
    | 0x3A31, _ => some s.flowsTotal
    | 0x5830, _ => some (s.freeCells inst)
    | 0x5852, _ => some (creditBytes (s.queueCredit inst))
    | 0x5853, _ => some (creditBytes (s.portCredit inst))
    | 0x6840, 1 => some 0
    | 0x7000, 1 => some s.linkSpeed
    | 0x7000, 2 => some s.host.linkLanes
    | 0x7001, _ => some (bit01 (s.owned inst))
    | 0x7814, _ => some s.moorDefer
    | 0x8803, 0 => none
    | 0x6045, _ => some (s.copyRows inst)
    | 0x8803, _ => some (s.count80 sub inst)
    | 0x8901, _ => some (s.slotSet inst)
    | 0x9804, _ => some (bit01 s.testActive)
    | 0x9200, 0 => none
    | 0x9200, _ =>
      let v := s.dict.active.getD (addrKey index sub inst) unwritten
      some (if v = unwritten then s.txDefault sub inst else v)
    | _, 3 => if (keelRow index).isSome then s.keelOrigin index inst else none
    | _, _ => none

/-- A read that changes the device or returns what the spec leaves open: CAPTURE_READ (R430), TEST_CHALLENGE (R543), and
the measured currents and power (R578). -/
def readAside (p : Path) (index sub inst : Nat) (s : State) : Option (Nat × State) :=
  match index, sub with
  | 0x1851, _ => match readCapture inst s with
    | (bs, s) => some (leNat bs, s)
  | 0x7A41, 0 => none
  | 0x7A41, _ => some s.draw
  | 0x7A42, _ => some s.draw
  | 0x9801, _ => some (drawChallenge (sessionId p) s)
  | _, _ => none

/-- The value that a READ returns (R49, R57, R59).
(DESIGN CHOICE: log entry 3.) (DESIGN CHOICE: log entry 4.) -/
def readValue (p : Path) (q : Request) (o : ObjRow) (s : State) : Nat × State :=
  let index := q.index.toNat
  let sub := q.sub.toNat
  let inst := q.inst.toNat
  match readAside p index sub inst s with
  | some r => r
  | none => match s.computed p index sub inst with
    | some v => (v, s)
    | none => (if q.staged && o.right == .rwg then s.stagedS o sub inst else s.getS o sub inst, s)

/-- The bytes that a READ_SEG reads of (R58). -/
def State.domainOf (s : State) (q : Request) (o : ObjRow) : List Byte :=
  if q.staged && o.right == .rwg then s.stagedDom o q.inst.toNat else s.getDom o q.inst.toNat

/-- READ_SEG (R58): from OFFSET, at most LENGTH bytes, 0 for 240.
(DEDUCED: log entry 9.) -/
def segmentRead (q : Request) (d : List Byte) : Response :=
  let n := if q.length = 0 then 240 else q.length.toNat
  respond q St.ok ((d.drop q.offset.toNat).take n) d.length

/-- The 12 bytes of DESCRIBE (R58). -/
def describeBytes (o : ObjRow) : List Byte :=
  leBytes 1 o.ty.code ++ leBytes 1 o.right.code ++ leBytes 1 o.level ++ leBytes 1 o.group ++ leBytes 4 o.ty.size ++
  leBytes 2 (o.kind.count - 1) ++ [0, 0]

/-! ### Checks 5 to 9 of a write (R51) -/

/-- A page-range object whose load gives all its statuses itself (R118, R173, R519). -/
def loadIndex (index : Nat) : Bool := index == 0x2130 || index == 0x8010

/-- A perturbation object (R545). -/
def perturbIndex (index : Nat) : Bool :=
  index == 0x9810 || index == 0x9811 || index == 0x9820 || index == 0x9821 || index == 0x9830 || index == 0x9840 ||
  index == 0x9850

/-- Check 5: locked by the test lock (R543), or a calibration value at the end of its writes (R503). -/
def State.lockedFor (s : State) (p : Path) (o : ObjRow) (inst : Nat) : Bool :=
  if perturbIndex o.index then !s.mayPerturb (sessionId p)
  else match keelRow o.index with
    | some (_, writes, _) => decide (10000 ≤ s.get writes inst + s.keelWaiting (addrKey o.index 1 inst))
    | none => false

/-- Check 6: writes during start (R493), a second advance of the rollback counter, and a proxy slot in use (R459). -/
def State.busyFor (s : State) (p : Path) (o : ObjRow) (inst : Nat) : Bool :=
  (decide (s.get Obj.bootStage < 9) && p != .boot) ||
  (o.index == 0x9012 && s.boot.rollback.isSome) ||
  (o.index == 0x6870 && s.get Obj.acpProxyState inst == 1)

/-- Checks 6 and 7 for a staged write, and for COMMIT and SCHED_TIME (R70, R78, R581). -/
def State.stagingFor (s : State) (p : Path) (o : ObjRow) (sub inst : Nat) : Nat :=
  if o.right = .rwg then s.stageStatus o.group (groupInstOf o.group o.kind inst) (sessionId p)
  else if controlIndex o.index ∧ (sub = 1 ∨ sub = 2) then s.stageStatus (o.index - 0x0200) inst (sessionId p)
  else St.ok

/-- Check 9 beyond reserved fields: a value that does not agree with the object's other active values (R102, R372, R388,
R578).
(DEDUCED: log entry 11.) -/
def State.disagrees (s : State) (o : ObjRow) (sub inst v : Nat) : Bool :=
  match o.index with
  | 0x7010 =>
    if sub = 1 then s.ringPages inst != 0
    else sub == 2 && decide (65536 < s.ringFirst inst + v)
  | 0x5812 => decide (v < s.getS Obj.pfcXonCells sub inst)
  | 0x5813 => decide (s.getS Obj.pfcXoffCells sub inst < v)
  | 0x6013 => v != 0 && decide (v ≤ s.get Obj.panicRelease inst)
  | 0x6014 => s.get Obj.panicLevel inst != 0 && decide (s.get Obj.panicLevel inst ≤ v)
  | 0x7A03 => decide (toSigned 32 v ≤ toSigned 32 (s.get Obj.thermalWarnC))
  | _ => false

/-- Checks 5 to 9 of R51 for a WRITE of a value; 0 where they pass. A load refused here, before its own checks, leaves its
pages device-owned (log entry 84).
(DEDUCED: log entry 11. DESIGN CHOICE: log entry 84.) -/
def State.writeCheck (s : State) (p : Path) (o : ObjRow) (sub inst v : Nat) : Nat :=
  if s.lockedFor p o inst then St.locked
  else if s.busyFor p o inst then St.busy
  else if s.stagingFor p o sub inst ≠ St.ok then s.stagingFor p o sub inst
  else if loadIndex o.index then St.ok
  else if !o.ty.inRange v ∨ !o.ok v then St.range
  else if !o.resv v ∨ !o.ty.reservedZero v ∨ s.disagrees o sub inst v then St.badValue
  else St.ok

/-! ### Writes outside a group (R62) -/

/-- A write to CLUSTER_FENCE (R176): its status. -/
def writeFence (cl v : Nat) (s : State) : Nat × State :=
  if v = 0 then (St.ok, (unfenceCluster cl s).set Obj.clusterFence cl 0)
  else if s.canFence cl then (St.ok, (fenceCluster cl 1 0 s).set Obj.clusterFence cl 1)
  else (St.badValue, s)

/-- A write to a control object of a group instance (R68): none where the response comes later.
(DEDUCED: log entry 13.) -/
def writeControl (p : Path) (tag : BitVec 16) (g sub inst v : Nat) (s : State) : Option Nat × State :=
  if sub = 1 then beginCommit p tag g inst v s
  else if sub = 2 then (some St.ok, s.setGroup g inst { s.group g inst with schedTime := v })
  else match abortGroup g inst v s with
    | (st, s) => (some st, s)

/-- What a write that passed its checks does: its status, or none where the response comes later. An object without a rule
of its own takes the value. -/
def writeEffect (p : Path) (tag : BitVec 16) (o : ObjRow) (sub inst v : Nat) (s : State) : Option Nat × State :=
  let now (r : Nat × State) : Option Nat × State := (some r.1, r.2)
  let done (s : State) : Option Nat × State := (some St.ok, s)
  if controlIndex o.index then writeControl p tag (o.index - 0x0200) sub inst v s
  else if (keelRow o.index).isSome then writeKeel p tag o.index inst v s
  else match o.index with
    | 0x0013 => done (if v = 1 then
        s.withDict { s.dict with vendor := s.dict.vendor.filter fun x => x.1 != sessionId p } else s)
    | 0x1204 => done (holdWritten inst (s.set o inst v))
    | 0x1804 => now (writeTimeStep (sessionId p) v s)
    | 0x1805 => now (writeForcedStep v s)
    | 0x1806 => now (writeTimeSet v s)
    | 0x2121 => now (writeFence inst v s)
    | 0x2130 => now (ucodeLoad inst v s)
    | 0x2152 => done ((settleCeiling s).set o inst v)
    | 0x3013 => done ((settleWalk inst s).set o inst v)
    | 0x4800 => done (setRng inst (BitVec.ofNat 64 v) s)
    | 0x6041 => done (if v = 1 then startSpare inst 4 s else s)
    | 0x6043 => done ((settleCopies inst s).set o inst v)
    | 0x7010 => done (if sub = 2 then ringPagesWritten inst v s else s.setS o sub inst v)
    | 0x8004 => now (restartPilot inst v s)
    | 0x8010 => now (fwLoad v s)
    | 0x8014 => now (fwAbort v s)
    | 0x8023 => now (retireDeck inst v s)
    | 0x8802 => done (writeChain sub inst v s)
    | 0x8804 => done (writeSnapshot s)
    | 0x9012 => writeRollback p tag v s
    | 0x9800 => now (writeUnlock (sessionId p) v s)
    | _ => done (if o.right = .w1c then s.setS o sub inst (clearMask (s.getS o sub inst) v) else s.setS o sub inst v)

/-- A staged write of a value (R59, R69). -/
def stageValue (p : Path) (o : ObjRow) (sub inst v : Nat) (s : State) : State :=
  noteStaged o.group (groupInstOf o.group o.kind inst) (sessionId p)
    (s.withDict { s.dict with staged := s.dict.staged.put (addrKey o.index sub inst) v })

/-- WRITE of a value: its status, or none where the response comes later (R51, R59, R62). -/
def writeObject (p : Path) (q : Request) (o : ObjRow) (s : State) : Option Nat × State :=
  let sub := q.sub.toNat
  let inst := q.inst.toNat
  let v := leNat q.value
  let st := s.writeCheck p o sub inst v
  if st ≠ St.ok then (some st, s)
  else if o.right = .rwg then (some St.ok, stageValue p o sub inst v s)
  else writeEffect p q.tag o sub inst v s

/-! ### Writes of a DOMAIN (R58) -/

/-- The reserved bits of one entry of a DOMAIN, byte by byte: a policy rule (R256), a next hop (R287), a member (R285)
and a gate entry (R365). Bits that a layout does not list are reserved too. SLOT_ENTRIES is judged at commit (R324).
(DEDUCED: log entry 43.) -/
def reservedBits : Nat → List Nat
  | 0x4001 => [0, 0xF0, 0, 0xF0, 0, 0x1F, 0, 0, 0, 0, 0, 0xFF, 0, 0x70, 0, 0xFF, 0, 0x70, 0x70] ++ List.replicate 13 0xFF
  | 0x4004 => List.replicate 14 0 ++ [0x70, 0xFF]
  | 0x4200 => List.replicate 19 0 ++ [0x70] ++ List.replicate 12 0xFF
  | 0x5844 => [0, 0, 0xFF, 0xFF, 0, 0, 0, 0]
  | _ => []

/-- The reserved fields of a DOMAIN value are zero (R15). -/
def reservedClear (index : Nat) (d : List Byte) : Bool :=
  let m := reservedBits index
  d.zipIdx.all fun (b, i) => b.toNat.land (m.getD (i % m.length) 0) == 0

/-- What a whole DOMAIN does when its last segment is accepted: its status (R54, R58, R459). -/
def takeDomain (p : Path) (o : ObjRow) (inst : Nat) (d : List Byte) (s : State) : Nat × State :=
  if o.right = .rwg then
    (St.ok, s.withDict { s.dict with stagedDoms := s.dict.stagedDoms.put (addrKey o.index o.sub inst) d })
  else if o.index = 0x0012 then
    if Config.vendorTokenValid d Config.serialNumber then
      let rest := s.dict.vendor.filter fun x => x.1 != sessionId p
      (St.ok, s.withDict { s.dict with vendor := (sessionId p, s.servingPilot) :: rest })
    else (St.badValue, s)
  else writeProxy inst d s

/-- The partial write that a segment goes on from: this session's, else none yet.
(DEDUCED: log entry 9.) -/
def State.partial_ (s : State) (p : Path) (key : Nat) : List Byte :=
  match s.dict.partials.find key with
  | some x => if x.session = sessionId p then x.bytes else []
  | none => []

/-- WRITE_SEG (R51, R58): its status.
(DEDUCED: log entry 9.) -/
def writeSegment (p : Path) (q : Request) (o : ObjRow) (s : State) : Nat × State :=
  let inst := q.inst.toNat
  let key := addrKey o.index o.sub inst
  let bytes := s.partial_ p key
  let whole := bytes ++ q.value
  let drop (s : State) : State := s.withDict { s.dict with partials := s.dict.partials.del key }
  if s.busyFor p o inst then (St.busy, s)
  else if s.stagingFor p o o.sub inst ≠ St.ok then (s.stagingFor p o o.sub inst, s)
  else if q.offset.toNat ≠ bytes.length ∨ o.ty.size < whole.length then (St.range, drop s)
  else if q.last && !reservedClear o.index whole then (St.badValue, drop s)
  else
    let s := if o.right = .rwg then noteStaged o.group (groupInstOf o.group o.kind inst) (sessionId p) s else s
    if q.last then takeDomain p o inst whole (drop s)
    else (St.ok, s.withDict { s.dict with partials := s.dict.partials.put key { session := sessionId p, bytes := whole } })

/-! ### Requests (R51, R57, R58) -/

/-- Check 3: the opcode is permitted by the access right (R49).
(DEDUCED: log entry 8.) -/
def permits (right : Right) (write : Bool) : Bool := if write then right != .ro else right != .wo

/-- Check 4: LENGTH, OFFSET and opcode fit the object (R51).
(DEDUCED: log entry 8.) -/
def shaped (o : ObjRow) (q : Request) : Bool :=
  match q.opcode.toNat with
  | 1 => !o.ty.isDomain && q.length == 0 && q.offset == 0
  | 2 => !o.ty.isDomain && q.length.toNat == o.ty.size && q.offset == 0
  | _ => o.ty.isDomain && decide (q.length.toNat ≤ 240)

/-- Serve a READ, WRITE, READ_SEG or WRITE_SEG of an object that exists: the response, or none where it comes
later.
(DEDUCED: log entry 8.) -/
def serveObject (p : Path) (q : Request) (o : ObjRow) (s : State) : Option Response × State :=
  let write := q.opcode == 2 || q.opcode == 4
  let index := q.index.toNat
  if s.levelOf p index write < o.level then
    (some (respond q St.access),
     raise Ev.accessDenied 0 (sessionId p) (addrKey index q.sub.toNat q.inst.toNat) s)
  else if !permits o.right write then (some (respond q St.access), s)
  else if !shaped o q then (some (respond q St.type), s)
  else match q.opcode.toNat with
    | 1 => match readValue p q o s with
      | (v, s) => (some (respond q St.ok (leBytes o.ty.size v)), s)
    | 2 => match writeObject p q o s with
      | (st, s) => (st.map (respond q), s)
    | 3 => (some (segmentRead q (s.domainOf q o)), s)
    | _ => match writeSegment p q o s with
      | (st, s) => (some (respond q st), s)

/-- Serve a request: the response, or none where it comes later (R51, R57, R58). -/
def serveDict (p : Path) (q : Request) (s : State) : Option Response × State :=
  match q.opcode.toNat with
  | 6 => (some (respond q (if q.length = 0 ∧ q.offset = 0 then St.ok else St.type)), s)
  | 5 => match s.object q with
    | .error st => (some (respond q st), s)
    | .ok o =>
      if q.length = 0 ∧ q.offset = 0 then (some (respond q St.ok (describeBytes o)), s)
      else (some (respond q St.type), s)
  | n =>
    if n = 0 ∨ 6 < n then (some (respond q St.noObject), s)
    else match s.object q with
      | .error st => (some (respond q st), s)
      | .ok o => serveObject p q o s

/-! ### Service of the paths (R60 to R65, R493, R582) -/

/-- The boot ROM runs on Pilot 0 and serves a few reads (R493).
(DEDUCED: log entry 10.) -/
def State.romServes (s : State) : Bool :=
  decide (1 ≤ s.get Obj.bootStage) && decide (s.get Obj.bootStage < 3)

/-- What the boot ROM serves (R493). -/
def romReads (q : Request) : Bool :=
  q.opcode == 1 && (q.index == 0 || decide (0x9000 ≤ q.index.toNat ∧ q.index.toNat ≤ 0x900F))

/-- What the night-watch domain serves at the two-wire target while no Pilot serves (R65).
(DEDUCED: log entry 10.) -/
def watchServes (q : Request) : Bool :=
  (q.opcode == 1 && (q.index == 0 || decide (0x7A00 ≤ q.index.toNat ∧ q.index.toNat ≤ 0x7A7F))) ||
  (q.opcode == 2 && q.index == 0x7A20)

/-- The request is carried out and its response handed over, at once or later.
(DESIGN CHOICE: log entry 7.) -/
def carryOut (p : Path) (q : Request) (s : State) : State :=
  match serveDict p q s with
  | (some r, s) => answer p r s
  | (none, s) => s

/-- The request is served by whoever serves: a Pilot, or the boot ROM (R493).
(DESIGN CHOICE: log entry 7.) -/
def serveNow (p : Path) (q : Request) (s : State) : State :=
  if s.romServes ∧ !romReads q then answer p (respond q St.busy) s else carryOut p q s

/-- Somebody serves the mailbox and the two-wire target: a Pilot, or the boot ROM.
(DESIGN CHOICE: log entry 7.) -/
def State.served (s : State) : Bool := s.anyPilot || s.romServes

/-- Who takes a request: Pilot 0 while it runs the boot ROM, else the Pilot that serves.
(DEDUCED: log entry 10.) (DESIGN CHOICE: log entry 12.) -/
def State.taker (s : State) : Nat := if s.romServes then 0 else s.servingPilot

/-- Every request submitted before slot k's has been taken (R61), those that an endpoint reset freed of their slots too
(R92).
(DEDUCED: log entry 10.) -/
def State.firstWaiting (s : State) (k : Nat) : Bool :=
  s.host.orphans.isEmpty && (s.host.order.takeWhile (· != k)).all fun j => (s.slot j).taken.isSome

/-- The oldest request that an endpoint reset freed of its slot is this one (R92). -/
def State.orphanFirst (s : State) (k : Nat) (q : Request) : Bool :=
  match s.host.orphans with
  | [] => false
  | o :: _ => o.1 == k && parseRequest (o.2.1.take (16 + q.value.length)) == some q

/-- A request that an endpoint reset freed of its slot takes effect, and its response is discarded, made at once or later
(R92).
(DEDUCED: log entry 85.) -/
def serveOrphan (k : Fin 16) (q : Request) (s : State) : State :=
  let s := s.withHost { s.host with orphans := s.host.orphans.tail }
  if s.romServes ∧ !romReads q then s else dropReplies (fun p => decide (p = .mailbox k)) (serveDict (.mailbox k) q s).2

/-- A mailbox request of the host: written into the request area of a FREE slot and submitted (R94). -/
def mbRequest (k : Nat) (q : Request) (s : State) : State :=
  if (s.slot k).state = 0 then mbSubmit k (mbWriteArea k 0 (requestBytes q) s) else s

/-- A mailbox request: a FREE slot submits it; a TAKEN one has it served, in its turn, once a Pilot serves (R61, R63,
R94).
(DEDUCED: log entry 10.) -/
def serveMailbox (k : Fin 16) (q : Request) (s : State) : State :=
  if s.orphanFirst k.val q then (if s.served then serveOrphan k q s else s)
  else
  let s := mbRequest k.val q s
  let x := s.slot k.val
  if x.state = 1 ∧ x.taken = none ∧ s.served ∧ s.firstWaiting k.val ∧
      parseRequest (x.area.take (16 + q.value.length)) = some q then
    serveNow (.mailbox k) q (s.setSlot k.val { x with taken := some s.taker })
  else s

/-- A two-wire request: taken unless one is being served, and served by a Pilot, or by the night-watch domain (R65,
R582).
(DEDUCED: log entry 10.) -/
def serveTwoWire (q : Request) (s : State) : State :=
  let s := if s.tw.serving.isNone then twAccept q s else s
  match s.tw.serving with
  | none => s
  | some (w, _) =>
    if w ≠ q ∨ s.tw.taken.isSome ∨ s.tw.answer.isSome then s
    else if s.served then serveNow .twoWire q (s.withTw { s.tw with taken := some s.taker })
    else if watchServes q then carryOut .twoWire q s
    else answer .twoWire (respond q St.busy) s

/-- The oldest request of an ACP session that no Pilot has taken.
(DEDUCED: log entry 10.) -/
def State.acpWaiting (s : State) (device slot : Nat) : Option AcpPending :=
  s.fabric.acp.find? fun a => a.device == device && a.keySlot == slot && a.taken.isNone

/-- An ACP request: one that was accepted, in its session's order (R61, R457). -/
def serveAcp (d : BitVec 16) (k : Fin 256) (n : Word32) (q : Request) (s : State) : State :=
  match s.acpWaiting d.toNat k.val with
  | none => s
  | some a =>
    if a.seq = n.toNat ∧ a.request = q ∧ s.anyPilot then
      let b := { a with taken := some s.servingPilot }
      serveNow (.acp d k n) q (s.withFabric { s.fabric with acp := s.fabric.acp.map fun x => if x = a then b else x })
    else s

/-- The boot session submits the next record of the configuration section once the response to the one before is there
(R499): only WRITE and WRITE_SEG are accepted. -/
def serveBoot (s : State) : State :=
  match s.boot.config with
  | [] => s
  | q :: rest =>
    if (s.boot.answer.isNone ∧ s.boot.configIndex ≠ 0) ∨ !s.anyPilot then s
    else
      let s := { s with boot := { s.boot with config := rest, configIndex := s.boot.configIndex + 1, answer := none } }
      if q.opcode = 2 ∨ q.opcode = 4 then carryOut .boot q s else answer .boot (respond q St.access) s

/-- A request that came by a path is served (R60 to R65). A device held in reset serves nothing. -/
def serveBy (p : Path) (q : Request) (s : State) : State :=
  if s.boot.held then s
  else match p with
    | .mailbox k => serveMailbox k (asRecord q) s
    | .twoWire => serveTwoWire (asRecord q) s
    | .acp d k n => serveAcp d k n (asRecord q) s
    | .boot => if s.boot.config.head? = some q then serveBoot s else s

end Sys2Proof.Machine
end

