-- ==== Sys2Proof/Machine/Boot.lean ====
section
/-! DEFINITION. Start-up (16): boot start, the stages, the configuration section; the restart OPs of the raw window
(17: R518); and the rehoming of a lost deck's entries (R528). -/

namespace Sys2Proof.Machine

/-! ### Boot start and reset (R489 to R491) -/

/-- The device leaves reset: the straps are sampled and the VDDIO level is sensed (R573; which it is, the board decides:
drawn free), every Pilot's core still waits, and time starts at zero.
(DESIGN CHOICE: log entry 3.) -/
def bootFrom (straps : Nat) (s : State) : State :=
  let (level, s) := s.draw
  let s := (s.set Obj.straps 0 straps).set Obj.vddioLevel 0 (level % 2)
  if straps / 64 ≠ 0 then s
  else
    let s := (List.range 4).foldl (fun s d => s.set Obj.pilotState d 1) s
    let s := { s with time := {}, power := { s.power with on := true, thermTrip := false, shutdown := false } }
    s.withBoot { held := false }

/-- BOOT_START (R489, R491): a device strapped for vendor test does not boot.
(DEDUCED: log entry 68.) -/
def execBootStart (straps : Byte) (s : State) : Host.Outcome State Fault Refusal :=
  .next (if s.boot.held then bootFrom straps.toNat s else s)

/-- SYS_RESET (R490): a low level of at least 10 µs resets the device; it is held until boot start.
(DEDUCED: log entry 68.) -/
def execSysReset (lowNs : Nat) (s : State) : Host.Outcome State Fault Refusal :=
  .next (if 10000 ≤ lowNs ∧ s.power.on then resetDevice s else s)

/-! ### The stages (R492, R500) -/

/-- A stage is complete: BOOT_STAGE shows it, and the next one runs. -/
def stageDone (n : Nat) (s : State) : State := (s.set Obj.bootStage 0 n).withBoot { s.boot with stage := n + 1 }

/-- A drawn number that is not zero. -/
def drawNonZero (s : State) : Nat × State :=
  let (v, s) := s.draw
  (if v = 0 then 1 else v, s)

/-- Stage 1 (R217, R301, R492): the digest key, the tally generators and the perturbation seed are drawn, and the PCIe
link trains. -/
def stageRom (s : State) : State :=
  let (a, s) := s.draw
  let (b, s) := s.draw
  let s := s.withFlow { s.flow with digestKey := a + b * 2 ^ 64 }
  let s := (List.range 8).foldl (fun s p =>
    let (v, s) := drawNonZero s
    setRng p (BitVec.ofNat 64 v) s) s
  let (v, s) := drawNonZero s
  let s := s.set Obj.perturbSeed 0 v
  stageDone 1 (linkMayReturn s)

/-- No image can be used, or the straps ask for recovery (R496).
(DEDUCED: log entry 68.) -/
def enterRecovery (s : State) : State := (s.set Obj.bootSlot 0 2).withBoot { s.boot with recovery := true }

/-- The image of a slot is used (R494, R496, R497, R583). -/
def takeImage (slot : Nat) (b : List Byte) (s : State) : State :=
  let s := s.withBoot { s.boot with image := some { bytes := b }, recovery := false }
  let s := ((s.set Obj.bootSlot 0 slot).set Obj.bootImageVersion 0 (imageVersion b)).set Obj.bootSecurityVersion 0
    (securityVersion b)
  let s := s.set Obj.pilotFirmwareVersion 0 (imageVersion b)
  match payloadOf b with
  | some p => takeKeys p s
  | none => s

/-- Stage 2 (R492, R495, R496): the flash is read, unless STRAP_RECOVERY forbids it. -/
def stageImage (s : State) : State :=
  if bitOf (s.get Obj.straps) 3 ∧ s.boot.flashForced = false then enterRecovery s
  else
    let (found, failed) := s.tryFlash
    let s := slotsFailed failed s
    let fails (k : Nat) : Nat := (failed.find? fun e => e.1 == k).elim 0 (·.2)
    let s := s.set Obj.bootResult 0 (fails 0 * 256 + fails 1)
    match found with
    | some (k, b) => stageDone 2 (takeImage k b s)
    | none => enterRecovery s

/-- Stage 3 (R492, R500, R511, R514): Pilots run, the leader is elected, and the stacks hold the firmware copies.
(DEDUCED: log entry 68.) -/
def stagePilots (bad : List Nat) (s : State) : State :=
  let now := s.time.ticks
  let b := s.boot.image
  let s := (List.range 4).foldl (fun s d =>
    if bad.contains d ∧ d ≠ 0 then setPilot d { declaredAt := now } s
    else
      let x : Pilot := { version := s.get Obj.bootImageVersion, heartbeatAt := now, kickedAt := now, upAt := now }
      setPilot d x (s.set Obj.pilotState d 0)) s
  let s := (List.range 4).foldl (fun s d =>
    if s.pilotUp d then s else match s.adopter d with
      | some a => s.set Obj.servingPilot d a
      | none => s) s
  let s := changeCopies (fun _ => (b, b)) s
  let l := s.servingPilot
  let s := noteChange ((s.set Obj.leader 0 l).set Obj.leaderTerm 0 1)
  stageDone 3 (raise Ev.leaderElected 0 l 1 s)

/-- A pseudo-channel fails training or the pattern test (R500): its half's spare takes its place, or the deck is
lost.
(DESIGN CHOICE: log entry 64.) -/
def placeSpare (c : Nat) (s : State) : State :=
  let d := c / 32
  let h := c % 32 / 16
  if !s.deckUp d then s
  else if !bitOf (s.get Obj.spareFree d) h then loseDeck d 4 s
  else
    let s := (s.set Obj.spareFree d (clearBit (s.get Obj.spareFree d) h)).set Obj.pcState c 2
    raise Ev.spareDone c 0 0 (raise Ev.spareStarted c 3 0 s)

/-- Stage 7 (R171, R492, R500): microcode in the fore bank of every pipe, and the configuration section to apply. -/
def stageMicrocode (bad : List Nat) (s : State) : State :=
  let p := match s.boot.image with
    | some i => (payloadOf i.bytes).getD []
    | none => []
  let u := sectionBytes p 2
  let s := match ucodeCheck (keysOf p) (hashesOf p) u with
    | .inr ws => (List.range 8).foldl (fun s k =>
        ((writeBank k false ws s).set (bankObj false) k 3).set (versionObj false) k (leAt u 8 4)) s
    | .inl _ => s
  let s := bad.foldl (fun s c => fenceCluster c 0 0 s) s
  stageDone 7 s

/-- The configuration section of an image is ready to be applied from its first record (R499); a record that would carry
past the section's end counts as failed. -/
def loadConfig (b : List Byte) (s : State) : State :=
  let c := sectionBytes ((payloadOf b).getD []) 5
  let (l, cut) := configRecords c.length c
  let s := s.withBoot { s.boot with config := l, configIndex := 0, answer := none }
  if cut then s.bump Obj.configRecordsFailed else s

/-- Every record of the section has been answered (R499). -/
def State.configDone (s : State) : Bool := s.boot.config.isEmpty && (s.boot.answer.isSome || s.boot.configIndex == 0)

/-- The end of the section (R499): STAGED instances of the boot session are aborted. -/
def endConfig (s : State) : State :=
  (s.listedGroups.filter fun e => let x := s.group e.1 e.2
    x.state == 1 && x.owner == sessionId .boot && x.validating.isNone).foldl (fun s e => cleanGroup e.1 e.2 s) s

/-- Stage 9 (R492): the device forwards.
(DEDUCED: log entry 68.) -/
def stageLast (s : State) : State :=
  let t := s.sinceNs s.boot.startAt
  let s := (stageDone 9 s).set Obj.bootTimeNs 0 t
  let s := raise Ev.bootComplete 0 (s.get Obj.bootSlot) t s
  s.withEvents { s.events with storing := false }

/-- A boot stage completes with what it found (R492, R500). -/
def bootStage (f : BootFinding) (s : State) : State :=
  match s.boot.stage with
  | 1 => stageRom s
  | 2 => stageImage s
  | 3 => stagePilots (f.badPilots.map Fin.val) s
  | 4 => stageDone 4 (f.badKeel.foldl (fun s e => corruptKeel e.1 e.2 s) s)
  | 5 => stageDone 5 (f.badPcs.foldl (fun s c => placeSpare c.val s) s)
  | 6 => stageDone 6 (f.badDirections.foldl (fun s d =>
      if s.get Obj.directionState d.val = 0 then failDirection d.val 4 0 s else s) s)
  | 7 =>
    let s := stageMicrocode (f.badClusters.map Fin.val) s
    match s.boot.image with
    | some i => loadConfig i.bytes s
    | none => s
  | 8 => if s.configDone then stageDone 8 (endConfig s) else s
  | 9 => stageLast s
  | _ => s

/-- BOOT_STAGE_DONE (R492, R496): in recovery the sequence stands until the host restarts the Pilots. -/
def execBootStageDone (found : BootFinding) (s : State) : Host.Outcome State Fault Refusal :=
  .next (if s.boot.held ∨ s.boot.recovery then s else bootStage found s)

/-- CONFIG_RECORD (R499): the next record is submitted; after the last one the section ends. -/
def execConfigRecord (s : State) : Host.Outcome State Fault Refusal :=
  let s := if s.boot.config.isEmpty then s else serveBoot s
  .next (if s.configDone then endConfig s else s)

/-! ### Restart OPs (R518) -/

/-- Every Pilot that is not LOST is held in reset, and what the Pilots carried ends. -/
def stopPilots (s : State) : State :=
  let before := s
  let l := (List.range 4).filter fun d => s.get Obj.pilotState d != 3
  let s := l.foldl (fun s d =>
    setPilot d { s.pilot d with declaredAt := s.time.ticks, onPurpose := true, booting := none }
      (s.set Obj.pilotState d 1)) s
  l.foldl (fun s d => if before.pilotUp d then pilotGone d before s else s) s

/-- The Pilots read the flash: the image becomes the current copy, and the former current copy the previous one.
(DEDUCED: log entry 68.) -/
def bootFlash (s : State) : State × Option (List Byte) :=
  let (found, failed) := s.tryFlash
  let s := slotsFailed failed s
  match found with
  | none => (s, none)
  | some (_, b) =>
    let s := newCopies b s
    let s := (List.range 4).foldl (fun s d =>
      if s.get Obj.pilotState d = 1 then setPilot d { s.pilot d with booting := some (imageVersion b, true) } s else s) s
    (s, some b)

/-- Firmware-held state is rebuilt: LSAs from the neighbours, PTP at LOCKING, proxy slots IDLE. -/
def rebuildFirmware (s : State) : State :=
  let s := s.withFabric { s.fabric with lsdb := s.fabric.lsdb.filter fun e => e.1 == s.deviceId, proxies := [] }
  let s := (List.range 64).foldl (fun s j => s.set Obj.acpProxyState j 0) s
  if s.get Obj.timeState = 0 then s else setTimeState 1 s

/-- A restart OP (R518), with the image that the Pilots will run. A device in recovery goes on with its start: its flash is
read again. The window closes (R516). -/
def restartPilots (s : State) : State × Option (List Byte) :=
  let s := rawClose s
  if s.boot.recovery then (s.withBoot { s.boot with recovery := false, flashForced := true }, none)
  else
    let (s, b) := bootFlash (stopPilots s)
    (rebuildFirmware s, b)

/-- A restart OP reaches a device that has been started. -/
def restart (f : State → State) (s : State) : State := if s.boot.held then s else f s

/-- OP RESTART_WARM (R518): every active value is kept. -/
def restartWarm (s : State) : State := restart (fun s => (restartPilots s).1) s

/-- RESTART_WARM (R518): every active value is kept. -/
def execRestartWarm (s : State) : Host.Outcome State Fault Refusal := .next (restartWarm s)

/-- A read-only value that RESTART_COLD leaves as it is: it mirrors state that is kept, or has no default; event counters
are reset by nothing (R534). 64-bit counters start again (log entry 42).
(DEDUCED: log entry 42.) -/
def keptCold (o : ObjRow) : Bool :=
  o.right == .ro && (o.ty != .u64 || o.index == 0x8800 || o.index == 0x9006 || o.index == 0x5001)

/-- The row of a listed address. -/
def rowOfKey (key : Nat) : Option ObjRow := findRow (key / 2 ^ 24) (key / 65536 % 256)

/-- The listed object keeps its value in a cold restart.
(DEDUCED: log entry 42.) -/
def keptKey (key : Nat) : Bool :=
  (keelRow (key / 2 ^ 24)).isSome || key / 2 ^ 24 == 0x9850 || (rowOfKey key).elim true keptCold

/-- The group instances whose members hold other values than their defaults.
(DEDUCED: log entry 42.) -/
def State.changedGroups (s : State) : List (Nat × Nat) :=
  ((s.dict.active.map (·.1) ++ s.dict.domains.map (·.1)).filterMap fun key =>
    match rowOfKey key with
    | some o => if o.group = 0 then none else some (o.group, groupInstOf o.group o.kind (key % 65536))
    | none => none).eraseDups

/-- Every object takes its default at one instant (R19, R518).
(DEDUCED: log entry 42.) -/
def coldDefaults (s : State) : State :=
  let old := s
  let s := (List.range 29).foldl (fun s r => if s.ringPages r = 0 then s else ringPagesWritten r 0 s) s
  let s := (List.range 64).foldl (fun s c =>
    if s.get Obj.clusterFence c = 1 then unfenceCluster c s else s) s
  let s := (s.dict.active.filter fun e => e.1 / 2 ^ 24 == 0x8802 && e.2 == 1).foldl (fun s e =>
    writeChain (e.1 / 65536 % 256) (e.1 % 65536) 0 s) s
  let changed := s.changedGroups
  let gens := s.dict.groups.filterMap fun e =>
    if e.1 / 65536 = 0x10 then
      let n := e.2.generation + bit01 (changed.contains (0x10, e.1 % 65536))
      if n = 0 then none else some (e.1, ({ generation := n } : GroupInst))
    else none
  let s := s.withDict { s.dict with active := s.dict.active.filter fun e => keptKey e.1,
                                    domains := s.dict.domains.filter fun e => keptKey e.1,
                                    staged := [], stagedDoms := [], partials := [], groups := gens }
  let s := { s with flow := { s.flow with slbStaged := [] } }
  let s := ((s.set Obj.testState 0 0).set Obj.fwUpdateState 0 0).set Obj.fwUpdateNext 0 0xFF
  let s := s.withCount { s.count with challenge := none }
  let s := changed.foldl (fun s e => applyGroup e.1 e.2 s.now80 old s) s
  s.withAvail { s.avail with rehome := (List.range 4).filter fun d => !s.deckUp d }

/-- OP RESTART_COLD (R518): every object takes its default; a device in recovery has nothing but defaults.
(DEDUCED: log entry 42.) (DEDUCED: log entry 67.) -/
def restartCold (s : State) : State :=
  restart (fun s => if s.boot.recovery then (restartPilots s).1 else coldDefaults (restartPilots s).1) s

/-- RESTART_COLD (R518): every object takes its default. -/
def execRestartCold (s : State) : Host.Outcome State Fault Refusal := .next (restartCold s)

/-- OP RESTART_COLD_CONFIG (R518): as COLD, after which the CONFIG section of the image is applied. -/
def restartColdConfig (s : State) : State :=
  restart (fun s =>
    if s.boot.recovery then (restartPilots s).1
    else match restartPilots s with
      | (s, some b) => loadConfig b (coldDefaults s)
      | (s, none) => coldDefaults s) s

/-- RESTART_COLD_CONFIG (R518): as COLD, after which the CONFIG section of the image is applied. -/
def execRestartColdConfig (s : State) : Host.Outcome State Fault Refusal := .next (restartColdConfig s)

/-! ### Rehoming after a loss (R528 step 5) -/

/-- The pipes of the decks in service, ascending.
(DEDUCED: log entry 67.) -/
def State.survivingPipes (s : State) : List Nat := (List.range 8).filter fun p => s.deckUp (deckOfPipe p)

/-- The new home pipe of an entry whose HOME_PIPE lies on the lost deck.
(DEDUCED: log entry 67.) -/
def State.rehomePipe (s : State) (e : Nat) : Nat :=
  let l := s.survivingPipes
  let old := s.get Obj.homeOldPipe e
  if s.get Obj.homeState e = 1 ∧ s.deckUp (deckOfPipe old) then old else l.getD (e % 6 % Nat.max 1 l.length) 0

/-- LOST_DECK_REHOME (R245, R528): the leader aborts any staging of HOME_TABLE and commits the new home pipes; an ABORT that
the group refuses (R75, R77) makes it wait.
(DEDUCED: log entry 67.) -/
def execLostDeckRehome (s : State) : Host.Outcome State Fault Refusal :=
  .next (match s.avail.rehome with
    | [] => s
    | d :: rest =>
      let a := abortGroup 0x18 0 1 s
      if !s.anyPilot ∨ a.1 ≠ St.ok then s
      else
        let s := a.2
        let s := s.withAvail { s.avail with rehome := rest }
        let moved := s.homedOn d
        let before := s
        let x := s.group 0x18 0
        let s := moved.foldl (fun s e =>
          let p := before.rehomePipe e
          ((s.set Obj.homePipe e p).set Obj.homeOldPipe e p).set Obj.homeState e 0) s
        let n := (x.generation + 1) % 2 ^ 32
        let s := s.setGroup 0x18 0 { x with generation := n, commitTime := s.now80, lastResult := St.ok }
        raise Ev.commitDone 0 0x18 n s)

end Sys2Proof.Machine
end

