-- ==== Sys2Proof/Machine/Bar0.lean ====
section
/-! DEFINITION. The words of BAR0 (03: R93; 17: R516) and the registers of configuration space that the rules name (R90,
R584). The registers with a row of their own act here as they do there. -/

namespace Sys2Proof.Machine

/-- A write of RAW_WINDOW_CTRL (R516): its OP; OP 0 writes TARGET and PAGE alone, and other values are ignored. -/
def rawControl (v : Nat) (s : State) : State :=
  match bitsOf v 31 28 with
  | 0 => rawSelect v s
  | 1 => rawOpen v s
  | 2 => rawClose s
  | 3 => restartWarm s
  | 4 => restartCold s
  | 5 => restartColdConfig s
  | _ => s

/-- Word `i` of an MSI-X table entry: address, upper address, data, vector control, bit 0 of which masks (R93, R584). -/
def State.msixWord (s : State) (v i : Nat) : Nat :=
  if i = 3 then bit01 (!bitOf s.host.unmasked v) else s.host.msixTable.getD (v * 4 + i) 0

/-- A write of a word of an MSI-X table entry. -/
def msixWrite (v i w : Nat) (s : State) : State :=
  if i = 3 then maskVector v (bitOf w 0) s
  else s.withHost { s.host with msixTable := NMap.set 0 s.host.msixTable (v * 4 + i) w }

/-- The bollards of 32 pages from page `n` on, as a word of BOLLARD_MAP (R93). -/
def State.bollardWord (s : State) (n : Nat) : Nat :=
  ((List.range 32).map fun i => bit01 (s.owned (n + i)) * 2 ^ i).sum

/-- An offset lies in a block of BAR0 (R93). -/
def inBlock (off base size : Nat) : Bool := decide (base ≤ off) && decide (off < base + size)

/-- The word that the host reads at an aligned offset of BAR0 (R93); a write-only register reads 0 (log entry 83).
(DESIGN CHOICE: log entry 83.) -/
def State.bar0Read (s : State) (off : Nat) : Nat :=
  if off = 0 then 0x64800001
  else if off = 0x20 then s.host.rawTarget * 2 ^ 24 + s.host.rawPage * 2 ^ 20 + s.host.rawStatus
  else if inBlock off 0x1000 0x2000 then
    let k := (off - 0x1000) / 0x200
    let i := (off - 0x1000) % 0x200
    if i < 256 then leAt (s.requestArea k) i 4 else leAt (s.slot k).response (i - 256) 4
  else if off = 0x3008 then s.host.ignored
  else if inBlock off 0x3100 64 then (s.slot ((off - 0x3100) / 4)).state
  else if inBlock off 0x4000 8 then s.host.vectorCause / 2 ^ (8 * (off - 0x4000)) % 2 ^ 32
  else if inBlock off 0x6000 0x2000 then s.bollardWord ((off - 0x6000) * 8)
  else if inBlock off 0x8000 0x400 then s.msixWord ((off - 0x8000) / 16) ((off - 0x8000) % 16 / 4)
  else if inBlock off 0x9000 8 then s.host.pba / 2 ^ (8 * (off - 0x9000)) % 2 ^ 32
  else if 0x400000 ≤ off then (if s.host.rawStatus = 1 then s.rawRead (off - 0x400000) else 0xFFFFFFFF)
  else 0

/-- A write of a word at an aligned offset of BAR0 (R93): what is not listed, and what is read-only, ignores it. -/
def bar0Write (off w : Nat) (s : State) : State :=
  if off = 0x10 then giveBollards w s
  else if off = 0x20 then rawControl w s
  else if inBlock off 0x1000 0x2000 then
    let i := (off - 0x1000) % 0x200
    if i < 256 then mbWriteArea ((off - 0x1000) / 0x200) i (leBytes 4 w) s else s
  else if off = 0x3000 then mbDoorbell w s
  else if off = 0x3004 then mbRelease w s
  else if inBlock off 0x4000 8 then clearCauses (w * 2 ^ (8 * (off - 0x4000))) s
  else if inBlock off 0x8000 0x400 then msixWrite ((off - 0x8000) / 16) ((off - 0x8000) % 16 / 4) w s
  else if 0x400000 ≤ off then (if s.host.rawStatus = 1 then rawWrite (off - 0x400000) w s else s)
  else s

/-- What the host reads of configuration space (R90); the revision is left open (log entry 83).
(DESIGN CHOICE: log entry 83.) -/
def State.configRead (s : State) : ConfigReg → Nat
  | .ids => 0x64800D0E
  | .classCode => 0x02800000 + Config.pcieRevision.toNat
  | .msixControl => bit01 s.host.msixEnabled * 2 ^ 15 + bit01 s.host.functionMask * 2 ^ 14 + 63
  | .linkStatus => s.host.linkLanes * 16 + s.host.linkRate

/-- A write of configuration space: MSI-X enable and function mask (R584); the rest of these registers is read-only. -/
def configWrite (r : ConfigReg) (w : Nat) (s : State) : State :=
  match r with
  | .msixControl => controlMsix (bitOf w 15) (bitOf w 14) s
  | _ => s

/-- The host reads a word: of BAR0 only as an aligned 32-bit word, else all ones (R93). -/
def State.hostWord (s : State) (place : HostPlace) : Nat :=
  match place with
  | .bar0 off bytes => if bytes = 4 ∧ off.toNat % 4 = 0 then s.bar0Read off.toNat else 0xFFFFFFFF
  | .config r => s.configRead r

/-- The host writes a word: of BAR0 only as an aligned 32-bit word, else ignored (R93). -/
def hostWrite (place : HostPlace) (w : Nat) (s : State) : State :=
  match place with
  | .bar0 off bytes => if bytes = 4 ∧ off.toNat % 4 = 0 then bar0Write off.toNat w s else s
  | .config r => configWrite r w s

/-- RAW_WINDOW_ACCESS (R93, R516): an access of the host to the raw window at 0x40_0000, or to any other word of BAR0 or
register of configuration space, which has no row of its own (log entry 83).
(DESIGN CHOICE: log entry 83.) -/
def execRawWindowAccess (place : HostPlace) (data : Option Word32) (s : State) :
    Host.Outcome State Fault Refusal :=
  .next (match data with
    | some w => hostWrite place w.toNat s
    | none => s.withHost { s.host with readData := BitVec.ofNat 32 (s.hostWord place) })

end Sys2Proof.Machine
end

