-- ==== Sys2Proof/Machine/Requests.lean ====
section
/-! DEFINITION. The commands that are dictionary requests: the six opcodes (R57), and the accesses to registers that
have a row of their own, each of which is the same request by its path. -/

namespace Sys2Proof.Machine

/-! ### Opcodes (R57, R58) -/

/-- READ (R57). -/
def execRead (p : Path) (q : Request) (s : State) : Host.Outcome State Fault Refusal :=
  .next (serveBy p { q with opcode := 1 } s)

/-- WRITE (R57, R62). -/
def execWrite (p : Path) (q : Request) (s : State) : Host.Outcome State Fault Refusal :=
  .next (serveBy p { q with opcode := 2 } s)

/-- READ_SEG (R58). -/
def execReadSeg (p : Path) (q : Request) (s : State) : Host.Outcome State Fault Refusal :=
  .next (serveBy p { q with opcode := 3 } s)

/-- WRITE_SEG (R58). -/
def execWriteSeg (p : Path) (q : Request) (s : State) : Host.Outcome State Fault Refusal :=
  .next (serveBy p { q with opcode := 4 } s)

/-- DESCRIBE (R58). -/
def execDescribe (p : Path) (q : Request) (s : State) : Host.Outcome State Fault Refusal :=
  .next (serveBy p { q with opcode := 5 } s)

/-- The opcode of a request that the NOP row carries: NOP's own, or one that R57 does not list (log entry 83). -/
def nopOpcode (op : BitVec 7) : BitVec 7 := if 1 ≤ op.toNat ∧ op.toNat ≤ 6 then 6 else op

/-- NOP (R58); also a request with an opcode that R57 does not list, which answers NO_OBJECT and has no row of its own.
(DESIGN CHOICE: log entry 83.) -/
def execNop (p : Path) (q : Request) (s : State) : Host.Outcome State Fault Refusal :=
  .next (serveBy p { q with opcode := nopOpcode q.opcode } s)

/-! ### Registers with a row of their own -/

/-- A client writes an object. -/
def clientWrite (c : Client) (index sub inst : Nat) (value : List Byte) (s : State) : State :=
  serveBy c.path (writeReq c.tag index sub inst value) s

/-- COMMIT_NOW: COMMIT := 1 (R76). -/
def execCommitNow (c : Client) (g : BitVec 8) (inst : BitVec 16) (s : State) : Host.Outcome State Fault Refusal :=
  .next (clientWrite c (0x0200 + g.toNat) 1 inst.toNat (leBytes 4 1) s)

/-- COMMIT_AT_SCHED_TIME: COMMIT := 2 (R76, R77). -/
def execCommitAtSchedTime (c : Client) (g : BitVec 8) (inst : BitVec 16) (s : State) :
    Host.Outcome State Fault Refusal :=
  .next (clientWrite c (0x0200 + g.toNat) 1 inst.toNat (leBytes 4 2) s)

/-- ABORT (R68, R73, R78).
(DEDUCED: log entry 13.) (DEDUCED: log entry 41.) -/
def execAbort (c : Client) (g : BitVec 8) (inst : BitVec 16) (value : Byte) (s : State) :
    Host.Outcome State Fault Refusal :=
  .next (clientWrite c (0x0200 + g.toNat) 4 inst.toNat [value] s)

/-- VENDOR_UNLOCK, written in one segment (R54).
(DEDUCED: log entry 18.) -/
def execVendorUnlock (c : Client) (token : List Byte) (s : State) : Host.Outcome State Fault Refusal :=
  .next (serveBy c.path (segReq c.tag 0x0012 0 0 token) s)

/-- VENDOR_LOCK (R54). -/
def execVendorLock (c : Client) (value : Byte) (s : State) : Host.Outcome State Fault Refusal :=
  .next (clientWrite c 0x0013 0 0 [value] s)

/-- RING_PAGES := 0 (R102). -/
def execRingDisable (c : Client) (r : Ring) (s : State) : Host.Outcome State Fault Refusal :=
  .next (clientWrite c 0x7010 2 r.val (leBytes 2 0) s)

/-- LINK_HOLD_NS (R129). -/
def execLinkHoldNsWrite (c : Client) (port : FrontPort) (value : Word64) (s : State) :
    Host.Outcome State Fault Refusal :=
  .next (clientWrite c 0x1204 0 port.val (leBytes 8 value.toNat) s)

/-- UCODE_LOAD (R173). -/
def execUcodeLoad (c : Client) (p : Pipe) (range : Word64) (s : State) : Host.Outcome State Fault Refusal :=
  .next (clientWrite c 0x2130 0 p.val (leBytes 8 range.toNat) s)

/-- CLUSTER_FENCE := 1 (R176); without a client the Pilot decides so.
(DEDUCED: log entry 18.) -/
def execClusterFence (c : Option Client) (cl : ClusterId) (s : State) : Host.Outcome State Fault Refusal :=
  .next (match c with
    | some c => clientWrite c 0x2121 0 cl.val [1] s
    | none => if s.anyPilot then fenceCluster cl.val 0 0 s else s)

/-- CLUSTER_FENCE := 0 (R176). -/
def execClusterUnfence (c : Client) (cl : ClusterId) (s : State) : Host.Outcome State Fault Refusal :=
  .next (clientWrite c 0x2121 0 cl.val [0] s)

/-- REQ_PRIORITY, or REQ_BURST_LIMIT where `limit`, of a requester (R388, R389). -/
def execReqPriorityWrite (c : Client) (limit : Bool) (rr : BitVec 8) (d : Deck) (value : Byte) (s : State) :
    Host.Outcome State Fault Refusal :=
  .next (clientWrite c (if limit then 0x6011 else 0x6010) rr.toNat d.val [value] s)

/-- SPARE_REQUEST := 1 (R400). -/
def execSpareRequest (c : Client) (pc : Pc) (s : State) : Host.Outcome State Fault Refusal :=
  .next (clientWrite c 0x6041 0 pc.val [1] s)

/-- TIME_INCREMENT (R408). -/
def execTimeIncrementWrite (c : Client) (value : Word64) (s : State) : Host.Outcome State Fault Refusal :=
  .next (clientWrite c 0x1802 0 0 (leBytes 8 value.toNat) s)

/-- TIME_STEP_NS (R411, R412). -/
def execTimeStep (c : Client) (value : Word64) (s : State) : Host.Outcome State Fault Refusal :=
  .next (clientWrite c 0x1804 0 0 (leBytes 8 value.toNat) s)

/-- TIME_FORCED_STEP_NS (R413). -/
def execTimeForcedStep (c : Client) (value : Word64) (s : State) : Host.Outcome State Fault Refusal :=
  .next (clientWrite c 0x1805 0 0 (leBytes 8 value.toNat) s)

/-- TIME_SET (R413). -/
def execTimeSet (c : Client) (value : BitVec 80) (s : State) : Host.Outcome State Fault Refusal :=
  .next (clientWrite c 0x1806 0 0 (leBytes 10 value.toNat) s)

/-- A read of CAPTURE_READ (R430). -/
def execCaptureRead (c : Client) (n : Fin 4) (s : State) : Host.Outcome State Fault Refusal :=
  .next (serveBy c.path (readReq c.tag 0x1851 0 n.val) s)

/-- ACP_PROXY_REQUEST, written in one segment (R459).
(DEDUCED: log entry 18.) -/
def execAcpProxyRequest (c : Client) (j : Fin 64) (value : List Byte) (s : State) :
    Host.Outcome State Fault Refusal :=
  .next (serveBy c.path (segReq c.tag 0x6870 0 j.val value) s)

/-- ROLLBACK_ADVANCE (R498). -/
def execRollbackAdvance (c : Client) (value : Byte) (s : State) : Host.Outcome State Fault Refusal :=
  .next (clientWrite c 0x9012 0 0 [value] s)

/-- A VALUE of the keel store (R501, R502), in the size of its type. -/
def execKeelWrite (c : Client) (index inst : BitVec 16) (value : Word32) (s : State) :
    Host.Outcome State Fault Refusal :=
  let size := match keelRow index.toNat with
    | some (o, _, _) => o.ty.size
    | none => 4
  .next (clientWrite c index.toNat 1 inst.toNat (leBytes size value.toNat) s)

/-- PILOT_RESTART (R513). -/
def execPilotRestart (c : Client) (d : Deck) (value : Byte) (s : State) : Host.Outcome State Fault Refusal :=
  .next (clientWrite c 0x8004 0 d.val [value] s)

/-- FW_LOAD (R519). -/
def execFwLoad (c : Client) (range : Word64) (s : State) : Host.Outcome State Fault Refusal :=
  .next (clientWrite c 0x8010 0 0 (leBytes 8 range.toNat) s)

/-- FW_UPDATE_ABORT (R521). -/
def execFwUpdateAbort (c : Client) (value : Byte) (s : State) : Host.Outcome State Fault Refusal :=
  .next (clientWrite c 0x8014 0 0 [value] s)

/-- DECK_RETIRE (R527). -/
def execDeckRetire (c : Client) (d : Deck) (value : Byte) (s : State) : Host.Outcome State Fault Refusal :=
  .next (clientWrite c 0x8023 0 d.val [value] s)

/-- SNAPSHOT (R538). -/
def execSnapshot (c : Client) (value : Word32) (s : State) : Host.Outcome State Fault Refusal :=
  .next (clientWrite c 0x8804 0 0 (leBytes 4 value.toNat) s)

/-- CHAIN of an even code on a deck (R536). -/
def execChain (c : Client) (d : Deck) (code : BitVec 16) (value : Byte) (s : State) :
    Host.Outcome State Fault Refusal :=
  .next (clientWrite c 0x8802 (d.val + 1) code.toNat [value] s)

/-- A read of TEST_CHALLENGE (R543). -/
def execTestChallenge (c : Client) (s : State) : Host.Outcome State Fault Refusal :=
  .next (serveBy c.path (readReq c.tag 0x9801 0 0) s)

/-- TEST_UNLOCK (R543, R544). -/
def execTestUnlock (c : Client) (value : Word32) (s : State) : Host.Outcome State Fault Refusal :=
  .next (clientWrite c 0x9800 0 0 (leBytes 4 value.toNat) s)

/-- INT_PIN_CAUSE (R571). -/
def execIntPinCauseClear (c : Client) (value : Byte) (s : State) : Host.Outcome State Fault Refusal :=
  .next (clientWrite c 0x7A20 0 0 [value] s)

end Sys2Proof.Machine
end

