-- ==== Sys2Proof/Machine/Dispatch.lean ====
section
/-! DEFINITION. One arm for each command: a call of its meaning. -/

namespace Sys2Proof.Machine

open Host

def exec (i : Instr) (s : State) : Host.Outcome State Fault Refusal :=
  match i with
  | .read p q => Sys2Proof.Machine.execRead p q s
  | .write p q => Sys2Proof.Machine.execWrite p q s
  | .readSeg p q => Sys2Proof.Machine.execReadSeg p q s
  | .writeSeg p q => Sys2Proof.Machine.execWriteSeg p q s
  | .describe p q => Sys2Proof.Machine.execDescribe p q s
  | .nop p q => Sys2Proof.Machine.execNop p q s
  | .commitNow c g inst => Sys2Proof.Machine.execCommitNow c g inst s
  | .commitAtSchedTime c g inst => Sys2Proof.Machine.execCommitAtSchedTime c g inst s
  | .commitValidated g inst => Sys2Proof.Machine.execCommitValidated g inst s
  | .commitSwitchover g inst => Sys2Proof.Machine.execCommitSwitchover g inst s
  | .abort c g inst value => Sys2Proof.Machine.execAbort c g inst value s
  | .stageExpired g inst => Sys2Proof.Machine.execStageExpired g inst s
  | .vendorUnlock c token => Sys2Proof.Machine.execVendorUnlock c token s
  | .vendorLock c value => Sys2Proof.Machine.execVendorLock c value s
  | .eventsSuppressed => Sys2Proof.Machine.execEventsSuppressed s
  | .mbDoorbell value area => Sys2Proof.Machine.execMbDoorbell value area s
  | .mbRelease value => Sys2Proof.Machine.execMbRelease value s
  | .mbResponseReady slot => Sys2Proof.Machine.execMbResponseReady slot s
  | .mailboxUnserved slot => Sys2Proof.Machine.execMailboxUnserved slot s
  | .twoWireRequest bytes => Sys2Proof.Machine.execTwoWireRequest bytes s
  | .twoWireResponse => Sys2Proof.Machine.execTwoWireResponse s
  | .twoWireUnserved => Sys2Proof.Machine.execTwoWireUnserved s
  | .sclStuckTimeout => Sys2Proof.Machine.execSclStuckTimeout s
  | .alertResponseRead => Sys2Proof.Machine.execAlertResponseRead s
  | .bollardGive value => Sys2Proof.Machine.execBollardGive value s
  | .hostBar2Read offset => Sys2Proof.Machine.execHostBar2Read offset s
  | .hostBar2Write offset data => Sys2Proof.Machine.execHostBar2Write offset data s
  | .pcieReset kind => Sys2Proof.Machine.execPcieReset kind s
  | .pcieLinkDown => Sys2Proof.Machine.execPcieLinkDown s
  | .pciePerst high => Sys2Proof.Machine.execPciePerst high s
  | .vectorCauseClear upper value => Sys2Proof.Machine.execVectorCauseClear upper value s
  | .msixUnmask v => Sys2Proof.Machine.execMsixUnmask v s
  | .ringFlush r => Sys2Proof.Machine.execRingFlush r s
  | .ringDisable c r => Sys2Proof.Machine.execRingDisable c r s
  | .injectRecord k => Sys2Proof.Machine.execInjectRecord k s
  | .tableRequest k => Sys2Proof.Machine.execTableRequest k s
  | .lockBroken table inst index => Sys2Proof.Machine.execLockBroken table inst index s
  | .rawWindowOpen value => Sys2Proof.Machine.execRawWindowOpen value s
  | .rawWindowClose => Sys2Proof.Machine.execRawWindowClose s
  | .restartWarm => Sys2Proof.Machine.execRestartWarm s
  | .restartCold => Sys2Proof.Machine.execRestartCold s
  | .restartColdConfig => Sys2Proof.Machine.execRestartColdConfig s
  | .rawWindowAccess place data => Sys2Proof.Machine.execRawWindowAccess place data s
  | .feErase => Sys2Proof.Machine.execFeErase s
  | .feProgram => Sys2Proof.Machine.execFeProgram s
  | .feDone ok => Sys2Proof.Machine.execFeDone ok s
  | .rxFaultBegin port cause => Sys2Proof.Machine.execRxFaultBegin port cause s
  | .alignmentAcquired port => Sys2Proof.Machine.execAlignmentAcquired port s
  | .trainingFailed port => Sys2Proof.Machine.execTrainingFailed port s
  | .linkDown port => Sys2Proof.Machine.execLinkDown port s
  | .linkUp port => Sys2Proof.Machine.execLinkUp port s
  | .holdExpired port => Sys2Proof.Machine.execHoldExpired port s
  | .linkHoldNsWrite c port value => Sys2Proof.Machine.execLinkHoldNsWrite c port value s
  | .fecUncorrected port corrected uncorrected => Sys2Proof.Machine.execFecUncorrected port corrected uncorrected s
  | .frameFirstCell port data => Sys2Proof.Machine.execFrameFirstCell port data s
  | .frameCell f data => Sys2Proof.Machine.execFrameCell f data s
  | .frameTailRx f fcs => Sys2Proof.Machine.execFrameTailRx f fcs s
  | .macControlRx port data => Sys2Proof.Machine.execMacControlRx port data s
  | .pfcPauseExpired port priority => Sys2Proof.Machine.execPfcPauseExpired port priority s
  | .lpiEnter port => Sys2Proof.Machine.execLpiEnter port s
  | .lpiWakeDone port => Sys2Proof.Machine.execLpiWakeDone port s
  | .parseDispatch f e => Sys2Proof.Machine.execParseDispatch f e s
  | .microNop e => Sys2Proof.Machine.execMicroNop e s
  | .extract e => Sys2Proof.Machine.execExtract e s
  | .movi e => Sys2Proof.Machine.execMovi e s
  | .movhi e => Sys2Proof.Machine.execMovhi e s
  | .add e => Sys2Proof.Machine.execAdd e s
  | .addi e => Sys2Proof.Machine.execAddi e s
  | .sub e => Sys2Proof.Machine.execSub e s
  | .and e => Sys2Proof.Machine.execAnd e s
  | .or e => Sys2Proof.Machine.execOr e s
  | .xor e => Sys2Proof.Machine.execXor e s
  | .andi e => Sys2Proof.Machine.execAndi e s
  | .ori e => Sys2Proof.Machine.execOri e s
  | .shl e => Sys2Proof.Machine.execShl e s
  | .shr e => Sys2Proof.Machine.execShr e s
  | .cmp e => Sys2Proof.Machine.execCmp e s
  | .cmpi e => Sys2Proof.Machine.execCmpi e s
  | .lookup e => Sys2Proof.Machine.execLookup e s
  | .hashadd e => Sys2Proof.Machine.execHashadd e s
  | .keyL3 e => Sys2Proof.Machine.execKeyL3 e s
  | .keyL4 e => Sys2Proof.Machine.execKeyL4 e s
  | .setres e => Sys2Proof.Machine.execSetres e s
  | .mark e => Sys2Proof.Machine.execMark e s
  | .rewrite e => Sys2Proof.Machine.execRewrite e s
  | .push e => Sys2Proof.Machine.execPush e s
  | .pop e => Sys2Proof.Machine.execPop e s
  | .csum4 e => Sys2Proof.Machine.execCsum4 e s
  | .curset e => Sys2Proof.Machine.execCurset e s
  | .xwin e => Sys2Proof.Machine.execXwin e s
  | .rdsave e => Sys2Proof.Machine.execRdsave e s
  | .wrsave e => Sys2Proof.Machine.execWrsave e s
  | .punt e => Sys2Proof.Machine.execPunt e s
  | .drop e => Sys2Proof.Machine.execDrop e s
  | .branch e => Sys2Proof.Machine.execBranch e s
  | .call e => Sys2Proof.Machine.execCall e s
  | .ret e => Sys2Proof.Machine.execRet e s
  | .end_ e => Sys2Proof.Machine.execEnd e s
  | .trapReturn e => Sys2Proof.Machine.execTrapReturn e s
  | .restart e => Sys2Proof.Machine.execRestart e s
  | .lookupResult e first => Sys2Proof.Machine.execLookupResult e first s
  | .lookupTimeout e first => Sys2Proof.Machine.execLookupTimeout e first s
  | .trapEntry e => Sys2Proof.Machine.execTrapEntry e s
  | .cycleLimit e => Sys2Proof.Machine.execCycleLimit e s
  | .controlStoreRepair cl aft addr => Sys2Proof.Machine.execControlStoreRepair cl aft addr s
  | .scrubPass p => Sys2Proof.Machine.execScrubPass p s
  | .ucodeLoad c p range => Sys2Proof.Machine.execUcodeLoad c p range s
  | .ucodeLoaded p readBackFails => Sys2Proof.Machine.execUcodeLoaded p readBackFails s
  | .clusterFence c cl => Sys2Proof.Machine.execClusterFence c cl s
  | .clusterUnfence c cl => Sys2Proof.Machine.execClusterUnfence c cl s
  | .clusterRestored cl => Sys2Proof.Machine.execClusterRestored cl s
  | .homeLearn p => Sys2Proof.Machine.execHomeLearn p s
  | .fdbSweep p => Sys2Proof.Machine.execFdbSweep p s
  | .rehashPass p => Sys2Proof.Machine.execRehashPass p s
  | .homeStageFrame p f => Sys2Proof.Machine.execHomeStageFrame p f s
  | .homeLookupData p f => Sys2Proof.Machine.execHomeLookupData p f s
  | .steeredResolve p f => Sys2Proof.Machine.execSteeredResolve p f s
  | .frameTailHome p f => Sys2Proof.Machine.execFrameTailHome p f s
  | .natColumnOperation op => Sys2Proof.Machine.execNatColumnOperation op s
  | .eviction p => Sys2Proof.Machine.execEviction p s
  | .relocationPass p => Sys2Proof.Machine.execRelocationPass p s
  | .groupFlipFinish p => Sys2Proof.Machine.execGroupFlipFinish p s
  | .flowSweepPass p => Sys2Proof.Machine.execFlowSweepPass p s
  | .consultRequest p f => Sys2Proof.Machine.execConsultRequest p f s
  | .recordTransfer p slot => Sys2Proof.Machine.execRecordTransfer p slot s
  | .transferAck p slot => Sys2Proof.Machine.execTransferAck p slot s
  | .migrationWalk p => Sys2Proof.Machine.execMigrationWalk p s
  | .exportFlush p => Sys2Proof.Machine.execExportFlush p s
  | .exportTemplate p => Sys2Proof.Machine.execExportTemplate p s
  | .slotSend d => Sys2Proof.Machine.execSlotSend d s
  | .slotRetry d => Sys2Proof.Machine.execSlotRetry d s
  | .cellLand src dst f => Sys2Proof.Machine.execCellLand src dst f s
  | .freeCountReport => Sys2Proof.Machine.execFreeCountReport s
  | .reseqHead f => Sys2Proof.Machine.execReseqHead f s
  | .holeNotice port index => Sys2Proof.Machine.execHoleNotice port index s
  | .reseqTimeout port redirect stampPipe cls => Sys2Proof.Machine.execReseqTimeout port redirect stampPipe cls s
  | .creditSend port redirect stampPipe cls n => Sys2Proof.Machine.execCreditSend port redirect stampPipe cls n s
  | .credit p index => Sys2Proof.Machine.execCredit p index s
  | .mcastCopyArrive f d => Sys2Proof.Machine.execMcastCopyArrive f d s
  | .residueServe d index => Sys2Proof.Machine.execResidueServe d index s
  | .residueAged d index => Sys2Proof.Machine.execResidueAged d index s
  | .enqueue f => Sys2Proof.Machine.execEnqueue f s
  | .selection port => Sys2Proof.Machine.execSelection port s
  | .txStartBoundary port => Sys2Proof.Machine.execTxStartBoundary port s
  | .txEnd port => Sys2Proof.Machine.execTxEnd port s
  | .gateEntryChange port => Sys2Proof.Machine.execGateEntryChange port s
  | .gateConfigChanged port => Sys2Proof.Machine.execGateConfigChanged port s
  | .pfcRefresh port => Sys2Proof.Machine.execPfcRefresh port s
  | .hbmRequest pc r write burst => Sys2Proof.Machine.execHbmRequest pc r write burst s
  | .burstComplete pc ecc => Sys2Proof.Machine.execBurstComplete pc ecc s
  | .writeDrainTimeout pc => Sys2Proof.Machine.execWriteDrainTimeout pc s
  | .refreshDue pc => Sys2Proof.Machine.execRefreshDue pc s
  | .hbmTempRead d celsius => Sys2Proof.Machine.execHbmTempRead d celsius s
  | .reqPriorityWrite c limit rr d value => Sys2Proof.Machine.execReqPriorityWrite c limit rr d value s
  | .patrolScrub d ecc => Sys2Proof.Machine.execPatrolScrub d ecc s
  | .spareRequest c pc => Sys2Proof.Machine.execSpareRequest c pc s
  | .spareDone pc => Sys2Proof.Machine.execSpareDone pc s
  | .retrainStep pc failedLane redundantLeft => Sys2Proof.Machine.execRetrainStep pc failedLane redundantLeft s
  | .timeIncrementWrite c value => Sys2Proof.Machine.execTimeIncrementWrite c value s
  | .timeStep c value => Sys2Proof.Machine.execTimeStep c value s
  | .timeHoldEnd => Sys2Proof.Machine.execTimeHoldEnd s
  | .timeForcedStep c value => Sys2Proof.Machine.execTimeForcedStep c value s
  | .timeSet c value => Sys2Proof.Machine.execTimeSet c value s
  | .ptpMessageRx port m => Sys2Proof.Machine.execPtpMessageRx port m s
  | .ptpMessageTx port => Sys2Proof.Machine.execPtpMessageTx port s
  | .timeSourceResumed port => Sys2Proof.Machine.execTimeSourceResumed port s
  | .triggerEdge n => Sys2Proof.Machine.execTriggerEdge n s
  | .triggerPulseEnd n => Sys2Proof.Machine.execTriggerPulseEnd n s
  | .captureEdge n falling => Sys2Proof.Machine.execCaptureEdge n falling s
  | .captureRead c n => Sys2Proof.Machine.execCaptureRead c n s
  | .helloTx port => Sys2Proof.Machine.execHelloTx port s
  | .helloRx port frame => Sys2Proof.Machine.execHelloRx port frame s
  | .adjDead port => Sys2Proof.Machine.execAdjDead port s
  | .claimRx port frame => Sys2Proof.Machine.execClaimRx port frame s
  | .defendRx port frame => Sys2Proof.Machine.execDefendRx port frame s
  | .claimWaitEnd => Sys2Proof.Machine.execClaimWaitEnd s
  | .lsaRx port frame => Sys2Proof.Machine.execLsaRx port frame s
  | .lsaOriginate => Sys2Proof.Machine.execLsaOriginate s
  | .lsaAgeOut origin => Sys2Proof.Machine.execLsaAgeOut origin s
  | .routeCompute => Sys2Proof.Machine.execRouteCompute s
  | .acpRequest port frame => Sys2Proof.Machine.execAcpRequest port frame s
  | .acpResponse port frame => Sys2Proof.Machine.execAcpResponse port frame s
  | .acpProxyRequest c j value => Sys2Proof.Machine.execAcpProxyRequest c j value s
  | .acpProxyTimeout j => Sys2Proof.Machine.execAcpProxyTimeout j s
  | .acpKeyGraceEnd slot => Sys2Proof.Machine.execAcpKeyGraceEnd slot s
  | .refclkLost bit returned => Sys2Proof.Machine.execRefclkLost bit returned s
  | .dozeEnter => Sys2Proof.Machine.execDozeEnter s
  | .moorEnter => Sys2Proof.Machine.execMoorEnter s
  | .moorEntryStepDone => Sys2Proof.Machine.execMoorEntryStepDone s
  | .wake cause => Sys2Proof.Machine.execWake cause s
  | .wakeStepDone => Sys2Proof.Machine.execWakeStepDone s
  | .landingPfcRefresh d => Sys2Proof.Machine.execLandingPfcRefresh d s
  | .gangwayEventAck g => Sys2Proof.Machine.execGangwayEventAck g s
  | .gangwayTimeout g destinationSilent handshake => Sys2Proof.Machine.execGangwayTimeout g destinationSilent handshake s
  | .gangwaySideReset g destination => Sys2Proof.Machine.execGangwaySideReset g destination s
  | .gangwayResync g => Sys2Proof.Machine.execGangwayResync g s
  | .bootStart straps => Sys2Proof.Machine.execBootStart straps s
  | .sysReset lowNs => Sys2Proof.Machine.execSysReset lowNs s
  | .bootStageDone found => Sys2Proof.Machine.execBootStageDone found s
  | .configRecord => Sys2Proof.Machine.execConfigRecord s
  | .rollbackAdvance c value => Sys2Proof.Machine.execRollbackAdvance c value s
  | .keelWrite c index inst value => Sys2Proof.Machine.execKeelWrite c index inst value s
  | .keelWritten => Sys2Proof.Machine.execKeelWritten s
  | .heartbeat d => Sys2Proof.Machine.execHeartbeat d s
  | .pilotFailed d cause => Sys2Proof.Machine.execPilotFailed d cause s
  | .deckAdopt d => Sys2Proof.Machine.execDeckAdopt d s
  | .pilotRelease d => Sys2Proof.Machine.execPilotRelease d s
  | .pilotRestarted d => Sys2Proof.Machine.execPilotRestarted d s
  | .pilotRestart c d value => Sys2Proof.Machine.execPilotRestart c d value s
  | .allPilotsDown => Sys2Proof.Machine.execAllPilotsDown s
  | .fwLoad c range => Sys2Proof.Machine.execFwLoad c range s
  | .fwCheckDone => Sys2Proof.Machine.execFwCheckDone s
  | .fwFlashDone => Sys2Proof.Machine.execFwFlashDone s
  | .fwUpdateAbort c value => Sys2Proof.Machine.execFwUpdateAbort c value s
  | .sramScrub p a ecc => Sys2Proof.Machine.execSramScrub p a ecc s
  | .poisonRepair d => Sys2Proof.Machine.execPoisonRepair d s
  | .directionRetrain d => Sys2Proof.Machine.execDirectionRetrain d s
  | .directionRetrainDone d ok => Sys2Proof.Machine.execDirectionRetrainDone d ok s
  | .directionRetry d => Sys2Proof.Machine.execDirectionRetry d s
  | .pllUnlock d pll => Sys2Proof.Machine.execPllUnlock d pll s
  | .pllRelockTimeout d pll => Sys2Proof.Machine.execPllRelockTimeout d pll s
  | .deckRetire c d value => Sys2Proof.Machine.execDeckRetire c d value s
  | .lostDeckRehome => Sys2Proof.Machine.execLostDeckRehome s
  | .snapshot c value => Sys2Proof.Machine.execSnapshot c value s
  | .chain c d code value => Sys2Proof.Machine.execChain c d code value s
  | .bwWindowEnd => Sys2Proof.Machine.execBwWindowEnd s
  | .testChallenge c => Sys2Proof.Machine.execTestChallenge c s
  | .testUnlock c value => Sys2Proof.Machine.execTestUnlock c value s
  | .testLocked => Sys2Proof.Machine.execTestLocked s
  | .powerLoss cause => Sys2Proof.Machine.execPowerLoss cause s
  | .supplyOutOfRange rail millivolt => Sys2Proof.Machine.execSupplyOutOfRange rail millivolt s
  | .junctionTempRead milliC => Sys2Proof.Machine.execJunctionTempRead milliC s
  | .thermalShutdown => Sys2Proof.Machine.execThermalShutdown s
  | .intPinCauseClear c value => Sys2Proof.Machine.execIntPinCauseClear c value s
  | .bypass => Sys2Proof.Machine.execBypass s
  | .idcode => Sys2Proof.Machine.execIdcode s
  | .samplePreload => Sys2Proof.Machine.execSamplePreload s
  | .extest lanes => Sys2Proof.Machine.execExtest lanes s
  | .extestPulse lanes => Sys2Proof.Machine.execExtestPulse lanes s
  | .extestTrain lanes => Sys2Proof.Machine.execExtestTrain lanes s
  | .clamp lanes => Sys2Proof.Machine.execClamp lanes s
  | .highz lanes => Sys2Proof.Machine.execHighz lanes s
  | .acpUnserved index => Sys2Proof.Machine.execAcpUnserved index s
  | .fwRestartTimeout d => Sys2Proof.Machine.execFwRestartTimeout d s
  | .pllRelocked d pll => Sys2Proof.Machine.execPllRelocked d pll s
  | .twoWireResponseReady => Sys2Proof.Machine.execTwoWireResponseReady s
  | .rollbackAdvanced => Sys2Proof.Machine.execRollbackAdvanced s
  | .vddioReturned => Sys2Proof.Machine.execVddioReturned s

end Sys2Proof.Machine
end

