-- ==== Sys2Proof/Machine/Tick.lean ====
section
/-! DEFINITION. What one tick of the clocks does by itself (log entry 2): the counters of time (13), the memory
controllers (R389, R394), the idle time (R469), and the slots of the engines that have no frame (R539). -/

namespace Sys2Proof.Machine

/-- Engines of a pipe that have no frame and belong to an in-service cluster (R539, R176). -/
def State.idleEngines (s : State) (p : Nat) : Nat :=
  let busy := (s.parse.engines.filter fun e =>
    e.1 / 128 == p && s.get Obj.clusterState (e.1 / 16) == 0).length
  16 * s.clustersUp p - busy

/-- Count the cycle of a pipe's engines that have no frame (R539); the cycles of the others are counted by their own
commands. -/
def countIdle (s : State) (p : Nat) : State :=
  if s.deckUp (p / 2) ∧ s.ticking (p / 2) ∧ s.idleEngines p ≠ 0 then
    ((s.add Obj.slotsFront p (s.idleEngines p)).add Obj.slotsTotal p (s.idleEngines p))
  else s

/-- One tick: nothing while the device is held in reset or without power; else the counters of time, the commits whose t_c
has come (R79, R580), the memory controllers (R386 to R395), the gates of frames in transmission (R369), the idle time
and, out of Doze and Moor, the slots.
(DESIGN CHOICE: log entry 2.) -/
def tick (s : State) : State :=
  if s.boot.held then s
  else
    let s := noteIdle (switchDue (timeTick s))
    let s := noteOverruns (hbmTick s)
    if s.awake then (List.range 8).foldl countIdle s else s

end Sys2Proof.Machine
end

