-- ==== Sys2Proof/Laws/Maps.lean ====
section
/-! SUPPORT. Laws of the sparse maps: what is read after a write, and that every operation keeps the canonical form
(keys strictly rising, no entry equal to what an unlisted key reads as). -/

namespace Sys2Proof.Machine

section
variable {α : Type}

@[simp] theorem NMap.find_nil (k : Nat) : NMap.find ([] : NMap α) k = none := rfl

theorem NMap.find_put (m : NMap α) (k : Nat) (v : α) (j : Nat) :
    (m.put k v).find j = if j = k then some v else m.find j := by
  induction m with
  | nil =>
    by_cases h : j = k
    · simp [NMap.put, NMap.find, h]
    · simp [NMap.put, NMap.find, h, Ne.symm h]
  | cons p m ih =>
    obtain ⟨i, w⟩ := p
    simp only [NMap.put]
    split
    · by_cases h : j = k
      · simp [NMap.find, h]
      · simp [NMap.find, h, eq_comm (a := k)]
    · split
      · subst_vars
        by_cases h : j = i
        · simp [NMap.find, h]
        · simp [NMap.find, h, eq_comm (a := i)]
      · by_cases h : i = j
        · subst h; simp_all [NMap.find, eq_comm]
        · simp [NMap.find, h, ih]

theorem NMap.find_del (m : NMap α) (k j : Nat) : (m.del k).find j = if j = k then none else m.find j := by
  induction m with
  | nil => simp [NMap.del]
  | cons p m ih =>
    obtain ⟨i, w⟩ := p
    simp only [NMap.del]
    split
    · subst_vars
      by_cases h : j = i
      · subst h; simpa using ih
      · simp [ih, h, NMap.find, eq_comm (a := i)]
    · by_cases h : i = j
      · subst h; simp_all [NMap.find]
      · simp [NMap.find, h, ih]

@[simp] theorem NMap.find_put_same (m : NMap α) (k : Nat) (v : α) : (m.put k v).find k = some v := by
  simp [NMap.find_put]

theorem NMap.find_put_other (m : NMap α) {k j : Nat} (v : α) (h : j ≠ k) : (m.put k v).find j = m.find j := by
  simp [NMap.find_put, h]

@[simp] theorem NMap.find_del_same (m : NMap α) (k : Nat) : (m.del k).find k = none := by simp [NMap.find_del]

@[simp] theorem NMap.getD_nil (k : Nat) (d : α) : NMap.getD [] k d = d := rfl

theorem NMap.getD_put (m : NMap α) (k : Nat) (v : α) (j : Nat) (d : α) :
    (m.put k v).getD j d = if j = k then v else m.getD j d := by
  unfold NMap.getD; rw [NMap.find_put]; split <;> simp

/-- A write is read back, and every other key reads as before. -/
theorem NMap.getD_set [DecidableEq α] (d : α) (m : NMap α) (k : Nat) (v : α) (j : Nat) :
    (NMap.set d m k v).getD j d = if j = k then v else m.getD j d := by
  unfold NMap.set NMap.getD
  split
  · rw [NMap.find_del]; split <;> simp_all
  · rw [NMap.find_put]; split <;> simp

@[simp] theorem NMap.getD_set_same [DecidableEq α] (d : α) (m : NMap α) (k : Nat) (v : α) :
    (NMap.set d m k v).getD k d = v := by simp [NMap.getD_set]

theorem NMap.getD_set_other [DecidableEq α] (d : α) (m : NMap α) {k j : Nat} (v : α) (h : j ≠ k) :
    (NMap.set d m k v).getD j d = m.getD j d := by simp [NMap.getD_set, h]

/-- Where `e` is not the value an unlisted key is written for, a write leaves every other key's reading alone. -/
theorem NMap.find_set_other [DecidableEq α] (d : α) (m : NMap α) {k j : Nat} (v : α) (h : j ≠ k) :
    (NMap.set d m k v).find j = m.find j := by
  unfold NMap.set; split
  · simp [NMap.find_del, h]
  · simp [NMap.find_put, h]

theorem NMap.getD_modify [DecidableEq α] (d : α) (m : NMap α) (k : Nat) (f : α → α) (j : Nat) :
    (NMap.modify d m k f).getD j d = if j = k then f (m.getD k d) else m.getD j d := by
  simp [NMap.modify, NMap.getD_set]

/-! ### The canonical form -/

theorem NMap.risingFrom_mono {lo lo' : Nat} {m : NMap α} (h : lo' ≤ lo) (hm : NMap.risingFrom lo m = true) :
    NMap.risingFrom lo' m = true := by
  cases m with
  | nil => rfl
  | cons p m => simp only [NMap.risingFrom, Bool.and_eq_true, decide_eq_true_eq] at *; exact ⟨by omega, hm.2⟩

theorem NMap.wf_of_risingFrom {lo : Nat} {m : NMap α} (h : NMap.risingFrom lo m = true) : NMap.wf m = true := by
  cases m with
  | nil => rfl
  | cons p m => simp only [NMap.risingFrom, Bool.and_eq_true] at h; exact h.2

theorem NMap.risingFrom_put {lo : Nat} {m : NMap α} {k : Nat} (v : α) (hk : lo < k)
    (h : NMap.risingFrom lo m = true) : NMap.risingFrom lo (m.put k v) = true := by
  induction m generalizing lo with
  | nil => simp [NMap.put, NMap.risingFrom, hk]
  | cons p m ih =>
    obtain ⟨i, w⟩ := p
    simp only [NMap.risingFrom, Bool.and_eq_true, decide_eq_true_eq] at h
    simp only [NMap.put]
    split
    · simp_all [NMap.risingFrom]
    · split
      · subst_vars; simp_all [NMap.risingFrom]
      · simp only [NMap.risingFrom, Bool.and_eq_true, decide_eq_true_eq]; exact ⟨h.1, ih (by omega) h.2⟩

theorem NMap.wf_put {m : NMap α} (k : Nat) (v : α) (h : m.wf = true) : (m.put k v).wf = true := by
  cases m with
  | nil => rfl
  | cons p m =>
    obtain ⟨i, w⟩ := p
    simp only [NMap.put]
    split
    · simp_all [NMap.wf, NMap.risingFrom]
    · split
      · subst_vars; exact h
      · exact NMap.risingFrom_put v (by omega) h

theorem NMap.risingFrom_filter {lo : Nat} {m : NMap α} (f : Nat × α → Bool) (h : NMap.risingFrom lo m = true) :
    NMap.risingFrom lo (m.filter f) = true := by
  induction m generalizing lo with
  | nil => rfl
  | cons p m ih =>
    simp only [NMap.risingFrom, Bool.and_eq_true, decide_eq_true_eq] at h
    rw [List.filter_cons]
    split
    · simp only [NMap.risingFrom, Bool.and_eq_true, decide_eq_true_eq]; exact ⟨h.1, ih h.2⟩
    · exact NMap.risingFrom_mono (Nat.le_of_lt h.1) (ih h.2)

theorem NMap.wf_filter {m : NMap α} (f : Nat × α → Bool) (h : m.wf = true) : NMap.wf (m.filter f) = true := by
  cases m with
  | nil => rfl
  | cons p m =>
    rw [List.filter_cons]
    split
    · exact NMap.risingFrom_filter f h
    · exact NMap.wf_of_risingFrom (NMap.risingFrom_filter f h)

theorem NMap.del_eq_filter (m : NMap α) (k : Nat) : m.del k = m.filter fun p => !decide (p.1 = k) := by
  induction m with
  | nil => rfl
  | cons p m ih =>
    obtain ⟨i, w⟩ := p
    simp only [NMap.del, List.filter_cons]
    split <;> simp_all

theorem NMap.wf_del {m : NMap α} (k : Nat) (h : m.wf = true) : (m.del k).wf = true := by
  rw [NMap.del_eq_filter]; exact NMap.wf_filter _ h

theorem NMap.wf_set [DecidableEq α] (d : α) {m : NMap α} (k : Nat) (v : α) (h : m.wf = true) :
    (NMap.set d m k v).wf = true := by
  unfold NMap.set; split
  · exact NMap.wf_del k h
  · exact NMap.wf_put k v h

theorem NMap.wf_delRange {m : NMap α} (lo n : Nat) (h : m.wf = true) : (m.delRange lo n).wf = true := NMap.wf_filter _ h

theorem NMap.wf_inRange {m : NMap α} (lo n : Nat) (h : m.wf = true) : (m.inRange lo n).wf = true := NMap.wf_filter _ h

theorem NMap.lean_put [DecidableEq α] {d : α} {m : NMap α} (k : Nat) {v : α} (hv : v ≠ d) (h : NMap.lean d m = true) :
    NMap.lean d (m.put k v) = true := by
  induction m with
  | nil => simp [NMap.put, NMap.lean, hv]
  | cons p m ih =>
    obtain ⟨i, w⟩ := p
    have hw : w ≠ d := by simpa using (List.all_eq_true.mp h) (i, w) (by simp)
    have hm : NMap.lean d m = true := by simp only [NMap.lean, List.all_cons, Bool.and_eq_true] at h; exact h.2
    simp only [NMap.put]
    split
    · simp only [NMap.lean, List.all_cons, Bool.and_eq_true, decide_eq_true_eq]; exact ⟨hv, hw, hm⟩
    · split <;> simp only [NMap.lean, List.all_cons, Bool.and_eq_true, decide_eq_true_eq]
      · exact ⟨hv, hm⟩
      · exact ⟨hw, ih hm⟩

theorem NMap.lean_filter [DecidableEq α] {d : α} {m : NMap α} (f : Nat × α → Bool) (h : NMap.lean d m = true) :
    NMap.lean d (m.filter f) = true := by
  simp only [NMap.lean, List.all_eq_true] at *
  exact fun p hp => h p (List.mem_filter.mp hp).1

/-- The one write of a byte memory keeps its whole canonical form. -/
theorem NMap.lean_set [DecidableEq α] {d : α} {m : NMap α} (k : Nat) (v : α) (h : NMap.lean d m = true) :
    NMap.lean d (NMap.set d m k v) = true := by
  unfold NMap.set; split
  · rw [NMap.del_eq_filter]; exact NMap.lean_filter _ h
  · exact NMap.lean_put k ‹_› h

end

end Sys2Proof.Machine
end

