-- ==== Sys2Proof/Laws/State.lean ====
section
/-! SUPPORT. One law for each field under each update of the state: every one holds by `rfl`, and no later proof unfolds
a record update. -/

namespace Sys2Proof.Machine

/-! ### `withDict` -/

@[simp] theorem State.withDict_pending (s : State) (x : Dict) : (s.withDict x).pending = s.pending := rfl
@[simp] theorem State.withDict_dict (s : State) (x : Dict) : (s.withDict x).dict = x := rfl
@[simp] theorem State.withDict_events (s : State) (x : Dict) : (s.withDict x).events = s.events := rfl
@[simp] theorem State.withDict_host (s : State) (x : Dict) : (s.withDict x).host = s.host := rfl
@[simp] theorem State.withDict_tw (s : State) (x : Dict) : (s.withDict x).tw = s.tw := rfl
@[simp] theorem State.withDict_time (s : State) (x : Dict) : (s.withDict x).time = s.time := rfl
@[simp] theorem State.withDict_ptp (s : State) (x : Dict) : (s.withDict x).ptp = s.ptp := rfl
@[simp] theorem State.withDict_links (s : State) (x : Dict) : (s.withDict x).links = s.links := rfl
@[simp] theorem State.withDict_frames (s : State) (x : Dict) : (s.withDict x).frames = s.frames := rfl
@[simp] theorem State.withDict_nextFrame (s : State) (x : Dict) : (s.withDict x).nextFrame = s.nextFrame := rfl
@[simp] theorem State.withDict_parse (s : State) (x : Dict) : (s.withDict x).parse = s.parse := rfl
@[simp] theorem State.withDict_tables (s : State) (x : Dict) : (s.withDict x).tables = s.tables := rfl
@[simp] theorem State.withDict_flow (s : State) (x : Dict) : (s.withDict x).flow = s.flow := rfl
@[simp] theorem State.withDict_exports (s : State) (x : Dict) : (s.withDict x).exports = s.exports := rfl
@[simp] theorem State.withDict_cross (s : State) (x : Dict) : (s.withDict x).cross = s.cross := rfl
@[simp] theorem State.withDict_tm (s : State) (x : Dict) : (s.withDict x).tm = s.tm := rfl
@[simp] theorem State.withDict_hbm (s : State) (x : Dict) : (s.withDict x).hbm = s.hbm := rfl
@[simp] theorem State.withDict_fabric (s : State) (x : Dict) : (s.withDict x).fabric = s.fabric := rfl
@[simp] theorem State.withDict_sleep (s : State) (x : Dict) : (s.withDict x).sleep = s.sleep := rfl
@[simp] theorem State.withDict_boot (s : State) (x : Dict) : (s.withDict x).boot = s.boot := rfl
@[simp] theorem State.withDict_avail (s : State) (x : Dict) : (s.withDict x).avail = s.avail := rfl
@[simp] theorem State.withDict_count (s : State) (x : Dict) : (s.withDict x).count = s.count := rfl
@[simp] theorem State.withDict_power (s : State) (x : Dict) : (s.withDict x).power = s.power := rfl
@[simp] theorem State.withDict_drawn (s : State) (x : Dict) : (s.withDict x).drawn = s.drawn := rfl
@[simp] theorem State.withDict_withDict_again (s : State) (x y : Dict) : (s.withDict x).withDict y = s.withDict y := rfl

/-! ### `withEvents` -/

@[simp] theorem State.withEvents_pending (s : State) (x : Events) : (s.withEvents x).pending = s.pending := rfl
@[simp] theorem State.withEvents_dict (s : State) (x : Events) : (s.withEvents x).dict = s.dict := rfl
@[simp] theorem State.withEvents_events (s : State) (x : Events) : (s.withEvents x).events = x := rfl
@[simp] theorem State.withEvents_host (s : State) (x : Events) : (s.withEvents x).host = s.host := rfl
@[simp] theorem State.withEvents_tw (s : State) (x : Events) : (s.withEvents x).tw = s.tw := rfl
@[simp] theorem State.withEvents_time (s : State) (x : Events) : (s.withEvents x).time = s.time := rfl
@[simp] theorem State.withEvents_ptp (s : State) (x : Events) : (s.withEvents x).ptp = s.ptp := rfl
@[simp] theorem State.withEvents_links (s : State) (x : Events) : (s.withEvents x).links = s.links := rfl
@[simp] theorem State.withEvents_frames (s : State) (x : Events) : (s.withEvents x).frames = s.frames := rfl
@[simp] theorem State.withEvents_nextFrame (s : State) (x : Events) : (s.withEvents x).nextFrame = s.nextFrame := rfl
@[simp] theorem State.withEvents_parse (s : State) (x : Events) : (s.withEvents x).parse = s.parse := rfl
@[simp] theorem State.withEvents_tables (s : State) (x : Events) : (s.withEvents x).tables = s.tables := rfl
@[simp] theorem State.withEvents_flow (s : State) (x : Events) : (s.withEvents x).flow = s.flow := rfl
@[simp] theorem State.withEvents_exports (s : State) (x : Events) : (s.withEvents x).exports = s.exports := rfl
@[simp] theorem State.withEvents_cross (s : State) (x : Events) : (s.withEvents x).cross = s.cross := rfl
@[simp] theorem State.withEvents_tm (s : State) (x : Events) : (s.withEvents x).tm = s.tm := rfl
@[simp] theorem State.withEvents_hbm (s : State) (x : Events) : (s.withEvents x).hbm = s.hbm := rfl
@[simp] theorem State.withEvents_fabric (s : State) (x : Events) : (s.withEvents x).fabric = s.fabric := rfl
@[simp] theorem State.withEvents_sleep (s : State) (x : Events) : (s.withEvents x).sleep = s.sleep := rfl
@[simp] theorem State.withEvents_boot (s : State) (x : Events) : (s.withEvents x).boot = s.boot := rfl
@[simp] theorem State.withEvents_avail (s : State) (x : Events) : (s.withEvents x).avail = s.avail := rfl
@[simp] theorem State.withEvents_count (s : State) (x : Events) : (s.withEvents x).count = s.count := rfl
@[simp] theorem State.withEvents_power (s : State) (x : Events) : (s.withEvents x).power = s.power := rfl
@[simp] theorem State.withEvents_drawn (s : State) (x : Events) : (s.withEvents x).drawn = s.drawn := rfl
@[simp] theorem State.withEvents_withEvents_again (s : State) (x y : Events) : (s.withEvents x).withEvents y = s.withEvents y := rfl

/-! ### `withHost` -/

@[simp] theorem State.withHost_pending (s : State) (x : HostIf) : (s.withHost x).pending = s.pending := rfl
@[simp] theorem State.withHost_dict (s : State) (x : HostIf) : (s.withHost x).dict = s.dict := rfl
@[simp] theorem State.withHost_events (s : State) (x : HostIf) : (s.withHost x).events = s.events := rfl
@[simp] theorem State.withHost_host (s : State) (x : HostIf) : (s.withHost x).host = x := rfl
@[simp] theorem State.withHost_tw (s : State) (x : HostIf) : (s.withHost x).tw = s.tw := rfl
@[simp] theorem State.withHost_time (s : State) (x : HostIf) : (s.withHost x).time = s.time := rfl
@[simp] theorem State.withHost_ptp (s : State) (x : HostIf) : (s.withHost x).ptp = s.ptp := rfl
@[simp] theorem State.withHost_links (s : State) (x : HostIf) : (s.withHost x).links = s.links := rfl
@[simp] theorem State.withHost_frames (s : State) (x : HostIf) : (s.withHost x).frames = s.frames := rfl
@[simp] theorem State.withHost_nextFrame (s : State) (x : HostIf) : (s.withHost x).nextFrame = s.nextFrame := rfl
@[simp] theorem State.withHost_parse (s : State) (x : HostIf) : (s.withHost x).parse = s.parse := rfl
@[simp] theorem State.withHost_tables (s : State) (x : HostIf) : (s.withHost x).tables = s.tables := rfl
@[simp] theorem State.withHost_flow (s : State) (x : HostIf) : (s.withHost x).flow = s.flow := rfl
@[simp] theorem State.withHost_exports (s : State) (x : HostIf) : (s.withHost x).exports = s.exports := rfl
@[simp] theorem State.withHost_cross (s : State) (x : HostIf) : (s.withHost x).cross = s.cross := rfl
@[simp] theorem State.withHost_tm (s : State) (x : HostIf) : (s.withHost x).tm = s.tm := rfl
@[simp] theorem State.withHost_hbm (s : State) (x : HostIf) : (s.withHost x).hbm = s.hbm := rfl
@[simp] theorem State.withHost_fabric (s : State) (x : HostIf) : (s.withHost x).fabric = s.fabric := rfl
@[simp] theorem State.withHost_sleep (s : State) (x : HostIf) : (s.withHost x).sleep = s.sleep := rfl
@[simp] theorem State.withHost_boot (s : State) (x : HostIf) : (s.withHost x).boot = s.boot := rfl
@[simp] theorem State.withHost_avail (s : State) (x : HostIf) : (s.withHost x).avail = s.avail := rfl
@[simp] theorem State.withHost_count (s : State) (x : HostIf) : (s.withHost x).count = s.count := rfl
@[simp] theorem State.withHost_power (s : State) (x : HostIf) : (s.withHost x).power = s.power := rfl
@[simp] theorem State.withHost_drawn (s : State) (x : HostIf) : (s.withHost x).drawn = s.drawn := rfl
@[simp] theorem State.withHost_withHost_again (s : State) (x y : HostIf) : (s.withHost x).withHost y = s.withHost y := rfl

/-! ### `withTw` -/

@[simp] theorem State.withTw_pending (s : State) (x : TwoWire) : (s.withTw x).pending = s.pending := rfl
@[simp] theorem State.withTw_dict (s : State) (x : TwoWire) : (s.withTw x).dict = s.dict := rfl
@[simp] theorem State.withTw_events (s : State) (x : TwoWire) : (s.withTw x).events = s.events := rfl
@[simp] theorem State.withTw_host (s : State) (x : TwoWire) : (s.withTw x).host = s.host := rfl
@[simp] theorem State.withTw_tw (s : State) (x : TwoWire) : (s.withTw x).tw = x := rfl
@[simp] theorem State.withTw_time (s : State) (x : TwoWire) : (s.withTw x).time = s.time := rfl
@[simp] theorem State.withTw_ptp (s : State) (x : TwoWire) : (s.withTw x).ptp = s.ptp := rfl
@[simp] theorem State.withTw_links (s : State) (x : TwoWire) : (s.withTw x).links = s.links := rfl
@[simp] theorem State.withTw_frames (s : State) (x : TwoWire) : (s.withTw x).frames = s.frames := rfl
@[simp] theorem State.withTw_nextFrame (s : State) (x : TwoWire) : (s.withTw x).nextFrame = s.nextFrame := rfl
@[simp] theorem State.withTw_parse (s : State) (x : TwoWire) : (s.withTw x).parse = s.parse := rfl
@[simp] theorem State.withTw_tables (s : State) (x : TwoWire) : (s.withTw x).tables = s.tables := rfl
@[simp] theorem State.withTw_flow (s : State) (x : TwoWire) : (s.withTw x).flow = s.flow := rfl
@[simp] theorem State.withTw_exports (s : State) (x : TwoWire) : (s.withTw x).exports = s.exports := rfl
@[simp] theorem State.withTw_cross (s : State) (x : TwoWire) : (s.withTw x).cross = s.cross := rfl
@[simp] theorem State.withTw_tm (s : State) (x : TwoWire) : (s.withTw x).tm = s.tm := rfl
@[simp] theorem State.withTw_hbm (s : State) (x : TwoWire) : (s.withTw x).hbm = s.hbm := rfl
@[simp] theorem State.withTw_fabric (s : State) (x : TwoWire) : (s.withTw x).fabric = s.fabric := rfl
@[simp] theorem State.withTw_sleep (s : State) (x : TwoWire) : (s.withTw x).sleep = s.sleep := rfl
@[simp] theorem State.withTw_boot (s : State) (x : TwoWire) : (s.withTw x).boot = s.boot := rfl
@[simp] theorem State.withTw_avail (s : State) (x : TwoWire) : (s.withTw x).avail = s.avail := rfl
@[simp] theorem State.withTw_count (s : State) (x : TwoWire) : (s.withTw x).count = s.count := rfl
@[simp] theorem State.withTw_power (s : State) (x : TwoWire) : (s.withTw x).power = s.power := rfl
@[simp] theorem State.withTw_drawn (s : State) (x : TwoWire) : (s.withTw x).drawn = s.drawn := rfl
@[simp] theorem State.withTw_withTw_again (s : State) (x y : TwoWire) : (s.withTw x).withTw y = s.withTw y := rfl

/-! ### `withTime` -/

@[simp] theorem State.withTime_pending (s : State) (x : Time) : (s.withTime x).pending = s.pending := rfl
@[simp] theorem State.withTime_dict (s : State) (x : Time) : (s.withTime x).dict = s.dict := rfl
@[simp] theorem State.withTime_events (s : State) (x : Time) : (s.withTime x).events = s.events := rfl
@[simp] theorem State.withTime_host (s : State) (x : Time) : (s.withTime x).host = s.host := rfl
@[simp] theorem State.withTime_tw (s : State) (x : Time) : (s.withTime x).tw = s.tw := rfl
@[simp] theorem State.withTime_time (s : State) (x : Time) : (s.withTime x).time = x := rfl
@[simp] theorem State.withTime_ptp (s : State) (x : Time) : (s.withTime x).ptp = s.ptp := rfl
@[simp] theorem State.withTime_links (s : State) (x : Time) : (s.withTime x).links = s.links := rfl
@[simp] theorem State.withTime_frames (s : State) (x : Time) : (s.withTime x).frames = s.frames := rfl
@[simp] theorem State.withTime_nextFrame (s : State) (x : Time) : (s.withTime x).nextFrame = s.nextFrame := rfl
@[simp] theorem State.withTime_parse (s : State) (x : Time) : (s.withTime x).parse = s.parse := rfl
@[simp] theorem State.withTime_tables (s : State) (x : Time) : (s.withTime x).tables = s.tables := rfl
@[simp] theorem State.withTime_flow (s : State) (x : Time) : (s.withTime x).flow = s.flow := rfl
@[simp] theorem State.withTime_exports (s : State) (x : Time) : (s.withTime x).exports = s.exports := rfl
@[simp] theorem State.withTime_cross (s : State) (x : Time) : (s.withTime x).cross = s.cross := rfl
@[simp] theorem State.withTime_tm (s : State) (x : Time) : (s.withTime x).tm = s.tm := rfl
@[simp] theorem State.withTime_hbm (s : State) (x : Time) : (s.withTime x).hbm = s.hbm := rfl
@[simp] theorem State.withTime_fabric (s : State) (x : Time) : (s.withTime x).fabric = s.fabric := rfl
@[simp] theorem State.withTime_sleep (s : State) (x : Time) : (s.withTime x).sleep = s.sleep := rfl
@[simp] theorem State.withTime_boot (s : State) (x : Time) : (s.withTime x).boot = s.boot := rfl
@[simp] theorem State.withTime_avail (s : State) (x : Time) : (s.withTime x).avail = s.avail := rfl
@[simp] theorem State.withTime_count (s : State) (x : Time) : (s.withTime x).count = s.count := rfl
@[simp] theorem State.withTime_power (s : State) (x : Time) : (s.withTime x).power = s.power := rfl
@[simp] theorem State.withTime_drawn (s : State) (x : Time) : (s.withTime x).drawn = s.drawn := rfl
@[simp] theorem State.withTime_withTime_again (s : State) (x y : Time) : (s.withTime x).withTime y = s.withTime y := rfl

/-! ### `withParse` -/

@[simp] theorem State.withParse_pending (s : State) (x : Parse) : (s.withParse x).pending = s.pending := rfl
@[simp] theorem State.withParse_dict (s : State) (x : Parse) : (s.withParse x).dict = s.dict := rfl
@[simp] theorem State.withParse_events (s : State) (x : Parse) : (s.withParse x).events = s.events := rfl
@[simp] theorem State.withParse_host (s : State) (x : Parse) : (s.withParse x).host = s.host := rfl
@[simp] theorem State.withParse_tw (s : State) (x : Parse) : (s.withParse x).tw = s.tw := rfl
@[simp] theorem State.withParse_time (s : State) (x : Parse) : (s.withParse x).time = s.time := rfl
@[simp] theorem State.withParse_ptp (s : State) (x : Parse) : (s.withParse x).ptp = s.ptp := rfl
@[simp] theorem State.withParse_links (s : State) (x : Parse) : (s.withParse x).links = s.links := rfl
@[simp] theorem State.withParse_frames (s : State) (x : Parse) : (s.withParse x).frames = s.frames := rfl
@[simp] theorem State.withParse_nextFrame (s : State) (x : Parse) : (s.withParse x).nextFrame = s.nextFrame := rfl
@[simp] theorem State.withParse_parse (s : State) (x : Parse) : (s.withParse x).parse = x := rfl
@[simp] theorem State.withParse_tables (s : State) (x : Parse) : (s.withParse x).tables = s.tables := rfl
@[simp] theorem State.withParse_flow (s : State) (x : Parse) : (s.withParse x).flow = s.flow := rfl
@[simp] theorem State.withParse_exports (s : State) (x : Parse) : (s.withParse x).exports = s.exports := rfl
@[simp] theorem State.withParse_cross (s : State) (x : Parse) : (s.withParse x).cross = s.cross := rfl
@[simp] theorem State.withParse_tm (s : State) (x : Parse) : (s.withParse x).tm = s.tm := rfl
@[simp] theorem State.withParse_hbm (s : State) (x : Parse) : (s.withParse x).hbm = s.hbm := rfl
@[simp] theorem State.withParse_fabric (s : State) (x : Parse) : (s.withParse x).fabric = s.fabric := rfl
@[simp] theorem State.withParse_sleep (s : State) (x : Parse) : (s.withParse x).sleep = s.sleep := rfl
@[simp] theorem State.withParse_boot (s : State) (x : Parse) : (s.withParse x).boot = s.boot := rfl
@[simp] theorem State.withParse_avail (s : State) (x : Parse) : (s.withParse x).avail = s.avail := rfl
@[simp] theorem State.withParse_count (s : State) (x : Parse) : (s.withParse x).count = s.count := rfl
@[simp] theorem State.withParse_power (s : State) (x : Parse) : (s.withParse x).power = s.power := rfl
@[simp] theorem State.withParse_drawn (s : State) (x : Parse) : (s.withParse x).drawn = s.drawn := rfl
@[simp] theorem State.withParse_withParse_again (s : State) (x y : Parse) : (s.withParse x).withParse y = s.withParse y := rfl

/-! ### `withFlow` -/

@[simp] theorem State.withFlow_pending (s : State) (x : Flow) : (s.withFlow x).pending = s.pending := rfl
@[simp] theorem State.withFlow_dict (s : State) (x : Flow) : (s.withFlow x).dict = s.dict := rfl
@[simp] theorem State.withFlow_events (s : State) (x : Flow) : (s.withFlow x).events = s.events := rfl
@[simp] theorem State.withFlow_host (s : State) (x : Flow) : (s.withFlow x).host = s.host := rfl
@[simp] theorem State.withFlow_tw (s : State) (x : Flow) : (s.withFlow x).tw = s.tw := rfl
@[simp] theorem State.withFlow_time (s : State) (x : Flow) : (s.withFlow x).time = s.time := rfl
@[simp] theorem State.withFlow_ptp (s : State) (x : Flow) : (s.withFlow x).ptp = s.ptp := rfl
@[simp] theorem State.withFlow_links (s : State) (x : Flow) : (s.withFlow x).links = s.links := rfl
@[simp] theorem State.withFlow_frames (s : State) (x : Flow) : (s.withFlow x).frames = s.frames := rfl
@[simp] theorem State.withFlow_nextFrame (s : State) (x : Flow) : (s.withFlow x).nextFrame = s.nextFrame := rfl
@[simp] theorem State.withFlow_parse (s : State) (x : Flow) : (s.withFlow x).parse = s.parse := rfl
@[simp] theorem State.withFlow_tables (s : State) (x : Flow) : (s.withFlow x).tables = s.tables := rfl
@[simp] theorem State.withFlow_flow (s : State) (x : Flow) : (s.withFlow x).flow = x := rfl
@[simp] theorem State.withFlow_exports (s : State) (x : Flow) : (s.withFlow x).exports = s.exports := rfl
@[simp] theorem State.withFlow_cross (s : State) (x : Flow) : (s.withFlow x).cross = s.cross := rfl
@[simp] theorem State.withFlow_tm (s : State) (x : Flow) : (s.withFlow x).tm = s.tm := rfl
@[simp] theorem State.withFlow_hbm (s : State) (x : Flow) : (s.withFlow x).hbm = s.hbm := rfl
@[simp] theorem State.withFlow_fabric (s : State) (x : Flow) : (s.withFlow x).fabric = s.fabric := rfl
@[simp] theorem State.withFlow_sleep (s : State) (x : Flow) : (s.withFlow x).sleep = s.sleep := rfl
@[simp] theorem State.withFlow_boot (s : State) (x : Flow) : (s.withFlow x).boot = s.boot := rfl
@[simp] theorem State.withFlow_avail (s : State) (x : Flow) : (s.withFlow x).avail = s.avail := rfl
@[simp] theorem State.withFlow_count (s : State) (x : Flow) : (s.withFlow x).count = s.count := rfl
@[simp] theorem State.withFlow_power (s : State) (x : Flow) : (s.withFlow x).power = s.power := rfl
@[simp] theorem State.withFlow_drawn (s : State) (x : Flow) : (s.withFlow x).drawn = s.drawn := rfl
@[simp] theorem State.withFlow_withFlow_again (s : State) (x y : Flow) : (s.withFlow x).withFlow y = s.withFlow y := rfl

/-! ### `withCross` -/

@[simp] theorem State.withCross_pending (s : State) (x : Crossing) : (s.withCross x).pending = s.pending := rfl
@[simp] theorem State.withCross_dict (s : State) (x : Crossing) : (s.withCross x).dict = s.dict := rfl
@[simp] theorem State.withCross_events (s : State) (x : Crossing) : (s.withCross x).events = s.events := rfl
@[simp] theorem State.withCross_host (s : State) (x : Crossing) : (s.withCross x).host = s.host := rfl
@[simp] theorem State.withCross_tw (s : State) (x : Crossing) : (s.withCross x).tw = s.tw := rfl
@[simp] theorem State.withCross_time (s : State) (x : Crossing) : (s.withCross x).time = s.time := rfl
@[simp] theorem State.withCross_ptp (s : State) (x : Crossing) : (s.withCross x).ptp = s.ptp := rfl
@[simp] theorem State.withCross_links (s : State) (x : Crossing) : (s.withCross x).links = s.links := rfl
@[simp] theorem State.withCross_frames (s : State) (x : Crossing) : (s.withCross x).frames = s.frames := rfl
@[simp] theorem State.withCross_nextFrame (s : State) (x : Crossing) : (s.withCross x).nextFrame = s.nextFrame := rfl
@[simp] theorem State.withCross_parse (s : State) (x : Crossing) : (s.withCross x).parse = s.parse := rfl
@[simp] theorem State.withCross_tables (s : State) (x : Crossing) : (s.withCross x).tables = s.tables := rfl
@[simp] theorem State.withCross_flow (s : State) (x : Crossing) : (s.withCross x).flow = s.flow := rfl
@[simp] theorem State.withCross_exports (s : State) (x : Crossing) : (s.withCross x).exports = s.exports := rfl
@[simp] theorem State.withCross_cross (s : State) (x : Crossing) : (s.withCross x).cross = x := rfl
@[simp] theorem State.withCross_tm (s : State) (x : Crossing) : (s.withCross x).tm = s.tm := rfl
@[simp] theorem State.withCross_hbm (s : State) (x : Crossing) : (s.withCross x).hbm = s.hbm := rfl
@[simp] theorem State.withCross_fabric (s : State) (x : Crossing) : (s.withCross x).fabric = s.fabric := rfl
@[simp] theorem State.withCross_sleep (s : State) (x : Crossing) : (s.withCross x).sleep = s.sleep := rfl
@[simp] theorem State.withCross_boot (s : State) (x : Crossing) : (s.withCross x).boot = s.boot := rfl
@[simp] theorem State.withCross_avail (s : State) (x : Crossing) : (s.withCross x).avail = s.avail := rfl
@[simp] theorem State.withCross_count (s : State) (x : Crossing) : (s.withCross x).count = s.count := rfl
@[simp] theorem State.withCross_power (s : State) (x : Crossing) : (s.withCross x).power = s.power := rfl
@[simp] theorem State.withCross_drawn (s : State) (x : Crossing) : (s.withCross x).drawn = s.drawn := rfl
@[simp] theorem State.withCross_withCross_again (s : State) (x y : Crossing) : (s.withCross x).withCross y = s.withCross y := rfl

/-! ### `withHbm` -/

@[simp] theorem State.withHbm_pending (s : State) (x : Hbm) : (s.withHbm x).pending = s.pending := rfl
@[simp] theorem State.withHbm_dict (s : State) (x : Hbm) : (s.withHbm x).dict = s.dict := rfl
@[simp] theorem State.withHbm_events (s : State) (x : Hbm) : (s.withHbm x).events = s.events := rfl
@[simp] theorem State.withHbm_host (s : State) (x : Hbm) : (s.withHbm x).host = s.host := rfl
@[simp] theorem State.withHbm_tw (s : State) (x : Hbm) : (s.withHbm x).tw = s.tw := rfl
@[simp] theorem State.withHbm_time (s : State) (x : Hbm) : (s.withHbm x).time = s.time := rfl
@[simp] theorem State.withHbm_ptp (s : State) (x : Hbm) : (s.withHbm x).ptp = s.ptp := rfl
@[simp] theorem State.withHbm_links (s : State) (x : Hbm) : (s.withHbm x).links = s.links := rfl
@[simp] theorem State.withHbm_frames (s : State) (x : Hbm) : (s.withHbm x).frames = s.frames := rfl
@[simp] theorem State.withHbm_nextFrame (s : State) (x : Hbm) : (s.withHbm x).nextFrame = s.nextFrame := rfl
@[simp] theorem State.withHbm_parse (s : State) (x : Hbm) : (s.withHbm x).parse = s.parse := rfl
@[simp] theorem State.withHbm_tables (s : State) (x : Hbm) : (s.withHbm x).tables = s.tables := rfl
@[simp] theorem State.withHbm_flow (s : State) (x : Hbm) : (s.withHbm x).flow = s.flow := rfl
@[simp] theorem State.withHbm_exports (s : State) (x : Hbm) : (s.withHbm x).exports = s.exports := rfl
@[simp] theorem State.withHbm_cross (s : State) (x : Hbm) : (s.withHbm x).cross = s.cross := rfl
@[simp] theorem State.withHbm_tm (s : State) (x : Hbm) : (s.withHbm x).tm = s.tm := rfl
@[simp] theorem State.withHbm_hbm (s : State) (x : Hbm) : (s.withHbm x).hbm = x := rfl
@[simp] theorem State.withHbm_fabric (s : State) (x : Hbm) : (s.withHbm x).fabric = s.fabric := rfl
@[simp] theorem State.withHbm_sleep (s : State) (x : Hbm) : (s.withHbm x).sleep = s.sleep := rfl
@[simp] theorem State.withHbm_boot (s : State) (x : Hbm) : (s.withHbm x).boot = s.boot := rfl
@[simp] theorem State.withHbm_avail (s : State) (x : Hbm) : (s.withHbm x).avail = s.avail := rfl
@[simp] theorem State.withHbm_count (s : State) (x : Hbm) : (s.withHbm x).count = s.count := rfl
@[simp] theorem State.withHbm_power (s : State) (x : Hbm) : (s.withHbm x).power = s.power := rfl
@[simp] theorem State.withHbm_drawn (s : State) (x : Hbm) : (s.withHbm x).drawn = s.drawn := rfl
@[simp] theorem State.withHbm_withHbm_again (s : State) (x y : Hbm) : (s.withHbm x).withHbm y = s.withHbm y := rfl

/-! ### `withFabric` -/

@[simp] theorem State.withFabric_pending (s : State) (x : Fabric) : (s.withFabric x).pending = s.pending := rfl
@[simp] theorem State.withFabric_dict (s : State) (x : Fabric) : (s.withFabric x).dict = s.dict := rfl
@[simp] theorem State.withFabric_events (s : State) (x : Fabric) : (s.withFabric x).events = s.events := rfl
@[simp] theorem State.withFabric_host (s : State) (x : Fabric) : (s.withFabric x).host = s.host := rfl
@[simp] theorem State.withFabric_tw (s : State) (x : Fabric) : (s.withFabric x).tw = s.tw := rfl
@[simp] theorem State.withFabric_time (s : State) (x : Fabric) : (s.withFabric x).time = s.time := rfl
@[simp] theorem State.withFabric_ptp (s : State) (x : Fabric) : (s.withFabric x).ptp = s.ptp := rfl
@[simp] theorem State.withFabric_links (s : State) (x : Fabric) : (s.withFabric x).links = s.links := rfl
@[simp] theorem State.withFabric_frames (s : State) (x : Fabric) : (s.withFabric x).frames = s.frames := rfl
@[simp] theorem State.withFabric_nextFrame (s : State) (x : Fabric) : (s.withFabric x).nextFrame = s.nextFrame := rfl
@[simp] theorem State.withFabric_parse (s : State) (x : Fabric) : (s.withFabric x).parse = s.parse := rfl
@[simp] theorem State.withFabric_tables (s : State) (x : Fabric) : (s.withFabric x).tables = s.tables := rfl
@[simp] theorem State.withFabric_flow (s : State) (x : Fabric) : (s.withFabric x).flow = s.flow := rfl
@[simp] theorem State.withFabric_exports (s : State) (x : Fabric) : (s.withFabric x).exports = s.exports := rfl
@[simp] theorem State.withFabric_cross (s : State) (x : Fabric) : (s.withFabric x).cross = s.cross := rfl
@[simp] theorem State.withFabric_tm (s : State) (x : Fabric) : (s.withFabric x).tm = s.tm := rfl
@[simp] theorem State.withFabric_hbm (s : State) (x : Fabric) : (s.withFabric x).hbm = s.hbm := rfl
@[simp] theorem State.withFabric_fabric (s : State) (x : Fabric) : (s.withFabric x).fabric = x := rfl
@[simp] theorem State.withFabric_sleep (s : State) (x : Fabric) : (s.withFabric x).sleep = s.sleep := rfl
@[simp] theorem State.withFabric_boot (s : State) (x : Fabric) : (s.withFabric x).boot = s.boot := rfl
@[simp] theorem State.withFabric_avail (s : State) (x : Fabric) : (s.withFabric x).avail = s.avail := rfl
@[simp] theorem State.withFabric_count (s : State) (x : Fabric) : (s.withFabric x).count = s.count := rfl
@[simp] theorem State.withFabric_power (s : State) (x : Fabric) : (s.withFabric x).power = s.power := rfl
@[simp] theorem State.withFabric_drawn (s : State) (x : Fabric) : (s.withFabric x).drawn = s.drawn := rfl
@[simp] theorem State.withFabric_withFabric_again (s : State) (x y : Fabric) : (s.withFabric x).withFabric y = s.withFabric y := rfl

/-! ### `withSleep` -/

@[simp] theorem State.withSleep_pending (s : State) (x : Sleep) : (s.withSleep x).pending = s.pending := rfl
@[simp] theorem State.withSleep_dict (s : State) (x : Sleep) : (s.withSleep x).dict = s.dict := rfl
@[simp] theorem State.withSleep_events (s : State) (x : Sleep) : (s.withSleep x).events = s.events := rfl
@[simp] theorem State.withSleep_host (s : State) (x : Sleep) : (s.withSleep x).host = s.host := rfl
@[simp] theorem State.withSleep_tw (s : State) (x : Sleep) : (s.withSleep x).tw = s.tw := rfl
@[simp] theorem State.withSleep_time (s : State) (x : Sleep) : (s.withSleep x).time = s.time := rfl
@[simp] theorem State.withSleep_ptp (s : State) (x : Sleep) : (s.withSleep x).ptp = s.ptp := rfl
@[simp] theorem State.withSleep_links (s : State) (x : Sleep) : (s.withSleep x).links = s.links := rfl
@[simp] theorem State.withSleep_frames (s : State) (x : Sleep) : (s.withSleep x).frames = s.frames := rfl
@[simp] theorem State.withSleep_nextFrame (s : State) (x : Sleep) : (s.withSleep x).nextFrame = s.nextFrame := rfl
@[simp] theorem State.withSleep_parse (s : State) (x : Sleep) : (s.withSleep x).parse = s.parse := rfl
@[simp] theorem State.withSleep_tables (s : State) (x : Sleep) : (s.withSleep x).tables = s.tables := rfl
@[simp] theorem State.withSleep_flow (s : State) (x : Sleep) : (s.withSleep x).flow = s.flow := rfl
@[simp] theorem State.withSleep_exports (s : State) (x : Sleep) : (s.withSleep x).exports = s.exports := rfl
@[simp] theorem State.withSleep_cross (s : State) (x : Sleep) : (s.withSleep x).cross = s.cross := rfl
@[simp] theorem State.withSleep_tm (s : State) (x : Sleep) : (s.withSleep x).tm = s.tm := rfl
@[simp] theorem State.withSleep_hbm (s : State) (x : Sleep) : (s.withSleep x).hbm = s.hbm := rfl
@[simp] theorem State.withSleep_fabric (s : State) (x : Sleep) : (s.withSleep x).fabric = s.fabric := rfl
@[simp] theorem State.withSleep_sleep (s : State) (x : Sleep) : (s.withSleep x).sleep = x := rfl
@[simp] theorem State.withSleep_boot (s : State) (x : Sleep) : (s.withSleep x).boot = s.boot := rfl
@[simp] theorem State.withSleep_avail (s : State) (x : Sleep) : (s.withSleep x).avail = s.avail := rfl
@[simp] theorem State.withSleep_count (s : State) (x : Sleep) : (s.withSleep x).count = s.count := rfl
@[simp] theorem State.withSleep_power (s : State) (x : Sleep) : (s.withSleep x).power = s.power := rfl
@[simp] theorem State.withSleep_drawn (s : State) (x : Sleep) : (s.withSleep x).drawn = s.drawn := rfl
@[simp] theorem State.withSleep_withSleep_again (s : State) (x y : Sleep) : (s.withSleep x).withSleep y = s.withSleep y := rfl

/-! ### `withBoot` -/

@[simp] theorem State.withBoot_pending (s : State) (x : Boot) : (s.withBoot x).pending = s.pending := rfl
@[simp] theorem State.withBoot_dict (s : State) (x : Boot) : (s.withBoot x).dict = s.dict := rfl
@[simp] theorem State.withBoot_events (s : State) (x : Boot) : (s.withBoot x).events = s.events := rfl
@[simp] theorem State.withBoot_host (s : State) (x : Boot) : (s.withBoot x).host = s.host := rfl
@[simp] theorem State.withBoot_tw (s : State) (x : Boot) : (s.withBoot x).tw = s.tw := rfl
@[simp] theorem State.withBoot_time (s : State) (x : Boot) : (s.withBoot x).time = s.time := rfl
@[simp] theorem State.withBoot_ptp (s : State) (x : Boot) : (s.withBoot x).ptp = s.ptp := rfl
@[simp] theorem State.withBoot_links (s : State) (x : Boot) : (s.withBoot x).links = s.links := rfl
@[simp] theorem State.withBoot_frames (s : State) (x : Boot) : (s.withBoot x).frames = s.frames := rfl
@[simp] theorem State.withBoot_nextFrame (s : State) (x : Boot) : (s.withBoot x).nextFrame = s.nextFrame := rfl
@[simp] theorem State.withBoot_parse (s : State) (x : Boot) : (s.withBoot x).parse = s.parse := rfl
@[simp] theorem State.withBoot_tables (s : State) (x : Boot) : (s.withBoot x).tables = s.tables := rfl
@[simp] theorem State.withBoot_flow (s : State) (x : Boot) : (s.withBoot x).flow = s.flow := rfl
@[simp] theorem State.withBoot_exports (s : State) (x : Boot) : (s.withBoot x).exports = s.exports := rfl
@[simp] theorem State.withBoot_cross (s : State) (x : Boot) : (s.withBoot x).cross = s.cross := rfl
@[simp] theorem State.withBoot_tm (s : State) (x : Boot) : (s.withBoot x).tm = s.tm := rfl
@[simp] theorem State.withBoot_hbm (s : State) (x : Boot) : (s.withBoot x).hbm = s.hbm := rfl
@[simp] theorem State.withBoot_fabric (s : State) (x : Boot) : (s.withBoot x).fabric = s.fabric := rfl
@[simp] theorem State.withBoot_sleep (s : State) (x : Boot) : (s.withBoot x).sleep = s.sleep := rfl
@[simp] theorem State.withBoot_boot (s : State) (x : Boot) : (s.withBoot x).boot = x := rfl
@[simp] theorem State.withBoot_avail (s : State) (x : Boot) : (s.withBoot x).avail = s.avail := rfl
@[simp] theorem State.withBoot_count (s : State) (x : Boot) : (s.withBoot x).count = s.count := rfl
@[simp] theorem State.withBoot_power (s : State) (x : Boot) : (s.withBoot x).power = s.power := rfl
@[simp] theorem State.withBoot_drawn (s : State) (x : Boot) : (s.withBoot x).drawn = s.drawn := rfl
@[simp] theorem State.withBoot_withBoot_again (s : State) (x y : Boot) : (s.withBoot x).withBoot y = s.withBoot y := rfl

/-! ### `withAvail` -/

@[simp] theorem State.withAvail_pending (s : State) (x : Avail) : (s.withAvail x).pending = s.pending := rfl
@[simp] theorem State.withAvail_dict (s : State) (x : Avail) : (s.withAvail x).dict = s.dict := rfl
@[simp] theorem State.withAvail_events (s : State) (x : Avail) : (s.withAvail x).events = s.events := rfl
@[simp] theorem State.withAvail_host (s : State) (x : Avail) : (s.withAvail x).host = s.host := rfl
@[simp] theorem State.withAvail_tw (s : State) (x : Avail) : (s.withAvail x).tw = s.tw := rfl
@[simp] theorem State.withAvail_time (s : State) (x : Avail) : (s.withAvail x).time = s.time := rfl
@[simp] theorem State.withAvail_ptp (s : State) (x : Avail) : (s.withAvail x).ptp = s.ptp := rfl
@[simp] theorem State.withAvail_links (s : State) (x : Avail) : (s.withAvail x).links = s.links := rfl
@[simp] theorem State.withAvail_frames (s : State) (x : Avail) : (s.withAvail x).frames = s.frames := rfl
@[simp] theorem State.withAvail_nextFrame (s : State) (x : Avail) : (s.withAvail x).nextFrame = s.nextFrame := rfl
@[simp] theorem State.withAvail_parse (s : State) (x : Avail) : (s.withAvail x).parse = s.parse := rfl
@[simp] theorem State.withAvail_tables (s : State) (x : Avail) : (s.withAvail x).tables = s.tables := rfl
@[simp] theorem State.withAvail_flow (s : State) (x : Avail) : (s.withAvail x).flow = s.flow := rfl
@[simp] theorem State.withAvail_exports (s : State) (x : Avail) : (s.withAvail x).exports = s.exports := rfl
@[simp] theorem State.withAvail_cross (s : State) (x : Avail) : (s.withAvail x).cross = s.cross := rfl
@[simp] theorem State.withAvail_tm (s : State) (x : Avail) : (s.withAvail x).tm = s.tm := rfl
@[simp] theorem State.withAvail_hbm (s : State) (x : Avail) : (s.withAvail x).hbm = s.hbm := rfl
@[simp] theorem State.withAvail_fabric (s : State) (x : Avail) : (s.withAvail x).fabric = s.fabric := rfl
@[simp] theorem State.withAvail_sleep (s : State) (x : Avail) : (s.withAvail x).sleep = s.sleep := rfl
@[simp] theorem State.withAvail_boot (s : State) (x : Avail) : (s.withAvail x).boot = s.boot := rfl
@[simp] theorem State.withAvail_avail (s : State) (x : Avail) : (s.withAvail x).avail = x := rfl
@[simp] theorem State.withAvail_count (s : State) (x : Avail) : (s.withAvail x).count = s.count := rfl
@[simp] theorem State.withAvail_power (s : State) (x : Avail) : (s.withAvail x).power = s.power := rfl
@[simp] theorem State.withAvail_drawn (s : State) (x : Avail) : (s.withAvail x).drawn = s.drawn := rfl
@[simp] theorem State.withAvail_withAvail_again (s : State) (x y : Avail) : (s.withAvail x).withAvail y = s.withAvail y := rfl

/-! ### `withCount` -/

@[simp] theorem State.withCount_pending (s : State) (x : Count) : (s.withCount x).pending = s.pending := rfl
@[simp] theorem State.withCount_dict (s : State) (x : Count) : (s.withCount x).dict = s.dict := rfl
@[simp] theorem State.withCount_events (s : State) (x : Count) : (s.withCount x).events = s.events := rfl
@[simp] theorem State.withCount_host (s : State) (x : Count) : (s.withCount x).host = s.host := rfl
@[simp] theorem State.withCount_tw (s : State) (x : Count) : (s.withCount x).tw = s.tw := rfl
@[simp] theorem State.withCount_time (s : State) (x : Count) : (s.withCount x).time = s.time := rfl
@[simp] theorem State.withCount_ptp (s : State) (x : Count) : (s.withCount x).ptp = s.ptp := rfl
@[simp] theorem State.withCount_links (s : State) (x : Count) : (s.withCount x).links = s.links := rfl
@[simp] theorem State.withCount_frames (s : State) (x : Count) : (s.withCount x).frames = s.frames := rfl
@[simp] theorem State.withCount_nextFrame (s : State) (x : Count) : (s.withCount x).nextFrame = s.nextFrame := rfl
@[simp] theorem State.withCount_parse (s : State) (x : Count) : (s.withCount x).parse = s.parse := rfl
@[simp] theorem State.withCount_tables (s : State) (x : Count) : (s.withCount x).tables = s.tables := rfl
@[simp] theorem State.withCount_flow (s : State) (x : Count) : (s.withCount x).flow = s.flow := rfl
@[simp] theorem State.withCount_exports (s : State) (x : Count) : (s.withCount x).exports = s.exports := rfl
@[simp] theorem State.withCount_cross (s : State) (x : Count) : (s.withCount x).cross = s.cross := rfl
@[simp] theorem State.withCount_tm (s : State) (x : Count) : (s.withCount x).tm = s.tm := rfl
@[simp] theorem State.withCount_hbm (s : State) (x : Count) : (s.withCount x).hbm = s.hbm := rfl
@[simp] theorem State.withCount_fabric (s : State) (x : Count) : (s.withCount x).fabric = s.fabric := rfl
@[simp] theorem State.withCount_sleep (s : State) (x : Count) : (s.withCount x).sleep = s.sleep := rfl
@[simp] theorem State.withCount_boot (s : State) (x : Count) : (s.withCount x).boot = s.boot := rfl
@[simp] theorem State.withCount_avail (s : State) (x : Count) : (s.withCount x).avail = s.avail := rfl
@[simp] theorem State.withCount_count (s : State) (x : Count) : (s.withCount x).count = x := rfl
@[simp] theorem State.withCount_power (s : State) (x : Count) : (s.withCount x).power = s.power := rfl
@[simp] theorem State.withCount_drawn (s : State) (x : Count) : (s.withCount x).drawn = s.drawn := rfl
@[simp] theorem State.withCount_withCount_again (s : State) (x y : Count) : (s.withCount x).withCount y = s.withCount y := rfl

/-! ### `withPower` -/

@[simp] theorem State.withPower_pending (s : State) (x : Power) : (s.withPower x).pending = s.pending := rfl
@[simp] theorem State.withPower_dict (s : State) (x : Power) : (s.withPower x).dict = s.dict := rfl
@[simp] theorem State.withPower_events (s : State) (x : Power) : (s.withPower x).events = s.events := rfl
@[simp] theorem State.withPower_host (s : State) (x : Power) : (s.withPower x).host = s.host := rfl
@[simp] theorem State.withPower_tw (s : State) (x : Power) : (s.withPower x).tw = s.tw := rfl
@[simp] theorem State.withPower_time (s : State) (x : Power) : (s.withPower x).time = s.time := rfl
@[simp] theorem State.withPower_ptp (s : State) (x : Power) : (s.withPower x).ptp = s.ptp := rfl
@[simp] theorem State.withPower_links (s : State) (x : Power) : (s.withPower x).links = s.links := rfl
@[simp] theorem State.withPower_frames (s : State) (x : Power) : (s.withPower x).frames = s.frames := rfl
@[simp] theorem State.withPower_nextFrame (s : State) (x : Power) : (s.withPower x).nextFrame = s.nextFrame := rfl
@[simp] theorem State.withPower_parse (s : State) (x : Power) : (s.withPower x).parse = s.parse := rfl
@[simp] theorem State.withPower_tables (s : State) (x : Power) : (s.withPower x).tables = s.tables := rfl
@[simp] theorem State.withPower_flow (s : State) (x : Power) : (s.withPower x).flow = s.flow := rfl
@[simp] theorem State.withPower_exports (s : State) (x : Power) : (s.withPower x).exports = s.exports := rfl
@[simp] theorem State.withPower_cross (s : State) (x : Power) : (s.withPower x).cross = s.cross := rfl
@[simp] theorem State.withPower_tm (s : State) (x : Power) : (s.withPower x).tm = s.tm := rfl
@[simp] theorem State.withPower_hbm (s : State) (x : Power) : (s.withPower x).hbm = s.hbm := rfl
@[simp] theorem State.withPower_fabric (s : State) (x : Power) : (s.withPower x).fabric = s.fabric := rfl
@[simp] theorem State.withPower_sleep (s : State) (x : Power) : (s.withPower x).sleep = s.sleep := rfl
@[simp] theorem State.withPower_boot (s : State) (x : Power) : (s.withPower x).boot = s.boot := rfl
@[simp] theorem State.withPower_avail (s : State) (x : Power) : (s.withPower x).avail = s.avail := rfl
@[simp] theorem State.withPower_count (s : State) (x : Power) : (s.withPower x).count = s.count := rfl
@[simp] theorem State.withPower_power (s : State) (x : Power) : (s.withPower x).power = x := rfl
@[simp] theorem State.withPower_drawn (s : State) (x : Power) : (s.withPower x).drawn = s.drawn := rfl
@[simp] theorem State.withPower_withPower_again (s : State) (x y : Power) : (s.withPower x).withPower y = s.withPower y := rfl

/-! ### `setS` -/

@[simp] theorem State.setS_pending (s : State) (o : ObjRow) (sub inst v : Nat) : (s.setS o sub inst v).pending = s.pending := rfl
@[simp] theorem State.setS_events (s : State) (o : ObjRow) (sub inst v : Nat) : (s.setS o sub inst v).events = s.events := rfl
@[simp] theorem State.setS_host (s : State) (o : ObjRow) (sub inst v : Nat) : (s.setS o sub inst v).host = s.host := rfl
@[simp] theorem State.setS_tw (s : State) (o : ObjRow) (sub inst v : Nat) : (s.setS o sub inst v).tw = s.tw := rfl
@[simp] theorem State.setS_time (s : State) (o : ObjRow) (sub inst v : Nat) : (s.setS o sub inst v).time = s.time := rfl
@[simp] theorem State.setS_ptp (s : State) (o : ObjRow) (sub inst v : Nat) : (s.setS o sub inst v).ptp = s.ptp := rfl
@[simp] theorem State.setS_links (s : State) (o : ObjRow) (sub inst v : Nat) : (s.setS o sub inst v).links = s.links := rfl
@[simp] theorem State.setS_frames (s : State) (o : ObjRow) (sub inst v : Nat) : (s.setS o sub inst v).frames = s.frames := rfl
@[simp] theorem State.setS_nextFrame (s : State) (o : ObjRow) (sub inst v : Nat) : (s.setS o sub inst v).nextFrame = s.nextFrame := rfl
@[simp] theorem State.setS_parse (s : State) (o : ObjRow) (sub inst v : Nat) : (s.setS o sub inst v).parse = s.parse := rfl
@[simp] theorem State.setS_tables (s : State) (o : ObjRow) (sub inst v : Nat) : (s.setS o sub inst v).tables = s.tables := rfl
@[simp] theorem State.setS_flow (s : State) (o : ObjRow) (sub inst v : Nat) : (s.setS o sub inst v).flow = s.flow := rfl
@[simp] theorem State.setS_exports (s : State) (o : ObjRow) (sub inst v : Nat) : (s.setS o sub inst v).exports = s.exports := rfl
@[simp] theorem State.setS_cross (s : State) (o : ObjRow) (sub inst v : Nat) : (s.setS o sub inst v).cross = s.cross := rfl
@[simp] theorem State.setS_tm (s : State) (o : ObjRow) (sub inst v : Nat) : (s.setS o sub inst v).tm = s.tm := rfl
@[simp] theorem State.setS_hbm (s : State) (o : ObjRow) (sub inst v : Nat) : (s.setS o sub inst v).hbm = s.hbm := rfl
@[simp] theorem State.setS_fabric (s : State) (o : ObjRow) (sub inst v : Nat) : (s.setS o sub inst v).fabric = s.fabric := rfl
@[simp] theorem State.setS_sleep (s : State) (o : ObjRow) (sub inst v : Nat) : (s.setS o sub inst v).sleep = s.sleep := rfl
@[simp] theorem State.setS_boot (s : State) (o : ObjRow) (sub inst v : Nat) : (s.setS o sub inst v).boot = s.boot := rfl
@[simp] theorem State.setS_avail (s : State) (o : ObjRow) (sub inst v : Nat) : (s.setS o sub inst v).avail = s.avail := rfl
@[simp] theorem State.setS_count (s : State) (o : ObjRow) (sub inst v : Nat) : (s.setS o sub inst v).count = s.count := rfl
@[simp] theorem State.setS_power (s : State) (o : ObjRow) (sub inst v : Nat) : (s.setS o sub inst v).power = s.power := rfl
@[simp] theorem State.setS_drawn (s : State) (o : ObjRow) (sub inst v : Nat) : (s.setS o sub inst v).drawn = s.drawn := rfl

/-! ### `set` -/

@[simp] theorem State.set_pending (s : State) (o : ObjRow) (inst v : Nat) : (s.set o inst v).pending = s.pending := rfl
@[simp] theorem State.set_events (s : State) (o : ObjRow) (inst v : Nat) : (s.set o inst v).events = s.events := rfl
@[simp] theorem State.set_host (s : State) (o : ObjRow) (inst v : Nat) : (s.set o inst v).host = s.host := rfl
@[simp] theorem State.set_tw (s : State) (o : ObjRow) (inst v : Nat) : (s.set o inst v).tw = s.tw := rfl
@[simp] theorem State.set_time (s : State) (o : ObjRow) (inst v : Nat) : (s.set o inst v).time = s.time := rfl
@[simp] theorem State.set_ptp (s : State) (o : ObjRow) (inst v : Nat) : (s.set o inst v).ptp = s.ptp := rfl
@[simp] theorem State.set_links (s : State) (o : ObjRow) (inst v : Nat) : (s.set o inst v).links = s.links := rfl
@[simp] theorem State.set_frames (s : State) (o : ObjRow) (inst v : Nat) : (s.set o inst v).frames = s.frames := rfl
@[simp] theorem State.set_nextFrame (s : State) (o : ObjRow) (inst v : Nat) : (s.set o inst v).nextFrame = s.nextFrame := rfl
@[simp] theorem State.set_parse (s : State) (o : ObjRow) (inst v : Nat) : (s.set o inst v).parse = s.parse := rfl
@[simp] theorem State.set_tables (s : State) (o : ObjRow) (inst v : Nat) : (s.set o inst v).tables = s.tables := rfl
@[simp] theorem State.set_flow (s : State) (o : ObjRow) (inst v : Nat) : (s.set o inst v).flow = s.flow := rfl
@[simp] theorem State.set_exports (s : State) (o : ObjRow) (inst v : Nat) : (s.set o inst v).exports = s.exports := rfl
@[simp] theorem State.set_cross (s : State) (o : ObjRow) (inst v : Nat) : (s.set o inst v).cross = s.cross := rfl
@[simp] theorem State.set_tm (s : State) (o : ObjRow) (inst v : Nat) : (s.set o inst v).tm = s.tm := rfl
@[simp] theorem State.set_hbm (s : State) (o : ObjRow) (inst v : Nat) : (s.set o inst v).hbm = s.hbm := rfl
@[simp] theorem State.set_fabric (s : State) (o : ObjRow) (inst v : Nat) : (s.set o inst v).fabric = s.fabric := rfl
@[simp] theorem State.set_sleep (s : State) (o : ObjRow) (inst v : Nat) : (s.set o inst v).sleep = s.sleep := rfl
@[simp] theorem State.set_boot (s : State) (o : ObjRow) (inst v : Nat) : (s.set o inst v).boot = s.boot := rfl
@[simp] theorem State.set_avail (s : State) (o : ObjRow) (inst v : Nat) : (s.set o inst v).avail = s.avail := rfl
@[simp] theorem State.set_count (s : State) (o : ObjRow) (inst v : Nat) : (s.set o inst v).count = s.count := rfl
@[simp] theorem State.set_power (s : State) (o : ObjRow) (inst v : Nat) : (s.set o inst v).power = s.power := rfl
@[simp] theorem State.set_drawn (s : State) (o : ObjRow) (inst v : Nat) : (s.set o inst v).drawn = s.drawn := rfl

/-! ### `addS` -/

@[simp] theorem State.addS_pending (s : State) (o : ObjRow) (sub inst n : Nat) : (s.addS o sub inst n).pending = s.pending := rfl
@[simp] theorem State.addS_events (s : State) (o : ObjRow) (sub inst n : Nat) : (s.addS o sub inst n).events = s.events := rfl
@[simp] theorem State.addS_host (s : State) (o : ObjRow) (sub inst n : Nat) : (s.addS o sub inst n).host = s.host := rfl
@[simp] theorem State.addS_tw (s : State) (o : ObjRow) (sub inst n : Nat) : (s.addS o sub inst n).tw = s.tw := rfl
@[simp] theorem State.addS_time (s : State) (o : ObjRow) (sub inst n : Nat) : (s.addS o sub inst n).time = s.time := rfl
@[simp] theorem State.addS_ptp (s : State) (o : ObjRow) (sub inst n : Nat) : (s.addS o sub inst n).ptp = s.ptp := rfl
@[simp] theorem State.addS_links (s : State) (o : ObjRow) (sub inst n : Nat) : (s.addS o sub inst n).links = s.links := rfl
@[simp] theorem State.addS_frames (s : State) (o : ObjRow) (sub inst n : Nat) : (s.addS o sub inst n).frames = s.frames := rfl
@[simp] theorem State.addS_nextFrame (s : State) (o : ObjRow) (sub inst n : Nat) : (s.addS o sub inst n).nextFrame = s.nextFrame := rfl
@[simp] theorem State.addS_parse (s : State) (o : ObjRow) (sub inst n : Nat) : (s.addS o sub inst n).parse = s.parse := rfl
@[simp] theorem State.addS_tables (s : State) (o : ObjRow) (sub inst n : Nat) : (s.addS o sub inst n).tables = s.tables := rfl
@[simp] theorem State.addS_flow (s : State) (o : ObjRow) (sub inst n : Nat) : (s.addS o sub inst n).flow = s.flow := rfl
@[simp] theorem State.addS_exports (s : State) (o : ObjRow) (sub inst n : Nat) : (s.addS o sub inst n).exports = s.exports := rfl
@[simp] theorem State.addS_cross (s : State) (o : ObjRow) (sub inst n : Nat) : (s.addS o sub inst n).cross = s.cross := rfl
@[simp] theorem State.addS_tm (s : State) (o : ObjRow) (sub inst n : Nat) : (s.addS o sub inst n).tm = s.tm := rfl
@[simp] theorem State.addS_hbm (s : State) (o : ObjRow) (sub inst n : Nat) : (s.addS o sub inst n).hbm = s.hbm := rfl
@[simp] theorem State.addS_fabric (s : State) (o : ObjRow) (sub inst n : Nat) : (s.addS o sub inst n).fabric = s.fabric := rfl
@[simp] theorem State.addS_sleep (s : State) (o : ObjRow) (sub inst n : Nat) : (s.addS o sub inst n).sleep = s.sleep := rfl
@[simp] theorem State.addS_boot (s : State) (o : ObjRow) (sub inst n : Nat) : (s.addS o sub inst n).boot = s.boot := rfl
@[simp] theorem State.addS_avail (s : State) (o : ObjRow) (sub inst n : Nat) : (s.addS o sub inst n).avail = s.avail := rfl
@[simp] theorem State.addS_count (s : State) (o : ObjRow) (sub inst n : Nat) : (s.addS o sub inst n).count = s.count := rfl
@[simp] theorem State.addS_power (s : State) (o : ObjRow) (sub inst n : Nat) : (s.addS o sub inst n).power = s.power := rfl
@[simp] theorem State.addS_drawn (s : State) (o : ObjRow) (sub inst n : Nat) : (s.addS o sub inst n).drawn = s.drawn := rfl

/-! ### `add` -/

@[simp] theorem State.add_pending (s : State) (o : ObjRow) (inst n : Nat) : (s.add o inst n).pending = s.pending := rfl
@[simp] theorem State.add_events (s : State) (o : ObjRow) (inst n : Nat) : (s.add o inst n).events = s.events := rfl
@[simp] theorem State.add_host (s : State) (o : ObjRow) (inst n : Nat) : (s.add o inst n).host = s.host := rfl
@[simp] theorem State.add_tw (s : State) (o : ObjRow) (inst n : Nat) : (s.add o inst n).tw = s.tw := rfl
@[simp] theorem State.add_time (s : State) (o : ObjRow) (inst n : Nat) : (s.add o inst n).time = s.time := rfl
@[simp] theorem State.add_ptp (s : State) (o : ObjRow) (inst n : Nat) : (s.add o inst n).ptp = s.ptp := rfl
@[simp] theorem State.add_links (s : State) (o : ObjRow) (inst n : Nat) : (s.add o inst n).links = s.links := rfl
@[simp] theorem State.add_frames (s : State) (o : ObjRow) (inst n : Nat) : (s.add o inst n).frames = s.frames := rfl
@[simp] theorem State.add_nextFrame (s : State) (o : ObjRow) (inst n : Nat) : (s.add o inst n).nextFrame = s.nextFrame := rfl
@[simp] theorem State.add_parse (s : State) (o : ObjRow) (inst n : Nat) : (s.add o inst n).parse = s.parse := rfl
@[simp] theorem State.add_tables (s : State) (o : ObjRow) (inst n : Nat) : (s.add o inst n).tables = s.tables := rfl
@[simp] theorem State.add_flow (s : State) (o : ObjRow) (inst n : Nat) : (s.add o inst n).flow = s.flow := rfl
@[simp] theorem State.add_exports (s : State) (o : ObjRow) (inst n : Nat) : (s.add o inst n).exports = s.exports := rfl
@[simp] theorem State.add_cross (s : State) (o : ObjRow) (inst n : Nat) : (s.add o inst n).cross = s.cross := rfl
@[simp] theorem State.add_tm (s : State) (o : ObjRow) (inst n : Nat) : (s.add o inst n).tm = s.tm := rfl
@[simp] theorem State.add_hbm (s : State) (o : ObjRow) (inst n : Nat) : (s.add o inst n).hbm = s.hbm := rfl
@[simp] theorem State.add_fabric (s : State) (o : ObjRow) (inst n : Nat) : (s.add o inst n).fabric = s.fabric := rfl
@[simp] theorem State.add_sleep (s : State) (o : ObjRow) (inst n : Nat) : (s.add o inst n).sleep = s.sleep := rfl
@[simp] theorem State.add_boot (s : State) (o : ObjRow) (inst n : Nat) : (s.add o inst n).boot = s.boot := rfl
@[simp] theorem State.add_avail (s : State) (o : ObjRow) (inst n : Nat) : (s.add o inst n).avail = s.avail := rfl
@[simp] theorem State.add_count (s : State) (o : ObjRow) (inst n : Nat) : (s.add o inst n).count = s.count := rfl
@[simp] theorem State.add_power (s : State) (o : ObjRow) (inst n : Nat) : (s.add o inst n).power = s.power := rfl
@[simp] theorem State.add_drawn (s : State) (o : ObjRow) (inst n : Nat) : (s.add o inst n).drawn = s.drawn := rfl

/-! ### `bump` -/

@[simp] theorem State.bump_pending (s : State) (o : ObjRow) (inst : Nat) : (s.bump o inst).pending = s.pending := rfl
@[simp] theorem State.bump_events (s : State) (o : ObjRow) (inst : Nat) : (s.bump o inst).events = s.events := rfl
@[simp] theorem State.bump_host (s : State) (o : ObjRow) (inst : Nat) : (s.bump o inst).host = s.host := rfl
@[simp] theorem State.bump_tw (s : State) (o : ObjRow) (inst : Nat) : (s.bump o inst).tw = s.tw := rfl
@[simp] theorem State.bump_time (s : State) (o : ObjRow) (inst : Nat) : (s.bump o inst).time = s.time := rfl
@[simp] theorem State.bump_ptp (s : State) (o : ObjRow) (inst : Nat) : (s.bump o inst).ptp = s.ptp := rfl
@[simp] theorem State.bump_links (s : State) (o : ObjRow) (inst : Nat) : (s.bump o inst).links = s.links := rfl
@[simp] theorem State.bump_frames (s : State) (o : ObjRow) (inst : Nat) : (s.bump o inst).frames = s.frames := rfl
@[simp] theorem State.bump_nextFrame (s : State) (o : ObjRow) (inst : Nat) : (s.bump o inst).nextFrame = s.nextFrame := rfl
@[simp] theorem State.bump_parse (s : State) (o : ObjRow) (inst : Nat) : (s.bump o inst).parse = s.parse := rfl
@[simp] theorem State.bump_tables (s : State) (o : ObjRow) (inst : Nat) : (s.bump o inst).tables = s.tables := rfl
@[simp] theorem State.bump_flow (s : State) (o : ObjRow) (inst : Nat) : (s.bump o inst).flow = s.flow := rfl
@[simp] theorem State.bump_exports (s : State) (o : ObjRow) (inst : Nat) : (s.bump o inst).exports = s.exports := rfl
@[simp] theorem State.bump_cross (s : State) (o : ObjRow) (inst : Nat) : (s.bump o inst).cross = s.cross := rfl
@[simp] theorem State.bump_tm (s : State) (o : ObjRow) (inst : Nat) : (s.bump o inst).tm = s.tm := rfl
@[simp] theorem State.bump_hbm (s : State) (o : ObjRow) (inst : Nat) : (s.bump o inst).hbm = s.hbm := rfl
@[simp] theorem State.bump_fabric (s : State) (o : ObjRow) (inst : Nat) : (s.bump o inst).fabric = s.fabric := rfl
@[simp] theorem State.bump_sleep (s : State) (o : ObjRow) (inst : Nat) : (s.bump o inst).sleep = s.sleep := rfl
@[simp] theorem State.bump_boot (s : State) (o : ObjRow) (inst : Nat) : (s.bump o inst).boot = s.boot := rfl
@[simp] theorem State.bump_avail (s : State) (o : ObjRow) (inst : Nat) : (s.bump o inst).avail = s.avail := rfl
@[simp] theorem State.bump_count (s : State) (o : ObjRow) (inst : Nat) : (s.bump o inst).count = s.count := rfl
@[simp] theorem State.bump_power (s : State) (o : ObjRow) (inst : Nat) : (s.bump o inst).power = s.power := rfl
@[simp] theorem State.bump_drawn (s : State) (o : ObjRow) (inst : Nat) : (s.bump o inst).drawn = s.drawn := rfl

/-! ### `drop` -/

@[simp] theorem State.drop_pending (s : State) (o : ObjRow) (inst : Nat) : (s.drop o inst).pending = s.pending := rfl
@[simp] theorem State.drop_events (s : State) (o : ObjRow) (inst : Nat) : (s.drop o inst).events = s.events := rfl
@[simp] theorem State.drop_host (s : State) (o : ObjRow) (inst : Nat) : (s.drop o inst).host = s.host := rfl
@[simp] theorem State.drop_tw (s : State) (o : ObjRow) (inst : Nat) : (s.drop o inst).tw = s.tw := rfl
@[simp] theorem State.drop_time (s : State) (o : ObjRow) (inst : Nat) : (s.drop o inst).time = s.time := rfl
@[simp] theorem State.drop_ptp (s : State) (o : ObjRow) (inst : Nat) : (s.drop o inst).ptp = s.ptp := rfl
@[simp] theorem State.drop_links (s : State) (o : ObjRow) (inst : Nat) : (s.drop o inst).links = s.links := rfl
@[simp] theorem State.drop_frames (s : State) (o : ObjRow) (inst : Nat) : (s.drop o inst).frames = s.frames := rfl
@[simp] theorem State.drop_nextFrame (s : State) (o : ObjRow) (inst : Nat) : (s.drop o inst).nextFrame = s.nextFrame := rfl
@[simp] theorem State.drop_parse (s : State) (o : ObjRow) (inst : Nat) : (s.drop o inst).parse = s.parse := rfl
@[simp] theorem State.drop_tables (s : State) (o : ObjRow) (inst : Nat) : (s.drop o inst).tables = s.tables := rfl
@[simp] theorem State.drop_flow (s : State) (o : ObjRow) (inst : Nat) : (s.drop o inst).flow = s.flow := rfl
@[simp] theorem State.drop_exports (s : State) (o : ObjRow) (inst : Nat) : (s.drop o inst).exports = s.exports := rfl
@[simp] theorem State.drop_cross (s : State) (o : ObjRow) (inst : Nat) : (s.drop o inst).cross = s.cross := rfl
@[simp] theorem State.drop_tm (s : State) (o : ObjRow) (inst : Nat) : (s.drop o inst).tm = s.tm := rfl
@[simp] theorem State.drop_hbm (s : State) (o : ObjRow) (inst : Nat) : (s.drop o inst).hbm = s.hbm := rfl
@[simp] theorem State.drop_fabric (s : State) (o : ObjRow) (inst : Nat) : (s.drop o inst).fabric = s.fabric := rfl
@[simp] theorem State.drop_sleep (s : State) (o : ObjRow) (inst : Nat) : (s.drop o inst).sleep = s.sleep := rfl
@[simp] theorem State.drop_boot (s : State) (o : ObjRow) (inst : Nat) : (s.drop o inst).boot = s.boot := rfl
@[simp] theorem State.drop_avail (s : State) (o : ObjRow) (inst : Nat) : (s.drop o inst).avail = s.avail := rfl
@[simp] theorem State.drop_count (s : State) (o : ObjRow) (inst : Nat) : (s.drop o inst).count = s.count := rfl
@[simp] theorem State.drop_power (s : State) (o : ObjRow) (inst : Nat) : (s.drop o inst).power = s.power := rfl
@[simp] theorem State.drop_drawn (s : State) (o : ObjRow) (inst : Nat) : (s.drop o inst).drawn = s.drawn := rfl

/-! ### `setDom` -/

@[simp] theorem State.setDom_pending (s : State) (o : ObjRow) (inst : Nat) (v : List Byte) : (s.setDom o inst v).pending = s.pending := rfl
@[simp] theorem State.setDom_events (s : State) (o : ObjRow) (inst : Nat) (v : List Byte) : (s.setDom o inst v).events = s.events := rfl
@[simp] theorem State.setDom_host (s : State) (o : ObjRow) (inst : Nat) (v : List Byte) : (s.setDom o inst v).host = s.host := rfl
@[simp] theorem State.setDom_tw (s : State) (o : ObjRow) (inst : Nat) (v : List Byte) : (s.setDom o inst v).tw = s.tw := rfl
@[simp] theorem State.setDom_time (s : State) (o : ObjRow) (inst : Nat) (v : List Byte) : (s.setDom o inst v).time = s.time := rfl
@[simp] theorem State.setDom_ptp (s : State) (o : ObjRow) (inst : Nat) (v : List Byte) : (s.setDom o inst v).ptp = s.ptp := rfl
@[simp] theorem State.setDom_links (s : State) (o : ObjRow) (inst : Nat) (v : List Byte) : (s.setDom o inst v).links = s.links := rfl
@[simp] theorem State.setDom_frames (s : State) (o : ObjRow) (inst : Nat) (v : List Byte) : (s.setDom o inst v).frames = s.frames := rfl
@[simp] theorem State.setDom_nextFrame (s : State) (o : ObjRow) (inst : Nat) (v : List Byte) : (s.setDom o inst v).nextFrame = s.nextFrame := rfl
@[simp] theorem State.setDom_parse (s : State) (o : ObjRow) (inst : Nat) (v : List Byte) : (s.setDom o inst v).parse = s.parse := rfl
@[simp] theorem State.setDom_tables (s : State) (o : ObjRow) (inst : Nat) (v : List Byte) : (s.setDom o inst v).tables = s.tables := rfl
@[simp] theorem State.setDom_flow (s : State) (o : ObjRow) (inst : Nat) (v : List Byte) : (s.setDom o inst v).flow = s.flow := rfl
@[simp] theorem State.setDom_exports (s : State) (o : ObjRow) (inst : Nat) (v : List Byte) : (s.setDom o inst v).exports = s.exports := rfl
@[simp] theorem State.setDom_cross (s : State) (o : ObjRow) (inst : Nat) (v : List Byte) : (s.setDom o inst v).cross = s.cross := rfl
@[simp] theorem State.setDom_tm (s : State) (o : ObjRow) (inst : Nat) (v : List Byte) : (s.setDom o inst v).tm = s.tm := rfl
@[simp] theorem State.setDom_hbm (s : State) (o : ObjRow) (inst : Nat) (v : List Byte) : (s.setDom o inst v).hbm = s.hbm := rfl
@[simp] theorem State.setDom_fabric (s : State) (o : ObjRow) (inst : Nat) (v : List Byte) : (s.setDom o inst v).fabric = s.fabric := rfl
@[simp] theorem State.setDom_sleep (s : State) (o : ObjRow) (inst : Nat) (v : List Byte) : (s.setDom o inst v).sleep = s.sleep := rfl
@[simp] theorem State.setDom_boot (s : State) (o : ObjRow) (inst : Nat) (v : List Byte) : (s.setDom o inst v).boot = s.boot := rfl
@[simp] theorem State.setDom_avail (s : State) (o : ObjRow) (inst : Nat) (v : List Byte) : (s.setDom o inst v).avail = s.avail := rfl
@[simp] theorem State.setDom_count (s : State) (o : ObjRow) (inst : Nat) (v : List Byte) : (s.setDom o inst v).count = s.count := rfl
@[simp] theorem State.setDom_power (s : State) (o : ObjRow) (inst : Nat) (v : List Byte) : (s.setDom o inst v).power = s.power := rfl
@[simp] theorem State.setDom_drawn (s : State) (o : ObjRow) (inst : Nat) (v : List Byte) : (s.setDom o inst v).drawn = s.drawn := rfl

/-! ### `setGroup` -/

@[simp] theorem State.setGroup_pending (s : State) (g inst : Nat) (x : GroupInst) : (s.setGroup g inst x).pending = s.pending := rfl
@[simp] theorem State.setGroup_events (s : State) (g inst : Nat) (x : GroupInst) : (s.setGroup g inst x).events = s.events := rfl
@[simp] theorem State.setGroup_host (s : State) (g inst : Nat) (x : GroupInst) : (s.setGroup g inst x).host = s.host := rfl
@[simp] theorem State.setGroup_tw (s : State) (g inst : Nat) (x : GroupInst) : (s.setGroup g inst x).tw = s.tw := rfl
@[simp] theorem State.setGroup_time (s : State) (g inst : Nat) (x : GroupInst) : (s.setGroup g inst x).time = s.time := rfl
@[simp] theorem State.setGroup_ptp (s : State) (g inst : Nat) (x : GroupInst) : (s.setGroup g inst x).ptp = s.ptp := rfl
@[simp] theorem State.setGroup_links (s : State) (g inst : Nat) (x : GroupInst) : (s.setGroup g inst x).links = s.links := rfl
@[simp] theorem State.setGroup_frames (s : State) (g inst : Nat) (x : GroupInst) : (s.setGroup g inst x).frames = s.frames := rfl
@[simp] theorem State.setGroup_nextFrame (s : State) (g inst : Nat) (x : GroupInst) : (s.setGroup g inst x).nextFrame = s.nextFrame := rfl
@[simp] theorem State.setGroup_parse (s : State) (g inst : Nat) (x : GroupInst) : (s.setGroup g inst x).parse = s.parse := rfl
@[simp] theorem State.setGroup_tables (s : State) (g inst : Nat) (x : GroupInst) : (s.setGroup g inst x).tables = s.tables := rfl
@[simp] theorem State.setGroup_flow (s : State) (g inst : Nat) (x : GroupInst) : (s.setGroup g inst x).flow = s.flow := rfl
@[simp] theorem State.setGroup_exports (s : State) (g inst : Nat) (x : GroupInst) : (s.setGroup g inst x).exports = s.exports := rfl
@[simp] theorem State.setGroup_cross (s : State) (g inst : Nat) (x : GroupInst) : (s.setGroup g inst x).cross = s.cross := rfl
@[simp] theorem State.setGroup_tm (s : State) (g inst : Nat) (x : GroupInst) : (s.setGroup g inst x).tm = s.tm := rfl
@[simp] theorem State.setGroup_hbm (s : State) (g inst : Nat) (x : GroupInst) : (s.setGroup g inst x).hbm = s.hbm := rfl
@[simp] theorem State.setGroup_fabric (s : State) (g inst : Nat) (x : GroupInst) : (s.setGroup g inst x).fabric = s.fabric := rfl
@[simp] theorem State.setGroup_sleep (s : State) (g inst : Nat) (x : GroupInst) : (s.setGroup g inst x).sleep = s.sleep := rfl
@[simp] theorem State.setGroup_boot (s : State) (g inst : Nat) (x : GroupInst) : (s.setGroup g inst x).boot = s.boot := rfl
@[simp] theorem State.setGroup_avail (s : State) (g inst : Nat) (x : GroupInst) : (s.setGroup g inst x).avail = s.avail := rfl
@[simp] theorem State.setGroup_count (s : State) (g inst : Nat) (x : GroupInst) : (s.setGroup g inst x).count = s.count := rfl
@[simp] theorem State.setGroup_power (s : State) (g inst : Nat) (x : GroupInst) : (s.setGroup g inst x).power = s.power := rfl
@[simp] theorem State.setGroup_drawn (s : State) (g inst : Nat) (x : GroupInst) : (s.setGroup g inst x).drawn = s.drawn := rfl

/-! ### `setBollard` -/

@[simp] theorem State.setBollard_pending (s : State) (page v : Nat) : (s.setBollard page v).pending = s.pending := rfl
@[simp] theorem State.setBollard_dict (s : State) (page v : Nat) : (s.setBollard page v).dict = s.dict := rfl
@[simp] theorem State.setBollard_events (s : State) (page v : Nat) : (s.setBollard page v).events = s.events := rfl
@[simp] theorem State.setBollard_tw (s : State) (page v : Nat) : (s.setBollard page v).tw = s.tw := rfl
@[simp] theorem State.setBollard_time (s : State) (page v : Nat) : (s.setBollard page v).time = s.time := rfl
@[simp] theorem State.setBollard_ptp (s : State) (page v : Nat) : (s.setBollard page v).ptp = s.ptp := rfl
@[simp] theorem State.setBollard_links (s : State) (page v : Nat) : (s.setBollard page v).links = s.links := rfl
@[simp] theorem State.setBollard_frames (s : State) (page v : Nat) : (s.setBollard page v).frames = s.frames := rfl
@[simp] theorem State.setBollard_nextFrame (s : State) (page v : Nat) : (s.setBollard page v).nextFrame = s.nextFrame := rfl
@[simp] theorem State.setBollard_parse (s : State) (page v : Nat) : (s.setBollard page v).parse = s.parse := rfl
@[simp] theorem State.setBollard_tables (s : State) (page v : Nat) : (s.setBollard page v).tables = s.tables := rfl
@[simp] theorem State.setBollard_flow (s : State) (page v : Nat) : (s.setBollard page v).flow = s.flow := rfl
@[simp] theorem State.setBollard_exports (s : State) (page v : Nat) : (s.setBollard page v).exports = s.exports := rfl
@[simp] theorem State.setBollard_cross (s : State) (page v : Nat) : (s.setBollard page v).cross = s.cross := rfl
@[simp] theorem State.setBollard_tm (s : State) (page v : Nat) : (s.setBollard page v).tm = s.tm := rfl
@[simp] theorem State.setBollard_hbm (s : State) (page v : Nat) : (s.setBollard page v).hbm = s.hbm := rfl
@[simp] theorem State.setBollard_fabric (s : State) (page v : Nat) : (s.setBollard page v).fabric = s.fabric := rfl
@[simp] theorem State.setBollard_sleep (s : State) (page v : Nat) : (s.setBollard page v).sleep = s.sleep := rfl
@[simp] theorem State.setBollard_boot (s : State) (page v : Nat) : (s.setBollard page v).boot = s.boot := rfl
@[simp] theorem State.setBollard_avail (s : State) (page v : Nat) : (s.setBollard page v).avail = s.avail := rfl
@[simp] theorem State.setBollard_count (s : State) (page v : Nat) : (s.setBollard page v).count = s.count := rfl
@[simp] theorem State.setBollard_power (s : State) (page v : Nat) : (s.setBollard page v).power = s.power := rfl
@[simp] theorem State.setBollard_drawn (s : State) (page v : Nat) : (s.setBollard page v).drawn = s.drawn := rfl

/-! ### `setSlot` -/

@[simp] theorem State.setSlot_pending (s : State) (k : Nat) (x : MbSlot) : (s.setSlot k x).pending = s.pending := rfl
@[simp] theorem State.setSlot_dict (s : State) (k : Nat) (x : MbSlot) : (s.setSlot k x).dict = s.dict := rfl
@[simp] theorem State.setSlot_events (s : State) (k : Nat) (x : MbSlot) : (s.setSlot k x).events = s.events := rfl
@[simp] theorem State.setSlot_tw (s : State) (k : Nat) (x : MbSlot) : (s.setSlot k x).tw = s.tw := rfl
@[simp] theorem State.setSlot_time (s : State) (k : Nat) (x : MbSlot) : (s.setSlot k x).time = s.time := rfl
@[simp] theorem State.setSlot_ptp (s : State) (k : Nat) (x : MbSlot) : (s.setSlot k x).ptp = s.ptp := rfl
@[simp] theorem State.setSlot_links (s : State) (k : Nat) (x : MbSlot) : (s.setSlot k x).links = s.links := rfl
@[simp] theorem State.setSlot_frames (s : State) (k : Nat) (x : MbSlot) : (s.setSlot k x).frames = s.frames := rfl
@[simp] theorem State.setSlot_nextFrame (s : State) (k : Nat) (x : MbSlot) : (s.setSlot k x).nextFrame = s.nextFrame := rfl
@[simp] theorem State.setSlot_parse (s : State) (k : Nat) (x : MbSlot) : (s.setSlot k x).parse = s.parse := rfl
@[simp] theorem State.setSlot_tables (s : State) (k : Nat) (x : MbSlot) : (s.setSlot k x).tables = s.tables := rfl
@[simp] theorem State.setSlot_flow (s : State) (k : Nat) (x : MbSlot) : (s.setSlot k x).flow = s.flow := rfl
@[simp] theorem State.setSlot_exports (s : State) (k : Nat) (x : MbSlot) : (s.setSlot k x).exports = s.exports := rfl
@[simp] theorem State.setSlot_cross (s : State) (k : Nat) (x : MbSlot) : (s.setSlot k x).cross = s.cross := rfl
@[simp] theorem State.setSlot_tm (s : State) (k : Nat) (x : MbSlot) : (s.setSlot k x).tm = s.tm := rfl
@[simp] theorem State.setSlot_hbm (s : State) (k : Nat) (x : MbSlot) : (s.setSlot k x).hbm = s.hbm := rfl
@[simp] theorem State.setSlot_fabric (s : State) (k : Nat) (x : MbSlot) : (s.setSlot k x).fabric = s.fabric := rfl
@[simp] theorem State.setSlot_sleep (s : State) (k : Nat) (x : MbSlot) : (s.setSlot k x).sleep = s.sleep := rfl
@[simp] theorem State.setSlot_boot (s : State) (k : Nat) (x : MbSlot) : (s.setSlot k x).boot = s.boot := rfl
@[simp] theorem State.setSlot_avail (s : State) (k : Nat) (x : MbSlot) : (s.setSlot k x).avail = s.avail := rfl
@[simp] theorem State.setSlot_count (s : State) (k : Nat) (x : MbSlot) : (s.setSlot k x).count = s.count := rfl
@[simp] theorem State.setSlot_power (s : State) (k : Nat) (x : MbSlot) : (s.setSlot k x).power = s.power := rfl
@[simp] theorem State.setSlot_drawn (s : State) (k : Nat) (x : MbSlot) : (s.setSlot k x).drawn = s.drawn := rfl

/-! ### `setFrame` -/

@[simp] theorem State.setFrame_pending (s : State) (f : FrameId) (x : Frame) : (s.setFrame f x).pending = s.pending := rfl
@[simp] theorem State.setFrame_dict (s : State) (f : FrameId) (x : Frame) : (s.setFrame f x).dict = s.dict := rfl
@[simp] theorem State.setFrame_events (s : State) (f : FrameId) (x : Frame) : (s.setFrame f x).events = s.events := rfl
@[simp] theorem State.setFrame_host (s : State) (f : FrameId) (x : Frame) : (s.setFrame f x).host = s.host := rfl
@[simp] theorem State.setFrame_tw (s : State) (f : FrameId) (x : Frame) : (s.setFrame f x).tw = s.tw := rfl
@[simp] theorem State.setFrame_time (s : State) (f : FrameId) (x : Frame) : (s.setFrame f x).time = s.time := rfl
@[simp] theorem State.setFrame_ptp (s : State) (f : FrameId) (x : Frame) : (s.setFrame f x).ptp = s.ptp := rfl
@[simp] theorem State.setFrame_links (s : State) (f : FrameId) (x : Frame) : (s.setFrame f x).links = s.links := rfl
@[simp] theorem State.setFrame_nextFrame (s : State) (f : FrameId) (x : Frame) : (s.setFrame f x).nextFrame = s.nextFrame := rfl
@[simp] theorem State.setFrame_parse (s : State) (f : FrameId) (x : Frame) : (s.setFrame f x).parse = s.parse := rfl
@[simp] theorem State.setFrame_tables (s : State) (f : FrameId) (x : Frame) : (s.setFrame f x).tables = s.tables := rfl
@[simp] theorem State.setFrame_flow (s : State) (f : FrameId) (x : Frame) : (s.setFrame f x).flow = s.flow := rfl
@[simp] theorem State.setFrame_exports (s : State) (f : FrameId) (x : Frame) : (s.setFrame f x).exports = s.exports := rfl
@[simp] theorem State.setFrame_cross (s : State) (f : FrameId) (x : Frame) : (s.setFrame f x).cross = s.cross := rfl
@[simp] theorem State.setFrame_tm (s : State) (f : FrameId) (x : Frame) : (s.setFrame f x).tm = s.tm := rfl
@[simp] theorem State.setFrame_hbm (s : State) (f : FrameId) (x : Frame) : (s.setFrame f x).hbm = s.hbm := rfl
@[simp] theorem State.setFrame_fabric (s : State) (f : FrameId) (x : Frame) : (s.setFrame f x).fabric = s.fabric := rfl
@[simp] theorem State.setFrame_sleep (s : State) (f : FrameId) (x : Frame) : (s.setFrame f x).sleep = s.sleep := rfl
@[simp] theorem State.setFrame_boot (s : State) (f : FrameId) (x : Frame) : (s.setFrame f x).boot = s.boot := rfl
@[simp] theorem State.setFrame_avail (s : State) (f : FrameId) (x : Frame) : (s.setFrame f x).avail = s.avail := rfl
@[simp] theorem State.setFrame_count (s : State) (f : FrameId) (x : Frame) : (s.setFrame f x).count = s.count := rfl
@[simp] theorem State.setFrame_power (s : State) (f : FrameId) (x : Frame) : (s.setFrame f x).power = s.power := rfl
@[simp] theorem State.setFrame_drawn (s : State) (f : FrameId) (x : Frame) : (s.setFrame f x).drawn = s.drawn := rfl

/-! ### `freeFrame` -/

@[simp] theorem State.freeFrame_pending (s : State) (f : FrameId) : (s.freeFrame f).pending = s.pending := rfl
@[simp] theorem State.freeFrame_dict (s : State) (f : FrameId) : (s.freeFrame f).dict = s.dict := rfl
@[simp] theorem State.freeFrame_events (s : State) (f : FrameId) : (s.freeFrame f).events = s.events := rfl
@[simp] theorem State.freeFrame_host (s : State) (f : FrameId) : (s.freeFrame f).host = s.host := rfl
@[simp] theorem State.freeFrame_tw (s : State) (f : FrameId) : (s.freeFrame f).tw = s.tw := rfl
@[simp] theorem State.freeFrame_time (s : State) (f : FrameId) : (s.freeFrame f).time = s.time := rfl
@[simp] theorem State.freeFrame_ptp (s : State) (f : FrameId) : (s.freeFrame f).ptp = s.ptp := rfl
@[simp] theorem State.freeFrame_links (s : State) (f : FrameId) : (s.freeFrame f).links = s.links := rfl
@[simp] theorem State.freeFrame_nextFrame (s : State) (f : FrameId) : (s.freeFrame f).nextFrame = s.nextFrame := rfl
@[simp] theorem State.freeFrame_parse (s : State) (f : FrameId) : (s.freeFrame f).parse = s.parse := rfl
@[simp] theorem State.freeFrame_tables (s : State) (f : FrameId) : (s.freeFrame f).tables = s.tables := rfl
@[simp] theorem State.freeFrame_flow (s : State) (f : FrameId) : (s.freeFrame f).flow = s.flow := rfl
@[simp] theorem State.freeFrame_exports (s : State) (f : FrameId) : (s.freeFrame f).exports = s.exports := rfl
@[simp] theorem State.freeFrame_cross (s : State) (f : FrameId) : (s.freeFrame f).cross = s.cross := rfl
@[simp] theorem State.freeFrame_tm (s : State) (f : FrameId) : (s.freeFrame f).tm = s.tm := rfl
@[simp] theorem State.freeFrame_hbm (s : State) (f : FrameId) : (s.freeFrame f).hbm = s.hbm := rfl
@[simp] theorem State.freeFrame_fabric (s : State) (f : FrameId) : (s.freeFrame f).fabric = s.fabric := rfl
@[simp] theorem State.freeFrame_sleep (s : State) (f : FrameId) : (s.freeFrame f).sleep = s.sleep := rfl
@[simp] theorem State.freeFrame_boot (s : State) (f : FrameId) : (s.freeFrame f).boot = s.boot := rfl
@[simp] theorem State.freeFrame_avail (s : State) (f : FrameId) : (s.freeFrame f).avail = s.avail := rfl
@[simp] theorem State.freeFrame_count (s : State) (f : FrameId) : (s.freeFrame f).count = s.count := rfl
@[simp] theorem State.freeFrame_power (s : State) (f : FrameId) : (s.freeFrame f).power = s.power := rfl
@[simp] theorem State.freeFrame_drawn (s : State) (f : FrameId) : (s.freeFrame f).drawn = s.drawn := rfl

/-! ### `askBurst` -/

@[simp] theorem askBurst_pending (b : BurstAsk) (s : State) : (askBurst b s).pending = s.pending := rfl
@[simp] theorem askBurst_dict (b : BurstAsk) (s : State) : (askBurst b s).dict = s.dict := rfl
@[simp] theorem askBurst_events (b : BurstAsk) (s : State) : (askBurst b s).events = s.events := rfl
@[simp] theorem askBurst_host (b : BurstAsk) (s : State) : (askBurst b s).host = s.host := rfl
@[simp] theorem askBurst_tw (b : BurstAsk) (s : State) : (askBurst b s).tw = s.tw := rfl
@[simp] theorem askBurst_time (b : BurstAsk) (s : State) : (askBurst b s).time = s.time := rfl
@[simp] theorem askBurst_ptp (b : BurstAsk) (s : State) : (askBurst b s).ptp = s.ptp := rfl
@[simp] theorem askBurst_links (b : BurstAsk) (s : State) : (askBurst b s).links = s.links := rfl
@[simp] theorem askBurst_frames (b : BurstAsk) (s : State) : (askBurst b s).frames = s.frames := rfl
@[simp] theorem askBurst_nextFrame (b : BurstAsk) (s : State) : (askBurst b s).nextFrame = s.nextFrame := rfl
@[simp] theorem askBurst_parse (b : BurstAsk) (s : State) : (askBurst b s).parse = s.parse := rfl
@[simp] theorem askBurst_tables (b : BurstAsk) (s : State) : (askBurst b s).tables = s.tables := rfl
@[simp] theorem askBurst_flow (b : BurstAsk) (s : State) : (askBurst b s).flow = s.flow := rfl
@[simp] theorem askBurst_exports (b : BurstAsk) (s : State) : (askBurst b s).exports = s.exports := rfl
@[simp] theorem askBurst_cross (b : BurstAsk) (s : State) : (askBurst b s).cross = s.cross := rfl
@[simp] theorem askBurst_tm (b : BurstAsk) (s : State) : (askBurst b s).tm = s.tm := rfl
@[simp] theorem askBurst_fabric (b : BurstAsk) (s : State) : (askBurst b s).fabric = s.fabric := rfl
@[simp] theorem askBurst_sleep (b : BurstAsk) (s : State) : (askBurst b s).sleep = s.sleep := rfl
@[simp] theorem askBurst_boot (b : BurstAsk) (s : State) : (askBurst b s).boot = s.boot := rfl
@[simp] theorem askBurst_avail (b : BurstAsk) (s : State) : (askBurst b s).avail = s.avail := rfl
@[simp] theorem askBurst_count (b : BurstAsk) (s : State) : (askBurst b s).count = s.count := rfl
@[simp] theorem askBurst_power (b : BurstAsk) (s : State) : (askBurst b s).power = s.power := rfl
@[simp] theorem askBurst_drawn (b : BurstAsk) (s : State) : (askBurst b s).drawn = s.drawn := rfl
@[simp] theorem askBurst_due (b : BurstAsk) (s : State) : (askBurst b s).hbm.due = s.hbm.due ++ [b] := rfl
@[simp] theorem askBurst_pcs (b : BurstAsk) (s : State) : (askBurst b s).hbm.pcs = s.hbm.pcs := rfl

/-! ### `setPc` -/

@[simp] theorem setPc_pending (c : Nat) (x : PcCtl) (s : State) : (setPc c x s).pending = s.pending := rfl
@[simp] theorem setPc_dict (c : Nat) (x : PcCtl) (s : State) : (setPc c x s).dict = s.dict := rfl
@[simp] theorem setPc_events (c : Nat) (x : PcCtl) (s : State) : (setPc c x s).events = s.events := rfl
@[simp] theorem setPc_host (c : Nat) (x : PcCtl) (s : State) : (setPc c x s).host = s.host := rfl
@[simp] theorem setPc_tw (c : Nat) (x : PcCtl) (s : State) : (setPc c x s).tw = s.tw := rfl
@[simp] theorem setPc_time (c : Nat) (x : PcCtl) (s : State) : (setPc c x s).time = s.time := rfl
@[simp] theorem setPc_ptp (c : Nat) (x : PcCtl) (s : State) : (setPc c x s).ptp = s.ptp := rfl
@[simp] theorem setPc_links (c : Nat) (x : PcCtl) (s : State) : (setPc c x s).links = s.links := rfl
@[simp] theorem setPc_frames (c : Nat) (x : PcCtl) (s : State) : (setPc c x s).frames = s.frames := rfl
@[simp] theorem setPc_nextFrame (c : Nat) (x : PcCtl) (s : State) : (setPc c x s).nextFrame = s.nextFrame := rfl
@[simp] theorem setPc_parse (c : Nat) (x : PcCtl) (s : State) : (setPc c x s).parse = s.parse := rfl
@[simp] theorem setPc_tables (c : Nat) (x : PcCtl) (s : State) : (setPc c x s).tables = s.tables := rfl
@[simp] theorem setPc_flow (c : Nat) (x : PcCtl) (s : State) : (setPc c x s).flow = s.flow := rfl
@[simp] theorem setPc_exports (c : Nat) (x : PcCtl) (s : State) : (setPc c x s).exports = s.exports := rfl
@[simp] theorem setPc_cross (c : Nat) (x : PcCtl) (s : State) : (setPc c x s).cross = s.cross := rfl
@[simp] theorem setPc_tm (c : Nat) (x : PcCtl) (s : State) : (setPc c x s).tm = s.tm := rfl
@[simp] theorem setPc_fabric (c : Nat) (x : PcCtl) (s : State) : (setPc c x s).fabric = s.fabric := rfl
@[simp] theorem setPc_sleep (c : Nat) (x : PcCtl) (s : State) : (setPc c x s).sleep = s.sleep := rfl
@[simp] theorem setPc_boot (c : Nat) (x : PcCtl) (s : State) : (setPc c x s).boot = s.boot := rfl
@[simp] theorem setPc_avail (c : Nat) (x : PcCtl) (s : State) : (setPc c x s).avail = s.avail := rfl
@[simp] theorem setPc_count (c : Nat) (x : PcCtl) (s : State) : (setPc c x s).count = s.count := rfl
@[simp] theorem setPc_power (c : Nat) (x : PcCtl) (s : State) : (setPc c x s).power = s.power := rfl
@[simp] theorem setPc_drawn (c : Nat) (x : PcCtl) (s : State) : (setPc c x s).drawn = s.drawn := rfl

/-! ### `setLink` -/

@[simp] theorem State.setLink_pending (s : State) (p : Nat) (x : PortLink) : (s.setLink p x).pending = s.pending := rfl
@[simp] theorem State.setLink_dict (s : State) (p : Nat) (x : PortLink) : (s.setLink p x).dict = s.dict := rfl
@[simp] theorem State.setLink_events (s : State) (p : Nat) (x : PortLink) : (s.setLink p x).events = s.events := rfl
@[simp] theorem State.setLink_host (s : State) (p : Nat) (x : PortLink) : (s.setLink p x).host = s.host := rfl
@[simp] theorem State.setLink_tw (s : State) (p : Nat) (x : PortLink) : (s.setLink p x).tw = s.tw := rfl
@[simp] theorem State.setLink_time (s : State) (p : Nat) (x : PortLink) : (s.setLink p x).time = s.time := rfl
@[simp] theorem State.setLink_ptp (s : State) (p : Nat) (x : PortLink) : (s.setLink p x).ptp = s.ptp := rfl
@[simp] theorem State.setLink_frames (s : State) (p : Nat) (x : PortLink) : (s.setLink p x).frames = s.frames := rfl
@[simp] theorem State.setLink_nextFrame (s : State) (p : Nat) (x : PortLink) : (s.setLink p x).nextFrame = s.nextFrame := rfl
@[simp] theorem State.setLink_parse (s : State) (p : Nat) (x : PortLink) : (s.setLink p x).parse = s.parse := rfl
@[simp] theorem State.setLink_tables (s : State) (p : Nat) (x : PortLink) : (s.setLink p x).tables = s.tables := rfl
@[simp] theorem State.setLink_flow (s : State) (p : Nat) (x : PortLink) : (s.setLink p x).flow = s.flow := rfl
@[simp] theorem State.setLink_exports (s : State) (p : Nat) (x : PortLink) : (s.setLink p x).exports = s.exports := rfl
@[simp] theorem State.setLink_cross (s : State) (p : Nat) (x : PortLink) : (s.setLink p x).cross = s.cross := rfl
@[simp] theorem State.setLink_tm (s : State) (p : Nat) (x : PortLink) : (s.setLink p x).tm = s.tm := rfl
@[simp] theorem State.setLink_hbm (s : State) (p : Nat) (x : PortLink) : (s.setLink p x).hbm = s.hbm := rfl
@[simp] theorem State.setLink_fabric (s : State) (p : Nat) (x : PortLink) : (s.setLink p x).fabric = s.fabric := rfl
@[simp] theorem State.setLink_sleep (s : State) (p : Nat) (x : PortLink) : (s.setLink p x).sleep = s.sleep := rfl
@[simp] theorem State.setLink_boot (s : State) (p : Nat) (x : PortLink) : (s.setLink p x).boot = s.boot := rfl
@[simp] theorem State.setLink_avail (s : State) (p : Nat) (x : PortLink) : (s.setLink p x).avail = s.avail := rfl
@[simp] theorem State.setLink_count (s : State) (p : Nat) (x : PortLink) : (s.setLink p x).count = s.count := rfl
@[simp] theorem State.setLink_power (s : State) (p : Nat) (x : PortLink) : (s.setLink p x).power = s.power := rfl
@[simp] theorem State.setLink_drawn (s : State) (p : Nat) (x : PortLink) : (s.setLink p x).drawn = s.drawn := rfl

/-! ### `setDir` -/

@[simp] theorem State.setDir_pending (s : State) (d : Nat) (x : Link) : (s.setDir d x).pending = s.pending := by
  unfold State.setDir; dsimp only; split <;> rfl
@[simp] theorem State.setDir_events (s : State) (d : Nat) (x : Link) : (s.setDir d x).events = s.events := by
  unfold State.setDir; dsimp only; split <;> rfl
@[simp] theorem State.setDir_host (s : State) (d : Nat) (x : Link) : (s.setDir d x).host = s.host := by
  unfold State.setDir; dsimp only; split <;> rfl
@[simp] theorem State.setDir_tw (s : State) (d : Nat) (x : Link) : (s.setDir d x).tw = s.tw := by
  unfold State.setDir; dsimp only; split <;> rfl
@[simp] theorem State.setDir_time (s : State) (d : Nat) (x : Link) : (s.setDir d x).time = s.time := by
  unfold State.setDir; dsimp only; split <;> rfl
@[simp] theorem State.setDir_ptp (s : State) (d : Nat) (x : Link) : (s.setDir d x).ptp = s.ptp := by
  unfold State.setDir; dsimp only; split <;> rfl
@[simp] theorem State.setDir_links (s : State) (d : Nat) (x : Link) : (s.setDir d x).links = s.links := by
  unfold State.setDir; dsimp only; split <;> rfl
@[simp] theorem State.setDir_frames (s : State) (d : Nat) (x : Link) : (s.setDir d x).frames = s.frames := by
  unfold State.setDir; dsimp only; split <;> rfl
@[simp] theorem State.setDir_nextFrame (s : State) (d : Nat) (x : Link) : (s.setDir d x).nextFrame = s.nextFrame := by
  unfold State.setDir; dsimp only; split <;> rfl
@[simp] theorem State.setDir_parse (s : State) (d : Nat) (x : Link) : (s.setDir d x).parse = s.parse := by
  unfold State.setDir; dsimp only; split <;> rfl
@[simp] theorem State.setDir_tables (s : State) (d : Nat) (x : Link) : (s.setDir d x).tables = s.tables := by
  unfold State.setDir; dsimp only; split <;> rfl
@[simp] theorem State.setDir_flow (s : State) (d : Nat) (x : Link) : (s.setDir d x).flow = s.flow := by
  unfold State.setDir; dsimp only; split <;> rfl
@[simp] theorem State.setDir_exports (s : State) (d : Nat) (x : Link) : (s.setDir d x).exports = s.exports := by
  unfold State.setDir; dsimp only; split <;> rfl
@[simp] theorem State.setDir_tm (s : State) (d : Nat) (x : Link) : (s.setDir d x).tm = s.tm := by
  unfold State.setDir; dsimp only; split <;> rfl
@[simp] theorem State.setDir_hbm (s : State) (d : Nat) (x : Link) : (s.setDir d x).hbm = s.hbm := by
  unfold State.setDir; dsimp only; split <;> rfl
@[simp] theorem State.setDir_fabric (s : State) (d : Nat) (x : Link) : (s.setDir d x).fabric = s.fabric := by
  unfold State.setDir; dsimp only; split <;> rfl
@[simp] theorem State.setDir_sleep (s : State) (d : Nat) (x : Link) : (s.setDir d x).sleep = s.sleep := by
  unfold State.setDir; dsimp only; split <;> rfl
@[simp] theorem State.setDir_boot (s : State) (d : Nat) (x : Link) : (s.setDir d x).boot = s.boot := by
  unfold State.setDir; dsimp only; split <;> rfl
@[simp] theorem State.setDir_avail (s : State) (d : Nat) (x : Link) : (s.setDir d x).avail = s.avail := by
  unfold State.setDir; dsimp only; split <;> rfl
@[simp] theorem State.setDir_count (s : State) (d : Nat) (x : Link) : (s.setDir d x).count = s.count := by
  unfold State.setDir; dsimp only; split <;> rfl
@[simp] theorem State.setDir_power (s : State) (d : Nat) (x : Link) : (s.setDir d x).power = s.power := by
  unfold State.setDir; dsimp only; split <;> rfl
@[simp] theorem State.setDir_drawn (s : State) (d : Nat) (x : Link) : (s.setDir d x).drawn = s.drawn := by
  unfold State.setDir; dsimp only; split <;> rfl

/-! ### `setEngine` -/

@[simp] theorem State.setEngine_pending (s : State) (e : Nat) (x : Engine) : (s.setEngine e x).pending = s.pending := rfl
@[simp] theorem State.setEngine_dict (s : State) (e : Nat) (x : Engine) : (s.setEngine e x).dict = s.dict := rfl
@[simp] theorem State.setEngine_events (s : State) (e : Nat) (x : Engine) : (s.setEngine e x).events = s.events := rfl
@[simp] theorem State.setEngine_host (s : State) (e : Nat) (x : Engine) : (s.setEngine e x).host = s.host := rfl
@[simp] theorem State.setEngine_tw (s : State) (e : Nat) (x : Engine) : (s.setEngine e x).tw = s.tw := rfl
@[simp] theorem State.setEngine_time (s : State) (e : Nat) (x : Engine) : (s.setEngine e x).time = s.time := rfl
@[simp] theorem State.setEngine_ptp (s : State) (e : Nat) (x : Engine) : (s.setEngine e x).ptp = s.ptp := rfl
@[simp] theorem State.setEngine_links (s : State) (e : Nat) (x : Engine) : (s.setEngine e x).links = s.links := rfl
@[simp] theorem State.setEngine_frames (s : State) (e : Nat) (x : Engine) : (s.setEngine e x).frames = s.frames := rfl
@[simp] theorem State.setEngine_nextFrame (s : State) (e : Nat) (x : Engine) : (s.setEngine e x).nextFrame = s.nextFrame := rfl
@[simp] theorem State.setEngine_tables (s : State) (e : Nat) (x : Engine) : (s.setEngine e x).tables = s.tables := rfl
@[simp] theorem State.setEngine_flow (s : State) (e : Nat) (x : Engine) : (s.setEngine e x).flow = s.flow := rfl
@[simp] theorem State.setEngine_exports (s : State) (e : Nat) (x : Engine) : (s.setEngine e x).exports = s.exports := rfl
@[simp] theorem State.setEngine_cross (s : State) (e : Nat) (x : Engine) : (s.setEngine e x).cross = s.cross := rfl
@[simp] theorem State.setEngine_tm (s : State) (e : Nat) (x : Engine) : (s.setEngine e x).tm = s.tm := rfl
@[simp] theorem State.setEngine_hbm (s : State) (e : Nat) (x : Engine) : (s.setEngine e x).hbm = s.hbm := rfl
@[simp] theorem State.setEngine_fabric (s : State) (e : Nat) (x : Engine) : (s.setEngine e x).fabric = s.fabric := rfl
@[simp] theorem State.setEngine_sleep (s : State) (e : Nat) (x : Engine) : (s.setEngine e x).sleep = s.sleep := rfl
@[simp] theorem State.setEngine_boot (s : State) (e : Nat) (x : Engine) : (s.setEngine e x).boot = s.boot := rfl
@[simp] theorem State.setEngine_avail (s : State) (e : Nat) (x : Engine) : (s.setEngine e x).avail = s.avail := rfl
@[simp] theorem State.setEngine_count (s : State) (e : Nat) (x : Engine) : (s.setEngine e x).count = s.count := rfl
@[simp] theorem State.setEngine_power (s : State) (e : Nat) (x : Engine) : (s.setEngine e x).power = s.power := rfl
@[simp] theorem State.setEngine_drawn (s : State) (e : Nat) (x : Engine) : (s.setEngine e x).drawn = s.drawn := rfl

/-! ### `setRing` -/

@[simp] theorem State.setRing_pending (s : State) (r : Nat) (x : RingPos) : (s.setRing r x).pending = s.pending := rfl
@[simp] theorem State.setRing_events (s : State) (r : Nat) (x : RingPos) : (s.setRing r x).events = s.events := rfl
@[simp] theorem State.setRing_tw (s : State) (r : Nat) (x : RingPos) : (s.setRing r x).tw = s.tw := rfl
@[simp] theorem State.setRing_time (s : State) (r : Nat) (x : RingPos) : (s.setRing r x).time = s.time := rfl
@[simp] theorem State.setRing_ptp (s : State) (r : Nat) (x : RingPos) : (s.setRing r x).ptp = s.ptp := rfl
@[simp] theorem State.setRing_links (s : State) (r : Nat) (x : RingPos) : (s.setRing r x).links = s.links := rfl
@[simp] theorem State.setRing_frames (s : State) (r : Nat) (x : RingPos) : (s.setRing r x).frames = s.frames := rfl
@[simp] theorem State.setRing_nextFrame (s : State) (r : Nat) (x : RingPos) : (s.setRing r x).nextFrame = s.nextFrame := rfl
@[simp] theorem State.setRing_parse (s : State) (r : Nat) (x : RingPos) : (s.setRing r x).parse = s.parse := rfl
@[simp] theorem State.setRing_tables (s : State) (r : Nat) (x : RingPos) : (s.setRing r x).tables = s.tables := rfl
@[simp] theorem State.setRing_flow (s : State) (r : Nat) (x : RingPos) : (s.setRing r x).flow = s.flow := rfl
@[simp] theorem State.setRing_exports (s : State) (r : Nat) (x : RingPos) : (s.setRing r x).exports = s.exports := rfl
@[simp] theorem State.setRing_cross (s : State) (r : Nat) (x : RingPos) : (s.setRing r x).cross = s.cross := rfl
@[simp] theorem State.setRing_tm (s : State) (r : Nat) (x : RingPos) : (s.setRing r x).tm = s.tm := rfl
@[simp] theorem State.setRing_hbm (s : State) (r : Nat) (x : RingPos) : (s.setRing r x).hbm = s.hbm := rfl
@[simp] theorem State.setRing_fabric (s : State) (r : Nat) (x : RingPos) : (s.setRing r x).fabric = s.fabric := rfl
@[simp] theorem State.setRing_sleep (s : State) (r : Nat) (x : RingPos) : (s.setRing r x).sleep = s.sleep := rfl
@[simp] theorem State.setRing_boot (s : State) (r : Nat) (x : RingPos) : (s.setRing r x).boot = s.boot := rfl
@[simp] theorem State.setRing_avail (s : State) (r : Nat) (x : RingPos) : (s.setRing r x).avail = s.avail := rfl
@[simp] theorem State.setRing_count (s : State) (r : Nat) (x : RingPos) : (s.setRing r x).count = s.count := rfl
@[simp] theorem State.setRing_power (s : State) (r : Nat) (x : RingPos) : (s.setRing r x).power = s.power := rfl
@[simp] theorem State.setRing_drawn (s : State) (r : Nat) (x : RingPos) : (s.setRing r x).drawn = s.drawn := rfl

/-! ### `setPilot` -/

@[simp] theorem setPilot_pending (d : Nat) (x : Pilot) (s : State) : (setPilot d x s).pending = s.pending := rfl
@[simp] theorem setPilot_dict (d : Nat) (x : Pilot) (s : State) : (setPilot d x s).dict = s.dict := rfl
@[simp] theorem setPilot_events (d : Nat) (x : Pilot) (s : State) : (setPilot d x s).events = s.events := rfl
@[simp] theorem setPilot_host (d : Nat) (x : Pilot) (s : State) : (setPilot d x s).host = s.host := rfl
@[simp] theorem setPilot_tw (d : Nat) (x : Pilot) (s : State) : (setPilot d x s).tw = s.tw := rfl
@[simp] theorem setPilot_time (d : Nat) (x : Pilot) (s : State) : (setPilot d x s).time = s.time := rfl
@[simp] theorem setPilot_ptp (d : Nat) (x : Pilot) (s : State) : (setPilot d x s).ptp = s.ptp := rfl
@[simp] theorem setPilot_links (d : Nat) (x : Pilot) (s : State) : (setPilot d x s).links = s.links := rfl
@[simp] theorem setPilot_frames (d : Nat) (x : Pilot) (s : State) : (setPilot d x s).frames = s.frames := rfl
@[simp] theorem setPilot_nextFrame (d : Nat) (x : Pilot) (s : State) : (setPilot d x s).nextFrame = s.nextFrame := rfl
@[simp] theorem setPilot_parse (d : Nat) (x : Pilot) (s : State) : (setPilot d x s).parse = s.parse := rfl
@[simp] theorem setPilot_tables (d : Nat) (x : Pilot) (s : State) : (setPilot d x s).tables = s.tables := rfl
@[simp] theorem setPilot_flow (d : Nat) (x : Pilot) (s : State) : (setPilot d x s).flow = s.flow := rfl
@[simp] theorem setPilot_exports (d : Nat) (x : Pilot) (s : State) : (setPilot d x s).exports = s.exports := rfl
@[simp] theorem setPilot_cross (d : Nat) (x : Pilot) (s : State) : (setPilot d x s).cross = s.cross := rfl
@[simp] theorem setPilot_tm (d : Nat) (x : Pilot) (s : State) : (setPilot d x s).tm = s.tm := rfl
@[simp] theorem setPilot_hbm (d : Nat) (x : Pilot) (s : State) : (setPilot d x s).hbm = s.hbm := rfl
@[simp] theorem setPilot_fabric (d : Nat) (x : Pilot) (s : State) : (setPilot d x s).fabric = s.fabric := rfl
@[simp] theorem setPilot_sleep (d : Nat) (x : Pilot) (s : State) : (setPilot d x s).sleep = s.sleep := rfl
@[simp] theorem setPilot_boot (d : Nat) (x : Pilot) (s : State) : (setPilot d x s).boot = s.boot := rfl
@[simp] theorem setPilot_count (d : Nat) (x : Pilot) (s : State) : (setPilot d x s).count = s.count := rfl
@[simp] theorem setPilot_power (d : Nat) (x : Pilot) (s : State) : (setPilot d x s).power = s.power := rfl
@[simp] theorem setPilot_drawn (d : Nat) (x : Pilot) (s : State) : (setPilot d x s).drawn = s.drawn := rfl

end Sys2Proof.Machine
end

