-- ==== Sys2Proof/WellFormed.lean ====
section
/-! DEFINITION. Which commands are well formed: the operands lie where the spec lets them lie. The type of an operand
already bounds most of them (a port, a pipe, a ring); what is left is checked here. The meanings are total and give an
ill-formed command an effect too; statements about the wire form of a command assume it well formed. -/

namespace Sys2Proof

/-- The group instance exists (R66, R67). -/
def groupExists (g : BitVec 8) (inst : BitVec 16) : Bool :=
  match Machine.groupSize g.toNat with
  | some n => decide (inst.toNat < n)
  | none => false

/-- A request record carries at most 240 value bytes, and LENGTH counts them (R57); an opcode that carries no value has
none. -/
def valueFits (opcode : BitVec 7) (carries : Bool) (q : Request) : Bool :=
  q.opcode == opcode && decide (q.value.length ≤ 240) &&
  (if carries then q.length.toNat == q.value.length else q.value.isEmpty)

/-- A cell carries 1 to 256 bytes (R351). -/
def cellFits (data : List Byte) : Bool := decide (1 ≤ data.length ∧ data.length ≤ 256)

/-- A control frame or its like without FCS: at least the 14 bytes of an Ethernet header, at most 16,352 bytes, the
largest MAX_FRAME_BYTES, and a ferry tag (R139). -/
def frameFits (frame : List Byte) : Bool := decide (14 ≤ frame.length ∧ frame.length ≤ 16362)

/-- The gangway exists: local number 104 only on deck 0 (R480). -/
def gangwayFits (g : Gangway) : Bool := decide (g.val % 128 < 104) || g.val == 104

/-- The command is well formed. -/
def Instr.wellFormed : Instr → Bool
  | .read _ q => valueFits 1 false q
  | .write _ q => valueFits 2 true q
  | .readSeg _ q => valueFits 3 false q
  | .writeSeg _ q => valueFits 4 true q
  | .describe _ q => valueFits 5 false q
  | .nop _ q => valueFits 6 false q ||
    (decide (q.opcode = 0 ∨ 6 < q.opcode.toNat) && valueFits q.opcode true q)
  | .commitNow _ g inst => groupExists g inst
  | .commitAtSchedTime _ g inst => groupExists g inst
  | .commitValidated g inst => groupExists g inst
  | .commitSwitchover g inst => groupExists g inst
  | .abort _ g inst _ => groupExists g inst
  | .stageExpired g inst => groupExists g inst
  | .vendorUnlock _ token => decide (token.length ≤ 240)
  | .vendorLock _ _ => true
  | .eventsSuppressed => true
  | .mbDoorbell _ area => decide (area.length ≤ 256)
  | .mbRelease _ => true
  | .mbResponseReady _ => true
  | .mailboxUnserved _ => true
  | .twoWireRequest bytes => decide (bytes.length ≤ 259)
  | .twoWireResponse => true
  | .twoWireUnserved => true
  | .sclStuckTimeout => true
  | .alertResponseRead => true
  | .bollardGive _ => true
  | .hostBar2Read offset => offset.toNat % 4 == 0
  | .hostBar2Write offset _ => offset.toNat % 4 == 0
  | .pcieReset _ => true
  | .pcieLinkDown => true
  | .pciePerst _ => true
  | .vectorCauseClear _ _ => true
  | .msixUnmask _ => true
  | .ringFlush _ => true
  | .ringDisable _ _ => true
  | .injectRecord _ => true
  | .tableRequest _ => true
  | .lockBroken _ _ _ => true
  | .rawWindowOpen _ => true
  | .rawWindowClose => true
  | .restartWarm => true
  | .restartCold => true
  | .restartColdConfig => true
  | .rawWindowAccess (.bar0 _ bytes) _ => decide (1 ≤ bytes ∧ bytes ≤ 4096)
  | .rawWindowAccess (.config _) _ => true
  | .feErase => true
  | .feProgram => true
  | .feDone _ => true
  | .rxFaultBegin _ _ => true
  | .alignmentAcquired _ => true
  | .trainingFailed _ => true
  | .linkDown _ => true
  | .linkUp _ => true
  | .holdExpired _ => true
  | .linkHoldNsWrite _ _ _ => true
  | .fecUncorrected _ _ _ => true
  | .frameFirstCell _ data => cellFits data
  | .frameCell _ data => cellFits data
  | .frameTailRx _ _ => true
  | .macControlRx _ data => frameFits data
  | .pfcPauseExpired _ _ => true
  | .lpiEnter _ => true
  | .lpiWakeDone _ => true
  | .parseDispatch _ _ => true
  | .microNop _ => true
  | .extract _ => true
  | .movi _ => true
  | .movhi _ => true
  | .add _ => true
  | .addi _ => true
  | .sub _ => true
  | .and _ => true
  | .or _ => true
  | .xor _ => true
  | .andi _ => true
  | .ori _ => true
  | .shl _ => true
  | .shr _ => true
  | .cmp _ => true
  | .cmpi _ => true
  | .lookup _ => true
  | .hashadd _ => true
  | .keyL3 _ => true
  | .keyL4 _ => true
  | .setres _ => true
  | .mark _ => true
  | .rewrite _ => true
  | .push _ => true
  | .pop _ => true
  | .csum4 _ => true
  | .curset _ => true
  | .xwin _ => true
  | .rdsave _ => true
  | .wrsave _ => true
  | .punt _ => true
  | .drop _ => true
  | .branch _ => true
  | .call _ => true
  | .ret _ => true
  | .end_ _ => true
  | .trapReturn _ => true
  | .restart _ => true
  | .lookupResult _ _ => true
  | .lookupTimeout _ _ => true
  | .trapEntry _ => true
  | .cycleLimit _ => true
  | .controlStoreRepair _ _ _ => true
  | .scrubPass _ => true
  | .ucodeLoad _ _ _ => true
  | .ucodeLoaded _ _ => true
  | .clusterFence _ _ => true
  | .clusterUnfence _ _ => true
  | .clusterRestored _ => true
  | .homeLearn _ => true
  | .fdbSweep _ => true
  | .rehashPass _ => true
  | .homeStageFrame _ _ => true
  | .homeLookupData _ _ => true
  | .steeredResolve _ _ => true
  | .frameTailHome _ _ => true
  | .natColumnOperation _ => true
  | .eviction _ => true
  | .relocationPass _ => true
  | .groupFlipFinish _ => true
  | .flowSweepPass _ => true
  | .consultRequest _ _ => true
  | .recordTransfer _ _ => true
  | .transferAck _ _ => true
  | .migrationWalk _ => true
  | .exportFlush _ => true
  | .exportTemplate _ => true
  | .slotSend _ => true
  | .slotRetry _ => true
  | .cellLand _ _ _ => true
  | .freeCountReport => true
  | .reseqHead _ => true
  | .holeNotice _ _ => true
  | .reseqTimeout _ _ _ _ => true
  | .creditSend _ _ _ _ n => decide (1 ≤ n.val)
  | .credit _ _ => true
  | .mcastCopyArrive _ _ => true
  | .residueServe _ _ => true
  | .residueAged _ _ => true
  | .enqueue _ => true
  | .selection _ => true
  | .txStartBoundary _ => true
  | .txEnd _ => true
  | .gateEntryChange _ => true
  | .gateConfigChanged _ => true
  | .pfcRefresh _ => true
  | .hbmRequest _ _ _ _ => true
  | .burstComplete _ _ => true
  | .writeDrainTimeout _ => true
  | .refreshDue _ => true
  | .hbmTempRead _ _ => true
  | .reqPriorityWrite _ _ rr _ _ => decide (1 ≤ rr.toNat ∧ rr.toNat ≤ 6)
  | .patrolScrub _ _ => true
  | .spareRequest _ _ => true
  | .spareDone _ => true
  | .retrainStep _ _ _ => true
  | .timeIncrementWrite _ _ => true
  | .timeStep _ _ => true
  | .timeHoldEnd => true
  | .timeForcedStep _ _ => true
  | .timeSet _ _ => true
  | .ptpMessageRx _ _ => true
  | .ptpMessageTx _ => true
  | .timeSourceResumed _ => true
  | .triggerEdge _ => true
  | .triggerPulseEnd _ => true
  | .captureEdge _ _ => true
  | .captureRead _ _ => true
  | .helloTx _ => true
  | .helloRx _ frame => frameFits frame
  | .adjDead _ => true
  | .claimRx _ frame => frameFits frame
  | .defendRx _ frame => frameFits frame
  | .claimWaitEnd => true
  | .lsaRx _ frame => frameFits frame
  | .lsaOriginate => true
  | .lsaAgeOut _ => true
  | .routeCompute => true
  | .acpRequest _ frame => frameFits frame
  | .acpResponse _ frame => frameFits frame
  | .acpProxyRequest _ _ value => decide (value.length ≤ 240)
  | .acpProxyTimeout _ => true
  | .acpKeyGraceEnd _ => true
  | .refclkLost _ _ => true
  | .dozeEnter => true
  | .moorEnter => true
  | .moorEntryStepDone => true
  | .wake _ => true
  | .wakeStepDone => true
  | .landingPfcRefresh _ => true
  | .gangwayEventAck g => gangwayFits g
  | .gangwayTimeout g _ _ => gangwayFits g
  | .gangwaySideReset g _ => gangwayFits g
  | .gangwayResync g => gangwayFits g
  | .bootStart _ => true
  | .sysReset _ => true
  | .bootStageDone found => found.badPilots.all fun d => decide (1 ≤ d.val)
  | .configRecord => true
  | .rollbackAdvance _ _ => true
  | .keelWrite _ _ _ _ => true
  | .keelWritten => true
  | .heartbeat _ => true
  | .pilotFailed _ _ => true
  | .deckAdopt _ => true
  | .pilotRelease _ => true
  | .pilotRestarted _ => true
  | .pilotRestart _ _ _ => true
  | .allPilotsDown => true
  | .fwLoad _ _ => true
  | .fwCheckDone => true
  | .fwFlashDone => true
  | .fwUpdateAbort _ _ => true
  | .sramScrub _ _ _ => true
  | .poisonRepair _ => true
  | .directionRetrain _ => true
  | .directionRetrainDone _ _ => true
  | .directionRetry _ => true
  | .pllUnlock _ _ => true
  | .pllRelockTimeout _ _ => true
  | .deckRetire _ _ _ => true
  | .lostDeckRehome => true
  | .snapshot _ _ => true
  | .chain _ _ code _ => code.toNat % 2 == 0
  | .bwWindowEnd => true
  | .testChallenge _ => true
  | .testUnlock _ _ => true
  | .testLocked => true
  | .powerLoss _ => true
  | .supplyOutOfRange rail _ => rail.val != 0
  | .junctionTempRead milliC => milliC.length == 16
  | .thermalShutdown => true
  | .intPinCauseClear _ _ => true
  | .bypass => true
  | .idcode => true
  | .samplePreload => true
  | .extest _ => true
  | .extestPulse _ => true
  | .extestTrain _ => true
  | .clamp _ => true
  | .highz _ => true
  | .acpUnserved _ => true
  | .fwRestartTimeout _ => true
  | .pllRelocked _ _ => true
  | .twoWireResponseReady => true
  | .rollbackAdvanced => true
  | .vddioReturned => true

end Sys2Proof
end

