-- ==== Sys2Proof/Safety.lean ====
section
/-! DEFINITION. The terms of the claims: a command completes, what is left as it was, what logging an event may touch,
and the canonical form of the byte memories. -/

namespace Sys2Proof.Machine

/-- The command completes on the state, and the state it answers has the property. -/
def Completes (c : Instr) (s : State) (P : State → Prop) : Prop := ∃ t, exec c s = .next t ∧ P t

/-- Every numbered object but those named, by index, subindex and instance, has the value it had. -/
def ObjectsKept (but : Nat → Nat → Nat → Bool) (s t : State) : Prop :=
  ∀ (o : ObjRow) (sub inst : Nat), sub < 256 → inst < 65536 → but o.index sub inst = false →
    t.getS o sub inst = s.getS o sub inst

/-- Objects that logging an event may change: EVENT_COUNT, COUNT_OVERFLOW, the log's counters, INT_PIN_CAUSE, and position
and records of the event ring (R84 to R88, R571, R101). -/
def loggingObject (index sub inst : Nat) : Bool :=
  index == 0x8800 || index == 0x8801 || index == 0x0801 || index == 0x7A20 ||
  (index == 0x7010 && (sub == 5 || sub == 6) && inst == 20)

/-- A page of the event ring. -/
def State.eventPage (s : State) (page : Nat) : Bool :=
  decide (s.ringFirst 20 ≤ page) && decide (page < s.ringFirst 20 + s.ringPages 20)

/-- `t` is `s` but for what logging events may touch: counters, the log, its ring and the bursts that write it, the
interrupt causes. -/
structure OnlyLogs (s t : State) : Prop where
  rest : t = { s with
    dict := { s.dict with active := t.dict.active }, events := t.events, hbm := { s.hbm with due := t.hbm.due },
    host := { s.host with vectorCause := t.host.vectorCause, pba := t.host.pba, messages := t.host.messages,
                          bollards := t.host.bollards, quay := t.host.quay, rings := t.host.rings } }
  objects : ObjectsKept loggingObject s t
  bytes : ∀ a, s.eventPage (a / pageSize) = false → t.quayByte a = s.quayByte a
  pages : ∀ n, s.eventPage n = false → t.owned n = s.owned n
  rings : ∀ r, r ≠ 20 → t.ringPos r = s.ringPos r

/-! ### A request in its turn (R60 to R65, R94, R457, R499) -/

/-- The request has come by the path, whole and not yet taken, and firmware serves it next. -/
def Turn (p : Path) (q : Request) (s : State) : Prop :=
  s.boot.held = false ∧ s.anyPilot = true ∧
  match p with
  | .mailbox k => s.romServes = false ∧ (s.slot k.val).state = 1 ∧ (s.slot k.val).taken = none ∧
      s.firstWaiting k.val = true ∧ asRecord q = q ∧
      parseRequest ((s.slot k.val).area.take (16 + q.value.length)) = some q
  | .twoWire => s.romServes = false ∧ s.tw.serving.map (·.1) = some q ∧ s.tw.taken = none ∧ s.tw.answer = none ∧
      asRecord q = q
  | .acp d k n => s.romServes = false ∧ asRecord q = q ∧
      (s.acpWaiting d.toNat k.val).map (fun a => (a.seq, a.request)) = some (n.toNat, q)
  | .boot => s.boot.config.head? = some q ∧ (s.boot.answer.isSome ∨ s.boot.configIndex = 0) ∧
      (q.opcode = 2 ∨ q.opcode = 4)

/-- The state in which the request of a path is marked as taken by the Pilot that serves. -/
def State.takenBy (s : State) (p : Path) : State :=
  match p with
  | .mailbox k => s.setSlot k.val { s.slot k.val with taken := some s.servingPilot }
  | .twoWire => s.withTw { s.tw with taken := some s.servingPilot }
  | .acp d k _ => match s.acpWaiting d.toNat k.val with
    | some a => s.withFabric { s.fabric with acp := s.fabric.acp.map fun x =>
        if x = a then { a with taken := some s.servingPilot } else x }
    | none => s
  | .boot => { s with boot := { s.boot with config := s.boot.config.tail, configIndex := s.boot.configIndex + 1, answer := none } }

/-- A client's write of an object is in its turn, at a level that may write it, after start-up (R50, R51, R493). -/
def ClientMay (c : Client) (index sub inst : Nat) (value : List Byte) (level : Nat) (s : State) : Prop :=
  Turn c.path (writeReq c.tag index sub inst value) s ∧ level ≤ (s.takenBy c.path).levelOf c.path index true ∧
  (9 ≤ (s.takenBy c.path).get Obj.bootStage ∨ c.path = .boot)

/-- The command completes: the client's write is answered OK and has the effect. -/
def ClientWrites (i : Instr) (c : Client) (index sub inst : Nat) (value : List Byte) (s : State)
    (effect : State → State) : Prop :=
  exec i s = .next (answer c.path (respond (writeReq c.tag index sub inst value) St.ok) (effect (s.takenBy c.path)))

/-- A write of the index does more than to store its value: the control objects of groups, the keel store, and the
objects of VENDOR_LOCK, LINK_HOLD_NS, the time changes, fences and loads, TALLY_RNG_SEED, SPARE_REQUEST, the rings, Pilots
and decks, CHAIN, SNAPSHOT, ROLLBACK_ADVANCE and TEST_UNLOCK. -/
def ownRule (index : Nat) : Bool :=
  controlIndex index || (keelRow index).isSome ||
  [0x0013, 0x1204, 0x1804, 0x1805, 0x1806, 0x2121, 0x2130, 0x2152, 0x3013, 0x4800, 0x6041, 0x6043, 0x7010, 0x8004, 0x8010, 0x8014, 0x8023, 0x8802,
   0x8804, 0x9012, 0x9800].contains index

/-! ### A parse engine at a word (R146 to R168, R539) -/

/-- The engine stands at a word of the operation on a deck whose words run: nothing to wait for, no trap, no error, cycles
left. -/
def StandsAt (op : Nat) (e : EngineId) (x : Engine) (w : MicroWord) (s : State) : Prop :=
  s.engine e.val = some x ∧ s.ticking (e.val / 256) = true ∧ s.ctlWord (State.fetchKey e.val x) = { word := w } ∧ mwOp w = op ∧ mwSeq w < 6 ∧
  x.done = none ∧ x.cycles < x.limit ∧ x.trap = none ∧ (x.swap = false ∨ x.inTrap = true) ∧
  ∀ r ∈ sourcesOf w ++ destOf w, r ∉ x.pending

/-- The bytes of the engine's frame up to and with offset `last` are received and in the window (R152). -/
def Reaches (x : Engine) (d : List Byte) (last : Nat) (s : State) : Prop :=
  (s.frame x.frame).map Frame.data = some d ∧ last < d.length ∧ last < x.window

/-- Nothing but one engine and the slot counters of its pipe differs. -/
structure OnlyEngine (e : Nat) (s t : State) : Prop where
  rest : t = { s with parse := { s.parse with engines := t.parse.engines }, dict := { s.dict with active := t.dict.active } }
  engines : ∀ k, k ≠ e → t.engine k = s.engine k
  objects : ObjectsKept (fun index _ n => index == Obj.slotsTotal.index && n == e / 128) s t

/-- The command spends one counted cycle of its engine: the engine after it is `y` one cycle later, and the cycle is counted
as useful, or as wasted while a trap is handled. -/
def Spends (i : Instr) (e : EngineId) (y : Engine) (s : State) : Prop :=
  Completes i s fun t => OnlyEngine e.val s t ∧ t.engine e.val = some { y with cycles := y.cycles + 1, total := y.total + 1 } ∧
    t.get Obj.slotsTotal (e.val / 128) = (s.get Obj.slotsTotal (e.val / 128) + 1) % 2 ^ 64 ∧
    ∀ o, o = (if y.inTrap then Obj.slotsWasted else Obj.slotsRetired) →
      t.get o (e.val / 128) = (s.get o (e.val / 128) + 1) % 2 ^ 64

/-- The operation of the word is done in one counted cycle: the engine is `y`, the word's result and carry wait for its
sequencing. -/
def Retires (i : Instr) (e : EngineId) (x y : Engine) (w : MicroWord) (r : Word32) (carry : Bool) (s : State) : Prop :=
  Spends i e { y with done := some (w, r, carry, advanceOf x w) } s

/-- A working register of an engine. -/
def Engine.word (x : Engine) (n : Nat) : Word32 := x.regs.getD (n % 16) 0

/-- The word writes its result to DST and changes nothing else of the engine (R151). -/
def WritesDst (i : Instr) (e : EngineId) (x : Engine) (w : MicroWord) (r : Word32) (carry : Bool) (s : State) : Prop :=
  Retires i e x { x with regs := x.regs.set (mwDst w % 16) r } w r carry s

/-- The canonical form of a byte memory whose unlisted bytes read `d`: rising addresses, no byte listed at `d`. -/
def bytesCanonical (d : Byte) (m : NMap Byte) : Bool := m.wf && NMap.lean d m

/-- The canonical form of the device's byte memories: the quay window, whose unlisted bytes read `quayDefault`, the flash
(erased, 0xFF) and the Pilots' memories (0). -/
def State.memoriesCanonical (s : State) : Bool :=
  NMap.wf s.host.quay && s.host.quay.all (fun p => decide (p.2 ≠ s.quayDefault p.1)) &&
  bytesCanonical 0xFF s.host.flash && bytesCanonical 0 s.host.pilotMem

end Sys2Proof.Machine
end

