-- ==== Sys2Proof/Laws/Ops.lean ====
section
/-! SUPPORT. Laws of the shared operations: objects after a write, groups, frames, pages, and what raising an event can
do (`raise_onlyLogs`). -/

namespace Sys2Proof.Machine

/-! ### Objects -/

theorem State.getS_setS (s : State) (o : ObjRow) (sub inst v : Nat) (o' : ObjRow) (sub' inst' : Nat)
    (h : addrKey o'.index sub' inst' ≠ addrKey o.index sub inst) :
    (s.setS o sub inst v).getS o' sub' inst' = s.getS o' sub' inst' := by
  simp only [State.getS, State.setS, State.withDict_dict, NMap.getD]
  rw [NMap.find_set_other _ _ _ h]

@[simp] theorem State.getS_setS_same (s : State) (o : ObjRow) (sub inst v : Nat) :
    (s.setS o sub inst v).getS o sub inst = v := by
  simp [State.getS, State.setS]

@[simp] theorem State.get_set_same (s : State) (o : ObjRow) (inst v : Nat) : (s.set o inst v).get o inst = v := by
  simp [State.get, State.set]

theorem State.get_set (s : State) (o : ObjRow) (inst v : Nat) (o' : ObjRow) (inst' : Nat)
    (h : addrKey o'.index o'.sub inst' ≠ addrKey o.index o.sub inst) :
    (s.set o inst v).get o' inst' = s.get o' inst' := State.getS_setS _ _ _ _ _ _ _ _ h

/-- Reading an object looks at the active values alone. -/
theorem State.getS_congr {s t : State} (h : t.dict.active = s.dict.active) (o : ObjRow) (sub inst : Nat) :
    t.getS o sub inst = s.getS o sub inst := by simp [State.getS, h]

theorem State.get_congr {s t : State} (h : t.dict.active = s.dict.active) (o : ObjRow) (inst : Nat) :
    t.get o inst = s.get o inst := State.getS_congr h _ _ _

theorem addrKey_inj {i i' b b' n n' : Nat} (hb : b < 256) (hb' : b' < 256) (hn : n < 65536) (hn' : n' < 65536)
    (h : addrKey i b n = addrKey i' b' n') : i = i' ∧ b = b' ∧ n = n' := by
  unfold addrKey at h; omega

/-! ### Groups -/

theorem groupKey_inj {g g' n n' : Nat} (hn : n < 65536) (hn' : n' < 65536) (h : groupKey g n = groupKey g' n') :
    g = g' ∧ n = n' := by unfold groupKey at h; omega

@[simp] theorem State.group_setGroup_same (s : State) (g inst : Nat) (x : GroupInst) :
    (s.setGroup g inst x).group g inst = x := by simp [State.group, State.setGroup]

theorem State.group_setGroup_other (s : State) {g inst g' inst' : Nat} (x : GroupInst)
    (h : groupKey g' inst' ≠ groupKey g inst) : (s.setGroup g inst x).group g' inst' = s.group g' inst' := by
  simp only [State.group, State.setGroup, State.withDict_dict]; exact NMap.getD_set_other _ _ _ h

/-! ### Slots, pages, frames -/

@[simp] theorem State.slot_setSlot_same (s : State) (k : Nat) (x : MbSlot) : (s.setSlot k x).slot k = x := by
  simp [State.slot, State.setSlot]

theorem State.slot_setSlot_other (s : State) {j k : Nat} (x : MbSlot) (h : j ≠ k) :
    (s.setSlot k x).slot j = s.slot j := by
  simp only [State.slot, State.setSlot, State.withHost_host]; exact NMap.getD_set_other _ _ _ h

theorem State.owned_setBollard (s : State) (page v n : Nat) :
    (s.setBollard page v).owned n = if n = page then v == 1 else s.owned n := by
  simp only [State.owned, State.setBollard, State.withHost_host, NMap.getD_set]; split <;> rfl

@[simp] theorem State.frame_setFrame_same (s : State) (f : FrameId) (x : Frame) : (s.setFrame f x).frame f = some x := by
  simp [State.frame, State.setFrame]

theorem State.frame_setFrame_other (s : State) {f g : FrameId} (x : Frame) (h : g ≠ f) :
    (s.setFrame f x).frame g = s.frame g := by
  simp only [State.frame, State.setFrame]; exact NMap.find_put_other _ _ h

@[simp] theorem State.frame_freeFrame_same (s : State) (f : FrameId) : (s.freeFrame f).frame f = none := by
  simp [State.frame, State.freeFrame]

theorem State.frame_freeFrame_other (s : State) {f g : FrameId} (h : g ≠ f) :
    (s.freeFrame f).frame g = s.frame g := by
  simp [State.frame, State.freeFrame, NMap.find_del, h]

/-! ### What logging an event may touch -/

theorem OnlyLogs.refl (s : State) : OnlyLogs s s :=
  ⟨rfl, fun _ _ _ _ _ _ => rfl, fun _ _ => rfl, fun _ _ => rfl, fun _ _ => rfl⟩

/-- Logging leaves an object alone that it does not name. -/
theorem OnlyLogs.get {s t : State} (h : OnlyLogs s t) (o : ObjRow) (inst : Nat) (hs : o.sub < 256) (hi : inst < 65536)
    (hl : loggingObject o.index o.sub inst = false) : t.get o inst = s.get o inst := h.objects o o.sub inst hs hi hl

theorem OnlyLogs.ringFirst {s t : State} (h : OnlyLogs s t) : t.ringFirst 20 = s.ringFirst 20 :=
  h.get Obj.ringFirstPage 20 (by decide) (by decide) (by decide)

theorem OnlyLogs.ringPages {s t : State} (h : OnlyLogs s t) : t.ringPages 20 = s.ringPages 20 :=
  h.get Obj.ringPages 20 (by decide) (by decide) (by decide)

theorem OnlyLogs.eventPage {s t : State} (h : OnlyLogs s t) (n : Nat) : t.eventPage n = s.eventPage n := by
  simp only [State.eventPage, h.ringFirst, h.ringPages]

theorem OnlyLogs.trans {s t u : State} (h : OnlyLogs s t) (k : OnlyLogs t u) : OnlyLogs s u where
  rest := by rw [k.rest, h.rest]
  objects := fun o sub inst a b hb => (k.objects o sub inst a b hb).trans (h.objects o sub inst a b hb)
  bytes := fun a ha => (k.bytes a (by rw [h.eventPage]; exact ha)).trans (h.bytes a ha)
  pages := fun n hn => (k.pages n (by rw [h.eventPage]; exact hn)).trans (h.pages n hn)
  rings := fun r hr => (k.rings r hr).trans (h.rings r hr)

/-- A write of a logging object. -/
theorem OnlyLogs.setS {s : State} (o : ObjRow) (sub inst v : Nat) (hs : sub < 256) (hi : inst < 65536)
    (hl : loggingObject o.index sub inst = true) : OnlyLogs s (s.setS o sub inst v) where
  rest := rfl
  objects := fun o' sub' inst' a b hb => by
    apply State.getS_setS
    intro he
    obtain ⟨h1, h2, h3⟩ := addrKey_inj a hs b hi he
    rw [h1, h2, h3, hl] at hb; exact absurd hb (by decide)
  bytes := fun _ _ => rfl
  pages := fun _ _ => rfl
  rings := fun _ _ => rfl

/-- A change of the event log's own state. -/
theorem OnlyLogs.withEvents (s : State) (e : Events) : OnlyLogs s (s.withEvents e) :=
  ⟨rfl, fun _ _ _ _ _ _ => rfl, fun _ _ => rfl, fun _ _ => rfl, fun _ _ => rfl⟩

theorem OnlyLogs.signalVector (v : Nat) (s : State) : OnlyLogs s (signalVector v s) := by
  unfold Machine.signalVector
  simp only
  repeat' split
  all_goals exact ⟨rfl, fun _ _ _ _ _ _ => rfl, fun _ _ => rfl, fun _ _ => rfl, fun _ _ => rfl⟩

theorem OnlyLogs.set {s : State} (o : ObjRow) (inst v : Nat) (hs : o.sub < 256) (hi : inst < 65536)
    (hl : loggingObject o.index o.sub inst = true) : OnlyLogs s (s.set o inst v) := OnlyLogs.setS o o.sub inst v hs hi hl

theorem OnlyLogs.setPinCause (i : Nat) (s : State) : OnlyLogs s (setPinCause i s) :=
  OnlyLogs.set _ _ _ (by decide) (by decide) (by decide)

theorem OnlyLogs.foldl {α : Type} (f : State → α → State) (l : List α) (s : State)
    (h : ∀ t x, x ∈ l → OnlyLogs s t → OnlyLogs t (f t x)) : OnlyLogs s (l.foldl f s) := by
  suffices ∀ l' : List α, (∀ x ∈ l', x ∈ l) → ∀ t, OnlyLogs s t → OnlyLogs s (l'.foldl f t) from
    this l (fun _ h => h) s (OnlyLogs.refl s)
  intro l'
  induction l' with
  | nil => exact fun _ t ht => ht
  | cons x l' ih =>
    intro hl t ht
    exact ih (fun y hy => hl y (List.mem_cons_of_mem _ hy)) _ (ht.trans (h t x (hl x (List.mem_cons_self ..)) ht))

/-! ### Pages and rings -/

theorem OnlyLogs.setBollard (s : State) (n v : Nat) (h : s.eventPage n = true) : OnlyLogs s (s.setBollard n v) where
  rest := rfl
  objects := fun _ _ _ _ _ _ => rfl
  bytes := fun _ _ => rfl
  pages := fun m hm => by
    rw [State.owned_setBollard]; split
    · subst_vars; simp_all
    · rfl
  rings := fun _ _ => rfl

theorem OnlyLogs.passPage (r n : Nat) (s : State) (h : s.eventPage n = true) : OnlyLogs s (passPage r n s) :=
  (OnlyLogs.setBollard s n 0 h).trans (OnlyLogs.signalVector _ _)

/-- Bytes written one after the other change those bytes alone. -/
theorem State.quayByte_quayWrite (s : State) (a : Nat) (bs : List Byte) (b : Nat) :
    (s.quayWrite a bs).quayByte b = if a ≤ b ∧ b < a + bs.length then bs.getD (b - a) 0 else s.quayByte b := by
  induction bs generalizing s a with
  | nil => simp only [State.quayWrite]; rw [if_neg]; simp
  | cons x bs ih =>
    rw [State.quayWrite, ih]
    by_cases h : a + 1 ≤ b ∧ b < a + 1 + bs.length
    · rw [if_pos h, if_pos ⟨by omega, by simp only [List.length_cons]; omega⟩]
      obtain ⟨c, rfl⟩ : ∃ c, b = a + 1 + c := ⟨b - (a + 1), by omega⟩
      simp [show a + 1 + c - a = c + 1 by omega]
    · rw [if_neg h]
      by_cases e : b = a
      · subst e
        rw [if_pos ⟨Nat.le_refl _, by simp⟩]
        simp [State.quayByte, State.quayDefault]
      · rw [if_neg (by simp only [List.length_cons]; omega)]
        simp only [State.quayByte, State.withHost_host, State.quayDefault]
        unfold NMap.getD
        rw [NMap.find_set_other _ _ _ e]

theorem OnlyLogs.quayWrite (s : State) (a : Nat) (bs : List Byte)
    (h : ∀ i < bs.length, s.eventPage ((a + i) / pageSize) = true) : OnlyLogs s (s.quayWrite a bs) := by
  induction bs generalizing s a with
  | nil => exact OnlyLogs.refl s
  | cons x bs ih =>
    rw [State.quayWrite]
    have h1 : OnlyLogs s (s.withHost { s.host with quay := NMap.set (s.quayDefault a) s.host.quay a x }) :=
      { rest := rfl
        objects := fun _ _ _ _ _ _ => rfl
        bytes := fun b hb => by
          have := State.quayByte_quayWrite s a [x] b
          simp only [State.quayWrite] at this
          rw [this, if_neg]
          intro hc
          have : b = a := by simp at hc; omega
          have h0 := h 0 (by simp)
          simp_all
        pages := fun _ _ => rfl
        rings := fun _ _ => rfl }
    refine h1.trans (ih _ _ fun i hi => ?_)
    rw [h1.eventPage]
    have := h (i + 1) (by simpa using hi)
    rwa [show a + 1 + i = a + (i + 1) by omega]

theorem OnlyLogs.setRing (x : RingPos) (s : State) : OnlyLogs s (s.setRing 20 x) := by
  unfold State.setRing
  refine OnlyLogs.trans (t := s.withHost { s.host with rings := NMap.set {} s.host.rings 20 x }) ?_
    (OnlyLogs.set _ _ _ (by decide) (by decide) (by decide))
  exact ⟨rfl, fun _ _ _ _ _ _ => rfl, fun _ _ => rfl, fun _ _ => rfl, fun r hr => NMap.getD_set_other _ _ _ hr⟩

theorem State.eventPage_of_lt {s : State} {p : Nat} (h : p < s.ringPages 20) :
    s.eventPage (s.ringFirst 20 + p) = true := by simp [State.eventPage, h]

theorem OnlyLogs.ringAdvance (off off' : Nat) (s : State) (h : off' ≤ s.ringPages 20 * pageSize) :
    OnlyLogs s (ringAdvance 20 off off' s) := by
  unfold Machine.ringAdvance
  simp only
  refine OnlyLogs.trans (OnlyLogs.foldl _ _ s fun t p hp ht => ?_) (OnlyLogs.setRing _ _)
  apply OnlyLogs.passPage
  rw [ht.ringFirst, ht.eventPage]
  apply State.eventPage_of_lt
  simp only [List.mem_map, List.mem_range, pageSize] at hp h
  obtain ⟨q, hq, rfl⟩ := hp
  omega

theorem OnlyLogs.askBurst (b : BurstAsk) (s : State) : OnlyLogs s (askBurst b s) :=
  ⟨rfl, fun _ _ _ _ _ _ => rfl, fun _ _ => rfl, fun _ _ => rfl, fun _ _ => rfl⟩

/-- Bursts asked for change nothing but what the requesters still have to hand over. -/
theorem OnlyLogs.quayAsk (rr : Requester) (write : Bool) (a n : Nat) (s : State) :
    OnlyLogs s (quayAsk rr write a n s) := by
  unfold Machine.quayAsk
  split
  · exact OnlyLogs.refl s
  · exact OnlyLogs.foldl _ _ s fun t i _ _ => OnlyLogs.askBurst _ t

theorem OnlyLogs.ringWrite (off : Nat) (bs : List Byte) (s : State) (h : off + bs.length ≤ s.ringPages 20 * pageSize) :
    OnlyLogs s (ringWrite 20 off bs s) := by
  unfold Machine.ringWrite ringCleared
  simp only [if_true]
  refine OnlyLogs.trans (OnlyLogs.quayWrite s _ bs ?_) (OnlyLogs.quayAsk ..)
  intro i hi
  rw [show (s.ringFirst 20 * pageSize + off + i) / pageSize = s.ringFirst 20 + (off + i) / pageSize by
    simp only [pageSize]; omega]
  apply State.eventPage_of_lt
  simp only [pageSize] at *; omega

theorem State.ringPos_setRing_same (s : State) (r : Nat) (x : RingPos) : (s.setRing r x).ringPos r = x := by
  simp [State.ringPos, State.setRing]

/-- Where a producer stands after it moved. -/
theorem State.ringPos_ringAdvance (r off off' : Nat) (s : State) :
    ((Machine.ringAdvance r off off' s).ringPos r).page * pageSize + ((Machine.ringAdvance r off off' s).ringPos r).byte
      = (if off' = s.ringPages r * pageSize then 0 else off') ∧
    ((Machine.ringAdvance r off off' s).ringPos r).byte < pageSize := by
  have hp : ∀ (l : List Nat) (t : State), (l.foldl (fun s p => passPage r (s.ringFirst r + p) s) t).ringPages r = t.ringPages r := by
    intro l
    induction l with
    | nil => exact fun _ => rfl
    | cons x l ih =>
      intro t
      rw [List.foldl_cons, ih]
      unfold passPage Machine.signalVector State.ringPages
      simp only
      repeat' split
      all_goals rfl
  unfold Machine.ringAdvance
  simp only [State.ringPos_setRing_same, hp]
  constructor
  · exact Nat.div_add_mod' _ _
  · exact Nat.mod_lt _ (by decide)

theorem OnlyLogs.ringPassPartial (s : State)
    (h : (s.ringPos 20).byte < pageSize ∧ ((s.ringPos 20).byte ≠ 0 → (s.ringPos 20).page < s.ringPages 20)) :
    OnlyLogs s (ringPassPartial 20 s) := by
  unfold Machine.ringPassPartial
  simp only
  split
  · exact OnlyLogs.refl s
  · have hb := h.1
    have hp := h.2 ‹_›
    have hle : (s.ringPos 20).page * pageSize + (s.ringPos 20).byte + (pageSize - (s.ringPos 20).byte)
        ≤ s.ringPages 20 * pageSize := by
      rw [show (s.ringPos 20).page * pageSize + (s.ringPos 20).byte + (pageSize - (s.ringPos 20).byte)
        = ((s.ringPos 20).page + 1) * pageSize by rw [Nat.add_mul]; omega]
      exact Nat.mul_le_mul_right _ hp
    have hw := OnlyLogs.ringWrite ((s.ringPos 20).page * pageSize + (s.ringPos 20).byte)
      (List.replicate (pageSize - (s.ringPos 20).byte) 0) s (by simpa using hle)
    simp only [if_true]
    exact hw.trans (OnlyLogs.ringAdvance _ _ _ (by rw [hw.ringPages]; exact hle))

/-- Placing a record in the event ring, where there is room for it. -/
theorem OnlyLogs.ringPut (rec : List Byte) (s : State) (h : s.ringRoom 20 rec.length = true) :
    OnlyLogs s (ringPut 20 rec s) := by
  simp only [State.ringRoom, Bool.and_eq_true, decide_eq_true_eq] at h
  obtain ⟨⟨⟨h0, -⟩, hn⟩, -⟩ := h
  -- the position from which the record is written
  suffices key : ∀ t : State, OnlyLogs s t →
      ((t.ringPos 20).page * pageSize + (t.ringPos 20).byte) + rec.length ≤ s.ringPages 20 * pageSize →
      OnlyLogs s (
        let x := t.ringPos 20
        let off := x.page * pageSize + x.byte
        let t := Machine.ringWrite 20 off (rec ++ List.replicate (rec.length - rec.length) 0) t
        let t := (Machine.ringAdvance 20 off (off + rec.length) t).bump Obj.ringRecords 20
        if t.get Obj.ringFlushNs 20 = 0 then Machine.ringPassPartial 20 t else t) by
    unfold Machine.ringPut
    simp only [if_true]
    split
    · exact key s (OnlyLogs.refl s) ‹_›
    · have hw : OnlyLogs s (Machine.ringWrite 20 ((s.ringPos 20).page * pageSize + (s.ringPos 20).byte)
          (padRecord (s.ringPages 20 * pageSize - ((s.ringPos 20).page * pageSize + (s.ringPos 20).byte))) s) := by
        by_cases hz : (s.ringPos 20).page * pageSize + (s.ringPos 20).byte ≤ s.ringPages 20 * pageSize
        · apply OnlyLogs.ringWrite
          have : (padRecord (s.ringPages 20 * pageSize - ((s.ringPos 20).page * pageSize + (s.ringPos 20).byte))).length
            ≤ s.ringPages 20 * pageSize - ((s.ringPos 20).page * pageSize + (s.ringPos 20).byte) := by
            simp only [padRecord, List.length_take]; omega
          omega
        · rw [show s.ringPages 20 * pageSize - ((s.ringPos 20).page * pageSize + (s.ringPos 20).byte) = 0 by omega]
          unfold Machine.ringWrite ringCleared
          exact OnlyLogs.quayAsk ..
      refine key _ (hw.trans (OnlyLogs.ringAdvance _ _ _ (Nat.le_of_eq (by rw [hw.ringPages])))) ?_
      rw [(State.ringPos_ringAdvance 20 _ _ _).1, if_pos (by rw [hw.ringPages])] <;> omega
  intro t ht hle
  simp only [Nat.sub_self, List.replicate_zero, List.append_nil]
  generalize ho : (t.ringPos 20).page * pageSize + (t.ringPos 20).byte = off at hle
  have hw := OnlyLogs.ringWrite off rec t (by rw [ht.ringPages]; exact hle)
  have ha := OnlyLogs.ringAdvance off (off + rec.length) (Machine.ringWrite 20 off rec t)
    (by rw [hw.ringPages, ht.ringPages]; exact hle)
  have hb : OnlyLogs _ ((Machine.ringAdvance 20 off (off + rec.length) (Machine.ringWrite 20 off rec t)).bump Obj.ringRecords 20) :=
    OnlyLogs.set _ _ _ (by decide) (by decide) (by decide)
  have hall := ht.trans (hw.trans (ha.trans hb))
  split
  · refine hall.trans (OnlyLogs.ringPassPartial _ ?_)
    have hpos := State.ringPos_ringAdvance 20 off (off + rec.length) (Machine.ringWrite 20 off rec t)
    rw [show State.ringPages (Machine.ringWrite 20 off rec t) 20 = s.ringPages 20 by rw [hw.ringPages, ht.ringPages]] at hpos
    have hpg : State.ringPages ((Machine.ringAdvance 20 off (off + rec.length) (Machine.ringWrite 20 off rec t)).bump Obj.ringRecords 20) 20
      = s.ringPages 20 := hall.ringPages
    rw [hpg]
    refine ⟨hpos.2, fun hne => ?_⟩
    have h1 := hpos.1
    have h2 := hpos.2
    change ((Machine.ringAdvance 20 off (off + rec.length) (Machine.ringWrite 20 off rec t)).ringPos 20).byte ≠ 0 at hne
    change ((Machine.ringAdvance 20 off (off + rec.length) (Machine.ringWrite 20 off rec t)).ringPos 20).page < _
    generalize ((Machine.ringAdvance 20 off (off + rec.length) (Machine.ringWrite 20 off rec t)).ringPos 20).page = pg at *
    generalize ((Machine.ringAdvance 20 off (off + rec.length) (Machine.ringWrite 20 off rec t)).ringPos 20).byte = by' at *
    by_cases he : off + rec.length = s.ringPages 20 * pageSize
    · rw [if_pos he] at h1; simp only [pageSize] at *; omega
    · rw [if_neg he] at h1; simp only [pageSize] at *; omega
  · exact hall

/-! ### Raising an event -/

theorem OnlyLogs.countOne (code d : Nat) (s : State) (hc : code < 65536) (hd : d < 4) :
    OnlyLogs s (countOne code d s).2 := by
  unfold Machine.countOne
  simp only
  split <;> exact OnlyLogs.setS _ _ _ _ (by omega) hc rfl

theorem OnlyLogs.countEvent (code d : Nat) (s : State) (hc : code < 65536) (hd : d < 4) :
    OnlyLogs s (countEvent code d s).2 ∧ ∀ c b, (countEvent code d s).1 = some (c, b) → c < 65536 := by
  have h1 := OnlyLogs.countOne code d s hc hd
  unfold Machine.countEvent
  split
  · split
    · exact ⟨OnlyLogs.refl s, by simp⟩
    · have hc' : code + 1 < 65536 := by omega
      rcases hx : Machine.countOne code d s with ⟨b, s1⟩
      rw [hx] at h1
      have h2 := OnlyLogs.countOne (code + 1) d s1 hc' hd
      cases b with
      | false => exact ⟨h1, by simp⟩
      | true =>
        rcases hy : Machine.countOne (code + 1) d s1 with ⟨b, s2⟩
        rw [hy] at h2
        cases b with
        | false => simp only [hy]; exact ⟨h1.trans h2, by simp⟩
        | true =>
          simp only [hy]
          refine ⟨(h1.trans h2).trans (OnlyLogs.setS _ _ _ _ (by omega) hc' rfl), ?_⟩
          simp only [Option.some.injEq, Prod.mk.injEq]; omega
  · rcases hx : Machine.countOne code d s with ⟨b, s1⟩
    rw [hx] at h1
    cases b with
    | false => exact ⟨h1, by simp⟩
    | true =>
      refine ⟨h1.trans (OnlyLogs.setS _ _ _ _ (by omega) hc rfl), ?_⟩
      simp only [Option.some.injEq, Prod.mk.injEq]; omega

theorem OnlyLogs.logWrite (r : LogRec) (s : State) (h : s.ringRoom 20 32 = true) : OnlyLogs s (logWrite r s) := by
  have h1 : OnlyLogs s (s.set Obj.lastSequence 0 ((s.get Obj.lastSequence + 1) % 2 ^ 32)) :=
    OnlyLogs.set _ _ _ (by decide) (by decide) (by decide)
  refine h1.trans (OnlyLogs.ringPut _ _ ?_)
  have hl : ∀ x : LogRec, (logBytes x).length = 32 := fun x => by simp [logBytes, leBytes]
  rw [hl]
  rw [← h]
  simp only [State.ringRoom, State.ringOwns, h1.ringPages, h1.ringFirst]
  rfl

theorem OnlyLogs.logDrop (s : State) : OnlyLogs s (logDrop s) :=
  (OnlyLogs.withEvents s _).trans (OnlyLogs.set _ _ _ (by decide) (by decide) (by decide))

theorem OnlyLogs.ringStall (n : Nat) (s : State) : OnlyLogs s (ringStall 20 n s).2 := by
  unfold Machine.ringStall
  simp only
  split
  · exact OnlyLogs.refl s
  · exact OnlyLogs.setRing _ _

theorem OnlyLogs.ringDropped (s : State) : OnlyLogs s (ringDropped 20 s) := by
  unfold Machine.ringDropped
  simp only
  split
  · exact OnlyLogs.setRing _ _
  · exact OnlyLogs.refl s

theorem State.eventDeck_lt (s : State) (code inst arg0 : Nat) : s.eventDeck code inst arg0 < 4 :=
  Nat.mod_lt _ (by decide)

theorem OnlyLogs.signalEvent (code : Nat) (s : State) : OnlyLogs s (signalEvent code s) := by
  unfold Machine.signalEvent
  split
  · exact (OnlyLogs.setPinCause 0 s).trans (OnlyLogs.signalVector _ _)
  · exact OnlyLogs.refl s

theorem OnlyLogs.logRecord (r : LogRec) (s : State) : OnlyLogs s (logRecord r s).2 := by
  unfold Machine.logRecord
  split
  · exact OnlyLogs.logWrite _ _ ‹_›
  · exact (OnlyLogs.ringStall 32 s).trans ((OnlyLogs.logDrop _).trans (OnlyLogs.ringDropped _))

theorem OnlyLogs.logEvent (code inst arg0 arg1 : Nat) (s : State) : OnlyLogs s (logEvent code inst arg0 arg1 s).2 := by
  unfold Machine.logEvent
  split
  · exact OnlyLogs.refl s
  · split
    · exact OnlyLogs.withEvents s _
    · refine OnlyLogs.trans (t := noteLogged code s) (OnlyLogs.withEvents _ _) ?_
      simp only
      split
      · split
        · exact OnlyLogs.withEvents _ _
        · exact OnlyLogs.set _ _ _ (by decide) (by decide) (by decide)
      · exact OnlyLogs.logRecord _ _

theorem OnlyLogs.raiseN (fuel code inst arg0 arg1 : Nat) (s : State) (hc : code < 65536) :
    OnlyLogs s (raiseN fuel code inst arg0 arg1 s) := by
  induction fuel generalizing code inst arg0 arg1 s with
  | zero => exact OnlyLogs.refl s
  | succ fuel ih =>
    unfold Machine.raiseN
    have h1 := (OnlyLogs.countEvent code (s.eventDeck code inst arg0) s hc (s.eventDeck_lt _ _ _)).1
    simp only
    split
    all_goals
      split
      · refine (h1.trans ?_).trans (ih _ _ _ _ _ (by decide))
        refine OnlyLogs.trans ?_ ((OnlyLogs.signalEvent _ _).trans (OnlyLogs.logEvent _ _ _ _ _))
        first | exact ih _ _ _ _ _ (by decide) | exact OnlyLogs.refl _
      · refine h1.trans (OnlyLogs.trans ?_ ((OnlyLogs.signalEvent _ _).trans (OnlyLogs.logEvent _ _ _ _ _)))
        first | exact ih _ _ _ _ _ (by decide) | exact OnlyLogs.refl _

/-- Raising an event changes nothing but what logging may touch. -/
theorem raise_onlyLogs (code inst arg0 arg1 : Nat) (s : State) (hc : code < 65536) :
    OnlyLogs s (raise code inst arg0 arg1 s) := OnlyLogs.raiseN 4 _ _ _ _ _ hc

/-! ### What raising an event leaves, field by field -/

section
variable (code inst arg0 arg1 : Nat) (s : State) (hc : code < 65536)
include hc

theorem raise_pending : (raise code inst arg0 arg1 s).pending = s.pending := by
  rw [(raise_onlyLogs code inst arg0 arg1 s hc).rest]

theorem raise_tw : (raise code inst arg0 arg1 s).tw = s.tw := by
  rw [(raise_onlyLogs code inst arg0 arg1 s hc).rest]

theorem raise_time : (raise code inst arg0 arg1 s).time = s.time := by
  rw [(raise_onlyLogs code inst arg0 arg1 s hc).rest]

theorem raise_ptp : (raise code inst arg0 arg1 s).ptp = s.ptp := by
  rw [(raise_onlyLogs code inst arg0 arg1 s hc).rest]

theorem raise_links : (raise code inst arg0 arg1 s).links = s.links := by
  rw [(raise_onlyLogs code inst arg0 arg1 s hc).rest]

theorem raise_frames : (raise code inst arg0 arg1 s).frames = s.frames := by
  rw [(raise_onlyLogs code inst arg0 arg1 s hc).rest]

theorem raise_nextFrame : (raise code inst arg0 arg1 s).nextFrame = s.nextFrame := by
  rw [(raise_onlyLogs code inst arg0 arg1 s hc).rest]

theorem raise_parse : (raise code inst arg0 arg1 s).parse = s.parse := by
  rw [(raise_onlyLogs code inst arg0 arg1 s hc).rest]

theorem raise_tables : (raise code inst arg0 arg1 s).tables = s.tables := by
  rw [(raise_onlyLogs code inst arg0 arg1 s hc).rest]

theorem raise_flow : (raise code inst arg0 arg1 s).flow = s.flow := by
  rw [(raise_onlyLogs code inst arg0 arg1 s hc).rest]

theorem raise_exports : (raise code inst arg0 arg1 s).exports = s.exports := by
  rw [(raise_onlyLogs code inst arg0 arg1 s hc).rest]

theorem raise_cross : (raise code inst arg0 arg1 s).cross = s.cross := by
  rw [(raise_onlyLogs code inst arg0 arg1 s hc).rest]

theorem raise_tm : (raise code inst arg0 arg1 s).tm = s.tm := by
  rw [(raise_onlyLogs code inst arg0 arg1 s hc).rest]

/-- Raising an event leaves the controllers as they are; only bursts that write the event ring come due. -/
theorem raise_hbm : (raise code inst arg0 arg1 s).hbm = { s.hbm with due := (raise code inst arg0 arg1 s).hbm.due } := by
  rw [(raise_onlyLogs code inst arg0 arg1 s hc).rest]

theorem raise_fabric : (raise code inst arg0 arg1 s).fabric = s.fabric := by
  rw [(raise_onlyLogs code inst arg0 arg1 s hc).rest]

theorem raise_sleep : (raise code inst arg0 arg1 s).sleep = s.sleep := by
  rw [(raise_onlyLogs code inst arg0 arg1 s hc).rest]

theorem raise_boot : (raise code inst arg0 arg1 s).boot = s.boot := by
  rw [(raise_onlyLogs code inst arg0 arg1 s hc).rest]

theorem raise_avail : (raise code inst arg0 arg1 s).avail = s.avail := by
  rw [(raise_onlyLogs code inst arg0 arg1 s hc).rest]

theorem raise_count : (raise code inst arg0 arg1 s).count = s.count := by
  rw [(raise_onlyLogs code inst arg0 arg1 s hc).rest]

theorem raise_power : (raise code inst arg0 arg1 s).power = s.power := by
  rw [(raise_onlyLogs code inst arg0 arg1 s hc).rest]

theorem raise_drawn : (raise code inst arg0 arg1 s).drawn = s.drawn := by
  rw [(raise_onlyLogs code inst arg0 arg1 s hc).rest]

theorem raise_flash : (raise code inst arg0 arg1 s).host.flash = s.host.flash := by
  rw [(raise_onlyLogs code inst arg0 arg1 s hc).rest]

theorem raise_pilotMem : (raise code inst arg0 arg1 s).host.pilotMem = s.host.pilotMem := by
  rw [(raise_onlyLogs code inst arg0 arg1 s hc).rest]

theorem raise_slots : (raise code inst arg0 arg1 s).host.slots = s.host.slots := by
  rw [(raise_onlyLogs code inst arg0 arg1 s hc).rest]

theorem raise_order : (raise code inst arg0 arg1 s).host.order = s.host.order := by
  rw [(raise_onlyLogs code inst arg0 arg1 s hc).rest]

theorem raise_linkUp : (raise code inst arg0 arg1 s).host.linkUp = s.host.linkUp := by
  rw [(raise_onlyLogs code inst arg0 arg1 s hc).rest]

/-- An object that logging does not touch has the value it had. -/
theorem raise_get (o : ObjRow) (n : Nat) (hs : o.sub < 256) (hn : n < 65536) (hl : loggingObject o.index o.sub n = false) :
    (raise code inst arg0 arg1 s).get o n = s.get o n :=
  (raise_onlyLogs code inst arg0 arg1 s hc).get o n hs hn hl

end

/-! ### Ports -/

theorem State.link_setLink (s : State) (p q : Nat) (x : PortLink) :
    (s.setLink p x).link q = if q = p then x else s.link q := by
  simp only [State.link, State.setLink]; exact NMap.getD_set _ s.links p x q

@[simp] theorem State.link_setLink_same (s : State) (p : Nat) (x : PortLink) : (s.setLink p x).link p = x := by
  rw [State.link_setLink, if_pos rfl]

theorem State.link_setLink_other (s : State) {p q : Nat} (x : PortLink) (h : q ≠ p) :
    (s.setLink p x).link q = s.link q := by rw [State.link_setLink, if_neg h]

end Sys2Proof.Machine
end

