-- ==== Sys2Proof/Laws/Dictionary.lean ====
section
/-! SUPPORT. Laws of the dictionary: a request in its turn is carried out, and what a carried-out READ or WRITE does. -/

namespace Sys2Proof.Machine

/-- A request in its turn is marked as taken and carried out (R61, R62). -/
theorem serveBy_turn {p : Path} {q : Request} {s : State} (h : Turn p q s) :
    serveBy p q s = carryOut p q (s.takenBy p) := by
  obtain ⟨hh, hp, h⟩ := h
  cases p with
  | mailbox k =>
    obtain ⟨hr, h1, h2, h3, h4, h5⟩ := h
    have ht : s.taker = s.servingPilot := by simp [State.taker, hr]
    have hv : s.served = true := by simp [State.served, hp]
    have hrs : ∀ x, (s.setSlot k.val x).romServes = s.romServes := fun _ => rfl
    have ho : s.host.orphans = [] := by
      have h := h3
      simp only [State.firstWaiting, Bool.and_eq_true, List.isEmpty_iff] at h
      exact h.1
    simp [serveBy, hh, h4, serveMailbox, State.orphanFirst, ho, mbRequest, h1, h2, h3, h5, hv, serveNow, hrs, hr,
      State.takenBy, ht]
  | twoWire =>
    obtain ⟨hr, h1, h2, h3, h4⟩ := h
    have ht : s.taker = s.servingPilot := by simp [State.taker, hr]
    have hv : s.served = true := by simp [State.served, hp]
    have hrs : ∀ x, (s.withTw x).romServes = s.romServes := fun _ => rfl
    rcases hs : s.tw.serving with _ | ⟨w, at_⟩
    · simp [hs] at h1
    · simp [hs] at h1
      subst h1
      simp [serveBy, hh, h4, serveTwoWire, hs, h2, h3, hv, serveNow, hrs, hr, State.takenBy, ht]
  | acp d k n =>
    obtain ⟨hr, h1, h2⟩ := h
    rcases hs : s.acpWaiting d.toNat k.val with _ | a
    · simp [hs] at h2
    · simp [hs] at h2
      have hrs : ∀ x, (s.withFabric x).romServes = s.romServes := fun _ => rfl
      simp [serveBy, hh, h1, serveAcp, hs, h2.1, h2.2, hp, serveNow, hrs, hr, State.takenBy]
  | boot =>
    obtain ⟨h1, h2, h3⟩ := h
    rcases hc : s.boot.config with _ | ⟨x, rest⟩
    · simp [hc] at h1
    · simp [hc] at h1
      subst h1
      have hg : ¬((s.boot.answer.isNone = true ∧ s.boot.configIndex ≠ 0) ∨ (!s.anyPilot) = true) := by
        rcases h2 with h2 | h2
        · rcases ha : s.boot.answer with _ | _ <;> simp_all
        · simp [hp, h2]
      unfold serveBy
      simp only [hh, hc, List.head?_cons, if_true, Bool.false_eq_true, if_false]
      unfold serveBoot
      simp only [hc]
      rw [if_neg hg, if_pos h3]
      simp [State.takenBy, hc]

/-- A WRITE that passes its checks does what its object does (R51, R62). -/
theorem carryOut_write {p : Path} {tag : BitVec 16} {index sub inst : Nat} {value : List Byte} {o : ObjRow} {s : State}
    (hi : index < 65536) (hb : sub < 256) (hn : inst < 65536) (hv : value.length = o.ty.size) (hv' : value.length < 65536)
    (ho : rowOf index sub = some o) (hk : o.kind.has inst = true) (hl : s.counterLost index sub = false)
    (hlev : o.level ≤ s.levelOf p index true) (hr : o.right ≠ .ro) (hg : o.right ≠ .rwg) (hd : o.ty.isDomain = false)
    (hc : s.writeCheck p o sub inst (leNat value) = St.ok) :
    carryOut p (writeReq tag index sub inst value) s =
      (match writeEffect p tag o sub inst (leNat value) s with
       | (some st, t) => answer p (respond (writeReq tag index sub inst value) st) t
       | (none, t) => t) := by
  have e1 : index % 65536 = index := Nat.mod_eq_of_lt hi
  have e2 : sub % 256 = sub := Nat.mod_eq_of_lt hb
  have e3 : inst % 65536 = inst := Nat.mod_eq_of_lt hn
  have e4 : value.length % 65536 = value.length := Nat.mod_eq_of_lt hv'
  have hlt : ¬ s.levelOf p index true < o.level := Nat.not_lt.mpr hlev
  have hs : serveDict p (writeReq tag index sub inst value) s =
      (match writeEffect p tag o sub inst (leNat value) s with
       | (st, t) => (st.map (respond (writeReq tag index sub inst value)), t)) := by
    simp only [serveDict, writeReq, State.object, BitVec.toNat_ofNat, Nat.reducePow, e1, e2, e3, ho, hk, hl]
    simp [serveObject, writeObject, permits, shaped, BitVec.toNat_ofNat, e1, e2, e3, hlt, hr, hg, hd, hv, hc]
    rw [← hv]
    exact fun hge => absurd hv' (Nat.not_lt.mpr hge)
  unfold carryOut
  rw [hs]
  rcases writeEffect p tag o sub inst (leNat value) s with ⟨_ | st, t⟩ <;> rfl

/-- After start-up a write is not BUSY, but for the second advance of the rollback counter and a proxy slot in use. -/
theorem busyFor_started {s : State} {p : Path} {o : ObjRow} {inst : Nat} (hb : 9 ≤ s.get Obj.bootStage ∨ p = .boot)
    (h1 : o.index ≠ 0x9012) (h2 : o.index ≠ 0x6870) : s.busyFor p o inst = false := by
  simp only [State.busyFor]
  rcases hb with hb | hb
  · simp [h1, h2]; omega
  · simp [hb, h1, h2]

/-- The checks pass for an object outside a group that no lock guards, with a value it can take. -/
theorem writeCheck_plain {s : State} {p : Path} {o : ObjRow} {sub inst v : Nat} (hk : keelRow o.index = none)
    (hp : perturbIndex o.index = false) (hb : s.busyFor p o inst = false) (hg : o.right ≠ .rwg)
    (hc : controlIndex o.index = false)
    (hv : loadIndex o.index = true ∨ (o.ty.inRange v = true ∧ o.ok v = true ∧ o.resv v = true ∧
      o.ty.reservedZero v = true ∧ s.disagrees o sub inst v = false)) : s.writeCheck p o sub inst v = St.ok := by
  simp only [State.writeCheck, State.lockedFor, hp, hk, hb, State.stagingFor, hg, hc]
  rcases hv with hv | ⟨h1, h2, h3, h4, h5⟩
  · simp [hv]
  · simp [h1, h2, h3, h4, h5, St.ok]

/-- A client's write in its turn does what its object does. -/
theorem clientWrite_effect {c : Client} {index sub inst : Nat} {value : List Byte} {level : Nat} {s : State}
    (h : ClientMay c index sub inst value level s) (o : ObjRow) (ho : rowOf index sub = some o) (hlev : o.level = level)
    (hi : index < 65536) (hb : sub < 256) (hn : inst < 65536) (hv : value.length = o.ty.size) (hv' : value.length < 65536)
    (hk : o.kind.has inst = true) (hl : (s.takenBy c.path).counterLost index sub = false) (hr : o.right ≠ .ro)
    (hg : o.right ≠ .rwg) (hd : o.ty.isDomain = false)
    (hc : (s.takenBy c.path).writeCheck c.path o sub inst (leNat value) = St.ok) :
    clientWrite c index sub inst value s =
      (match writeEffect c.path c.tag o sub inst (leNat value) (s.takenBy c.path) with
       | (some st, t) => answer c.path (respond (writeReq c.tag index sub inst value) st) t
       | (none, t) => t) := by
  obtain ⟨ht, hle, -⟩ := h
  rw [clientWrite, serveBy_turn ht, carryOut_write hi hb hn hv hv' ho hk hl (by rw [hlev]; exact hle) hr hg hd hc]

end Sys2Proof.Machine
end

