-- ==== Sys2Proof/Certificates/Slice0/Obligations.lean ====
section
/-! DEFINITION. The statements about the HG6480, from the spec's numbered rules. -/

open Sys2Proof Sys2Proof.Machine

/-- A step runs the command at the front of the queue on the state with the queue's rest; with no command waiting it
lets one tick pass (the model's choice, log entry 2). -/
def Obligations.StepRunsFrontCommand : Prop :=
  ∀ (s : State), (∀ (c : Instr) (rest : List Instr), s.pending = c :: rest →
      step s = exec c { s with pending := rest }) ∧
    (s.pending = [] → step s = .next (tick s))

/-- After reset no command waits, the device is held, every numbered object has its default (R19), every group
instance is CLEAN (R69), and no memory lists a byte. The memories are canonical after reset, with nothing listed. -/
def Obligations.ResetHoldsDefaults : Prop :=
  (State.reset.pending = [] ∧ State.reset.boot.held = true ∧
    (∀ (o : ObjRow) (sub inst : Nat), State.reset.getS o sub inst = o.dflt sub inst) ∧
    (∀ (o : ObjRow) (inst : Nat), State.reset.getDom o inst = domainDefault o.index) ∧
    (∀ g inst : Nat, State.reset.group g inst = {}) ∧
    State.reset.frames = [] ∧ State.reset.host.quay = [] ∧ State.reset.host.flash = []) ∧
  (State.reset.memoriesCanonical = true ∧ State.reset.host.quay = [] ∧ State.reset.host.flash = [] ∧
      State.reset.host.pilotMem = [] ∧ State.reset.pending = [])

/-- A READ, a READ_SEG, a DESCRIBE and a NOP in their turn are answered OK with what they ask for, and change nothing
else (R51, R57, R58, R59). The values that are no stored word (TIME_NOW and the like) have statements of their own.
Readings of the model's own that it rests on: log entries 8, 10. -/
def Obligations.RequestsThatOnlyReadAreAnswered : Prop :=
  ∀ (p : Path) (q : Request) (s : State), Turn p q s →
    (∀ o, (s.takenBy p).object q = .ok o → o.right ≠ .wo → o.level ≤ (s.takenBy p).levelOf p q.index.toNat false →
      q.offset = 0 →
      (q.opcode = 1 → o.ty.isDomain = false → q.length = 0 →
        readAside p q.index.toNat q.sub.toNat q.inst.toNat (s.takenBy p) = none →
        (s.takenBy p).computed p q.index.toNat q.sub.toNat q.inst.toNat = none →
        exec (.read p q) s = .next (answer p (respond q St.ok (leBytes o.ty.size
          (if q.staged = true ∧ o.right = .rwg then (s.takenBy p).stagedS o q.sub.toNat q.inst.toNat
           else (s.takenBy p).getS o q.sub.toNat q.inst.toNat))) (s.takenBy p))) ∧
      (q.opcode = 3 → o.ty.isDomain = true → q.length.toNat ≤ 240 →
        exec (.readSeg p q) s = .next (answer p (respond q St.ok
          (((s.takenBy p).domainOf q o).take (if q.length = 0 then 240 else q.length.toNat))
          ((s.takenBy p).domainOf q o).length) (s.takenBy p)))) ∧
    (∀ o, (s.takenBy p).object q = .ok o → q.opcode = 5 → q.length = 0 → q.offset = 0 →
      exec (.describe p q) s = .next (answer p (respond q St.ok (
        leBytes 1 o.ty.code ++ leBytes 1 o.right.code ++ leBytes 1 o.level ++ leBytes 1 o.group ++ leBytes 4 o.ty.size ++
        leBytes 2 (o.kind.count - 1) ++ [0, 0])) (s.takenBy p))) ∧
    (q.opcode = 6 → q.length = 0 → q.offset = 0 →
      exec (.nop p q) s = .next (answer p (respond q St.ok) (s.takenBy p)))

/-- A WRITE of an object outside a group that has no rule of its own stores the value; a WRITE of a group's member
stores the staged copy and claims the group instance (R51, R59, R62, R69). A segment that goes on from the last one is
kept; the last segment of a group's DOMAIN stores the staged copy (R58, R69). Readings of the model's own that it
rests on: log entries 9, 10, 12. -/
def Obligations.WritesAndSegmentsTakeEffect : Prop :=
  (∀ (p : Path) (q : Request) (o : ObjRow) (s : State), Turn p q s → q.opcode = 2 →
      (s.takenBy p).object q = .ok o → o.ty.isDomain = false → q.length.toNat = o.ty.size → q.offset = 0 →
      o.right ≠ .ro → o.level ≤ (s.takenBy p).levelOf p q.index.toNat true →
      (s.takenBy p).writeCheck p o q.sub.toNat q.inst.toNat (leNat q.value) = St.ok →
      (o.right = .rwg →
        exec (.write p q) s = .next (answer p (respond q St.ok)
          (noteStaged o.group (groupInstOf o.group o.kind q.inst.toNat) (sessionId p)
            ((s.takenBy p).withDict { (s.takenBy p).dict with
              staged := (s.takenBy p).dict.staged.put (addrKey o.index q.sub.toNat q.inst.toNat) (leNat q.value) })))) ∧
      (o.right = .rw → ownRule o.index = false →
        exec (.write p q) s = .next (answer p (respond q St.ok)
          ((s.takenBy p).setS o q.sub.toNat q.inst.toNat (leNat q.value)))) ∧
      (o.right = .w1c → ownRule o.index = false →
        exec (.write p q) s = .next (answer p (respond q St.ok) ((s.takenBy p).setS o q.sub.toNat q.inst.toNat
          (clearMask ((s.takenBy p).getS o q.sub.toNat q.inst.toNat) (leNat q.value)))))) ∧
  (∀ (p : Path) (q : Request) (o : ObjRow) (s : State), Turn p q s → q.opcode = 4 →
      (s.takenBy p).object q = .ok o → o.ty.isDomain = true → q.length.toNat ≤ 240 → o.right = .rwg →
      o.level ≤ (s.takenBy p).levelOf p q.index.toNat true →
      (s.takenBy p).busyFor p o q.inst.toNat = false → (s.takenBy p).stagingFor p o o.sub q.inst.toNat = St.ok →
      q.offset.toNat = ((s.takenBy p).partial_ p (addrKey o.index o.sub q.inst.toNat)).length →
      q.offset.toNat + q.value.length ≤ o.ty.size →
      (q.last = true → reservedClear o.index
        ((s.takenBy p).partial_ p (addrKey o.index o.sub q.inst.toNat) ++ q.value) = true) →
      ∃ t u, exec (.writeSeg p q) s = .next (answer p (respond q St.ok) t) ∧
        t = noteStaged o.group (groupInstOf o.group o.kind q.inst.toNat) (sessionId p) u ∧
        (q.last = false →
          u = (s.takenBy p).withDict { (s.takenBy p).dict with
            partials := (s.takenBy p).dict.partials.put (addrKey o.index o.sub q.inst.toNat)
              { session := sessionId p,
                bytes := (s.takenBy p).partial_ p (addrKey o.index o.sub q.inst.toNat) ++ q.value } }) ∧
        (q.last = true →
          u.stagedDom o q.inst.toNat = (s.takenBy p).partial_ p (addrKey o.index o.sub q.inst.toNat) ++ q.value ∧
          u = (s.takenBy p).withDict { (s.takenBy p).dict with
            partials := u.dict.partials, stagedDoms := u.dict.stagedDoms }))

/-- COMMIT of a STAGED group instance by its owner begins the validation; a validation that finds nothing wrong arms
the commit, 2,000 ns ahead in mode 1 and at SCHED_TIME in mode 2 (R75, R76, R77). An ABORT of a STAGED group instance
drops its staged copy and is answered OK (R73, R78). Readings of the model's own that it rests on: log entries 13, 41.
-/
def Obligations.CommitsValidateArmAndAbort : Prop :=
  (∀ (c : Client) (g : BitVec 8) (inst : BitVec 16) (n : Nat) (s : State), groupSize g.toNat = some n → inst.toNat < n →
      (∀ x, x = (s.takenBy c.path).group g.toNat inst.toNat → x.state = 1 → x.owner = sessionId c.path →
        x.validating = none →
        (ClientMay c (0x0200 + g.toNat) 1 inst.toNat (leBytes 4 1) 2 s →
          exec (.commitNow c g inst) s = .next ((s.takenBy c.path).setGroup g.toNat inst.toNat
            { x with validating := some { scheduled := false, path := some c.path, tag := c.tag,
                                          since := (s.takenBy c.path).time.ticks } })) ∧
        (ClientMay c (0x0200 + g.toNat) 1 inst.toNat (leBytes 4 2) 2 s →
          ((s.takenBy c.path).get Obj.schedMinLeadNs : Int) ≤ timeDiff x.schedTime (s.takenBy c.path).now80 →
          exec (.commitAtSchedTime c g inst) s = .next ((s.takenBy c.path).setGroup g.toNat inst.toNat
            { x with validating := some { scheduled := true, path := some c.path, tag := c.tag,
                                          since := (s.takenBy c.path).time.ticks } }))) ∧
      (∀ x v, x = s.group g.toNat inst.toNat → x.validating = some v → s.validateGroup g.toNat inst.toNat = none →
        (v.scheduled = false →
          exec (.commitValidated g inst) s = .next (s.setGroup g.toNat inst.toNat
            { x with validating := none, state := 2, tc := time80OfNs (s.nowNs + 2000),
                     replyTo := v.path.map fun p => (p, v.tag) })) ∧
        (v.scheduled = true → 2000 < timeDiff x.schedTime s.now80 →
          exec (.commitValidated g inst) s = .next (answerOpt v.path (lateStatus v.tag g.toNat inst.toNat St.ok)
            (s.setGroup g.toNat inst.toNat { x with validating := none, state := 2, tc := x.schedTime }))))) ∧
  (∀ (c : Client) (g : BitVec 8) (inst : BitVec 16) (n : Nat) (s : State), groupSize g.toNat = some n → inst.toNat < n →
      ClientMay c (0x0200 + g.toNat) 4 inst.toNat [1] 2 s →
      ((s.takenBy c.path).group g.toNat inst.toNat).validating = none →
      ((s.takenBy c.path).group g.toNat inst.toNat).replyTo = none →
      ((s.takenBy c.path).group g.toNat inst.toNat).state = 1 →
      ClientWrites (.abort c g inst 1) c (0x0200 + g.toNat) 4 inst.toNat [1] s (cleanGroup g.toNat inst.toNat))

/-- At t_c the staged copy becomes active, the owner of the group applies it, the instance returns to CLEAN with
GENERATION one higher, LAST_RESULT OK and COMMIT_TIME t_c, and COMMIT_DONE is raised (R79, R83). A staged value of one
member becomes its active value at the switch-over, and no other object changes then (R69, R79). Readings of the
model's own that it rests on: log entry 76. -/
def Obligations.SwitchOverActivatesStagedCopy : Prop :=
  (∀ (g : BitVec 8) (inst : BitVec 16) (s : State) (x : GroupInst), x = s.group g.toNat inst.toNat → x.state = 2 →
      (x.passed = true ∨ timeDiff x.tc s.now80 ≤ 0) →
      ∃ u v, u = (takeStaged g.toNat inst.toNat s).setGroup g.toNat inst.toNat
          { x with state := 0, owner := 0, generation := (x.generation + 1) % 2 ^ 32, lastResult := St.ok,
                   commitTime := x.tc, tc := 0, passed := false, replyTo := none } ∧
        v = dropStaged g.toNat inst.toNat (applyGroup g.toNat inst.toNat x.tc s
          (raise Ev.commitDone inst.toNat g.toNat ((x.generation + 1) % 2 ^ 32) u)) ∧
        exec (.commitSwitchover g inst) s = .next (answerOpt (x.replyTo.map (·.1))
          (lateStatus ((x.replyTo.map (·.2)).getD 0) g.toNat inst.toNat St.ok) v)) ∧
  (∀ (g inst sub i v : Nat) (o : ObjRow) (s : State), findRow o.index sub = some o → sub < 256 → i < 65536 →
      memberKey g inst (addrKey o.index sub i) = true → s.dict.staged = [(addrKey o.index sub i, v)] →
      s.dict.stagedDoms = [] →
      takeStaged g inst s = s.setS o sub i v ∧ (takeStaged g inst s).getS o sub i = v ∧
      ObjectsKept (fun a b n => a == o.index && b == sub && n == i) s (takeStaged g inst s))

/-- If a STAGED group instance receives no staged write for STAGE_IDLE_TIMEOUT_NS, its staged copy is reset to the
active copy, it returns to CLEAN and STAGE_EXPIRED is raised (R72). -/
def Obligations.IdleStagingExpires : Prop :=
  ∀ (g : BitVec 8) (inst : BitVec 16) (s : State), (s.group g.toNat inst.toNat).state = 1 →
    (s.group g.toNat inst.toNat).validating = none → s.get Obj.stageIdleTimeoutNs ≠ 0 →
    s.elapsed (s.group g.toNat inst.toNat).idleFrom (s.get Obj.stageIdleTimeoutNs) = true →
    ∃ u, exec (.stageExpired g inst) s =
        .next (raise 0x0012 inst.toNat g.toNat (s.group g.toNat inst.toNat).owner u) ∧
      (u.group g.toNat inst.toNat).state = 0 ∧ (u.group g.toNat inst.toNat).owner = 0 ∧
      (∀ o ∈ groupRows g.toNat, ∀ sub i, o.sub ≤ sub → sub < o.sub + o.subs → sub < 256 → i < 65536 →
        groupInstOf g.toNat o.kind i = inst.toNat →
        u.stagedS o sub i = u.getS o sub i ∧ (sub = o.sub → u.stagedDom o i = u.getDom o i)) ∧
      (g.toNat = 0x21 → ∀ slot < 65536, u.flow.slbStaged.find (inst.toNat * 65536 + slot) = none) ∧
      (∀ h j, j < 65536 → (h, j) ≠ (g.toNat, inst.toNat) → u.group h j = s.group h j) ∧
      u.dict.active = s.dict.active ∧ u.dict.domains = s.dict.domains ∧
      u = { s with dict := u.dict, flow := { s.flow with slbStaged := u.flow.slbStaged } }

/-- VENDOR_UNLOCK with a valid token puts the session at VENDOR with the Pilot that serves it, with any other token is
answered BAD_VALUE; VENDOR_LOCK takes the session back (R54). Readings of the model's own that it rests on: log
entries 5, 12. -/
def Obligations.VendorLevelIsUnlockedAndLocked : Prop :=
  ∀ (c : Client) (s u : State), u = s.takenBy c.path →
    (∀ token, Turn c.path (segReq c.tag 0x0012 0 0 token) s → token.length ≤ 240 →
      2 ≤ u.levelOf c.path 0x0012 true → (9 ≤ u.get Obj.bootStage ∨ c.path = .boot) →
      u.partial_ c.path (addrKey 0x0012 0 0) = [] →
      exec (.vendorUnlock c token) s = .next (
        if Config.vendorTokenValid token Config.serialNumber = true then
          answer c.path (respond (segReq c.tag 0x0012 0 0 token) St.ok) (u.withDict { u.dict with
            partials := u.dict.partials.del (addrKey 0x0012 0 0),
            vendor := (sessionId c.path, u.servingPilot) :: u.dict.vendor.filter fun x => x.1 != sessionId c.path })
        else
          answer c.path (respond (segReq c.tag 0x0012 0 0 token) St.badValue)
            (u.withDict { u.dict with partials := u.dict.partials.del (addrKey 0x0012 0 0) }))) ∧
    (ClientMay c 0x0013 0 0 [1] 2 s →
      ClientWrites (.vendorLock c 1) c 0x0013 0 0 [1] s fun u =>
        u.withDict { u.dict with vendor := u.dict.vendor.filter fun x => x.1 != sessionId c.path })

/-- A raised event adds one to its counter on its deck and wraps it at 2^40; with IRQ_ENABLE it sets the event
interrupt; and with LOG_ENABLE, under its rate, its record is the next of the log (R84, R86, R88, R534, R535). Each
code that had events suppressed in a second that has ended is reported once, with their number (R86). Readings of the
model's own that it rests on: log entry 19. -/
def Obligations.EventsAreCountedSignalledAndLogged : Prop :=
  (∀ (code inst arg0 arg1 d : Nat) (s t : State), code < 65536 → d = s.eventDeck code inst arg0 →
      code ≠ Ev.counterWrapped → code ≠ Ev.ringStall → s.chained code d = false → t = raise code inst arg0 arg1 s →
      (s.getS Obj.eventCount (d + 1) code + 1 ≠ 2 ^ 40 →
        t.getS Obj.eventCount (d + 1) code = s.getS Obj.eventCount (d + 1) code + 1) ∧
      (s.getS Obj.eventCount (d + 1) code + 1 = 2 ^ 40 →
        t.getS Obj.eventCount (d + 1) code = 0 ∧ t.getS Obj.countOverflow (d + 1) code = 1) ∧
      (s.get Obj.irqEnable code = 1 → bitOf (t.get Obj.intPinCause) 0 = true ∧ bitOf t.host.vectorCause 0 = true) ∧
      (∀ x q a, s.getS Obj.eventCount (d + 1) code + 1 ≠ 2 ^ 40 → s.get Obj.logEnable code = 1 →
        (s.get Obj.rateLimit code = 0 ∨ s.loggedInSecond code < s.get Obj.rateLimit code) → s.events.storing = false →
        s.events.stores.getD d [] = [] → s.ringRoom 20 32 = true → x = s.ringPos 20 → x.byte + 32 ≤ 4096 →
        x.page < s.ringPages 20 → q = (s.get Obj.lastSequence + 1) % 2 ^ 32 →
        a = (s.ringFirst 20 + x.page) * 4096 + x.byte →
        t.get Obj.lastSequence = q ∧ t.quayRead a 32 = logBytes (LogRec.mk s.now80 code (inst % 65536) (eventSeverity code) q
          (arg0 % 2 ^ 32) (arg1 % 2 ^ 64)))) ∧
  (∀ (s : State) (sec code n : Nat) (later : NMap (NMap Nat)), s.events.suppressed = (sec, [(code, n)]) :: later →
      code ≠ Ev.eventsSuppressed → sec < s.second → (∀ e ∈ later, s.second ≤ e.1) →
      exec .eventsSuppressed s = .next (raise 0x0014 0 code n (s.withEvents { s.events with suppressed := later })))

/-- A doorbell takes a FREE slot, the response makes it DONE and signals vector 1, a release frees it, and a request
that no Pilot takes for 1 ms is answered BUSY; every other slot stays as it was (R63, R94, R95). A doorbell for a slot
that is not FREE and a release of one that is not DONE are ignored, counted in MB_IGNORED and reported (R96). -/
def Obligations.MailboxSlotsGoRound : Prop :=
  (∀ (s : State) (k : Fin 16),
      (∀ (value : Word32) (area : List Byte), area.length ≤ 256 → value.toNat % 16 = k.val → (s.slot k.val).state = 0 →
        Completes (.mbDoorbell value area) s fun t =>
          t.slot k.val = { state := 1, area := area ++ (s.requestArea k.val).drop area.length, since := s.time.ticks } ∧
          (∀ j, j ≠ k.val → t.slot j = s.slot j ∧ t.requestArea j = s.requestArea j) ∧
          t.host.order = s.host.order ++ [k.val] ∧
          t = { s with host := { s.host with slots := t.host.slots, order := t.host.order, areas := t.host.areas } }) ∧
      (∀ r, (s.slot k.val).state = 1 → (s.slot k.val).answer = some r →
        Completes (.mbResponseReady k) s fun t =>
          (t.slot k.val).state = 2 ∧ (t.slot k.val).response = responseBytes r ∧
          (∀ j, j ≠ k.val → t.slot j = s.slot j) ∧ bitOf t.host.vectorCause 1 = true ∧
          t.host.order = s.host.order.filter (· != k.val) ∧
          t = { s with host := { s.host with slots := t.host.slots, order := t.host.order,
                                             vectorCause := t.host.vectorCause, pba := t.host.pba, messages := t.host.messages } }) ∧
      (∀ (value : Word32), value.toNat % 16 = k.val → (s.slot k.val).state = 2 →
        Completes (.mbRelease value) s fun t =>
          t.slot k.val = {} ∧ (∀ j, j ≠ k.val → t.slot j = s.slot j) ∧
          t = { s with host := { s.host with slots := t.host.slots } }) ∧
      ((s.slot k.val).state = 1 → (s.slot k.val).taken = none → (s.slot k.val).answer = none →
        s.elapsed (s.slot k.val).since 1000000 = true →
        ∃ u, exec (.mailboxUnserved k) s = .next (raise 0x0016 0 k.val 0 u) ∧ (u.slot k.val).state = 2 ∧
          (u.slot k.val).response = responseBytes (busyFor (s.slot k.val).area) ∧
          (∀ j, j ≠ k.val → u.slot j = s.slot j) ∧
          u = { s with host := { s.host with slots := u.host.slots, order := u.host.order,
                                             vectorCause := u.host.vectorCause, pba := u.host.pba, messages := u.host.messages } })) ∧
  (∀ (s : State) (value : Word32) (area : List Byte), s.host.ignored < 0xFFFFFFFF →
      ((s.slot (value.toNat % 16)).state ≠ 0 →
        exec (.mbDoorbell value area) s = .next (raise Ev.mbWriteIgnored 0 (value.toNat % 16) 0
          (s.withHost { s.host with ignored := s.host.ignored + 1 }))) ∧
      ((s.slot (value.toNat % 16)).state ≠ 2 →
        exec (.mbRelease value) s = .next (raise Ev.mbWriteIgnored 0 (value.toNat % 16) 1
          (s.withHost { s.host with ignored := s.host.ignored + 1 }))))

/-- The two-wire target: a whole request whose PEC holds is taken while none is served, a wrong PEC discards it, the
ready response is read once, and 1 ms without a Pilot answers BUSY; a stuck clock discards the transaction, and an
alert response carries the address (R64, R572, R574, R582). The lowest bit of the alert byte is free (log entry 1). -/
def Obligations.TwoWireTargetHoldsOneRequest : Prop :=
  ∀ (s : State) (bytes : List Byte),
    (byteAt bytes 0 = s.twAddress * 2 → s.tw.serving = none →
      (pec bytes = 0 → 3 ≤ bytes.length → byteAt bytes 1 = 1 →
        ∀ q, parseRequest (bytes.drop 2).dropLast = some q →
          exec (.twoWireRequest bytes) s = .next (s.withTw { s.tw with serving := some (q, s.time.ticks), taken := none,
                                                                       answer := none, ready := none, pecFailed := false })) ∧
      (pec bytes ≠ 0 →
        exec (.twoWireRequest bytes) s = .next (raise 0x0017 0 (byteAt bytes 1) 0
          (s.withTw { s.tw with pecFailed := true, ready := none })))) ∧
    (∀ r, s.tw.answer = some r →
      exec .twoWireResponseReady s = .next (s.withTw { s.tw with serving := none, taken := none, answer := none,
                                                                 ready := some r })) ∧
    Completes .twoWireResponse s (fun t => t.tw.ready = none ∧ t.tw.pecFailed = false ∧
      t.tw.out.dropLast = (if s.tw.pecFailed then [0x0A] else match s.tw.ready with
        | some r => 0x01 :: responseBytes r
        | none => [0x00]) ∧
      t = { s with tw := { s.tw with out := t.tw.out, ready := none, pecFailed := false } }) ∧
    (∀ q at_, s.tw.serving = some (q, at_) → s.tw.taken = none → s.tw.answer = none → s.elapsed at_ 1000000 = true →
      exec .twoWireUnserved s =
        .next (s.withTw { s.tw with serving := none, ready := some (respond q St.busy) })) ∧
    exec .sclStuckTimeout s = .next (s.withTw { s.tw with inProgress := false, out := [] }) ∧
    (s.twAlertN = true →
      exec .alertResponseRead s = .next { s with
        tw := { s.tw with out := [BitVec.ofNat 8 (s.twAddress * 2 + (Config.free s.drawn).toNat % 2)] },
        drawn := s.drawn + 1 })

/-- An endpoint reset frees the slots, clears MSI-X and the causes and closes the raw window; every TAKEN request that no
Pilot had taken is kept to take effect (R92). PERST_N resets the endpoint and lets the link train; a returned link
raises PCIE_LINK_DOWN after a loss (R92, R559). Writing ones to VECTOR_CAUSE clears those bits of its word; unmasking a
vector sends its pending message (R93, R584). Readings of the model's own that it rests on: log entries 14, 85. -/
def Obligations.EndpointResetsAndVectorsClear : Prop :=
  (∀ (s : State) (kind : PcieResetKind),
      Completes (.pcieReset kind) s (fun t => (∀ k, t.slot k = {}) ∧ t.host.order = [] ∧ t.host.vectorCause = 0 ∧
        t.host.msixEnabled = false ∧ t.host.pba = 0 ∧ t.host.unmasked = 0 ∧ t.host.rawStatus = 0 ∧
        t.host.orphans = s.host.orphans ++ s.host.order.filterMap s.untaken ∧
        t.host.bollards = s.host.bollards ∧ t.host.quay = s.host.quay ∧ t.host.rings = s.host.rings ∧
        (kind = .linkLoss → t.host.linkUp = false) ∧ (kind ≠ .linkLoss → t.host.linkUp = s.host.linkUp) ∧
        t.dict.active = s.dict.active ∧ t.frames = s.frames ∧ t.flow = s.flow) ∧
      Completes (.pciePerst false) s (fun t => (∀ k, t.slot k = {}) ∧ t.host.linkUp = false ∧
        t.host.perstHigh = false ∧ t.host.lostAt = (if s.host.linkUp then some s.time.ticks else s.host.lostAt) ∧
        t.dict.active = s.dict.active) ∧
      (bitOf (s.get Obj.straps) 5 = false → s.boot.held = false → s.deckUp 0 = true → s.host.linkUp = false →
        exec (.pciePerst true) s = .next (linkReturns (s.withHost { s.host with perstHigh := true }))) ∧
      (s.boot.held = true → exec (.pciePerst true) s = .next (s.withHost { s.host with perstHigh := true })) ∧
      (∀ at_, s.pcieMayTrain = true → s.host.lostAt = some at_ →
        ∃ u, u = (trainLink s).withHost { (trainLink s).host with lostAt := none } ∧ u.host.linkUp = true ∧
          u.host.linkRate ∈ [1, 2, 3, 4, 5] ∧ u.host.linkLanes ∈ [1, 2, 4] ∧
          exec .pcieLinkDown s = .next (ringsResume (raise Ev.pcieLinkDown 0
            (capAt 0xFFFFFFFF (u.sinceNs at_ / 1000)) 0 u)))) ∧
  (∀ (s : State),
      (∀ (upper : Bool) (value : Word32), s.host.vectorCause < 2 ^ 64 →
        Completes (.vectorCauseClear upper value) s fun t =>
          (∀ i, i < 64 → bitOf t.host.vectorCause i =
            (bitOf s.host.vectorCause i &&
              !((decide (32 ≤ i) == upper) && bitOf value.toNat (if upper then i - 32 else i)))) ∧
          t = { s with host := { s.host with vectorCause := t.host.vectorCause } }) ∧
      (∀ v : Fin 64, s.host.msixEnabled = true → s.host.functionMask = false → bitOf s.host.pba v.val = true →
        Completes (.msixUnmask v) s fun t => t.host.messages.getD v.val 0 = s.host.messages.getD v.val 0 + 1 ∧
          bitOf t.host.pba v.val = false ∧ bitOf t.host.unmasked v.val = true ∧
          t = { s with host := { s.host with unmasked := t.host.unmasked, pba := t.host.pba,
                                             messages := t.host.messages } }))

/-- A host access to a page of the quay window that the host owns reads and writes its word; one to a device-owned
page reads all ones, writes nothing and raises BOLLARD_FAULT; BOLLARD_GIVE passes the pages it names (R93, R97 to
R99). BOLLARD_GIVE passes exactly the pages it names to the device; then the producers that waited for pages go on
(R98, R104, R309). -/
def Obligations.QuayWindowObeysBollards : Prop :=
  (∀ (s : State) (offset : BitVec 28) (data : Word32) (a : Nat), a = offset.toNat / 4 * 4 →
      s.deckUp (a / pageSize / 16384) = true →
      (s.owned (a / pageSize) = false →
        (s.poison (quayPlace a).1 (quayPlace a).2 = false →
          exec (.hostBar2Read offset) s = .next ((quayAsk .dma false a 4 s).withRead (leNat (s.quayRead a 4)) false)) ∧
        Completes (.hostBar2Write offset data) s (fun t =>
          (∀ i, i < 4 → t.quayByte (a + i) = BitVec.ofNat 8 (data.toNat / 256 ^ i)) ∧
          (∀ b, b < a ∨ a + 4 ≤ b → t.quayByte b = s.quayByte b) ∧
          t = { s with host := { s.host with quay := t.host.quay }, hbm := { s.hbm with due := t.hbm.due } })) ∧
      (s.owned (a / pageSize) = true →
        exec (.hostBar2Read offset) s =
          .next ((raise Ev.bollardFault 0 (a / pageSize) 0 (s.bump Obj.bollardFaults)).withRead 0xFFFFFFFF false) ∧
        exec (.hostBar2Write offset data) s =
          .next (raise Ev.bollardFault 0 (a / pageSize) 1 (s.bump Obj.bollardFaults)))) ∧
  (∀ (s : State) (value : Word32), value.toNat < 65536 → exec (.bollardGive value) s = .next s) ∧
  (∀ (s : State) (value : Word32), 65536 ≤ value.toNat →
    ∃ u, exec (.bollardGive value) s = .next (drainExports (ringsResume u)) ∧
      (∀ n, n < 65536 → u.owned n = (s.owned n ||
        (decide (value.toNat % 65536 ≤ n) && decide (n < value.toNat % 65536 + value.toNat / 65536)))) ∧
      u = { s with host := { s.host with bollards := u.host.bollards } })

/-- RING_FLUSH passes a partly filled page whose time has run; disabling a ring returns its pages; a broken lock ends
(R102, R104, R115). A disabled ring has no pages, is at its start, and none of its pages is the device's; every other
ring but the event log, which may report the end of a stall, stays as it was, and no page passes to the device (R102). A lock older than LOCK_TIMEOUT_NS is cleared, counted
in LOCKS_BROKEN and reported (R115). Readings of the model's own that it rests on: log entries 21, 25. -/
def Obligations.RingsFlushAndStop : Prop :=
  (∀ (s : State) (r : Ring),
      (∀ t0, (s.ringPos r.val).firstAt = some t0 → deviceProduces r.val = true →
        s.elapsed t0 (s.get Obj.ringFlushNs r.val) = true → (s.ringPos r.val).byte ≠ 0 → (s.ringPos r.val).byte < 4096 →
        (s.ringPos r.val).page < s.ringPages r.val →
        Completes (.ringFlush r) s fun t => (t.ringPos r.val).byte = 0 ∧ (t.ringPos r.val).firstAt = none ∧
          t.owned (s.ringFirst r.val + (s.ringPos r.val).page) = false ∧
          (∀ a, a < (s.ringFirst r.val + (s.ringPos r.val).page) * 4096 + (s.ringPos r.val).byte →
            t.quayByte a = s.quayByte a)) ∧
      (∀ c : Client, ClientMay c 0x7010 2 r.val (leBytes 2 0) 2 s → (s.takenBy c.path).ringFirst r.val ≤ 65536 →
        ClientWrites (.ringDisable c r) c 0x7010 2 r.val (leBytes 2 0) s (ringPagesWritten r.val 0))) ∧
  (∀ (s : State) (r : Nat), r < 29 →
      (ringPagesWritten r 0 s).ringPages r = 0 ∧ (ringPagesWritten r 0 s).ringPos r = {} ∧
      (∀ i, i < s.ringPages r → (ringPagesWritten r 0 s).owned (s.ringFirst r + i) = false) ∧
      (∀ n, s.owned n = false → (ringPagesWritten r 0 s).owned n = false) ∧
      (∀ q, q ≠ r → q ≠ 20 → (ringPagesWritten r 0 s).ringPos q = s.ringPos q)) ∧
  (∀ (s : State) (table : BitVec 8) (inst : BitVec 16) (index : Word32) (l : TableLock),
      s.lockOf table.toNat inst.toNat index.toNat = some l →
      s.elapsed l.since (s.get Obj.lockTimeoutNs) = true →
      exec (.lockBroken table inst index) s = .next (raise 0x7005 l.ring (table.toNat * 2 ^ 24 + inst.toNat) index.toNat
        ((unlockEntry table.toNat inst.toNat index.toNat s).bump Obj.locksBroken)) ∧
      (unlockEntry table.toNat inst.toNat index.toNat s).lockOf table.toNat inst.toNat index.toNat = none)

/-- A receive path enters fault, finds alignment, and after its debounce times takes the link down or up; a HELD port
whose hold runs out is flushed (R127, R129, R130, R143). A HELD port whose link returns in time keeps its queues but
for aged frames, and raises LINK_UP and HOLD_RESUMED (R130). Readings of the model's own that it rests on: log entry
48. -/
def Obligations.LinkStateFollowsReceivePath : Prop :=
  (∀ (s : State) (port : FrontPort) (l : PortLink), l = s.link port.val →
      (∀ cause : RxFault, Completes (.rxFaultBegin port cause) s fun t =>
        t.link port.val = { l with fault := some (faultCode cause, (l.fault.map (·.2)).getD s.time.ticks), aligned := none } ∧
        (∀ q, q ≠ port.val → t.link q = s.link q) ∧ t = { s with links := t.links }) ∧
      Completes (.trainingFailed port) s (fun t =>
        (t.link port.val).fault = some (5, (l.fault.map (·.2)).getD s.time.ticks) ∧ (t.link port.val).aligned = none ∧
        (∀ q, q ≠ port.val → t.link q = s.link q) ∧ t = { s with links := t.links }) ∧
      (l.jtag = false → Completes (.alignmentAcquired port) s fun t =>
        t.link port.val = { l with fault := none, aligned := some (l.aligned.getD s.time.ticks) } ∧
        (∀ q, q ≠ port.val → t.link q = s.link q) ∧ t = { s with links := t.links }) ∧
      (∀ cause t0, l.fault = some (cause, t0) → s.linkState port.val = 2 →
        s.elapsed t0 (s.get Obj.linkDownDebounceNs port.val) = true →
        ∃ u v, u = linkLost port.val s ∧
          v = raise Ev.linkDown port.val cause 0
            ((u.setLink port.val { u.link port.val with downAt := some u.time.ticks, remoteFault := true }).bump Obj.linkDowns port.val) ∧
          exec (.linkDown port) s = .next (if v.get Obj.linkHoldNs port.val = 0
            then flushPort port.val 0 (v.set Obj.linkState port.val 4)
            else cutTransmission port.val (v.set Obj.linkState port.val 3))) ∧
      (∀ t0, l.fault = none → l.aligned = some t0 → (s.linkState port.val = 1 ∨ s.linkState port.val = 4) →
        s.deckUp (deckOfPort port.val) = true → s.portExists port.val = true →
        s.elapsed t0 (s.get Obj.linkUpDebounceNs port.val) = true →
        ∃ since u, exec (.linkUp port) s = .next (raise Ev.linkUp port.val (s.speed port.val) since u) ∧
          u.get Obj.linkState port.val = 2 ∧ u.get Obj.linkSpeed port.val = s.speed port.val ∧
          (u.link port.val).downAt = none ∧ (u.link port.val).remoteFault = false ∧ (∀ q, q ≠ port.val → u.link q = s.link q) ∧
          ObjectsKept (fun i _ n => (i == Obj.linkState.index || i == Obj.linkSpeed.index) && n == port.val) s u) ∧
      (s.linkState port.val = 3 → (∀ t0, l.downAt = some t0 → s.elapsed t0 (s.get Obj.linkHoldNs port.val) = true) →
        exec (.holdExpired port) s = .next (flushPort port.val 1 (s.set Obj.linkState port.val 4)))) ∧
  (∀ (s : State) (port : FrontPort) (t0 t1 : Nat), (s.link port.val).fault = none → (s.link port.val).aligned = some t0 →
      s.linkState port.val = 3 → (s.link port.val).downAt = some t1 →
      s.elapsed t1 (s.get Obj.linkHoldNs port.val) = false → s.deckUp (deckOfPort port.val) = true →
      s.portExists port.val = true → s.elapsed t0 (s.get Obj.linkUpDebounceNs port.val) = true →
      ∃ u, exec (.linkUp port) s = .next (resumeHold port.val (raise Ev.linkUp port.val (s.speed port.val) (s.sinceNs t1) u)) ∧
        u.get Obj.linkState port.val = 2 ∧ u.tm = s.tm)

/-- Transmit LPI begins after EEE_IDLE_NS of empty queues and the wake wait ends in time; a received pause runs out;
FEC errors are counted; a MAC control frame that is no PFC is ignored and counted (R134, R136, R137, R143). A PFC
frame pauses each enabled priority it names with a time, ends the pause of one it names with zero, and leaves every
other priority as it was (R136, R137). -/
def Obligations.PortTimersAndMacControl : Prop :=
  (∀ (s : State) (port : FrontPort) (l : PortLink), l = s.link port.val →
      (s.linkState port.val = 2 → s.get Obj.eeeMode port.val ≠ 0 → l.lpiSince = none → l.wakeAt = none →
        (s.tmPort port.val).sending = none → s.queuesEmpty port.val = true →
        s.elapsed l.emptySince (s.get Obj.eeeIdleNs port.val) = true →
        exec (.lpiEnter port) s = .next (s.setLink port.val { l with lpiSince := some s.time.ticks })) ∧
      (∀ at_, l.wakeAt = some at_ → at_ ≤ s.time.ticks →
        exec (.lpiWakeDone port) s = .next (s.setLink port.val { l with wakeAt := none })) ∧
      (∀ (p : Fin 8) (at_ : Nat), l.paused.find p.val = some at_ → at_ ≤ s.time.ticks →
        exec (.pfcPauseExpired port p) s = .next (s.setLink port.val { l with paused := l.paused.del p.val })) ∧
      (∀ c n, 0 < n → s.codewords port.val = true → l.fecSecond ≠ some s.second →
        ∃ u, u = ((s.setLink port.val { l with fecSecond := some s.second }).add Obj.fecCorrected port.val c).add
          Obj.fecUncorrected port.val n ∧
        exec (.fecUncorrected port c n) s =
          .next (raise 0x1005 port.val n (u.get Obj.fecUncorrected port.val) u)) ∧
      (∀ data, s.linkState port.val = 2 → beAt data 14 2 ≠ 0x0101 →
        exec (.macControlRx port data) s =
          .next ((noteBytes port.val 0 (data.length + 4) s).bump Obj.pauseRxIgnored port.val)) ∧
      (∀ (c : Client) (v : Word64), ClientMay c 0x1204 0 port.val (leBytes 8 v.toNat) 1 s →
        v.toNat ≤ 10000000000 →
        ClientWrites (.linkHoldNsWrite c port v) c 0x1204 0 port.val (leBytes 8 v.toNat) s fun u =>
          if (u.set Obj.linkHoldNs port.val v.toNat).holdOver port.val = true
          then flushPort port.val 1 ((u.set Obj.linkHoldNs port.val v.toNat).set Obj.linkState port.val 4)
          else u.set Obj.linkHoldNs port.val v.toNat)) ∧
  (∀ (s : State) (port : FrontPort) (data : List Byte) (vec on : Nat), s.linkState port.val = 2 →
      beAt data 14 2 = 0x0101 → vec = beAt data 16 2 % 256 → on = s.get Obj.pfcRxEnable port.val →
      Completes (.macControlRx port data) s fun t =>
        (∀ p, p < 8 → bitOf vec p = true → bitOf on p = true → beAt data (18 + 2 * p) 2 ≠ 0 →
          (t.link port.val).paused.find p = some (s.pauseEnd port.val (beAt data (18 + 2 * p) 2))) ∧
        (∀ p, p < 8 → bitOf vec p = true → bitOf on p = true → beAt data (18 + 2 * p) 2 = 0 →
          (t.link port.val).paused.find p = none) ∧
        (∀ p, bitOf vec p = false ∨ bitOf on p = false →
          (t.link port.val).paused.find p = (s.link port.val).paused.find p) ∧
        t.get Obj.pfcRxFrames port.val = (s.get Obj.pfcRxFrames port.val + 1) % 2 ^ 64 ∧
        (∀ q, q ≠ port.val → t.link q = s.link q))

/-- The first cell of a frame on an UP port outside the control protocols makes a frame with the next handle, which
enters the ingress stage while the device is AWAKE and the landing buffer otherwise; later cells of a truncated frame
are only kept, and those of a landed frame go to the landing buffer (R353, R476). The tail of a good frame marks it
good and counts it and its bytes; a bad one is counted in the first counter of RX_ABORTED, RX_FCS_ERRORS, RX_OVERSIZE
and RX_RUNT that applies, and nowhere else (R140, R141). Readings of the model's own that it rests on: log entries 46,
48, 72. -/
def Obligations.FrameCellsArriveAndTailsAreCounted : Prop :=
  (∀ (s : State),
      (∀ (port : FrontPort) (data : List Byte), s.linkState port.val = 2 → beAt data 12 2 ≠ 0x8808 →
        beAt data 12 2 ≠ 0x88B6 → s.ferry port.val = false →
        ∃ u x, u = noteBytes port.val 0 data.length s ∧
          x = ({ inPort := port.val, data := data, length := Config.frameLength s.nextFrame, rxTime := s.time.now, rxTick := s.time.ticks,
                 stage := if s.awake then .ingress else .landing } : Frame) ∧
          exec (.frameFirstCell port data) s = .next (
            if s.awake then enterIngress s.nextFrame { u.setFrame s.nextFrame x with nextFrame := s.nextFrame + 1 }
            else landBytes s.nextFrame data.length
              (({ u.setFrame s.nextFrame x with nextFrame := s.nextFrame + 1 }).bump Obj.landingFrames port.val))) ∧
      (∀ (f : FrameId) (x : Frame) (data rest : List Byte), s.frame f = some x → x.onMac = true →
        x.truncated = some rest →
        exec (.frameCell f data) s =
          .next ((noteBytes x.inPort 0 data.length s).setFrame f { x with truncated := some (rest ++ data) })) ∧
      (∀ (f : FrameId) (x : Frame) (data : List Byte), s.frame f = some x → x.onMac = true → x.truncated = none →
        x.stage = .landing →
        exec (.frameCell f data) s = .next (landBytes f data.length
          ((noteBytes x.inPort 0 data.length s).setFrame f { x with data := x.data ++ data })))) ∧
  (∀ (s : State) (f : FrameId) (x : Frame) (fcs : Word32), s.frame f = some x → x.onMac = true → x.truncated = none →
      x.tag = none → x.inPort < 128 → x.stage = .parsing 0 →
      Completes (.frameTailRx f fcs) s fun t =>
        (fcs.toNat = fcs32 x.data → x.data.length ≤ s.get Obj.maxFrameBytes x.inPort → 60 ≤ x.data.length →
          t.frame f = some { x with tail := some !x.spoiled } ∧
          t.get Obj.rxFrames x.inPort = (s.get Obj.rxFrames x.inPort + 1) % 2 ^ 64 ∧
          t.get Obj.rxBytes x.inPort = (s.get Obj.rxBytes x.inPort + x.data.length + 4) % 2 ^ 64 ∧
          t.get Obj.rxFcsErrors x.inPort = s.get Obj.rxFcsErrors x.inPort) ∧
        (fcs.toNat ≠ fcs32 x.data →
          t.frame f = some { x with tail := some false } ∧
          t.get Obj.rxFcsErrors x.inPort = (s.get Obj.rxFcsErrors x.inPort + 1) % 2 ^ 64 ∧
          t.get Obj.rxFrames x.inPort = s.get Obj.rxFrames x.inPort ∧
          t.get Obj.rxRunt x.inPort = s.get Obj.rxRunt x.inPort) ∧
        (fcs.toNat = fcs32 x.data → s.get Obj.maxFrameBytes x.inPort < x.data.length →
          t.frame f = some { x with tail := some false } ∧
          t.get Obj.rxOversize x.inPort = (s.get Obj.rxOversize x.inPort + 1) % 2 ^ 64 ∧
          t.get Obj.rxFrames x.inPort = s.get Obj.rxFrames x.inPort) ∧
        (fcs.toNat = fcs32 x.data → x.data.length ≤ s.get Obj.maxFrameBytes x.inPort → x.data.length < 60 →
          t.frame f = some { x with tail := some false } ∧
          t.get Obj.rxRunt x.inPort = (s.get Obj.rxRunt x.inPort + 1) % 2 ^ 64 ∧
          t.get Obj.rxFrames x.inPort = s.get Obj.rxFrames x.inPort) ∧
        (∀ g, g ≠ f → t.frame g = s.frame g))

/-- Each operation on working registers writes its value to DST and gives its carry, in one counted cycle; CMP, CMPI
and NOP write no register (R151, R155). Readings of the model's own that it rests on: log entry 27. -/
def Obligations.RegisterOperationsGiveTheirValues : Prop :=
  ∀ (e : EngineId) (x : Engine) (w : MicroWord) (s : State) (a b d imm : Word32), a = x.word (mwA w) → b = x.word (mwB w) →
    d = x.word (mwDst w) → imm = (w.extractLsb' 94 16).setWidth 32 →
    (StandsAt 0x00 e x w s → Retires (.microNop e) e x x w 0 false s) ∧
    (StandsAt 0x02 e x w s → WritesDst (.movi e) e x w imm false s) ∧
    (StandsAt 0x03 e x w s → WritesDst (.movhi e) e x w (imm <<< 16 ||| d &&& 0xFFFF) false s) ∧
    (StandsAt 0x04 e x w s → WritesDst (.add e) e x w (a + b) (BitVec.uaddOverflow a b) s) ∧
    (StandsAt 0x05 e x w s → WritesDst (.addi e) e x w (a + imm) (BitVec.uaddOverflow a imm) s) ∧
    (StandsAt 0x06 e x w s → WritesDst (.sub e) e x w (a - b) (BitVec.usubOverflow a b) s) ∧
    (StandsAt 0x07 e x w s → WritesDst (.and e) e x w (a &&& b) false s) ∧
    (StandsAt 0x08 e x w s → WritesDst (.or e) e x w (a ||| b) false s) ∧
    (StandsAt 0x09 e x w s → WritesDst (.xor e) e x w (a ^^^ b) false s) ∧
    (StandsAt 0x0A e x w s → WritesDst (.andi e) e x w (a &&& imm) false s) ∧
    (StandsAt 0x0B e x w s → WritesDst (.ori e) e x w (a ||| imm) false s) ∧
    (StandsAt 0x0C e x w s → WritesDst (.shl e) e x w (a <<< (imm.toNat % 32)) false s) ∧
    (StandsAt 0x0D e x w s → WritesDst (.shr e) e x w (a >>> (imm.toNat % 32)) false s) ∧
    (StandsAt 0x0E e x w s → Retires (.cmp e) e x x w (a - b) (BitVec.usubOverflow a b) s) ∧
    (StandsAt 0x0F e x w s → Retires (.cmpi e) e x x w (a - imm) (BitVec.usubOverflow a imm) s)

/-- EXTRACT, the hash, the keys, the marks, the result fields, the cursor, the window and the saved state (R151, R152,
R159 to R161, R165). REWRITE, PUSH, POP and CSUM4 add their edit while fewer than sixteen stand (R163). Readings of
the model's own that it rests on: log entries 29, 30. -/
def Obligations.HeaderAndEditOperations : Prop :=
  (∀ (e : EngineId) (x : Engine) (w : MicroWord) (s : State) (data : List Byte) (a : Word32), a = x.word (mwA w) →
      (StandsAt 0x01 e x w s → Reaches x data (fieldLast x w) s →
        WritesDst (.extract e) e x w (BitVec.ofNat 32 (fieldValue data x w)) false s) ∧
      (StandsAt 0x11 e x w s →
        Retires (.hashadd e) e x { x with hash := BitVec.ofNat 32 (crc32cFrom x.hash.toNat (beBytes 4 a.toNat)) } w 0 false s) ∧
      (StandsAt 0x12 e x w s → ∀ n, n = (if byteAt data (x.at_ w) / 16 = 4 then 20 else 40) →
        Reaches x data (x.at_ w) s → x.at_ w + n ≤ x.window →
        Retires (.keyL3 e) e x { x with result := { x.result with l3 := some (x.at_ w) } } w 0 false s) ∧
      (StandsAt 0x13 e x w s → ∀ mode, mode = (if mwImm w % 4 = 3 then 2 else mwImm w % 4) →
        x.at_ w + (if mode = 0 then 3 else if mode = 1 then 5 else 0) < x.window →
        Retires (.keyL4 e) e x { x with result := { x.result with l4 := some (x.at_ w, mode, a.toNat % 256) } } w 0 false s) ∧
      (StandsAt 0x14 e x w s → ∀ r, setResult x.result (mwImm w % 256) a.toNat = some r →
        (mwImm w % 256 = 1 → isEgress (a.toNat % 65536) = true) →
        Retires (.setres e) e x { x with result := r } w 0 false s) ∧
      (StandsAt 0x15 e x w s →
        (mwImm w % 4 = 3 → Retires (.mark e) e x x w 0 false s) ∧
        (mwImm w % 4 ≠ 3 → x.at_ w < x.window →
          Retires (.mark e) e x { x with result := addMark x.result (mwImm w % 4) (x.at_ w) } w 0 false s)) ∧
      (StandsAt 0x1A e x w s → Retires (.curset e) e x { x with cursor := a.toNat % 1024 } w 0 false s) ∧
      (StandsAt 0x1B e x w s → Retires (.xwin e) e x
        { x with window := if mwImm w ≤ 512 then Nat.max x.window (mwImm w) else x.window } w 0 false s) ∧
      (StandsAt 0x1C e x w s → WritesDst (.rdsave e) e x w
        (if x.inTrap = true then BitVec.ofNat 32 (x.saved.element (mwImm w % 32)) else 0) false s) ∧
      (StandsAt 0x1D e x w s → Retires (.wrsave e) e x
        (if x.inTrap = true then { x with saved := x.saved.setElement (mwImm w % 32) a.toNat } else x) w 0 false s)) ∧
  (∀ (e : EngineId) (x : Engine) (w : MicroWord) (s : State) (data : List Byte), x.edits.length < 16 →
      (StandsAt 0x16 e x w s → Reaches x data (fieldLast x w) s → x.popped (fieldBit x w / 8) (fieldLast x w) = false →
        Retires (.rewrite e) e x { x with edits := x.edits ++
          [.rewrite (fieldBit x w) (mwBits w) ((x.word (mwA w)).toNat % 2 ^ mwBits w)] } w 0 false s) ∧
      (StandsAt 0x17 e x w s → ∀ n, n = mwImm w % 128 + 1 → x.at_ w < x.window → x.pushed + n ≤ 64 →
        (∀ o m, Edit.pop o m ∈ x.edits → ¬ (o < x.at_ w ∧ x.at_ w < o + m)) →
        Retires (.push e) e x { x with edits := x.edits ++ [.push (x.at_ w)
          (((List.range (ceilDiv n 4)).flatMap fun i => beBytes 4 (x.word (mwA w + i)).toNat).take n)] } w 0 false s) ∧
      (StandsAt 0x18 e x w s → ∀ n, n = mwImm w % 512 + 1 → x.at_ w + n ≤ x.window →
        (∀ o, Edit.csum4 o ∈ x.edits → ¬ (x.at_ w ≤ o ∧ o < x.at_ w + n)) →
        Retires (.pop e) e x { x with edits := x.edits ++ [.pop (x.at_ w) n] } w 0 false s) ∧
      (StandsAt 0x19 e x w s → Reaches x data (x.at_ w) s →
        x.at_ w + Nat.max 20 (byteAt data (x.at_ w) % 16 * 4) ≤ x.window → x.popped (x.at_ w) (x.at_ w) = false →
        Retires (.csum4 e) e x { x with edits := x.edits ++ [.csum4 (x.at_ w)] } w 0 false s))

/-- Sequencing of a word whose operation is done: BRANCH, CALL and RETURN set the next address, END hands the frame
on, TRAP_RETURN takes up what the trap saved, and RESTART clears the engine but its cycle count (R153, R154, R162,
R166). A trap that has no lookup to wait for saves the engine's state and starts the handler at its vector; the cycle
limit ends a parse with reason 1; PUNT and DROP end it with their reason (R146, R164, R165, R177 to R180). Readings of
the model's own that it rests on: log entries 27, 29. -/
def Obligations.SequencingTrapsAndEnds : Prop :=
  (∀ (e : EngineId) (x : Engine) (s : State) (w : MicroWord) (r : Word32) (carry : Bool) (adv v cursor : Nat),
      s.engine e.val = some x → x.done = some (w, r, carry, adv) →
      v = branchBits ((mwConds w).map (condition x (s.header x) r carry)) → cursor = capAt 1023 (x.cursor + adv) →
      (mwSeq w = 0 → Completes (.branch e) s fun t => OnlyEngine e.val s t ∧
        t.engine e.val = some { x with pc := Nat.lor (mwTarget w) v, cursor := cursor, done := none }) ∧
      (mwSeq w = 1 → x.stack.length < 4 → Completes (.call e) s fun t => OnlyEngine e.val s t ∧
        t.engine e.val = some { x with pc := Nat.lor (mwTarget w) v, cursor := cursor, done := none,
                                       stack := (x.pc + 1) % 8192 :: x.stack }) ∧
      (mwSeq w = 2 → x.trap = none → x.inTrap = false → ∀ back rest, x.stack = back :: rest →
        Completes (.ret e) s fun t => OnlyEngine e.val s t ∧
          t.engine e.val = some { x with pc := Nat.lor back v, cursor := cursor, done := none, stack := rest,
                                         cycles := x.cycles + 1, total := x.total + 1 }) ∧
      (mwSeq w = 3 → x.result.stateless = true ∨ keyKnown (s.header x) x.result = true → exec (.end_ e) s = .next (endParse e.val (s.setEngine e.val { x with cursor := cursor, done := none }))) ∧
      (mwSeq w = 4 → x.inTrap = true → Completes (.trapReturn e) s fun t => OnlyEngine e.val s t ∧
        t.engine e.val = some { x with pc := x.saved.pc, regs := x.saved.regs, cursor := x.saved.cursor, inTrap := false,
                                       done := none, cycles := x.cycles + 1, total := x.total + 1 }) ∧
      (mwSeq w = 5 → ∀ y, s.frame x.frame = some y →
        exec (.restart e) s = .next (banksDrain (e.val / 128) (spend .wasted e.val (s.setEngine e.val
          { freshEngine x.frame (s.activeAft (e.val / 128)) (s.ferry y.inPort) x.entry x.window0 x.limit x.timeout x.failDrop with
            cycles := x.cycles, limited := x.limited, result := { vrf := y.result.vrf } }))))) ∧
  (∀ (e : EngineId) (x : Engine) (s : State), s.engine e.val = some x →
      (∀ cause detail pc o, x.trap = some (cause, detail, pc) → x.lookups = [] → x.cycles < x.limit →
        o = (if cause = 1 then Obj.trapsWindow else if cause = 2 then Obj.trapsCheck else if cause = 3 then Obj.trapsLookup
             else Obj.trapsSwap) →
        exec (.trapEntry e) s = .next ((s.setEngine e.val { x with trap := none, inTrap := true, pc := cause, saved :=
          { pc := pc, regs := x.regs, cursor := x.cursor, cause := cause, detail := BitVec.ofNat 32 detail } }).bump o
            (e.val / 128))) ∧
      (∀ y, s.frame x.frame = some y → x.limit ≤ x.cycles → x.done = none → x.limited = none →
        exec (.cycleLimit e) s = .next (failFrame (e.val / 128) 1 x.failDrop x.frame (leaveEngine e.val
          (s.setFrame x.frame { y with result := { y.result with vrf := x.result.vrf } })))) ∧
      (∀ w, StandsAt 0x1E e x w s → x.limited = none → 0x40 ≤ mwImm w % 256 →
        exec (.punt e) s = .next (puntIngress (e.val / 128) (mwImm w % 256) x.frame
          ((leaveEngine e.val (spend .retired e.val s)).modFrame x.frame fun y =>
            { y with result := { y.result with vrf := x.result.vrf } }))) ∧
      (∀ w, StandsAt 0x1F e x w s → x.limited = none → 0x40 ≤ mwImm w % 256 →
        exec (.drop e) s = .next (endFrame x.frame ((leaveEngine e.val (spend .retired e.val s)).addS Obj.parseDrops
          (mwImm w % 256) (e.val / 128) 1))))

/-- Dispatch gives the oldest frame of a port to a free engine in the state of R148 (R144, R145, R148). A LOOKUP holds
its result until it arrives, which writes its registers; a late one zeroes them and raises the trap (R157, R158,
R164). Readings of the model's own that it rests on: log entry 31. -/
def Obligations.EnginesAreDispatchedAndLookUp : Prop :=
  (∀ (f : FrameId) (e : EngineId) (x : Frame) (s : State), s.frame f = some x → s.dispatchable f x = true →
      s.engineFree (pipeOfPort x.inPort) e.val = true →
      Completes (.parseDispatch f e) s fun t =>
        t.frame f = some { x with stage := .parsing e.val } ∧ (∀ g, g ≠ f → t.frame g = s.frame g) ∧
        (∀ k, k ≠ e.val → t.engine k = s.engine k) ∧
        (∃ n, t.engine e.val = some n ∧ n.frame = f ∧ n.pc = s.get Obj.parseEntry x.inPort ∧ n.cursor = 0 ∧ n.cycles = 0 ∧ n.total = 0 ∧
          n.limit = s.cycleLimit (pipeOfPort x.inPort) ∧ n.window = s.get Obj.parseWindowBytes (pipeOfPort x.inPort) ∧
          n.hash = 0xFFFFFFFF ∧ n.stack = [] ∧ n.lookups = [] ∧ n.edits = [] ∧ n.trap = none ∧ n.inTrap = false ∧
          n.done = none ∧ n.aft = s.activeAft (pipeOfPort x.inPort) ∧ n.regs.length = 16 ∧
          (∀ i < 15, n.word i = 0) ∧ n.word 15 = (if s.ferry x.inPort = true then 0x10000 else 0)) ∧
        t = { s with frames := t.frames, parse := { s.parse with engines := t.parse.engines, waited := t.parse.waited } }) ∧
  (∀ (e : EngineId) (x : Engine) (s : State),
      (∀ (w : MicroWord) (n : Nat) (k : Nat × Nat), StandsAt 0x10 e x w s → lookupShape (mwImm w % 256) = some k →
        mwImm w % 256 < 7 → (mwImm w % 256 = 5 → mwImm w / 256 < 16) → x.lookups.length < 4 → n = k.2 →
        (∀ l ∈ x.lookups, ∀ i ∈ l.regs, ∀ j < n, i ≠ (mwDst w + j) % 16) →
        ∃ r y, doLookup (e.val / 128) (mwImm w % 256) x w s = (r, y, s) ∧ y = { x with steer := y.steer } ∧ r.length = n ∧
          Retires (.lookup e) e x { y with lookups := x.lookups ++
            [{ first := mwDst w, count := n, result := r, issued := x.total }] } w 0 false s) ∧
      (∀ (first : Fin 16) (l : Lookup), s.engine e.val = some x → x.lookups = [l] → l.first = first.val →
        (x.total - l.issued ≤ x.timeout →
          exec (.lookupResult e first) s = .next (s.setEngine e.val { x.setRegs l.first l.result with lookups := [] })) ∧
        (x.timeout ≤ x.total - l.issued → x.done = none → x.trap = none → x.inTrap = false →
          exec (.lookupTimeout e first) s = .next (s.setEngine e.val { x.setRegs l.first (List.replicate l.count 0) with
            lookups := [], trap := some (3, l.first, x.pc) }))))

/-- A corrected control-store word is written back clean and an uncorrectable one rewritten from the golden copy, the
scrubber runs once a period, and an accepted image is checked, written and its bank LOADED (R168 to R173). A cluster
is fenced while another of its pipe is in service, its unfence rewrites it first, and it then serves again (R176).
Readings of the model's own that it rests on: log entries 18, 28. -/
def Obligations.ControlStoresAndClustersAreRepaired : Prop :=
  (∀ (s : State),
      (∀ (cl : ClusterId) (aft : Bool) (addr : BitVec 13) (c : CtlWord),
        c = s.ctlWord (storeKey cl.val aft addr.toNat) →
        (c.ecc = .corrected → Completes (.controlStoreRepair cl aft addr) s fun t =>
          t.ctlWord (storeKey cl.val aft addr.toNat) = { word := c.word } ∧
          (∀ k, k ≠ storeKey cl.val aft addr.toNat → t.ctlWord k = s.ctlWord k) ∧
          t = { s with parse := { s.parse with stores := t.parse.stores } }) ∧
        (c.ecc = .uncorrectable → (s.golden (goldenKey (cl.val / 8) aft addr.toNat)).ecc ≠ .uncorrectable →
          Completes (.controlStoreRepair cl aft addr) s fun t =>
            t.ctlWord (storeKey cl.val aft addr.toNat) =
              { word := (s.golden (goldenKey (cl.val / 8) aft addr.toNat)).word } ∧
            (∀ k, k ≠ storeKey cl.val aft addr.toNat → t.ctlWord k = s.ctlWord k) ∧
            t = { s with parse := { s.parse with stores := t.parse.stores, repaired := t.parse.repaired },
                         hbm := { s.hbm with due := t.hbm.due } })) ∧
      (∀ p : Pipe, s.awake = true →
        s.elapsed (s.parse.scrubAt.getD p.val 0) (s.get Obj.scrubPeriodMs p.val * 1000000) = true →
        ∃ u, u = scrubBank p.val true (scrubBank p.val false s) ∧
          exec (.scrubPass p) s = .next (u.withParse { u.parse with scrubAt := u.parse.scrubAt.put p.val u.time.ticks })) ∧
      (∀ (c : Client) (p : Pipe) (range : Word64) (u : State), u = s.takenBy c.path →
        ClientMay c 0x2130 0 p.val (leBytes 8 range.toNat) 1 s → (u.group 0x08 p.val).state ≠ 2 →
        u.bank p.val (u.targetAft p.val) ≠ 1 → u.bank p.val (u.targetAft p.val) ≠ 4 → u.rangeOk range.toNat = true →
        range.toNat % 2 ^ 32 = 240 + 16 * leAt (u.rangeBytes range.toNat) 12 4 →
        ClientWrites (.ucodeLoad c p range) c 0x2130 0 p.val (leBytes 8 range.toNat) s fun u =>
          (quayAsk .dma false (range.toNat / 2 ^ 32 % 65536 * 4096) (range.toNat % 2 ^ 32)
            (u.withParse { u.parse with jobs := u.parse.jobs.put p.val (UcodeJob.mk (u.targetAft p.val)
              (range.toNat / 2 ^ 32 % 65536) (range.toNat % 2 ^ 32)) })).set (bankObj (u.targetAft p.val)) p.val 1) ∧
      (∀ (p : Pipe) (j : UcodeJob), s.parse.jobs.find p.val = some j → s.pilotServes p.val = true →
        ∃ u b keys hashes, b = s.rangeBytes (j.first * 2 ^ 32 + j.bytes) ∧
          u = passBack (j.first * 2 ^ 32 + j.bytes) (s.withParse { s.parse with jobs := s.parse.jobs.del p.val }) ∧
          keys = u.parse.keys ∧ hashes = (List.range 4).map (fun i => u.getS Obj.ucodeKeyHash (i + 1) 0) ∧
          exec (.ucodeLoaded p []) s = .next (match ucodeCheck keys hashes b with
            | .inl step => raise Ev.ucodeRefused p.val step (if step = 1 then 0 else leAt b 8 4)
                ((u.set (bankObj j.aft) p.val 0).set (versionObj j.aft) p.val 0)
            | .inr ws => raise Ev.ucodeLoaded p.val (leAt b 8 4) (bit01 j.aft)
                (((wantBurst .dma true p.val (goldenOffset j.aft 0) (writeBank p.val j.aft ws u) 4096).set (bankObj j.aft)
                  p.val 2).set (versionObj j.aft) p.val (leAt b 8 4))))) ∧
  (∀ (c : Client) (cl : ClusterId) (s : State),
      (ClientMay c 0x2121 0 cl.val [1] 2 s → (s.takenBy c.path).canFence cl.val = true →
        ClientWrites (.clusterFence (some c) cl) c 0x2121 0 cl.val [1] s fun u =>
          (fenceCluster cl.val 1 0 u).set Obj.clusterFence cl.val 1) ∧
      (s.anyPilot = true → s.get Obj.clusterState cl.val = 0 → s.canFence cl.val = true →
        exec (.clusterFence none cl) s =
          .next (raise Ev.clusterFenced cl.val 0 0 (s.set Obj.clusterState cl.val 1))) ∧
      (ClientMay c 0x2121 0 cl.val [0] 2 s →
        ClientWrites (.clusterUnfence c cl) c 0x2121 0 cl.val [0] s fun u =>
          (unfenceCluster cl.val u).set Obj.clusterFence cl.val 0) ∧
      (s.get Obj.clusterState cl.val = 1 → s.parse.restoring = [] →
        ∃ v u, v = unfenceCluster cl.val s ∧ v.parse.restoring = [cl.val] ∧ u = rewriteCluster cl.val v ∧
          exec (.clusterRestored cl) v = .next (raise Ev.clusterRestored cl.val 0 0
            ((u.withParse { u.parse with restoring := [] }).set Obj.clusterState cl.val 0)) ∧
          (s.parse.failed = [] →
            (∀ aft a, a < 8192 → (s.golden (goldenKey (cl.val / 8) aft a)).ecc ≠ .uncorrectable) →
            ∀ aft a, a < 8192 → u.ctlWord (storeKey cl.val aft a) =
              { word := (s.golden (goldenKey (cl.val / 8) aft a)).word })))

/-- A learning request is served by the update port, the sweep runs once a second and removes aged entries, and the
mover of a rehash makes a pass (R190 to R194, R199, R200). Readings of the model's own that it rests on: log entry 31.
-/
def Obligations.ForwardingTablesAreMaintained : Prop :=
  ∀ (p : Pipe) (s : State),
    (∀ k0 k1 k2 rest fid mac, s.tables.queue.getD p.val [] = (k0, k1, k2) :: rest →
      macOfKey k0 k1 = (fid, mac) →
      ∃ u, u = { s with tables := { s.tables with queue := NMap.set [] s.tables.queue p.val rest } } ∧
        exec (.homeLearn p) s = .next (if (macLearn p.val fid mac (k2 % 65536) u).1.limited
          then (macLearn p.val fid mac (k2 % 65536) u).2.bump Obj.learnLimitHits (k2 % 65536)
          else (macLearn p.val fid mac (k2 % 65536) u).2)) ∧
    (s.awake = true → s.tables.swept.getD p.val 0 ≠ s.nowNs / 1000000000 + 1 → s.get Obj.fdbAgeS ≠ 0 →
      Completes (.fdbSweep p) s fun t =>
        t.tables.swept.getD p.val 0 = s.nowNs / 1000000000 + 1 ∧
        ∀ i b, s.mac p.val i = some b → i < 266240 → (s.tables.mac).wf = true →
          t.mac p.val i = if b.isStatic = false ∧ s.macLocked p.val i = false ∧
            s.get Obj.fdbAgeS ≤ (s.nowS + 2 ^ 32 - b.lastSeen) % 2 ^ 32 then none else some b) ∧
    (s.get Obj.rehashState p.val ≠ 0 → s.awake = true → exec (.rehashPass p) s = .next (rehashPass p.val s))

/-- A frame at its home stage: a stateless one goes to its egress crossing, and one whose record is in the cache takes
the record's actions; a lookup whose reads find nothing writes a PENDING line (R222, R224, R225). Readings of the
model's own that it rests on: log entry 32. -/
def Obligations.HomeStageFindsOrPends : Prop :=
  ∀ (p : Pipe) (f : FrameId) (x : Frame) (s : State), s.frame f = some x →
    (x.stage = .home p.val → s.mayAdmit p.val = true → x.home.learn = none → x.group = none → x.ferryDst = none →
      x.result.stateless = true →
      exec (.homeStageFrame p f) s = .next (toEgress f ((noteAdmitted p.val s).setFrame f
        { x with home := { x.home with ioam := bitOf x.result.telemetry 4 } }))) ∧
    (∀ k n y, x.stage = .home p.val → x.home.learn = none → x.group = none → x.ferryDst = none →
      x.result.stateless = false → x.home.key = some k → x.home.steer = none → x.home.whole = false →
      s.mayAdmit p.val = true → s.findLine p.val k x.home.hash = some n → s.reclaimWaits p.val n = false →
      s.migrating p.val n = false → s.idle p.val n = false → y = { x with home := { x.home with served := true } } →
      y.storedBad = false →
      exec (.homeStageFrame p f) s = .next (tagOps p.val f s.hbm.due.length (applyActions p.val n f (releaseOp p.val f
        (((noteAdmitted p.val s).setFrame f y).bump Obj.cacheHits p.val))))) ∧
    (∀ k h u, x.stage = .lookup p.val → x.home.key = some k → h = x.home.hash → x.home.setWait = false →
      u = returnReads p.val f s →
      u.findLine p.val k h = none → u.findPending p.val k = none → u.findAshore p.val k h = none →
      u.candidates p.val x.home.pier k h = [] → u.poison p.val (pierOffset x.home.pier) = false →
      u.homeOf h = p.val → u.setFull p.val (setOf h) = false → h < 2 ^ 32 →
      u.get Obj.homeOldPipe (h / 2 ^ 20) < 8 →
      Completes (.homeLookupData p f) s fun t =>
        (∃ w, t.flow.pendings = u.flow.pendings ++
          [{ pipe := p.val, key := k.bytes, hash := h, way := w, creator := f, waiters := [] }]) ∧
        t.frame f = some { x with stage := (if u.get Obj.homeState (h / 2 ^ 20) = 1 ∧ x.home.handedOn = false ∧
            x.home.consulted = false ∧ u.deckUp (deckOfPipe (u.get Obj.homeOldPipe (h / 2 ^ 20))) = true
          then Stage.consult p.val else Stage.stored p.val) } ∧
        (∀ g, g ≠ f → t.frame g = s.frame g) ∧ (p.val, f) ∉ t.flow.ops ∧
        t.get Obj.lookupMisses p.val = (u.get Obj.lookupMisses p.val + 1) % 2 ^ 64)

/-- A steered frame takes the key of its binding, or is discarded and counted in NAT_NO_BINDING where there is none; a
good tail of a stored first frame creates its record, and an overflow refuses it (R226 to R228, R271). A new record
takes the lowest free slot, a berth of its pier, a DIRTY line and its aft half, and FLOWS counts it (R226, R227).
Readings of the model's own that it rests on: log entries 32, 36. -/
def Obligations.SteeredFramesAndCreations : Prop :=
  (∀ (p : Pipe) (f : FrameId) (x : Frame) (k : RawKey) (s u : State), s.frame f = some x → x.home.key = some k →
      (∀ w q P e hit, x.stage = .home p.val → x.result.stateless = false → x.home.resolved = none → x.home.steer = some w →
        bitOf w 30 = false → q = bitsOf w 27 16 → P = w % 65536 → readBinding p.val q P s = ((e, hit), u) →
        (natState e = 0 → exec (.steeredResolve p f) s = .next (tagOps p.val f s.hbm.due.length
          (discardAt (deckOfPipe p.val) f (u.bump Obj.natNoBinding p.val)))) ∧
        (natState e ≠ 0 → ∀ n h, n = u.resolvedKey x k q e → h = crc32c n.bytes → exec (.steeredResolve p f) s =
          .next (tagOps p.val f s.hbm.due.length (u.setFrame f { x with
            result := { x.result with vrf := n.vrf },
            home := { x.home with key := some n, hash := h, resolved := some (q, P), whole := !(hit && u.homeOf h == p.val),
                                  hairpin := x.result.vrf == u.get Obj.insideVrf q &&
                                    x.result.vrf != u.get Obj.outsideVrf q } })))) ∧
      (x.stage = .stored p.val → s.storedWhole f x = true → x.home.handTo = none → x.home.record = none →
        x.tail = some true → s.homeOf x.home.hash = p.val →
        (∀ cause, cause = s.refusal p.val x.home.hash → cause ≠ 0 →
          exec (.frameTailHome p f) s = .next (tagOps p.val f s.hbm.due.length (refuseCreation p.val f x.home.hash cause
            (((s.pendingOf p.val f).map PendingLine.waiters).getD []) s))) ∧
        (∀ r aft, s.refusal p.val x.home.hash = 0 → setupFlow p.val x k s = (.record r aft, u) →
          exec (.frameTailHome p f) s = .next (tagOps p.val f s.hbm.due.length
            (createRecord p.val f r aft (s.pendingOf p.val f) u))))) ∧
  (∀ (rr : Requester) (p way : Nat) (r : Fore) (aft : List Byte) (slot n : Nat) (s : State), p < 8 → slot < 2 ^ 24 → r.hash < 2 ^ 32 →
      s.freeSlot p = some slot → s.freeBerth p (s.pier p r.hash) = some n → s.get Obj.flows p < 2 ^ 24 →
      aft.length = 64 →
      ∃ t, placeRecord rr p r (some aft) (some way) s = (some slot, t) ∧
        t.fore p slot = some { r with slot := slot, anchored := false } ∧ t.aft p slot = aft ∧ t.slotUsed p slot = true ∧
        t.pierBerth p (s.pier p r.hash) n = some (s.berthFor { r with slot := slot, anchored := false } false) ∧
        t.get Obj.flows p = s.get Obj.flows p + 1 ∧
        ∀ q m, q < 8 → m < 2 ^ 24 → (q, m) ≠ (p, slot) → t.slotUsed q m = s.slotUsed q m)

/-- The column operations of translation: a binding takes the first FREE row after the cursor, a reference adds one
use, and a release takes one, the last of which frees the row (R267 to R269). The engines of the flow table: an
eviction takes the longest idle record of the two piers, relocation and sweep pass over the records, and a finished
flip leaves no MOVING berth of its own (R229, R231, R236). Readings of the model's own that it rests on: log entries
31, 36, 37. -/
def Obligations.ColumnsAndFlowEnginesRun : Prop :=
  (∀ (q : Fin 4096) (s : State),
      (∀ (h a : Word32) (port : BitVec 16) (c r e : Nat), s.get Obj.mapping q.val ≠ 1 → c = h.toNat / 2 ^ 20 →
        s.columnLost q.val c = false → s.freeRow q.val c = some r →
        e = a.toNat * 2 ^ 32 + port.toNat * 65536 + 2 ^ 14 + 1 →
        exec (.natColumnOperation (.allocate q h a port none)) s = .next (raise Ev.natBound q.val (r * 4096 + c) (natArg e)
          (columnBurst true q.val c 0 (r / 8 + 1) (setCursor q.val c r (setNat q.val c r e
            (columnBurst false q.val c 0 2 s)))))) ∧
      (∀ (P : BitVec 16) (e : Nat), e = s.natEntry q.val (P.toNat % 4096) (P.toNat / 4096) → 4096 ≤ P.toNat →
        natState e ≠ 0 → natSlb e = false → s.columnLost q.val (P.toNat % 4096) = false →
        (natRefs e ≠ 4095 → exec (.natColumnOperation (.reference q P)) s =
          .next (columnBurst true q.val (P.toNat % 4096) (P.toNat / 4096) 1 (setNat q.val (P.toNat % 4096)
            (P.toNat / 4096) (e + 1) (columnBurst false q.val (P.toNat % 4096) (P.toNat / 4096) 1 s)))) ∧
        (natState e = 1 → natRefs e ≤ 1 → exec (.natColumnOperation (.release q P)) s =
          .next (raise Ev.natReleased q.val P.toNat (natArg e) (setNat q.val (P.toNat % 4096) (P.toNat / 4096) 0
            (columnUpdate q.val (P.toNat % 4096) (P.toNat / 4096) s)))) ∧
        (1 < natRefs e → exec (.natColumnOperation (.release q P)) s =
          .next (setNat q.val (P.toNat % 4096) (P.toNat / 4096) (e - 1)
            (columnUpdate q.val (P.toNat % 4096) (P.toNat / 4096) s))))) ∧
  (∀ (p : Pipe) (s : State),
      (∀ a b target rest slot idle v, s.flow.evictions = (p.val, 3, a, b, target) :: rest → s.awake = true →
        v = s.withFlow { s.flow with evictions := rest } →
        v.mostIdle p.val (v.get Obj.evictMinIdleMs) (v.pierSlots p.val a b) = some (slot, idle) →
        exec (.eviction p) s = .next (evict p.val slot (readPiers p.val a b v))) ∧
      (s.awake = true → s.relocationDue p.val = true →
        exec (.relocationPass p) s = .next ((s.ashore p.val).foldl (fun t e => relocate p.val e t)
          (s.withFlow { s.flow with relocatedAt := s.flow.relocatedAt.put p.val s.time.ticks }))) ∧
      (∀ x, s.flow.flips.find p.val = some x → x.readers = [] → x.checks = [] →
        (∀ k ∈ x.old ++ x.new, pierKey p.val 0 0 ≤ k ∧ k < pierKey p.val 0 0 + 2 ^ 24) →
        (∀ k ∈ x.old ++ x.new, s.pierLocked p.val ((k - pierKey p.val 0 0) / 4) = false) →
        s.flow.anchorage.find (berthKey p.val x.anchor) = none →
        Completes (.groupFlipFinish p) s fun t => t.flow.flips.find p.val = none ∧
          (∀ k ∈ x.new, ∀ b, t.flow.piers.find k = some b → b.moving = false) ∧
          t.get Obj.groupFlips p.val = (s.get Obj.groupFlips p.val + 1) % 2 ^ 64) ∧
      (s.awake = true → s.sweepDue p.val = true → ∃ u v n, n = s.flow.pass.getD p.val 0 ∧
        u = s.withFlow { s.flow with sweptAt := s.flow.sweptAt.put p.val s.time.ticks,
                                     pass := NMap.set 0 s.flow.pass p.val (n + 1) } ∧
        v = (u.sweptRecords p.val).foldl (fun t slot => sweepRecord p.val slot
          (s.get Obj.exportActivePasses != 0 && n % s.get Obj.exportActivePasses == 0) t)
          (wantBurst .scrub false p.val 0 u pierCount) ∧
        exec (.flowSweepPass p) s = .next (v.set Obj.sweepPosition p.val 0)))

/-- A consult is answered by the old home, a transfer is placed or refused by the new home, and the acknowledgment
frees the record at the old home or keeps it; the walk starts transfers (R246 to R248). The leader commits new home
pipes for the entries of a lost deck: the old home of a MOVING entry where it survives, else the surviving pipes by
entry number; every other entry keeps its home (R245, R528). Readings of the model's own that it rests on: log entries
31, 32, 67. -/
def Obligations.ConsultsAndTransfersMoveRecords : Prop :=
  (∀ (p : Pipe) (s : State),
      (∀ f x k old, s.frame f = some x → x.stage = .consult p.val → x.home.key = some k → s.flow.transfers = [] →
        old = s.get Obj.homeOldPipe (x.home.hash / 2 ^ 20) → s.deckUp (deckOfPipe old) = true →
        s.findRecord old k x.home.hash = none → s.lookupPoisoned old (s.pier old x.home.hash) k x.home.hash = false →
        exec (.consultRequest p f) s = .next ((startReads .insert old (s.pier old x.home.hash) k x.home.hash
          (s.bump Obj.consults old)).setFrame f
            { x with stage := .stored p.val, home := { x.home with consulted := true } })) ∧
      (∀ (slot : BitVec 24) t, s.transfer p.val slot.toNat = some t → t.placed = none →
        s.noRoom t.toPipe t.fore.hash ≠ 0 →
        exec (.recordTransfer p slot) s = .next (s.withFlow { s.flow with
          transfers := s.flow.transfers.map fun u =>
            if u.fromPipe = t.fromPipe ∧ u.slot = t.slot then { u with placed := some none } else u })) ∧
      (∀ (slot : BitVec 24) t, s.transfer p.val slot.toNat = some t → t.placed = some none → t.held = [] →
        t.frame = none →
        exec (.transferAck p slot) s = .next (raise Ev.migrationStalled t.fromPipe t.entry 2
          (dropTransfer t (modLine t.fromPipe t.slot (fun l => { l with migrating := false }) s)))) ∧
      (∀ (slot : BitVec 24) t n r, s.transfer p.val slot.toNat = some t → t.placed = some (some n) → t.held = [] →
        s.fore p.val slot.toNat = some r → s.placeLocked p.val slot.toNat r = false →
        ∃ v, v = (removeRecord p.val t.slot r ((berthWrites p.val t.slot r s).bump Obj.flows p.val)).bump
            Obj.recordsMoved p.val ∧
          exec (.transferAck p slot) s = .next (dropTransfer t (v.withFlow { v.flow with
            moved := NMap.modify 0 v.flow.moved t.entry (· + 1) }))) ∧
      (∀ es u, s.awake = true → s.deckUp (deckOfPipe p.val) = true → s.flow.walks.find p.val = none →
        es = s.movingFrom p.val → es ≠ [] → u = walkOn p.val (setWalk p.val { entries := es, at_ := s.time.ticks } s) →
        exec (.migrationWalk p) s = .next (if u.walkDone p.val = true then endWalk p.val u else u))) ∧
  (∀ (s u : State) (d : Nat) rest, s.avail.rehome = d :: rest → s.anyPilot = true → abortGroup 0x18 0 1 s = (St.ok, u) →
      ∃ v, exec .lostDeckRehome s = .next (raise Ev.commitDone 0 0x18 (((u.group 0x18 0).generation + 1) % 2 ^ 32) v) ∧
        v.avail.rehome = rest ∧ (v.group 0x18 0).generation = ((u.group 0x18 0).generation + 1) % 2 ^ 32 ∧
        (v.group 0x18 0).commitTime = s.now80 ∧
        (∀ e, e < 4096 → deckOfPipe (u.get Obj.homePipe e) = d →
          v.get Obj.homeState e = 0 ∧
          (∀ n, n = (if u.get Obj.homeState e = 1 ∧ u.deckUp (deckOfPipe (u.get Obj.homeOldPipe e)) = true
              then u.get Obj.homeOldPipe e
              else u.survivingPipes.getD (e % 6 % Nat.max 1 u.survivingPipes.length) 0) →
            v.get Obj.homePipe e = n ∧ v.get Obj.homeOldPipe e = n)) ∧
        (∀ e, e < 4096 → deckOfPipe (u.get Obj.homePipe e) ≠ d →
          v.get Obj.homePipe e = u.get Obj.homePipe e ∧ v.get Obj.homeState e = u.get Obj.homeState e) ∧
        v.frames = s.frames)

/-- An open export message whose flush time has run, and a template that falls due, are queued, the latter with a
restarted template period; the Sequence Number is put in when the message is written to the ring (R307 to R309). Readings of the model's own that it rests on: log entry
45. -/
def Obligations.ExportMessagesFallDue : Prop :=
  ∀ (p : Pipe) (s : State) (x : Export), x = s.export_ p.val →
    (x.open_ ≠ [] → s.elapsed x.openedAt (s.get Obj.exportFlushNs) = true →
      exec (.exportFlush p) s = .next (exportQueue p.val
        (s.message p.val (s.get Obj.exportUtcOffsetS) (setsBytes x.open_), x.open_.length, false)
        (s.setExport p.val { x with open_ := [] }))) ∧
    (∀ t, s.exports_ p.val = true → s.get Obj.exportTemplatePeriodS ≠ 0 → x.templateAt = some t →
      s.elapsed t (s.get Obj.exportTemplatePeriodS * 1000000000) = true → ∃ u,
      u = s.setExport p.val { x with templateAt := some s.time.ticks } ∧
      exec (.exportTemplate p) s = .next (exportQueue p.val
        (u.message p.val (s.get Obj.exportUtcOffsetS) templateSet, 0, true) u))

/-- A slot of a direction carries the owner's oldest cell and up to three control messages, a failed slot is counted
and the eighth in succession stops the direction, and each deck's free cells are reported (R322, R324 to R327, R354).
A cell lands at its pipe: handed over on one deck, or taken from the direction's flight, where a frame's cell moves
from deck to deck (R20, R320, R321). Readings of the model's own that it rests on: log entries 50, 73, 77. -/
def Obligations.SlotsCarryCells : Prop :=
  (∀ (d : Direction) (s : State), (s.carriesSlots d.val = true →
        (∀ (c : Cell) (x : Link), x = s.dir d.val → x.switch = false → s.roomReported d.val = true →
          s.get Obj.sleepState = 0 → s.get Obj.perturbLinkDelayNs d.val = 0 → s.get Obj.perturbLinkJitterNs d.val = 0 →
          x.lastDue ≤ s.time.ticks → x.ctrl = [] → s.readyCell x (s.slotOwner d.val).1 (s.slotOwner d.val).2 = some c →
          Completes (.slotSend d) s fun t =>
            t.dir d.val = { x with slot := x.slot + 1, fails := 0, queue := x.queue.erase c, lastPipe := c.src,
                                   flight := x.flight ++ [{ c with due := s.time.ticks }],
                                   handles := x.handles.put c.frame (c.src, x.handleOf c),
                                   sent := s.slotBytes x (some (c, x.handleOf c)) [] } ∧
            t.get Obj.slotsOwnedUsed d.val = (s.get Obj.slotsOwnedUsed d.val + 1) % 2 ^ 64 ∧
            (∀ e, e ≠ d.val → t.dir e = s.dir e) ∧ t.frames = s.frames) ∧
        exec (.slotRetry d) s = .next (if (s.dir d.val).fails = 7
          then raise Ev.chainLinkRetryFailed d.val 8 ((s.dir d.val).slot - 1)
            ((s.setDir d.val { s.dir d.val with fails := 8 }).bump Obj.linkRetries d.val)
          else (s.setDir d.val { s.dir d.val with fails := (s.dir d.val).fails + 1 }).bump Obj.linkRetries d.val)) ∧
      Completes .freeCountReport s fun t => (∀ e < 4, t.cross.reports.getD e 262144 = s.freeCells e) ∧
        t = { s with cross := { s.cross with reports := t.cross.reports } }) ∧
  (∀ (src dst : Pipe) (f : FrameId) (x : Frame) (s : State), s.frame f = some x → s.ticking (deckOfPipe dst.val) = true →
      (deckOfPipe src.val = deckOfPipe dst.val → (∀ y, s.body f = some y → y.cellWhole 0 = true) → ∀ egress, x.stage = .crossing egress src.val dst.val →
        exec (.cellLand src dst f) s =
          .next (s.setFrame f { x with stage := if egress = true then .landed else .home dst.val })) ∧
      (∀ c d, deckOfPipe src.val ≠ deckOfPipe dst.val → d = dirOf (deckOfPipe src.val) (deckOfPipe dst.val) →
        (s.dir d).flight = [c] → c.frame = f → c.src = src.val → c.dst = dst.val → c.due ≤ s.time.ticks → c.egress = true →
        x.origin = none → ∃ y, y = x.moveCell (deckOfPipe src.val) (deckOfPipe dst.val) ∧
          exec (.cellLand src dst f) s = .next (noteRoom ((s.setDir d { s.dir d with
            flight := [], handles := (if x.lastCell c.index = true then (s.dir d).handles.del f else (s.dir d).handles) }).setFrame f
            (if c.index = 0 then { y with stage := .landed } else y)))))

/-- A frame whose number is the context's next is released and the context advances; an earlier number is late; a
later one is held in the pool; a hole passes its number, and a timeout skips one (R333 to R338). Hole notices,
timeouts and credits of the contexts: a hole passes its number, a timeout skips the next one, credits go back to the
stamping pipe and open its window (R332, R334, R339). Readings of the model's own that it rests on: log entry 73. -/
def Obligations.ContextsKeepOrder : Prop :=
  (∀ (s : State) (f : FrameId) (x : Frame) (st : Stamp) (c : Context) (k : Nat), s.frame f = some x → x.stamp = some st →
      x.stage = .landed → s.ticking (deckOfPipe x.epipe) = true → k = contextKey st.port st.redirect st.pipe st.cls →
      c = s.context k → st.port < 137 →
      (st.seq = c.next → c.state = [] → x.heldCells = 0 → st.seq < 65536 → Completes (.reseqHead f) s fun t =>
        t.frame f = some { x with stage := .released } ∧ (∀ g, g ≠ f → t.frame g = s.frame g) ∧
        t.context k = { c with next := (c.next + 1) % 65536, owed := c.owed + 1, timer := none } ∧
        (∀ j, j ≠ k → t.context j = s.context j) ∧
        t = { s with frames := t.frames, cross := { s.cross with contexts := t.cross.contexts } }) ∧
      (c.late st.seq = true → exec (.reseqHead f) s = .next (raise Ev.reseqLate st.port
        (streamArg st.redirect st.pipe st.cls st.seq) 0 (finishFrame f (s.bump Obj.reseqLate st.port)))) ∧
      (c.late st.seq = false → st.seq ≠ c.next → s.get Obj.landingHoldCells (deckOfPort st.port) = 0 →
        s.get Obj.landingHoldInUse (deckOfPort st.port) + frameCells x.full ≤ 262144 →
        Completes (.reseqHead f) s fun t =>
          t.frame f = some { x with stage := .held, heldCells := frameCells x.full } ∧
          (t.context k).state.find st.seq = some (.held f) ∧ (t.context k).next = c.next ∧ (t.context k).timer.isSome = true ∧
          t.get Obj.landingHoldInUse (deckOfPort st.port) =
            s.get Obj.landingHoldInUse (deckOfPort st.port) + frameCells x.full ∧
          t.get Obj.reseqHeld st.port = (s.get Obj.reseqHeld st.port + 1) % 2 ^ 64)) ∧
  (∀ (s : State) (port : Port) (redirect : Bool) (pipe : Pipe) (cls : Fin 16) (k : Nat) (c : Context),
      k = contextKey port.val redirect pipe.val cls.val → c = s.context k →
      (∀ m rest, s.cross.holes = m :: rest → m.port = port.val → m.redirect = redirect →
        m.stampPipe = pipe.val → m.cls = cls.val → m.due ≤ s.time.ticks → m.value = c.next → c.late m.value = false →
        exec (.holeNotice port 0) s =
          .next (armContext k (advance k ((s.withCross { s.cross with holes := rest }).bump Obj.holesReceived port.val)))) ∧
      (∀ t ns, c.timer = some (t, ns) → s.elapsed t ns = true →
        exec (.reseqTimeout port redirect pipe cls) s = .next (armContext k (advance k (raise Ev.reseqSkip port.val
          (streamArg redirect pipe.val cls.val c.next)
          (c.state.filter fun e => match e.2 with | .held _ => true | .hole => false).length
          (s.bump Obj.reseqSkips port.val))))) ∧
      (∀ n : Fin 65, n.val ≠ 0 → n.val ≤ c.owed →
        exec (.creditSend port redirect pipe cls n) s = .next (sendCtrl (deckOfPort port.val)
          { hole := false, cls := cls.val, redirect := redirect, stampPipe := pipe.val, port := port.val, value := n.val }
          (s.setContext k { c with owed := c.owed - n.val }))) ∧
      (∀ m rest, s.cross.credits = m :: rest → m.stampPipe = pipe.val → m.due ≤ s.time.ticks → s.cross.waiting = [] →
        Completes (.credit pipe 0) s fun t => t.cross.credits = rest ∧
          t.outstanding (streamKey m.redirect m.stampPipe m.port m.cls) =
            s.outstanding (streamKey m.redirect m.stampPipe m.port m.cls) - m.value ∧
          (∀ j, j ≠ streamKey m.redirect m.stampPipe m.port m.cls → t.outstanding j = s.outstanding j) ∧
          t = { s with cross := { s.cross with credits := rest, outstanding := t.cross.outstanding } }))

/-- A multicast copy reaches its deck and is enqueued to each target port; a residue entry is served when its port is
ready, or discarded when it has aged (R342 to R345). Readings of the model's own that it rests on: log entry 46. -/
def Obligations.MulticastCopiesReachTheirPorts : Prop :=
  ∀ (s : State) (d : Deck),
    (∀ f x o port u, s.frame f = some x → x.stage = .landed → x.origin = some o → deckOfPipe x.epipe = d.val →
      x.targets = [port] → x.mcastMode = 2 → s.copyBefore f x = false → u = s.setFrame f { x with stage := .replicated } →
      exec (.mcastCopyArrive f d) s = .next (match (enqueuePointer f x port u).frame f with
        | some y => if y.refs = 0 then finishFrame f (enqueuePointer f x port u) else enqueuePointer f x port u
        | none => enqueuePointer f x port u)) ∧
    (∀ e rest x, s.residue d.val = e :: rest → s.frame e.frame = some x →
      (s.setResidue d.val []).portReady e.port x = true →
      exec (.residueServe d 0) s =
        .next (dropPointer e.frame (enqueuePointer e.frame x e.port (s.setResidue d.val rest)))) ∧
    (∀ e rest x g, s.residue d.val = e :: rest → s.frame e.frame = some x → x.group = some g →
      s.elapsed e.since (s.get Obj.mcastResidueMaxNs) = true →
      exec (.residueAged d 0) s =
        .next (dropPointer e.frame ((s.setResidue d.val rest).bump Obj.mcastResidueDrops g)))

/-- A released frame is enqueued where its port and admission take it, and the selection of a port starts the head of
the chosen queue (R355, R359 to R361). The head that starts leaves its queue and takes the port until its time has
run; under WFQ its tag becomes the port's virtual time (R360, R361). Readings of the model's own that it rests on: log
entries 46, 50. -/
def Obligations.FramesAreEnqueuedSelectedAndStarted : Prop :=
  (∀ (s : State),
      (∀ f x q, s.frame f = some x → x.stage = .released → x.tail ≠ some false → x.port < 137 → x.cls < 16 →
        s.ferry x.port = false → s.linkState x.port = 2 → s.injectTooLong f x.port = false → q = x.port * 16 + x.cls →
        s.releasedBefore f x = false → s.ticking (deckOfPort x.port) = true → s.flushing x.port = false →
        s.admits q (frameCells (s.outLength f)) = true → s.get Obj.ecnMarkCells q = 0 →
        Completes (.enqueue f) s fun t =>
          (∃ e, (t.queue q).frames = (s.queue q).frames ++ [e] ∧ e.frame = f ∧ e.tick = s.time.ticks ∧
            e.cells = frameCells (s.outLength f)) ∧
          t.frame f = some { x with stage := .queued q } ∧ (∀ g, g ≠ f → t.frame g = s.frame g) ∧
          t.get Obj.enqFrames q = (s.get Obj.enqFrames q + 1) % 2 ^ 64 ∧
          (∀ r, r ≠ q → (t.queue r).frames = (s.queue r).frames)) ∧
      (∀ f x q, s.frame f = some x → x.stage = .released → x.tail ≠ some false → s.ferry x.port = false →
        s.linkState x.port = 2 → s.injectTooLong f x.port = false → q = x.port * 16 + x.cls →
        s.linkState (q / 16) = 2 → s.injectTooLong f (q / 16) = false → s.releasedBefore f x = false →
        s.ticking (deckOfPort x.port) = true → s.flushing x.port = false → s.flushing (q / 16) = false →
        s.admits q (frameCells (s.outLength f)) = false →
        exec (.enqueue f) s = .next (finishFrame f (s.bump Obj.admitDrops q))) ∧
      (∀ (port : Port) c e rest, s.canSelect port.val = true → s.operGates port.val = none →
        s.chosen port.val = some c → (s.queue (port.val * 16 + c)).frames = e :: rest →
        s.get Obj.maxResidenceNs port.val = 0 → (s.body e.frame).bind Frame.tail ≠ some false →
        exec (.selection port) s = .next (startTx (port.val * 16 + c) s))) ∧
  (∀ (s : State) (port : Port) (c : Fin 16) (q : Nat) (e : QEntry) (rest : List QEntry), q = port.val * 16 + c.val →
      (s.queue q).frames = e :: rest → port.val < 128 →
      ∃ x, ((startTx q s).tmPort port.val).sending = some x ∧ x.entry = some e ∧ x.queue = q ∧ x.start = s.time.ticks ∧
        x.end_ = s.time.ticks + ticksOfNs (s.txTime port.val (s.wireLength e.frame)) ∧
        ((startTx q s).queue q).frames = rest ∧
        (s.get Obj.queueMode q = 0 → ((startTx q s).tmPort port.val).vtime = (s.queue q).finish ∧
          ((startTx q s).queue q).last = (s.queue q).finish) ∧
        (s.get Obj.queueMode q ≠ 0 → ((startTx q s).tmPort port.val).vtime = (s.tmPort port.val).vtime) ∧
        (∀ r, r ≠ q → (startTx q s).queue r = s.queue r))

/-- The start of a transmission passes its boundary with a time stamp and its end is counted; a PFC frame is counted,
and requests that stand are repeated (R138, R140, R372, R416). The gates of a port take the entry in force, a pending
list takes over at its time, and the PFC requests that stand are repeated (R366 to R368, R372). Readings of the
model's own that it rests on: log entries 46, 48, 50, 75. -/
def Obligations.TransmissionsAndGatesFollowTime : Prop :=
  (∀ (s : State) (port : Port) (t : Sending), (s.tmPort port.val).sending = some t →
      (t.txTime = none → t.entry = none →
        exec (.txStartBoundary port) s = .next (s.setTmPort port.val
          { s.tmPort port.val with sending := some { t with txTime := some s.time.now } })) ∧
      (∀ e x y, t.txTime = none → t.entry = some e → s.frame e.frame = some x → s.body e.frame = some y → port.val < 128 →
        y.home.ioam = false → y.cookie = none → s.ferry port.val = false →
        s.corrected port.val y (overlays (overlays (s.outBytes e.frame) e.marks) []) = none →
        exec (.txStartBoundary port) s = .next (s.setTmPort port.val
          { s.tmPort port.val with sending := some { t with txTime := some s.time.now, fills := [], tag := [] } })) ∧
      (∀ e, t.entry = some e → s.txOver port.val t = true → port.val < 128 →
        exec (.txEnd port) s = .next (pfcSend port.val (dropPointer e.frame
          (endSending port.val (countSent port.val t e s))))) ∧
      (∀ u, t.entry = none → t.end_ ≤ s.time.ticks → u = (endSending port.val s).bump Obj.pfcTxFrames port.val →
        exec (.txEnd port) s = .next (pfcSend port.val (noteBytes port.val 1 (t.bytes.length + 4)
          (u.setLink port.val { u.link port.val with out := t.bytes ++ leBytes 4 (fcs32 t.bytes) }))))) ∧
  (∀ (s : State),
      (∀ port : Port, exec (.gateEntryChange port) s =
        .next (s.setTmPort port.val { s.tmPort port.val with gateEntry := s.gateIndex port.val })) ∧
      (∀ (port : Port) ct cycle bs u v, (s.tmPort port.val).pendingGate = some (ct, cycle, bs) → 0 ≤ timeDiff s.now80 ct →
        s.operGates port.val = none →
        u = s.setTmPort port.val { s.tmPort port.val with pendingGate := none, gateEntry := 0 } →
        v = (((u.set Obj.operBaseTime port.val ct).set Obj.operCycleTimeNs port.val cycle).setDom Obj.operList
          port.val bs).set Obj.configPending port.val 0 →
        exec (.gateConfigChanged port) s =
          .next (raise Ev.gateConfigChanged port.val (s.group 0x39 port.val).generation (ct % 2 ^ 32) v)) ∧
      (∀ (port : FrontPort) pr at_, (s.link port.val).xoff = [(pr, at_)] → s.elapsed at_ (s.get Obj.pfcRefreshNs) = true →
        s.getS Obj.pfcXonCells (pr + 1) port.val ≤ s.getS Obj.ingressCells (pr + 1) port.val →
        exec (.pfcRefresh port) s = .next (pfcSend port.val (pfcAsk port.val pr (s.get Obj.pfcQuanta) s))))

/-- A request joins its pseudo-channel's queue and is served from an idle channel, a completed burst is counted and
what waits is served, and a write that has waited may be served (R386 to R389, R394, R397). Refresh: a due refresh is
owed, or forced at the next burst boundary where the allowance is used up; a hot stack is to pay down to four and goes to
hot mode, and a cool one leaves it (R394, R395). Readings of the model's own that it rests on: log entries 51, 52. -/
def Obligations.HbmRequestsAndRefreshes : Prop :=
  (∀ (pc : Pc) (s : State) (x : PcCtl), x = s.pc pc.val → s.pcLive pc.val = true →
      (∀ (r : Requester) (burst : BitVec 28) y, y = s.place (pc.val / 32) burst.toNat → y.pc = pc.val % 32 → x.queue = [] →
        s.mayBurst pc.val = true → s.bankRefreshing x y.bank = false → x.issued = [] → x.grant = none → x.inOrder = [] → r ≠ .lookup → r ≠ .writeback → x.draining = false →
        Completes (.hbmRequest pc r false burst) s fun t =>
          (∃ q, (t.pc pc.val).issued = [q] ∧ q.rr = r ∧ q.write = false ∧ q.burst = burst.toNat ∧ q.bank = y.bank ∧
            q.row = y.row) ∧ (t.pc pc.val).queue = [] ∧ (t.pc pc.val).rows.find y.bank = some y.row ∧
          (∀ c, c ≠ pc.val → t.pc c = s.pc c) ∧
          t = { s with hbm := { s.hbm with pcs := t.hbm.pcs }, dict := { s.dict with active := t.dict.active } }) ∧
      (∀ (r : Requester) (burst : BitVec 28) q other,
        (s.place (pc.val / 32) burst.toNat).pc = pc.val % 32 → x.issued = [other] → x.queue = [] → r ≠ .lookup →
        r ≠ .writeback → q = { rr := r, write := true, burst := burst.toNat, since := s.time.ticks,
                               bank := (s.place (pc.val / 32) burst.toNat).bank,
                               row := (s.place (pc.val / 32) burst.toNat).row } →
        Completes (.hbmRequest pc r true burst) s fun t => (t.pc pc.val).queue = [q] ∧ (t.pc pc.val).issued = [other] ∧
          ∀ c, c ≠ pc.val → t.pc c = s.pc c) ∧
      (∀ (burst : BitVec 28) y p, y = s.place (pc.val / 32) burst.toNat → y.pc = pc.val % 32 → p = pipeOfPc pc.val →
        s.get Obj.panicLevel p = 0 ∨ s.get Obj.lookupOutstanding p + 1 < s.get Obj.panicLevel p → x.issued ≠ [] →
        Completes (.hbmRequest pc .lookup false burst) s fun t =>
          t.get Obj.lookupOutstanding p = s.get Obj.lookupOutstanding p + 1 ∧ (t.pc pc.val).issued = x.issued ∧
          (∃ q, (t.pc pc.val).queue = x.queue ++ [q] ∧ q.rr = .lookup ∧ q.write = false ∧ q.burst = burst.toNat)) ∧
      (∀ q ecc, x.issued = [q] → q.due ≤ s.time.ticks → q.write = false → q.rr ≠ .lookup → q.patrol = none →
        exec (.burstComplete pc ecc) s = .next (serve pc.val (payOwed pc.val (forceRefresh pc.val (retryFixes pc.val
          (checkRead pc.val q.rr q.burst ecc
            ((setPc pc.val { x with issued := [] } s).bump Obj.burstsRead pc.val))))))) ∧
      (∀ q, s.mayBurst pc.val = true → s.bankRefreshing x q.bank = false →
        x.issued = [] → x.grant = none → x.inOrder = [] → x.queue = [q] → q.write = true → s.elapsed q.since 500 = true →
        Completes (.writeDrainTimeout pc) s fun t => (t.pc pc.val).issued = [q] ∧ (t.pc pc.val).queue = [])) ∧
  (∀ (s : State),
      (∀ (pc : Pc) (x : PcCtl) (u : State), x = s.pc pc.val → s.pcLive pc.val = true → x.refreshNext ≤ 64 * s.time.ticks →
        u = setPc pc.val { x with
          refreshNext := (if x.refreshNext = 0 then 64 * s.time.ticks else x.refreshNext) + s.refreshInterval (pc.val / 32) } s →
        (s.get Obj.refreshOwed pc.val < s.allowance (pc.val / 32) → s.mayRefresh pc.val = false →
          exec (.refreshDue pc) s = .next ((u.bump Obj.refreshOwed pc.val).bump Obj.refreshesPostponed pc.val)) ∧
        (s.allowance (pc.val / 32) ≤ s.get Obj.refreshOwed pc.val → x.issued ≠ [] →
          exec (.refreshDue pc) s = .next (setPc pc.val { u.pc pc.val with forced := x.forced + 1 } u)) ∧
        (s.allowance (pc.val / 32) ≤ s.get Obj.refreshOwed pc.val → x.issued = [] → x.payments = 0 →
          s.mayCommand pc.val = true → Completes (.refreshDue pc) s fun t =>
            t.get Obj.refreshes pc.val = (s.get Obj.refreshes pc.val + 1) % 2 ^ 64 ∧
            t.get Obj.refreshesForced pc.val = (s.get Obj.refreshesForced pc.val + 1) % 2 ^ 64 ∧
            t.get Obj.refreshOwed pc.val = s.get Obj.refreshOwed pc.val ∧
            (t.pc pc.val).rows.find x.nextBank = none ∧ (t.pc pc.val).nextBank = (x.nextBank + 1) % 32)) ∧
      (∀ (d : Deck) (celsius : Int) (u : State), s.mayReadTemp d.val = true →
        u = (s.withHbm { s.hbm with tempAt := s.hbm.tempAt.put d.val s.time.ticks,
                                    unread := s.hbm.unread.filter (· != d.val) }).set Obj.hbmTempC d.val (ofSigned 32 celsius) →
        (s.get Obj.refreshMode d.val = 0 → celsius ≤ 85 → exec (.hbmTempRead d celsius) s = .next u) ∧
        (∀ n v, s.get Obj.refreshMode d.val = 0 → 85 < celsius →
          orderPayments d.val (u.set Obj.refreshMode d.val 1) = (n, v) →
          exec (.hbmTempRead d celsius) s = .next (raise Ev.refreshHot d.val (ofSigned 32 celsius) n v)) ∧
        (s.get Obj.refreshMode d.val ≠ 0 → celsius < 82 →
          exec (.hbmTempRead d celsius) s = .next (raise Ev.refreshNormal d.val (ofSigned 32 celsius) 0
            (u.set Obj.refreshMode d.val 0)))))

/-- The patrol asks for the next burst, sparing takes a spare and ends after its copy, and a retraining counts its steps
and repairs a lane or gives up (R399 to R403). Readings of the model's own that it rests on: log entries 17, 53. -/
def Obligations.PatrolSparingAndRetraining : Prop :=
  ∀ (s : State),
    (∀ (d : Deck) (ecc : EccResult) b y u, b = s.hbm.patrol.getD d.val 0 → b ≠ 0 → y = s.place d.val b →
      s.pcLive (d.val * 32 + y.pc) = true →
      u = acceptBurst (d.val * 32 + y.pc) { rr := .scrub, write := false, burst := b, bank := y.bank, row := y.row,
                                            since := s.time.ticks, patrol := some ecc } s →
      exec (.patrolScrub d ecc) s = .next
        ((u.withHbm { u.hbm with patrol := NMap.set 0 u.hbm.patrol d.val ((b + 1) % 2 ^ 28) }).set Obj.patrolPosition d.val
          ((b + 1) % 2 ^ 28 / 8192))) ∧
    (∀ (c : Client) (pc : Pc), ClientMay c 0x6041 0 pc.val [1] 2 s →
      ClientWrites (.spareRequest c pc) c 0x6041 0 pc.val [1] s (startSpare pc.val 4)) ∧
    (∀ (pc : Pc) (u v : State), s.anyPilot = true → s.get Obj.pcState pc.val = 0 →
      bitOf (s.get Obj.spareFree (pc.val / 32)) (pc.val % 32 / 16) = true →
      u = ((s.set Obj.spareFree (pc.val / 32) (clearBit (s.get Obj.spareFree (pc.val / 32)) (pc.val % 32 / 16))).set
        Obj.pcState pc.val 1).set Obj.spareProgress pc.val 0 →
      v = setPc pc.val { s.pc pc.val with copyAt := some s.time.ticks, copied := 0, copyFrom := s.time.ticks } u →
      startSpare pc.val 4 s = raise Ev.spareStarted pc.val 4 0 v) ∧
    (∀ (pc : Pc) t, s.get Obj.pcState pc.val = 1 → s.pcLive pc.val = true → (s.pc pc.val).copyAt = some t →
      16384 ≤ s.copyRows pc.val →
      exec (.spareDone pc) s = .next (raise Ev.spareDone pc.val 0 (s.sinceNs t) (((setPc pc.val
        { s.pc pc.val with copyAt := none } ((s.set Obj.pcState pc.val 2).set Obj.spareProgress pc.val 16384)).add
          Obj.burstsRead pc.val 8388608).add Obj.burstsWritten pc.val 8388608))) ∧
    (∀ (pc : Pc) turn, s.pcLive pc.val = true → s.stepWaits pc.val = false →
      s.hbm.retraining.find (pc.val / 32) = some (pc.val % 32, turn) → (s.pc pc.val).steps < 63 →
      exec (.retrainStep pc none 0) s = .next (setPc pc.val
        { s.pc pc.val with steps := (s.pc pc.val).steps + 1, stepAt := s.time.ticks } s) ∧
      ∀ lane : BitVec 8, ∃ u, u = setPc pc.val
          { s.pc pc.val with steps := (s.pc pc.val).steps + 1, stepAt := s.time.ticks } s ∧
        (∀ left, exec (.retrainStep pc (some lane) (left + 1)) s =
          .next (raise Ev.laneRepaired pc.val lane.toNat left (u.bump Obj.lanesRepaired pc.val))) ∧
        exec (.retrainStep pc (some lane) 0) s = .next (startSpare pc.val 3 (endTrain pc.val
          (raise Ev.retrainFailed pc.val lane.toNat 0 (u.bump Obj.retrainFails pc.val))))) ∧
    (∀ (c : Client) (limit : Bool) (rr : BitVec 8) (d : Deck) (value : Byte),
      ClientMay c (if limit = true then 0x6011 else 0x6010) rr.toNat d.val [value] 2 s → 1 ≤ rr.toNat → rr.toNat ≤ 6 →
      (limit = false → value.toNat ≤ 7) → (limit = true → 1 ≤ value.toNat ∧ value.toNat ≤ 64) →
      ClientWrites (.reqPriorityWrite c limit rr d value) c (if limit = true then 0x6011 else 0x6010) rr.toNat d.val
        [value] s fun u => u.setS (if limit = true then Obj.reqBurstLimit else Obj.reqPriority) rr.toNat d.val value.toNat)

/-- The time objects: an increment is stored, a step within the limit joins the waiting steps, a forced step and a set
join the changes of the next tick, and a hold that is over frees the steps that waited (R408, R411 to R413). With
nothing forced, waiting or held back, a tick adds the increment to device time and one to the tick count, and changes
nothing else of the time state (R407, R408). Readings of the model's own that it rests on: log entries 2, 54. -/
def Obligations.TimeIsChangedAndAdvances : Prop :=
  (∀ (c : Client) (s : State),
      (∀ v : Word64, ClientMay c 0x1802 0 0 (leBytes 8 v.toNat) 1 s → 3432537863 ≤ v.toNat → v.toNat ≤ 3439409811 →
        ClientWrites (.timeIncrementWrite c v) c 0x1802 0 0 (leBytes 8 v.toNat) s fun u =>
          u.set Obj.timeIncrement 0 v.toNat) ∧
      (∀ v : Word64, ClientMay c 0x1804 0 0 (leBytes 8 v.toNat) 1 s → v ≠ 0 →
        ((s.takenBy c.path).get Obj.stepLimitNs = 0 ∨ v.toInt.natAbs ≤ (s.takenBy c.path).get Obj.stepLimitNs) →
        ClientWrites (.timeStep c v) c 0x1804 0 0 (leBytes 8 v.toNat) s fun u =>
          u.withTime { u.time with waiting := u.time.waiting ++ [v.toInt] }) ∧
      (∀ v : Word64, ClientMay c 0x1805 0 0 (leBytes 8 v.toNat) 2 s →
        0 ≤ (s.takenBy c.path).nextTime + v.toInt * 2 ^ 32 →
        ClientWrites (.timeForcedStep c v) c 0x1805 0 0 (leBytes 8 v.toNat) s fun u =>
          u.withTime { u.time with jumps := u.time.jumps ++ [(2, v.toInt)] }) ∧
      (∀ v : BitVec 80, ClientMay c 0x1806 0 0 (leBytes 10 v.toNat) 2 s → v.toNat % 2 ^ 32 < 1000000000 →
        ClientWrites (.timeSet c v) c 0x1806 0 0 (leBytes 10 v.toNat) s fun u =>
          u.withTime { u.time with jumps := u.time.jumps ++ [(3, (nsOfTime80 v.toNat : Int))] }) ∧
      (s.time.holding = true → s.time.hold = 0 →
        exec .timeHoldEnd s = .next (s.withTime { s.time with holding := false }))) ∧
  (∀ s : State, s.time.jumps = [] → s.time.waiting = [] → s.time.holding = false → s.time.hold = 0 →
      s.nightWatch = false →
      (timeTick s).time = { s.time with ticks := s.time.ticks + 1, now := s.time.now + s.tickAmount, watch := 0 } ∧
      (timeTick s).dict = s.dict ∧ (timeTick s).events = s.events)

/-- The PTP engine: an Announce sets the port's state, a Sync on the source port moves the servo, a delay measurement
joins the filter, a due message is sent, and a suspension ends after SETTLE_S (R422 to R424). Trigger edges start
their pulse and form the next edge, pulses end in time, and a captured edge joins its FIFO until a read takes it out,
oldest first (R427 to R430). Readings of the model's own that it rests on: log entry 55. -/
def Obligations.PtpEngineTriggersAndCaptures : Prop :=
  (∀ (port : FrontPort) (s : State), s.nightWatch = false → s.ptpRuns port.val = true →
      (∀ (st : BitVec 4) (d : BitVec 8), d.toNat = s.get Obj.ptpDomain → s.get Obj.timeSourceSuspended port.val = 0 →
        exec (.ptpMessageRx port (.announce d st)) s = .next (s.set Obj.ptpPortState port.val st.toNat)) ∧
      (∀ (d : BitVec 8) (offset : Int) inc, d.toNat = s.get Obj.ptpDomain → s.get Obj.timeState = 2 →
        s.get Obj.timeSourceSuspended port.val ≠ 1 → s.get Obj.ptpPortState port.val = 9 →
        offset.natAbs ≤ s.get Obj.stepLimitNs →
        exec (.ptpMessageRx port (.sync d offset inc)) s =
          .next (servoWrite inc.toNat (s.set Obj.offsetFromSourceNs 0 (ofSigned 64 offset)))) ∧
      (∀ (d : BitVec 8) (mean : Int) delays, d.toNat = s.get Obj.ptpDomain → (s.ptpPort port.val).suspendedAt = none →
        (s.get Obj.delayStepNs = 0 ∨ (s.ptpPort port.val).delays = []) →
        delays = (mean :: (s.ptpPort port.val).delays).take 8 →
        exec (.ptpMessageRx port (.delay d mean)) s = .next
          ((setPtpPort port.val { s.ptpPort port.val with delays := delays } s).set Obj.meanPathDelayNs port.val
            (ofSigned 64 (meanOf delays)))) ∧
      (∀ n t, s.linkState port.val = 2 → s.ptpDue port.val 0 = false → s.ptpDue port.val 1 = true →
        (s.ptpPort port.val).sent.find 1 = some (n, t) →
        exec (.ptpMessageTx port) s = .next ((setPtpPort port.val { s.ptpPort port.val with
          sent := (s.ptpPort port.val).sent.put 1 (n + 1, s.time.ticks),
          origin := some (s.now80, s.time.now % 2 ^ 32 / 2 ^ 16) } s).bump Obj.oneStepInserted port.val)) ∧
      (∀ t, (s.ptpPort port.val).suspendedAt = some t → t + s.get Obj.settleS * 1000000000 ≤ s.nowNs →
        exec (.timeSourceResumed port) s = .next (endSuspension port.val s))) ∧
  (∀ (n : Fin 4) (s : State),
      (∀ t, (s.trigger n.val).next = some t → t ≤ s.nowNs → s.get Obj.ttMode n.val ≠ 0 → (s.trigger n.val).late = false →
        exec (.triggerEdge n) s = .next ((setTrigger n.val { s.trigger n.val with
          next := s.edgeAfter n.val t, late := false,
          pulseEnd := some (s.time.ticks + ticksOfNs (s.get Obj.ttWidthNs n.val), s.get Obj.ttActiveLow n.val == 1) } s).bump
            Obj.ttEdges n.val)) ∧
      (∀ t low, (s.trigger n.val).pulseEnd = some (t, low) → t ≤ s.time.ticks →
        exec (.triggerPulseEnd n) s = .next (setTrigger n.val { s.trigger n.val with pulseEnd := none } s)) ∧
      (∀ falling x e, x = s.captureFifo n.val → bitOf (s.get Obj.tcEdge n.val) (bit01 falling) = true →
        x.entries.length < 16 → e = s.captureNow x falling →
        exec (.captureEdge n falling) s = .next (raise Ev.timeCaptured n.val (bit01 falling)
          (e.time / 2 ^ 32 % 2 ^ 32 * 2 ^ 32 + e.time % 2 ^ 32)
          ((setCapture n.val { x with entries := x.entries ++ [e], lost := false, stepsAt := s.time.steps } s).bump
            Obj.captures n.val))) ∧
      (∀ (c : Client) e rest u, u = s.takenBy c.path → Turn c.path (readReq c.tag 0x1851 0 n.val) s →
        (u.captureFifo n.val).entries = e :: rest →
        exec (.captureRead c n) s = .next (answer c.path (respond (readReq c.tag 0x1851 0 n.val) St.ok (captureBytes e))
          (setCapture n.val { u.captureFifo n.val with entries := rest, overflowed := false } u))))

/-- Hellos are sent on time and taken from neighbours: the first makes the neighbour known, one that names this port
brings the adjacency up, and a silent neighbour's adjacency ends (R447, R448). Claims and defences are re-sent on the
other adjacencies and reject the candidate they contest, and a claim that nobody rejected assigns the ID (R450).
Readings of the model's own that it rests on: log entry 57. -/
def Obligations.AdjacenciesAndClaims : Prop :=
  (∀ (port : FrontPort) (s : State),
      (∀ t bs, s.ferryUp port.val = true → s.fabric.hellos.find port.val = some (t, bs) →
        s.elapsed t (s.get Obj.helloIntervalMs * 1000000) = true →
        ∃ msg, msg = s.ownCtrl 1 (s.helloBody port.val) ∧
          exec (.helloTx port) s = .next (noteBytes port.val 1 (msg.length + 4) (s.withFabric { s.fabric with
            hellos := s.fabric.hellos.put port.val (s.time.ticks, msg) }))) ∧
      (∀ frame c, parseCtrl frame = some c → s.ferryUp port.val = true → c.kind = 1 → s.ctrlGood c = true →
        c.body.length = 32 → s.get Obj.adjState port.val ≠ 2 →
        (bitOf (byteAt c.body 3) 7 = false → Completes (.helloRx port frame) s fun t =>
          t.get Obj.adjState port.val = 1 ∧ t.get Obj.neighborId port.val = 2 ^ 16 + c.src ∧
          (∃ a, t.adjacency port.val = some a ∧ a.peer = c.src ∧ a.peerPort = beAt c.body 0 2 ∧
            a.lastHello = s.time.ticks ∧ a.peerTx = beAt c.body 8 10 ∧ a.peerRx = s.now80) ∧
          (∀ q, q ≠ port.val → t.adjacency q = s.adjacency q)) ∧
        (bitOf (byteAt c.body 3) 7 = true → beAt c.body 4 2 = s.deviceId → beAt c.body 6 2 = port.val →
          ∃ u, exec (.helloRx port frame) s = .next (raise Ev.neighborUp port.val c.src (beAt c.body 0 2) u) ∧
            u.get Obj.adjState port.val = 2 ∧ u.get Obj.neighborId port.val = 2 ^ 16 + c.src ∧
            u.fabric.lsaDue.isSome = true)) ∧
      (∀ a, s.adjacency port.val = some a → s.get Obj.adjState port.val = 2 →
        s.elapsed a.lastHello (s.get Obj.helloDeadCount * s.get Obj.helloIntervalMs * 1000000) = true →
        ∃ u, exec (.adjDead port) s =
            .next (raise Ev.neighborDown port.val (s.get Obj.neighborId port.val % 65536) 1 u) ∧
          u.adjacency port.val = none ∧ u.get Obj.adjState port.val = 0 ∧ u.get Obj.neighborId port.val = 0 ∧
          u.fabric.lsaDue = some s.time.ticks)) ∧
  (∀ (port : FrontPort) (frame : List Byte) (c : Ctrl) (s r : State), parseCtrl frame = some c →
      s.ferryUp port.val = true → s.ctrlGood c = true → s.anyPilot = true → c.body.length = 18 →
      beAt c.body 2 16 ≠ ownSerial → r = noteBytes port.val 0 (frame.length + 4) s →
      (c.kind = 3 → exec (.claimRx port frame) s = .next (
        let u := flood 3 c.body (some port.val) r
        let v := if beAt c.body 0 2 = u.deviceId then flood 4 (claimBody (beAt c.body 0 2)) none u else u
        if beAt c.body 2 16 < ownSerial then rejectClaim (beAt c.body 0 2) v else v)) ∧
      (c.kind = 4 → exec (.defendRx port frame) s =
        .next (rejectClaim (beAt c.body 0 2) (flood 4 c.body (some port.val) r)))) ∧
  (∀ s : State, s.anyPilot = true →
      (∀ id t n, s.fabric.claim = some (id, t, false, n) → s.elapsed t (s.get Obj.claimWaitMs * 1000000) = true →
        exec .claimWaitEnd s = .next (raise Ev.deviceIdAssigned 0 id n
          (setActiveId id (s.withFabric { s.fabric with claim := none })))) ∧
      (∀ id t n, s.fabric.claim = some (id, t, true, n) → s.elapsed t (s.get Obj.claimWaitMs * 1000000) = true →
        exec .claimWaitEnd s = .next (claimCandidate (s.nextCandidate id) (n + 1) s)))

/-- The link-state database: a newer advertisement is stored and re-sent, the device's own is originated when due, an
old one ages out, and routes are computed after the database has settled (R451 to R453). Readings of the model's own
that it rests on: log entry 57. -/
def Obligations.LinkStateDatabaseFollowsAdvertisements : Prop :=
  ∀ (s : State), s.anyPilot = true →
    (∀ (port : FrontPort) frame c, parseCtrl frame = some c → s.ferryUp port.val = true → s.ctrlGood c = true →
      c.kind = 2 → beAt c.body 22 2 ≠ 0xFFFF → 24 + 4 * beAt c.body 22 2 ≤ c.body.length →
      beAt c.body 0 2 ≠ s.deviceId → s.fabric.lsdb.find (beAt c.body 0 2) = none →
      Completes (.lsaRx port frame) s fun t =>
        (∃ x, t.fabric.lsdb.find (beAt c.body 0 2) = some x ∧ x.serial = beAt c.body 2 16 ∧ x.seq = beAt c.body 18 4 ∧
          x.links = lsaLinks c.body (beAt c.body 22 2) ∧ x.refreshed = s.time.ticks) ∧
        (∀ o, o ≠ beAt c.body 0 2 → t.fabric.lsdb.find o = s.fabric.lsdb.find o) ∧
        t.fabric.changedAt = some s.time.ticks ∧ t = { s with fabric := t.fabric, count := t.count }) ∧
    (s.fabric.lsaDue.isSome = true → s.get Obj.fabricState ≠ 3 → Completes .lsaOriginate s fun t =>
      t.fabric.lsaDue = none ∧ t.fabric.lsaAt = some s.time.ticks ∧ t.fabric.lsaSeq = (s.fabric.lsaSeq + 1) % 2 ^ 32 ∧
      (∃ x, t.fabric.lsdb.find s.deviceId = some x ∧ x.serial = ownSerial ∧ x.seq = (s.fabric.lsaSeq + 1) % 2 ^ 32 ∧
        x.links = s.ownLinks) ∧
      (∀ o, o ≠ s.deviceId → t.fabric.lsdb.find o = s.fabric.lsdb.find o) ∧
      t = { s with fabric := t.fabric, count := t.count }) ∧
    (∀ (origin : BitVec 16) x, s.fabric.lsdb.find origin.toNat = some x → s.elapsed x.refreshed 180000000000 = true →
      Completes (.lsaAgeOut origin) s fun t => t.fabric.lsdb.find origin.toNat = none ∧
        (∀ o, o ≠ origin.toNat → t.fabric.lsdb.find o = s.fabric.lsdb.find o) ∧
        t.fabric.changedAt = some s.time.ticks ∧ t = { s with fabric := t.fabric }) ∧
    (∀ t, s.fabric.changedAt = some t → s.elapsed t 10000000 = true → s.fabric.computedAt = none →
      exec .routeCompute s = .next (computeRoutes (s.withFabric
        { s.fabric with changedAt := none, computedAt := some s.time.ticks })))

/-- ACP: an authentic request of a new or later number waits for a Pilot, one that nobody takes is answered BUSY, a
proxy slot sends its request and takes the response or times out, and a grace period ends (R455 to R459). Readings of
the model's own that it rests on: log entry 58. -/
def Obligations.AcpRequestsWaitAndAreAnswered : Prop :=
  ∀ (s : State),
    (∀ (port : FrontPort) frame c q key old, parseCtrl frame = some c → c.kind = 5 → s.linkState port.val = 2 →
      s.ferry port.val = true → c.dst = s.deviceId → s.get Obj.fabricState ≠ 3 → s.authKey c = some (key, old) →
      s.inWindow c.ms = true → parseRequest c.body = some q → s.fabric.sessions = [] → s.fabric.acp = [] →
      Completes (.acpRequest port frame) s fun t =>
        (∃ a, t.fabric.acp = [a] ∧ a.device = c.src ∧ a.keySlot = c.slot ∧ a.seq = c.seq ∧ a.request = q ∧
          a.since = s.time.ticks ∧ a.taken = none ∧ a.edge = none ∧ a.key = key) ∧
        t.fabric.sessions = [(acpSession c.src c.slot, c.seq, s.time.ticks)] ∧
        t.get Obj.acpRequests = (s.get Obj.acpRequests + 1) % 2 ^ 64) ∧
    (∀ a, s.fabric.acp = [a] → a.taken = none → s.elapsed a.since 1000000 = true →
      exec (.acpUnserved 0) s =
        .next (sendAcpAnswer a (respond a.request St.busy) (s.withFabric { s.fabric with acp := [] }))) ∧
    (∀ (c : Client) (j : Fin 64) value u, u = s.takenBy c.path → Turn c.path (segReq c.tag 0x6870 0 j.val value) s →
      2 ≤ u.levelOf c.path 0x6870 true → (9 ≤ u.get Obj.bootStage ∨ c.path = .boot) →
      u.get Obj.acpProxyState j.val ≠ 1 → u.partial_ c.path (addrKey 0x6870 0 j.val) = [] → 24 ≤ value.length →
      value.length ≤ 240 → leAt value 2 2 ≤ 255 →
      ∃ v, (∃ x, v.fabric.proxies.find j.val = some x ∧ x.device = leAt value 0 2 ∧ x.keySlot = leAt value 2 2) ∧
        v.get Obj.acpProxyState j.val = 1 ∧ exec (.acpProxyRequest c j value) s =
          .next (answer c.path (respond (segReq c.tag 0x6870 0 j.val value) St.ok) v)) ∧
    (∀ (port : FrontPort) frame c j x, parseCtrl frame = some c → c.kind = 6 → s.ferryUp port.val = true →
      c.dst = s.deviceId → s.fabric.proxies = [(j, x)] → x.device = c.src → x.seq = c.seq → x.keySlot = c.slot →
      c.mac = ctrlMac x.key c.msg →
      exec (.acpResponse port frame) s = .next ((((noteBytes port.val 0 (frame.length + 4) s).setDom Obj.acpProxyResponse j
        c.body).withFabric { s.fabric with proxies := [] }).set Obj.acpProxyState j 2)) ∧
    (∀ (j : Fin 64) x, s.fabric.proxies.find j.val = some x → x.deadline ≤ s.time.ticks →
      exec (.acpProxyTimeout j) s = .next ((s.withFabric
        { s.fabric with proxies := s.fabric.proxies.del j.val }).set Obj.acpProxyState j.val 3)) ∧
    (∀ (slot : Fin 256) g, s.fabric.grace.find slot.val = some g →
      s.elapsed g.2.2 (s.get Obj.acpKeyGraceS * 1000000000) = true →
      exec (.acpKeyGraceEnd slot) s =
        .next (s.withFabric { s.fabric with grace := s.fabric.grace.del slot.val }))

/-- The sleep states: an idle device dozes or begins to moor, each entry step takes effect as it completes, a wake
event starts the wake, and its last step returns the device to AWAKE (R468 to R473). A device whose wake ends is
AWAKE, with LAST_WAKE_NS the time since the wake began, and the landed frames leave the landing buffer in order (R472,
R477). Readings of the model's own that it rests on: log entries 59, 72. -/
def Obligations.SleepStatesFollowTheirSteps : Prop :=
  (∀ (s : State),
      (s.awake = true → s.get Obj.dozeEnable = 1 → s.idleNow = true →
        s.elapsed s.sleep.idleFrom (s.get Obj.dozeIdleNs) = true → ∃ u, exec .dozeEnter s = .next (raise Ev.sleepEntered 0 1 0 u) ∧
          u.get Obj.sleepState = 1 ∧ u.get Obj.dozeEntries = (s.get Obj.dozeEntries + 1) % 2 ^ 64 ∧
          (∀ g ∈ gangwaysBelow 64, s.get Obj.gangwayState g = 0 → u.get Obj.gangwayState g = 1) ∧
          u.sleep = { s.sleep with since := s.time.ticks, asleepAt := s.time.ticks } ∧ u.frames = s.frames) ∧
      (s.get Obj.sleepState = 0 → s.get Obj.moorEnable = 1 → s.idleNow = true → s.moorDefer = 0 →
        s.elapsed s.sleep.idleFrom (s.get Obj.moorIdleNs) = true →
        exec .moorEnter s = .next ((s.set Obj.sleepState 0 3).withSleep
          { s.sleep with entryStep := 1, entryAt := s.time.ticks, asleepAt := s.time.ticks })) ∧
      (∀ k, s.get Obj.sleepState = 3 → s.sleep.entryStep = k → 1 ≤ k → k ≤ 8 → (k = 5 → s.fifosEmpty = true) →
        exec .moorEntryStepDone s = .next (if k = 8 then enterMoor s
          else (entryEffect k s).withSleep { (entryEffect k s).sleep with entryStep := k + 1 })) ∧
      (∀ cause : WakeCause, cause ≠ .policy →
        (s.get Obj.sleepState = 2 → exec (.wake cause) s =
          .next (startWake 1 (wakeCode cause) (s.add Obj.moorNs 0 (s.sinceNs s.sleep.since)))) ∧
        (s.get Obj.sleepState = 1 → exec (.wake cause) s =
          .next (startWake 8 (wakeCode cause) (s.add Obj.dozeNs 0 (s.sinceNs s.sleep.since)))) ∧
        (s.get Obj.sleepState = 3 → exec (.wake cause) s = .next (abandonMoor (wakeCode cause) s))) ∧
      (∀ k, s.get Obj.sleepState = 4 → s.sleep.wakeStep = k → 1 ≤ k → k ≤ 9 →
        exec .wakeStepDone s = .next (if k = 7 then finishWake s
          else if k = 9 then finishWake ((gangwaysBelow 64).foldl unpark s)
          else (wakeEffect k s).withSleep { (wakeEffect k s).sleep with wakeStep := k + 1 }))) ∧
  (∀ (s : State), ∃ u, finishWake s = s.landedFrames.foldl (fun t f => leaveLanding f t)
        (raise Ev.woke 0 (s.get Obj.lastWakeCause) (s.sinceNs s.sleep.wakeAt) u) ∧
      u.get Obj.sleepState = 0 ∧ u.get Obj.lastWakeNs = capAt 0xFFFFFFFF (s.sinceNs s.sleep.wakeAt) ∧
      u.sleep = { s.sleep with wakeStep := 0, idleFrom := s.time.ticks } ∧ u.frames = s.frames)

/-- A lost or returned reference is recorded and reported; the landing buffer repeats its pause; gangways cross their
counts, are isolated on a timeout, and after the reset of a side run again (R465, R479, R482 to R485). Readings of the
model's own that it rests on: log entry 60. -/
def Obligations.ReferencesAndGangways : Prop :=
  ∀ (s : State),
    (∀ (bit : Fin 10), bitOf (s.get Obj.refclkPresent) bit.val = true → ∃ u,
      u = raise Ev.refclkLost 0 bit.val 0 (s.set Obj.refclkPresent 0 (clearBit (s.get Obj.refclkPresent) bit.val)) ∧
      exec (.refclkLost bit false) s = .next (loseRef bit.val u)) ∧
    (∀ (bit : Fin 10), bitOf (s.get Obj.refclkPresent) bit.val = false → bit.val ≠ 0 →
      exec (.refclkLost bit true) s = .next (raise Ev.refclkLost 0 bit.val 1
        (s.set Obj.refclkPresent 0 (setBit (s.get Obj.refclkPresent) bit.val)))) ∧
    (∀ (d : Deck) t, s.sleep.xoff.find d.val = some t → s.elapsed t (s.get Obj.pfcRefreshNs) = true →
      exec (.landingPfcRefresh d) s = .next (landingPfc d.val true
        (s.withSleep { s.sleep with xoff := s.sleep.xoff.put d.val s.time.ticks }))) ∧
    (∀ (g : Gangway) c, s.get Obj.gangwayState g.val = 0 → (s.gw g.val).crossing = some c →
      Completes (.gangwayEventAck g) s fun t =>
        (t.gw g.val).delivered = (s.gw g.val).delivered + c ∧ (t.gw g.val).count = 0 ∧
        (t.gw g.val).crossing = (if (s.gw g.val).count = 0 then none else some (s.gw g.val).count) ∧
        (∀ h, h ≠ g.val → t.gw h = s.gw h) ∧
        t = { s with sleep := { s.sleep with gangways := t.sleep.gangways } }) ∧
    (∀ (g : Gangway) (silent : Bool) (handshake : Fin 3), s.mayTimeOut g.val handshake.val = true →
      exec (.gangwayTimeout g silent handshake) s = .next (isolated g.val (raise Ev.gangwayTimeout g.val (bit01 silent)
        handshake.val ((s.set Obj.gangwayState g.val 4).bump Obj.gangwayTimeouts g.val)))) ∧
    (∀ (g : Gangway) (destination : Bool), gangwayExists g.val = true → s.get Obj.gangwayState g.val ≠ 2 →
      Completes (.gangwaySideReset g destination) s fun t => t.get Obj.gangwayState g.val = 2 ∧
        (t.gw g.val).fifo = 0 ∧ (t.gw g.val).count = 0 ∧ (t.gw g.val).crossing = none ∧
        (t.gw g.val).flushed = (s.gw g.val).fifo + (s.gw g.val).count + (s.gw g.val).crossing.getD 0 ∧
        (∀ h, h ≠ g.val → t.gw h = s.gw h)) ∧
    (∀ g : Gangway, s.get Obj.gangwayState g.val = 2 → (s.gw g.val).flushed = 0 →
      Completes (.gangwayResync g) s fun t => t.get Obj.gangwayState g.val = 0 ∧
        t.get Obj.resyncs g.val = (s.get Obj.resyncs g.val + 1) % 2 ^ 64 ∧ (t.gw g.val).flushed = 0)

/-- The emergency window opens only while no Pilot runs firmware or recovery is active, is closed again, and reads and
writes what its target names; closed, it reads all ones and ignores writes (R93, R516). BAR0 takes aligned 32-bit words
alone; BAR0_ID and MB_IGNORED are read, and a request area takes writes only while its slot is FREE (R93, R94): the row
carries these accesses by the model's choice, log entry 83. The flash engine: an aligned
command makes it BUSY, an erased sector reads 0xFF, a programmed page has bits cleared, every other byte of the flash
is as it was, and a failed operation changes none (R517, R577). -/
def Obligations.RawWindowAndFlashEngine : Prop :=
  (∀ (s : State),
      (∀ (value : Word32) (target page : Nat) u, target = value.toNat / 2 ^ 24 % 16 →
        page = (if target = 4 then value.toNat / 2 ^ 20 % 16 else 0) →
        u = s.withHost { s.host with rawTarget := target, rawPage := page,
                                     rawStatus := if s.anyPilot = false ∨ s.get Obj.bootSlot = 2 then 1 else 3 } →
        exec (.rawWindowOpen value) s = .next (if s.anyPilot = false ∨ s.get Obj.bootSlot = 2
          then raise Ev.rawWindowOpened 0 target page u else u)) ∧
      exec .rawWindowClose s = .next (s.withHost { s.host with rawStatus := 0 }) ∧
      (∀ (offset : BitVec 23) (bytes : Nat) (v : Word32), bytes ≠ 4 ∨ offset.toNat % 4 ≠ 0 →
        exec (.rawWindowAccess (.bar0 offset bytes) none) s =
          .next (s.withHost { s.host with readData := 0xFFFFFFFF }) ∧
        exec (.rawWindowAccess (.bar0 offset bytes) (some v)) s = .next s) ∧
      exec (.rawWindowAccess (.bar0 0 4) none) s = .next (s.withHost { s.host with readData := 0x64800001 }) ∧
      exec (.rawWindowAccess (.bar0 0x3008 4) none) s =
        .next (s.withHost { s.host with readData := BitVec.ofNat 32 s.host.ignored }) ∧
      (∀ (k : Fin 16) (offset : BitVec 23) (v : Word32) (i : Nat), i < 64 →
        offset.toNat = 0x1000 + 0x200 * k.val + 4 * i →
        ((s.slot k.val).state ≠ 0 → exec (.rawWindowAccess (.bar0 offset 4) (some v)) s = .next s) ∧
        ((s.slot k.val).state = 0 → Completes (.rawWindowAccess (.bar0 offset 4) (some v)) s fun t =>
          (∀ j, j < 4 → t.host.areas.getD (k.val * 256 + 4 * i + j) 0 = BitVec.ofNat 8 (v.toNat / 256 ^ j)) ∧
          (∀ b, b < k.val * 256 + 4 * i ∨ k.val * 256 + 4 * i + 4 ≤ b →
            t.host.areas.getD b 0 = s.host.areas.getD b 0) ∧
          t = { s with host := { s.host with areas := t.host.areas } })) ∧
      (∀ (offset : BitVec 23) (v : Word32) (a : Nat), offset.toNat = 0x400000 + a → a % 4 = 0 →
        (s.host.rawStatus ≠ 1 →
          exec (.rawWindowAccess (.bar0 offset 4) none) s = .next (s.withHost { s.host with readData := 0xFFFFFFFF }) ∧
          exec (.rawWindowAccess (.bar0 offset 4) (some v)) s = .next s) ∧
        (s.host.rawStatus = 1 → s.host.rawTarget < 4 →
          (∀ w, w = leNat ((List.range 4).map fun i => s.host.pilotMem.getD (s.host.rawTarget * 4194304 + a + i) 0) →
            exec (.rawWindowAccess (.bar0 offset 4) none) s =
              .next (s.withHost { s.host with readData := BitVec.ofNat 32 w })) ∧
          (s.get Obj.pilotState s.host.rawTarget = 2 → Completes (.rawWindowAccess (.bar0 offset 4) (some v)) s fun t =>
            (∀ i, i < 4 → t.host.pilotMem.getD (s.host.rawTarget * 4194304 + a + i) 0 =
              BitVec.ofNat 8 (v.toNat / 256 ^ i)) ∧
            (∀ b, b < s.host.rawTarget * 4194304 + a ∨ s.host.rawTarget * 4194304 + a + 4 ≤ b →
              t.host.pilotMem.getD b 0 = s.host.pilotMem.getD b 0) ∧
            t = { s with host := { s.host with pilotMem := t.host.pilotMem } })))) ∧
  (∀ (s : State) (f : FlashEngine), f = s.host.fe →
      (s.host.rawStatus = 1 → s.host.rawTarget = 5 → f.status ≠ 1 →
        (f.addr % 65536 = 0 → exec .feErase s =
          .next (s.withFe { f with status := 1, cmd := 1, waiting := !s.power.vddio })) ∧
        (f.addr % 256 = 0 → exec .feProgram s =
          .next (s.withFe { f with status := 1, cmd := 2, waiting := !s.power.vddio })) ∧
        (f.addr % 256 ≠ 0 → exec .feErase s = .next (s.withFe { f with status := 3 }) ∧
          exec .feProgram s = .next (s.withFe { f with status := 3 }))) ∧
      (f.status = 1 → f.waiting = false →
        exec (.feDone false) s = .next (s.withFe { f with status := 3 }) ∧
        (f.cmd = 1 → Completes (.feDone true) s fun t => t.host.fe = { f with status := 2 } ∧
          ∀ a, t.host.flash.getD a 0xFF = if f.addr ≤ a ∧ a < f.addr + 65536 then 0xFF else s.host.flash.getD a 0xFF) ∧
        (f.cmd = 2 → Completes (.feDone true) s fun t => t.host.fe = { f with status := 2 } ∧
          ∀ a, t.host.flash.getD a 0xFF = if f.addr ≤ a ∧ a < f.addr + 256
            then s.host.flash.getD a 0xFF &&& f.data.getD (a - f.addr) 0 else s.host.flash.getD a 0xFF)) ∧
      exec .vddioReturned s =
        .next { s.withFe { f with waiting := false } with power := { s.power with vddio := true } })

/-- Reset and start: boot start samples the straps and releases a device that is not strapped for test, a long
SYS_RESET resets the device but for its fuses, keel store and flash, and it is held until boot start (R489 to R491). A
power loss and a thermal shutdown switch the device off and reset it but for its fuses, keel store and flash; a rail
out of its limits is counted, reported and sets its cause once, and VDDIO below its limits is removed (R561, R565,
R570, R571, R577). Readings of the model's own that it rests on: log entries 68, 70. -/
def Obligations.DeviceResetsStartsAndShutsDown : Prop :=
  (∀ (s : State),
      (∀ straps : Byte, s.boot.held = true → straps.toNat < 64 → Completes (.bootStart straps) s fun t =>
        t.get Obj.straps = straps.toNat ∧ t.boot = { held := false } ∧ t.time = {} ∧ t.power.on = true ∧
        (∀ d : Deck, t.get Obj.pilotState d.val = 1) ∧ t.frames = s.frames) ∧
      (∀ straps : Byte, s.boot.held = true → 64 ≤ straps.toNat →
        ∃ level, level < 2 ∧ exec (.bootStart straps) s =
          .next (({ s with drawn := s.drawn + 1 }.set Obj.straps 0 straps.toNat).set Obj.vddioLevel 0 level)) ∧
      (∀ lowNs, 10000 ≤ lowNs → s.power.on = true → Completes (.sysReset lowNs) s fun t =>
        t.boot.held = true ∧ t.host.flash = s.host.flash ∧ t.frames = [] ∧ t.pending = s.pending ∧ t.links = [] ∧
        (∀ (o : ObjRow) sub inst, o.index < 65536 → sub < 256 → inst < 65536 → keptObject (addrKey o.index sub inst) = false →
          t.getS o sub inst = o.dflt sub inst))) ∧
  (∀ (s : State),
      (∀ cause, lossMet cause = true → Completes (.powerLoss cause) s fun t => t.power.on = false ∧ t.boot.held = true ∧
        t.host.flash = s.host.flash ∧ t.frames = [] ∧ t.links = [] ∧ t.pending = s.pending ∧
        (∀ (o : ObjRow) sub inst, o.index < 65536 → sub < 256 → inst < 65536 → keptObject (addrKey o.index sub inst) = false →
          t.getS o sub inst = o.dflt sub inst)) ∧
      Completes .thermalShutdown s (fun t => t.power.on = false ∧ t.boot.held = true ∧ t.power.thermTrip = true ∧
        t.power.shutdown = true ∧ t.host.flash = s.host.flash ∧ t.frames = [] ∧ t.pending = s.pending) ∧
      (∀ (r : Fin 6) mv u, r ≠ 0 → mv < 65536 → u = s.set (railObj r.val) 0 mv →
        ((s.railLimits r.val).1 ≤ mv → mv ≤ (s.railLimits r.val).2 → exec (.supplyOutOfRange r mv) s =
          .next (u.withPower { s.power with excursion := s.power.excursion.filter (· != r.val) })) ∧
        (r.val = 1 → mv < 1700 ∨ 1900 < mv → exec (.supplyOutOfRange r mv) s = .next u) ∧
        ((mv < (s.railLimits r.val).1 ∨ (s.railLimits r.val).2 < mv) → (r.val = 1 → 1700 ≤ mv ∧ mv ≤ 1900) →
          s.power.excursion.contains r.val = false → ∃ v,
          v = raise Ev.supplyOutOfRange 0 r.val mv (setPinCause 4 ((u.withPower
            { s.power with excursion := r.val :: s.power.excursion }).bump Obj.supplyFaults)) ∧
          exec (.supplyOutOfRange r mv) s = .next (if r.val = 5 ∧ mv < (s.railLimits 5).1
            then loseVddio v else v))))

/-- A start-up stage completes with its effect, BOOT_STAGE names the last one completed, and a configuration record is
submitted once the one before it is answered (R492, R499). The restart OPs close the window and restart the Pilots;
WARM keeps every active value, COLD gives every object its default, and COLD_CONFIG then has the configuration section
applied (R516, R518). Readings of the model's own that it rests on: log entries 42, 68. -/
def Obligations.BootStagesAndRestarts : Prop :=
  (∀ (s : State), s.boot.held = false → s.boot.recovery = false →
      (∀ found : BootFinding, ∃ u, exec (.bootStageDone found) s = .next u ∧
        (s.boot.stage = 1 → u.get Obj.bootStage = 1 ∧ u.boot.stage = 2 ∧
          u.host.linkUp = (s.host.linkUp || s.pcieMayTrain) ∧ u.frames = s.frames) ∧
        (s.boot.stage = 4 → found.badKeel = [] → u = (s.set Obj.bootStage 0 4).withBoot { s.boot with stage := 5 }) ∧
        (s.boot.stage = 6 → found.badDirections = [] → u = (s.set Obj.bootStage 0 6).withBoot { s.boot with stage := 7 }) ∧
        (s.boot.stage = 8 → s.configDone = true →
          u.get Obj.bootStage = 8 ∧ u.boot.stage = 9 ∧ u.frames = s.frames) ∧
        (s.boot.stage = 9 → ∃ v, u = (raise Ev.bootComplete 0 (s.get Obj.bootSlot) (s.sinceNs s.boot.startAt) v).withEvents
            { (raise Ev.bootComplete 0 (s.get Obj.bootSlot) (s.sinceNs s.boot.startAt) v).events with storing := false } ∧
          v.get Obj.bootStage = 9 ∧ v.get Obj.bootTimeNs = s.sinceNs s.boot.startAt ∧ v.frames = s.frames)) ∧
      (∀ q rest, s.boot.config = q :: rest → s.boot.answer.isSome = true → s.anyPilot = true → q.opcode = 2 →
        ∃ v, v = carryOut .boot q { s with boot := { s.boot with
            config := rest, configIndex := s.boot.configIndex + 1, answer := none } } ∧
          exec .configRecord s = .next (if v.configDone = true then endConfig v else v))) ∧
  (∀ (s u : State) (b : Option (List Byte)), s.boot.held = false → restartPilots s = (u, b) →
      exec .restartWarm s = .next u ∧
      (s.boot.recovery = false → exec .restartCold s = .next (coldDefaults u)) ∧
      (s.boot.recovery = false → exec .restartColdConfig s = .next (match b with
        | some image => loadConfig image (coldDefaults u)
        | none => coldDefaults u)) ∧
      (s.boot.recovery = true → u = (rawClose s).withBoot { s.boot with recovery := false, flashForced := true } ∧
        exec .restartCold s = .next u ∧ exec .restartColdConfig s = .next u))

/-- A calibration value and an advance of the rollback counter are accepted with their response to come, and take
effect when stored: VALUE, WRITES and ORIGIN change, and the client is answered OK (R498, R502). Readings of the
model's own that it rests on: log entries 62, 69. -/
def Obligations.KeelAndRollbackAreStored : Prop :=
  ∀ (s : State),
    (∀ (c : Client) (index inst : BitVec 16) (v : Word32) val writes origin u, u = s.takenBy c.path →
      keelRow index.toNat = some (val, writes, origin) → val.kind.has inst.toNat = true → v.toNat < 256 ^ val.ty.size →
      ClientMay c index.toNat 1 inst.toNat (leBytes val.ty.size v.toNat) val.level s → u.boot.keel = none →
      u.boot.keelQueue = [] → u.writeCheck c.path val 1 inst.toNat v.toNat = St.ok →
      exec (.keelWrite c index inst v) s = .next (u.withBoot { u.boot with keel := some (KeelJob.mk (some c.path) c.tag
        (addrKey index.toNat 1 inst.toNat) v.toNat (u.get val inst.toNat)) })) ∧
    (∀ (j : KeelJob) (index inst : Nat) val writes origin, s.boot.keel = some j → j.key = addrKey index 1 inst →
      inst < 65536 → keelRow index = some (val, writes, origin) → ∃ u,
      exec .keelWritten s = .next (answerOpt j.path (lateResponse j.tag j.key) (raise Ev.keelWritten inst index j.value u)) ∧
      u.get val inst = j.value ∧ u.get writes inst = (s.get writes inst + 1) % 2 ^ (8 * writes.ty.size) ∧
      u.get origin inst = 0 ∧ u.boot.keel = s.boot.keelQueue.head? ∧ u.boot.keelQueue = s.boot.keelQueue.drop 1) ∧
    (∀ (c : Client) (v : Byte) u, u = s.takenBy c.path → ClientMay c 0x9012 0 0 [v] 2 s → u.rollback < v.toNat →
      v.toNat ≤ 64 → v.toNat ≤ u.runningSecurity → u.slotBelow 0 v.toNat = false → u.slotBelow 1 v.toNat = false →
      u.boot.rollback = none →
      exec (.rollbackAdvance c v) s = .next (u.withBoot { u.boot with rollback := some (KeelJob.mk (some c.path) c.tag
        (addrKey 0x9012 0 0) v.toNat u.rollback) })) ∧
    (∀ j, s.boot.rollback = some j → exec .rollbackAdvanced s = .next (answerOpt j.path (lateResponse j.tag j.key)
      (raise Ev.rollbackAdvanced 0 j.old j.value
        ((s.withBoot { s.boot with rollback := none }).set Obj.rollbackCounter 0 j.value))))

/-- A RUNNING Pilot's heartbeat renews its two timers; a Pilot that meets a cause is held, counted and reported, its
deck is adopted by the first RUNNING one after it, it boots from its copy 10 µs later, and RUNNING again it has its
deck back and its timers begun (R510, R512, R513). Readings of the model's own that it rests on: log entry 61. -/
def Obligations.FailedPilotsAreReplacedAndRestarted : Prop :=
  ∀ (d : Deck) (x : Pilot) (s : State), x = s.pilot d.val →
    (s.pilotUp d.val = true → Completes (.heartbeat d) s fun t =>
      t.pilot d.val = { x with heartbeatAt := s.time.ticks, kickedAt := s.time.ticks } ∧
      (∀ k, k ≠ d.val → t.pilot k = s.pilot k) ∧ t = { s with avail := { s.avail with pilots := t.avail.pilots } }) ∧
    (∀ cause early u, s.pilotUp d.val = true → s.failMet d.val cause = true →
      early = (s.get Obj.fwUpdateState == 2 && x.current && !s.elapsed x.upAt 10000000000) →
      u = declarePilot d.val (failCode cause) s →
      (s.parse.jobs = [] → s.fabric.proxies = [] → u.get Obj.pilotState d.val = 1 ∧
        u.get Obj.pilotRestarts d.val = (s.get Obj.pilotRestarts d.val + 1) % 2 ^ 64) ∧
      exec (.pilotFailed d cause) s = .next (if early then reverseUpdate 8 d.val u else updateStep u)) ∧
    (∀ a, s.pilotUp d.val = false → s.adopter d.val = some a → Completes (.deckAdopt d) s fun t =>
      (∀ k, k < 4 → t.get Obj.servingPilot k =
        if s.get Obj.servingPilot k = d.val then a else s.get Obj.servingPilot k) ∧
      t = { s with dict := { s.dict with active := t.dict.active } }) ∧
    (s.get Obj.pilotState d.val = 1 → x.booting = none → s.elapsed x.declaredAt 10000 = true →
      (s.overLimit d.val = true → exec (.pilotRelease d) s = .next
        (raise Ev.pilotHeldDown d.val (s.recent x.declared).length 0 (s.set Obj.pilotState d.val 2))) ∧
      (∀ b previous, s.overLimit d.val = false → s.copies d.val = (some { bytes := b }, previous) →
        Completes (.pilotRelease d) s fun t => imageCheck false s.rollback b = 0 →
          t.pilot d.val = { x with booting := some (imageVersion b, true) } ∧
          (∀ k, k ≠ d.val → t.pilot k = s.pilot k) ∧ t = { s with avail := { s.avail with pilots := t.avail.pilots } })) ∧
    (∀ version current y u, s.get Obj.pilotState d.val = 1 → x.booting = some (version, current) →
      y = Pilot.mk s.time.ticks s.time.ticks x.declared x.declaredAt false none version current s.time.ticks →
      u = (setPilot d.val y (s.set Obj.pilotState d.val 0)).set Obj.servingPilot d.val d.val →
      exec (.pilotRestarted d) s = .next (updateStep (keepLeader (raise Ev.pilotRestarted d.val version
        (s.sinceNs x.declaredAt) (rawClose (u.withAvail { u.avail with allDownSaid := false })))))) ∧
    (s.anyPilot = false → s.avail.allDownSaid = false → 3 < s.boot.stage → exec .allPilotsDown s = .next
      (signalVector 63 (raise Ev.allPilotsDown 0 0 0
        (setPinCause 1 (s.withAvail { s.avail with allDownSaid := true })))))

/-- PILOT_RESTART holds a RUNNING Pilot or releases a HELD_DOWN one; DECK_RETIRE loses its deck while another is in
service; FW_LOAD begins an update, FW_UPDATE_ABORT reverses one that rolls (R513, R519, R521, R527). A live update: an
image that passes its checks becomes the current copy of every stack and the Pilots are restarted in turn, one that
fails is refused; the chosen flash slot is written and the update is done; a restart that takes longer than 250 ms
reverses it (R519 to R521). Readings of the model's own that it rests on: log entry 62. -/
def Obligations.FirmwareIsManagedAndUpdated : Prop :=
  (∀ (c : Client) (s : State),
      (∀ d : Deck, ClientMay c 0x8004 0 d.val [1] 2 s → (s.takenBy c.path).get Obj.pilotState d.val = 2 →
        ClientWrites (.pilotRestart c d 1) c 0x8004 0 d.val [1] s fun u => setPilot d.val
          { u.pilot d.val with onPurpose := true, declaredAt := u.time.ticks, booting := none }
          (u.set Obj.pilotState d.val 1)) ∧
      (∀ d : Deck, ClientMay c 0x8004 0 d.val [1] 2 s → (s.takenBy c.path).get Obj.pilotState d.val = 0 →
        ClientWrites (.pilotRestart c d 1) c 0x8004 0 d.val [1] s (holdPilot d.val true)) ∧
      (∀ d e : Deck, ClientMay c 0x8023 0 d.val [1] 2 s → e ≠ d → (s.takenBy c.path).deckUp e.val = true →
        ClientWrites (.deckRetire c d 1) c 0x8023 0 d.val [1] s (loseDeck d.val 5)) ∧
      (∀ range : Word64, ClientMay c 0x8010 0 0 (leBytes 8 range.toNat) 2 s →
        (∀ u, u = s.takenBy c.path → u.get Obj.fwUpdateState = 0 ∧ (∀ d : Deck, u.get Obj.pilotState d.val ≠ 2) ∧
          u.rangeOk range.toNat = true ∧ range.toNat % 2 ^ 32 = imageLength (u.rangeBytes range.toNat)) →
        ClientWrites (.fwLoad c range) c 0x8010 0 0 (leBytes 8 range.toNat) s fun u =>
          ((quayAsk .dma false (range.toNat / 2 ^ 32 % 65536 * 4096) (range.toNat % 2 ^ 32) u).set Obj.fwUpdateState 0
            1).withAvail { u.avail with fw := (range.toNat, u.time.ticks) }) ∧
      (ClientMay c 0x8014 0 0 [1] 2 s →
        ((s.takenBy c.path).get Obj.fwUpdateState = 1 →
          ClientWrites (.fwUpdateAbort c 1) c 0x8014 0 0 [1] s fun u =>
            raise Ev.fwUpdateFailed 0 0 0xFF (passBack u.avail.fw.1 (u.set Obj.fwUpdateState 0 0))) ∧
        ((s.takenBy c.path).get Obj.fwUpdateState = 2 →
          ClientWrites (.fwUpdateAbort c 1) c 0x8014 0 0 [1] s (reverseUpdate 0 0xFF)))) ∧
  (∀ (s : State),
      (∀ v b, s.get Obj.fwUpdateState = 1 → s.anyPilot = true → v = s.avail.fw.1 → b = s.rangeBytes v →
        (∀ check, check = imageCheck false s.rollback b → exec .fwCheckDone s = .next (if check ≠ 0 then
            raise Ev.fwUpdateFailed 0 check 0xFF (passBack v (s.set Obj.fwUpdateState 0 0))
          else updateStep ((List.range 4).foldl (fun (u : State) (d : Nat) => setPilot d { u.pilot d with current := false } u)
            (passBack v (newCopies b (s.set Obj.fwUpdateState 0 2))))))) ∧
      (s.get Obj.fwUpdateState = 3 → s.power.vddio = true → s.anyPilot = true → ∃ u, exec .fwFlashDone s = .next (updateDone u) ∧
        u = s.withHost { s.host with flash := u.host.flash } ∧
        ∀ a, u.host.flash.getD a 0xFF =
          if slotBase (s.avail.fwSlot - 1) ≤ a ∧ a < slotBase (s.avail.fwSlot - 1) + s.currentCopy.length
          then s.currentCopy.getD (a - slotBase (s.avail.fwSlot - 1)) 0xFF else s.host.flash.getD a 0xFF) ∧
      (∀ d : Deck, s.get Obj.fwUpdateState = 2 → s.get Obj.pilotState d.val = 1 →
        s.elapsed (s.pilot d.val).declaredAt 250000000 = true →
        exec (.fwRestartTimeout d) s = .next (reverseUpdate 8 d.val s)))

/-- On-die errors are counted on their deck, reported, and an uncorrectable one is handled by its array; a listed
poisoned burst is written by the SCRUB requester, repaired and reported (R523, R524). Readings of the model's own that it rests on: log entries 64,
65. -/
def Obligations.MemoryErrorsAreHandled : Prop :=
  ∀ (s : State),
    (∀ (p : Pipe) (a : SramArray), s.deckUp (deckOfPipe p.val) = true → ∃ x y u, u = { s with drawn := s.drawn + 2 } ∧
      exec (.sramScrub p a .corrected) s = .next (sramFound p.val a (raise Ev.sramCorrected (deckOfPipe p.val) x y
        (u.bump Obj.sramCorrected (deckOfPipe p.val)))) ∧
      exec (.sramScrub p a .uncorrectable) s = .next (sramLost p.val a (raise Ev.sramUncorrected (deckOfPipe p.val) x y
        (u.bump Obj.sramUncorrected (deckOfPipe p.val))))) ∧
    (∀ (d : Deck) b rest, s.deckUp d.val = true → s.pilotUp (s.get Obj.servingPilot d.val) = true →
      s.hbm.poison.getD d.val [] = b :: rest → s.repairable d.val (b / 2 ^ 27) (b % 2 ^ 27 * 64) = true →
      ∃ x lost u, repairBurst d.val (b / 2 ^ 27) (b % 2 ^ 27 * 64) (wantBurst .scrub true (2 * d.val + b / 2 ^ 27)
          (b % 2 ^ 27 * 64) { s with drawn := s.drawn + 1 }) = (lost, u) ∧
        exec (.poisonRepair d) s = .next (raise Ev.poisonRepaired d.val x (lost * 2 ^ 32 + b) u))

/-- A direction with a cause stops and is retrained; it comes UP from slot 0 when training succeeds, is FAILED after
three failed trainings, and is retried every 10 s (R525). A PLL that unlocks is reported once, relocks, and one of a
core or an HBM PHY that does not in 100 µs loses its deck (R526, R527). Readings of the model's own that it rests on:
log entry 63. -/
def Obligations.DirectionsAndPllsRecoverOrFail : Prop :=
  (∀ (k : Direction) (x : Link) (s : State), x = s.dir k.val →
      (∀ cause, s.get Obj.directionState k.val = 0 → s.stopCause k.val = some cause →
        exec (.directionRetrain k) s = .next (deliver x.ctrl ((s.setDir k.val { x with
          cause := cause, ctrl := [], trainFails := 0, slot := 0, base := 0, fails := 0 }).set Obj.directionState k.val 1))) ∧
      (s.get Obj.directionState k.val = 1 →
        Completes (.directionRetrainDone k true) s (fun t => t.get Obj.directionState k.val = 0 ∧ (t.dir k.val).slot = 0 ∧
          (t.dir k.val).fails = 0 ∧ t.frames = s.frames ∧ ∀ j, j ≠ k.val → t.dir j = s.dir j) ∧
        (x.trainFails + 1 < 3 → exec (.directionRetrainDone k false) s =
          .next (s.setDir k.val { x with trainFails := x.trainFails + 1 })) ∧
        (3 ≤ x.trainFails + 1 → s.get Obj.directionFailAction = 0 → ∃ u,
          exec (.directionRetrainDone k false) s =
            .next (discardWaiting k.val (raise Ev.directionFailed k.val x.cause 3 u)) ∧
          u.get Obj.directionState k.val = 2 ∧ (u.dir k.val).failedAt = s.time.ticks ∧ u.frames = s.frames)) ∧
      (s.get Obj.directionState k.val = 2 → x.retrying = false → s.anyPilot = true →
        s.elapsed x.retriedAt 10000000000 = true →
        exec (.directionRetry k) s =
          .next (s.setDir k.val { x with retrying := true, retriedAt := s.time.ticks }))) ∧
  (∀ (d : Deck) (pll : Pll) (s : State), s.deckUp d.val = true →
      (s.awake = true → s.avail.unlocked.find (pllKey d.val pll) = none → ∃ u,
        exec (.pllUnlock d pll) s = .next (raise Ev.pllUnlock d.val (pllCode pll) 0 u) ∧
        u.avail.unlocked.find (pllKey d.val pll) = some s.time.ticks ∧ (pll = .core → u.get Obj.corePllState d.val = 1) ∧
        (pll ≠ .core → u.dict = s.dict) ∧ u.frames = s.frames) ∧
      (∀ at_, s.avail.unlocked.find (pllKey d.val pll) = some at_ →
        Completes (.pllRelocked d pll) s (fun t =>
          t.avail.unlocked.find (pllKey d.val pll) = none ∧
          (pll = .core → t.get Obj.corePllState d.val = if bitOf (s.get Obj.refclkPresent) 0 then 2 else 3) ∧
          (pll ≠ .core → t.dict = s.dict) ∧ t.frames = s.frames) ∧
        (pllCode pll ≠ 2 → s.elapsed at_ 100000 = true →
          exec (.pllRelockTimeout d pll) s = .next (loseDeck d.val 2 s))))

/-- SNAPSHOT copies every event counter and the slot counters and advances SNAPSHOT_GENERATION; CHAIN sets the odd
counter of its pair to 0 (R536, R538, R540). At the end of a window its bytes join the last N, and each port's mean
and peak are those of the completed windows (R541, R542). Readings of the model's own that it rests on: log entry 66.
-/
def Obligations.SnapshotsChainsAndRates : Prop :=
  (∀ (c : Client) (s : State),
      (ClientMay c 0x8804 0 0 (leBytes 4 1) 1 s →
        ClientWrites (.snapshot c 1) c 0x8804 0 0 (leBytes 4 1) s writeSnapshot) ∧
      (s.dict.active.wf = true →
        (∀ d code, d < 4 → code < 65536 →
          (writeSnapshot s).getS Obj.snapCount (d + 1) code = s.getS Obj.eventCount (d + 1) code) ∧
        (∀ i p, i < 5 → p < 8 →
          (writeSnapshot s).getS Obj.snapSlots (i + 1) p = (s.slotCounters p).getD i 0) ∧
        (writeSnapshot s).get Obj.snapshotGeneration = (s.get Obj.snapshotGeneration + 1) %
          2 ^ (8 * Obj.snapshotGeneration.ty.size) ∧
        (writeSnapshot s).frames = s.frames) ∧
      (∀ (d : Deck) (code : BitVec 16) (v : Byte), v.toNat ≤ 1 → Obj.chain.kind.has code.toNat = true →
        (s.takenBy c.path).deckUp d.val = true → ClientMay c 0x8802 (d.val + 1) code.toNat [v] 1 s →
        ClientWrites (.chain c d code v) c 0x8802 (d.val + 1) code.toNat [v] s fun u =>
          (u.setS Obj.chain (d.val + 1) code.toNat v.toNat).setS Obj.eventCount (d.val + 1) (code.toNat + 1) 0)) ∧
  (∀ (s : State) (c : Count) (n : Nat), c = s.count → s.elapsed c.windowAt c.windowNs = true →
      s.get Obj.bwWindowNs = c.windowNs → s.get Obj.bwMeanWindows = c.windows →
      n = Nat.min (c.completed + 1) c.windows →
      Completes .bwWindowEnd s fun t => t.count.completed = n ∧ t.count.bytes = [] ∧
        t.count.windowAt = c.windowAt + ticksOfNs c.windowNs ∧
        (∀ p, p < 128 → ∀ l m, l = (c.bytes.getD (2 * p) 0 :: c.history.getD (2 * p) []).take n →
          m = (c.bytes.getD (2 * p + 1) 0 :: c.history.getD (2 * p + 1) []).take n →
          t.get Obj.rxMeanBps p = 8 * l.foldl (· + ·) 0 * 1000000000 / (n * c.windowNs) ∧
          t.get Obj.rxPeakBps p = 8 * l.foldl Nat.max 0 * 1000000000 / c.windowNs ∧
          t.get Obj.txMeanBps p = 8 * m.foldl (· + ·) 0 * 1000000000 / (n * c.windowNs) ∧
          t.get Obj.txPeakBps p = 8 * m.foldl Nat.max 0 * 1000000000 / c.windowNs) ∧
        t = { s with count := t.count, dict := { s.dict with active := t.dict.active } })

/-- A read of TEST_CHALLENGE draws a value other than 0 for its session; its value written within 10 s unlocks the
test objects for that session; they are locked again when the owner leaves VENDOR or the time is over (R543, R544).
Readings of the model's own that it rests on: log entries 1, 66. -/
def Obligations.TestObjectsAreUnlockedByChallenge : Prop :=
  ∀ (c : Client) (s u : State), u = s.takenBy c.path →
    (Turn c.path (readReq c.tag 0x9801 0 0) s → 3 ≤ u.levelOf c.path 0x9801 false →
      ∃ n v, n ≠ 0 ∧ n < 2 ^ 32 ∧ v.count.challenge = some (n, sessionId c.path, u.time.ticks) ∧
        v = { u with count := v.count, drawn := u.drawn + 1, dict := { u.dict with active := v.dict.active } } ∧
        exec (.testChallenge c) s = .next (answer c.path (respond (readReq c.tag 0x9801 0 0) St.ok (leBytes 4 n)) v)) ∧
    (∀ (w : Word32) at_, ClientMay c 0x9800 0 0 (leBytes 4 w.toNat) 3 s → w ≠ 0 →
      u.count.challenge = some (w.toNat, sessionId c.path, at_) → u.elapsed at_ 10000000001 = false →
      ClientWrites (.testUnlock c w) c 0x9800 0 0 (leBytes 4 w.toNat) s fun u =>
        raise Ev.testUnlocked 0 (sessionId c.path) (u.get Obj.testMaxS) ((u.withCount
          (Count.mk u.count.windowAt u.count.windowNs u.count.windows u.count.bytes u.count.history u.count.completed none
            (sessionId c.path) u.time.ticks)).set Obj.testState 0 1)) ∧
    (s.get Obj.testState = 1 → (s.ownerAtVendor = false ∨
        s.elapsed s.count.unlockedAt (s.get Obj.testMaxS * 1000000000) = true) →
      ∃ cause n v, exec .testLocked s = .next (raise Ev.testLocked 0 cause n v) ∧ v.get Obj.testState = 0 ∧
        v.count = { s.count with challenge := none } ∧ (s.ownerAtVendor = false → cause = 2) ∧
        (s.ownerAtVendor = true → cause = 3) ∧
        ∀ o ∈ perturbObjects, s.dict.active.wf = true → v.dict.active.inRange (addrKey o.index o.sub 0) 65536 = [])

/-- A reading of the junction sensors stores each with its offset and the hottest as MAX_JUNCTION_TEMP_MC, and
THERMAL_STATE follows the hottest through its limits and hysteresis (R568, R569). Readings of the model's own that it
rests on: log entry 70. -/
def Obligations.ThermalStateFollowsTheHottestSensor : Prop :=
  ∀ (s : State) (milliC : List Int) (warn trip hyst top : Int),
    warn = toSigned 32 (s.get Obj.thermalWarnC) * 1000 → trip = toSigned 32 (s.get Obj.thermalTripC) * 1000 →
    hyst = s.get Obj.thermalHystC * 1000 → 0 ≤ hyst → warn < trip →
    (∀ k, k < 16 → s.sensorReading k (milliC.getD k 0) ≤ top) →
    (∃ k, k < 16 ∧ s.sensorReading k (milliC.getD k 0) = top) →
    Completes (.junctionTempRead milliC) s fun t =>
      (∀ k, k < 16 → t.get Obj.junctionTempMc k = ofSigned 32 (s.sensorReading k (milliC.getD k 0))) ∧
      t.get Obj.maxJunctionTempMc = ofSigned 32 top ∧
      t.get Obj.thermalState = (match s.get Obj.thermalState with
        | 0 => if trip ≤ top then 2 else if warn ≤ top then 1 else 0
        | 1 => if trip ≤ top then 2 else if top < warn - hyst then 0 else 1
        | n => if trip - hyst ≤ top then n else if top < warn - hyst then 0 else 1) ∧
      t.power.thermTrip = (match s.get Obj.thermalState with
        | 0 => s.power.thermTrip || decide (trip ≤ top)
        | 1 => s.power.thermTrip || decide (trip ≤ top)
        | _ => s.power.thermTrip && decide (trip - hyst ≤ top)) ∧
      t.frames = s.frames

/-- The ones written to INT_PIN_CAUSE clear its bits; and the TAP takes each of its instructions: those that hold pins
put the links of their physical lanes in fault, the others let the pins go, and IDCODE reads 0x1648_0A1B (R122, R560,
R571). Readings
of the model's own that it rests on: log entry 70. -/
def Obligations.PinsAndTestPortFollowTheirCommands : Prop :=
  ∀ (s : State),
    (∀ (c : Client) (v : Byte), ClientMay c 0x7A20 0 0 [v] 1 s →
      ClientWrites (.intPinCauseClear c v) c 0x7A20 0 0 [v] s fun u =>
        u.set Obj.intPinCause 0 (clearMask (u.get Obj.intPinCause) v.toNat)) ∧
    (s.power.vddio = true →
      (∀ (i : Instr) (code : Nat) (data : Word32) (n : Nat),
        (i = .bypass ∧ code = 0 ∧ data = 0 ∧ n = 0) ∨ (i = .idcode ∧ code = 1 ∧ data = 0x16480A1B ∧ n = 0) ∨
        (i = .samplePreload ∧ code = 2 ∧ data = BitVec.ofNat 32 (Config.free s.drawn).toNat ∧ n = 1) →
        Completes i s fun t => t.power = { s.power with jtag := code, jtagLanes := [], jtagData := data } ∧
          (∀ p, (t.link p).jtag = false) ∧ t = { s with power := t.power, links := t.links, drawn := s.drawn + n }) ∧
      (∀ (i : Instr) (code : Nat) (lanes : List (Fin 128)),
        (i = .extest lanes ∧ code = 3) ∨ (i = .extestPulse lanes ∧ code = 4) ∨ (i = .extestTrain lanes ∧ code = 5) ∨
        (i = .clamp lanes ∧ code = 6) ∨ (i = .highz lanes ∧ code = 7) →
        Completes i s fun t =>
          t.power = { s.power with jtag := code, jtagLanes := lanes.map (·.val), jtagData := 0 } ∧
          (∀ p, (t.link p).jtag = true ↔ ∃ l ∈ lanes, ∃ m, s.logicalLane l.val = some m ∧ s.portOfLane m = some p) ∧
          (∀ l ∈ lanes, ∀ m p, s.logicalLane l.val = some m → s.portOfLane m = some p →
            (t.link p).fault.map Prod.fst = some 1) ∧
          t = { s with power := t.power, links := t.links }))

/-- The device consumes the next record of an inject ring, a whole frame for the pipeline or a DIRECT one for its
port, and the next record of a table request ring, once its completion has room; an invalid record is skipped to the
next page (R105, R107, R108, R111). A consumed record moves the position past it, to the next multiple of 64; a pages'
worth of a ring goes back to the host when the device has consumed it (R101, R103, R105). Readings of the model's own
that it rests on: log entries 21, 22, 26. -/
def Obligations.RecordsOfRingsAreConsumed : Prop :=
  (∀ (k : Fin 4) (s : State), s.awake = true →
      (∀ rec u, s.deckUp 0 = true → s.get Obj.landingGuardCells 0 ≤ s.freeCells 0 →
        s.nextRecord (8 + k.val) 2 = .record rec →
        u = consumeRecord (8 + k.val) rec.length s →
        exec (.injectRecord k) s = .next (skipPads (8 + k.val) 2 (padFuel s (8 + k.val))
          (if bitOf (byteAt rec 1) 0 = true ∧ u.injectable (leAt rec 6 2) = false then u.bump Obj.ringInvalid (8 + k.val)
           else injectFrame rec (u.bump Obj.ringRecords (8 + k.val))))) ∧
      (s.deckUp 0 = true → s.get Obj.landingGuardCells 0 ≤ s.freeCells 0 → s.nextRecord (8 + k.val) 2 = .invalid →
        exec (.injectRecord k) s = .next (skipInvalid (8 + k.val) s)) ∧
      (∀ rec q u st done data v, s.nextRecord (21 + k.val) 5 = .record rec → q = parseDma rec →
        s.ringRoom (25 + k.val) (roundUp (completionSize q) 64) = true →
        u = (consumeRecord (21 + k.val) rec.length (quayAsk .dma false (s.ringPage (21 + k.val) * 4096 +
          (s.ringPos (21 + k.val)).byte) rec.length s)).bump Obj.ringRecords (21 + k.val) →
        runDma q (21 + k.val) u = ((st, done, data), v) →
        exec (.tableRequest k) s = .next (skipPads (21 + k.val) 5 (padFuel v (21 + k.val))
          (produce (25 + k.val) (completion q st done data) v).2)) ∧
      (s.nextRecord (21 + k.val) 5 = .invalid → exec (.tableRequest k) s = .next (skipInvalid (21 + k.val) s))) ∧
  (∀ (s : State) (r n : Nat) (x : RingPos), r < 29 → x = s.ringPos r → x.byte < 4096 → 0 < n →
      x.page * 4096 + x.byte + n ≤ s.ringPages r * 4096 →
      ∀ off, off = roundUp (x.page * 4096 + x.byte + n) 64 →
        (∀ i, x.page ≤ i → i < off / 4096 → (consumeRecord r n s).owned (s.ringFirst r + i) = false) ∧
        (∀ i, s.owned i = false → (consumeRecord r n s).owned i = false) ∧
        (∀ i, (i < s.ringFirst r + x.page ∨ s.ringFirst r + off / 4096 ≤ i) → (consumeRecord r n s).owned i = s.owned i) ∧
        (consumeRecord r n s).ringPos r = (if off = s.ringPages r * 4096 then {} else { page := off / 4096, byte := off % 4096 }) ∧
        (∀ q, q ≠ r → (consumeRecord r n s).ringPos q = s.ringPos q) ∧
        (consumeRecord r n s).host.quay = s.host.quay)

/-- Every command completes in every state: none is refused and none ends the device's run. Readings of the model's
own that it rests on: log entry 6. -/
def Obligations.EveryCommandCompletes : Prop :=
  ∀ (i : Instr) (s : State), ∃ t, exec i s = .next t

/-- The byte memories (quay window, flash, Pilot memory) keep their canonical form at every step: addresses rise, and
no byte is listed at what an unlisted byte reads. Readings of the model's own that it rests on: log entry 71. -/
def Obligations.StepsKeepTheMemoriesCanonical : Prop :=
  ∀ (s t : State), s.memoriesCanonical = true → step s = .next t → t.memoriesCanonical = true

/-- Only an operation of the flash engine that ends and the write of a flash slot by a live update change the flash:
every other command, reset, power loss, restart and tick leaves every byte of it as it was (R491, R517, R520).
Readings of the model's own that it rests on: log entries 62, 71. -/
def Obligations.OnlyFlashOperationsChangeTheFlash : Prop :=
  ∀ (i : Instr) (s t : State), exec i s = .next t → (∀ ok, i ≠ .feDone ok) → i ≠ .fwFlashDone →
    t.host.flash = s.host.flash ∧ t.pending = s.pending

/-- A write to TIME_STEP_NS beyond STEP_LIMIT_NS is refused with RANGE, counted in STEPS_REFUSED and reported, and
leaves time unchanged (R412). -/
def Obligations.StepsBeyondTheLimitAreRefused : Prop :=
  ∀ (c : Client) (s u : State) (v : Word64), u = s.takenBy c.path → ClientMay c 0x1804 0 0 (leBytes 8 v.toNat) 1 s →
    u.get Obj.stepLimitNs ≠ 0 → u.get Obj.stepLimitNs < v.toInt.natAbs →
    ∃ t, exec (.timeStep c v) s = .next (answer c.path (respond (writeReq c.tag 0x1804 0 0 (leBytes 8 v.toNat)) St.range) t) ∧
      t = raise Ev.stepRefused 0 (sessionId c.path) v.toNat (u.bump Obj.stepsRefused) ∧ t.time = s.time ∧
      t.get Obj.stepsRefused = (s.get Obj.stepsRefused + 1) % 2 ^ 64

/-- A draw of a pipe's generator advances its state by the three shifts and returns the low 32 bits of the new state;
it leaves every other pipe's generator as it was, and a state that is not zero never becomes zero (R299). -/
def Obligations.TallyGeneratorIsXorshift : Prop :=
  ∀ (p : Nat) (s t : State) (n : Nat) (a b c : Word64), drawRng p s = (n, t) → a = s.rng p ^^^ (s.rng p <<< 13) →
    b = a ^^^ (a >>> 7) → c = b ^^^ (b <<< 17) →
    t.rng p = c ∧ n = c.toNat % 2 ^ 32 ∧ (∀ q, q ≠ p → t.rng q = s.rng q) ∧ (s.rng p ≠ 0 → t.rng p ≠ 0) ∧
    t = { s with flow := { s.flow with rng := t.flow.rng } }
end

