-- ==== Sys2Proof/Laws/Memory.lean ====
section
/-! SUPPORT. The byte memories: what a write leaves, and that every memory operation keeps the canonical form. -/

namespace Sys2Proof.Machine

/-! ### Maps -/

/-- A filter that keeps every entry of a key leaves what is listed there. -/
theorem NMap.find_filter_keep {α : Type} (m : NMap α) (g : Nat → Bool) (k : Nat) (h : g k = true) :
    NMap.find (m.filter fun p => g p.1) k = m.find k := by
  induction m with
  | nil => rfl
  | cons p m ih =>
    obtain ⟨j, v⟩ := p
    rw [List.filter_cons]
    by_cases e : j = k
    · subst e; simp [h, NMap.find]
    · split <;> simp [NMap.find, e, ih]

/-- A filter that drops every entry of a key leaves nothing listed there. -/
theorem NMap.find_filter_drop {α : Type} (m : NMap α) (g : Nat → Bool) (k : Nat) (h : g k = false) :
    NMap.find (m.filter fun p => g p.1) k = none := by
  induction m with
  | nil => rfl
  | cons p m ih =>
    obtain ⟨j, v⟩ := p
    rw [List.filter_cons]
    by_cases e : j = k
    · subst e; simpa [h] using ih
    · split <;> simp [NMap.find, e, ih]

theorem NMap.find_delRange {α : Type} (m : NMap α) (lo n k : Nat) :
    (m.delRange lo n).find k = if lo ≤ k ∧ k < lo + n then none else m.find k := by
  split
  · exact NMap.find_filter_drop m (fun j => !(decide (lo ≤ j) && decide (j < lo + n))) k (by simp_all)
  · exact NMap.find_filter_keep m (fun j => !(decide (lo ≤ j) && decide (j < lo + n))) k (by simp_all; omega)

theorem NMap.getD_delRange {α : Type} (m : NMap α) (lo n k : Nat) (d : α) :
    (m.delRange lo n).getD k d = if lo ≤ k ∧ k < lo + n then d else m.getD k d := by
  unfold NMap.getD; rw [NMap.find_delRange]; split <;> rfl

/-! ### Bytes put into a memory -/

theorem getD_putBytes (d : Byte) (m : NMap Byte) (a : Nat) (bs : List Byte) (b : Nat) :
    (putBytes d m a bs).getD b d = if a ≤ b ∧ b < a + bs.length then bs.getD (b - a) 0 else m.getD b d := by
  induction bs generalizing m a with
  | nil => simp only [putBytes]; rw [if_neg]; simp
  | cons x bs ih =>
    rw [putBytes, ih]
    by_cases h : a + 1 ≤ b ∧ b < a + 1 + bs.length
    · rw [if_pos h, if_pos ⟨by omega, by simp only [List.length_cons]; omega⟩]
      obtain ⟨c, rfl⟩ : ∃ c, b = a + 1 + c := ⟨b - (a + 1), by omega⟩
      simp [show a + 1 + c - a = c + 1 by omega]
    · rw [if_neg h]
      by_cases e : b = a
      · subst e
        rw [if_pos ⟨Nat.le_refl _, by simp⟩]
        simp
      · rw [if_neg (by simp only [List.length_cons]; omega), NMap.getD_set_other _ _ _ e]

theorem bytesCanonical_set {d : Byte} {m : NMap Byte} (k : Nat) (v : Byte) (h : bytesCanonical d m = true) :
    bytesCanonical d (NMap.set d m k v) = true := by
  simp only [bytesCanonical, Bool.and_eq_true] at *
  exact ⟨NMap.wf_set d k v h.1, NMap.lean_set k v h.2⟩

/-- Bytes put into a memory keep its canonical form. -/
theorem bytesCanonical_putBytes {d : Byte} {m : NMap Byte} (a : Nat) (bs : List Byte) (h : bytesCanonical d m = true) :
    bytesCanonical d (putBytes d m a bs) = true := by
  induction bs generalizing m a with
  | nil => exact h
  | cons x bs ih => exact ih _ (bytesCanonical_set a x h)

/-- A write of a request area keeps the canonical form of the areas. -/
theorem bytesCanonical_mbWriteArea {s : State} (k off : Nat) (bs : List Byte) (h : bytesCanonical 0 s.host.areas = true) :
    bytesCanonical 0 (mbWriteArea k off bs s).host.areas = true := by
  unfold mbWriteArea
  split
  · exact bytesCanonical_putBytes _ _ h
  · exact h

theorem bytesCanonical_delRange {d : Byte} {m : NMap Byte} (lo n : Nat) (h : bytesCanonical d m = true) :
    bytesCanonical d (m.delRange lo n) = true := by
  simp only [bytesCanonical, Bool.and_eq_true] at *
  exact ⟨NMap.wf_delRange lo n h.1, NMap.lean_filter _ h.2⟩

/-- An operation of the flash engine keeps the canonical form of the flash. -/
theorem bytesCanonical_flashAfter {s : State} (h : bytesCanonical 0xFF s.host.flash = true) :
    bytesCanonical 0xFF (flashAfter s) = true := by
  unfold flashAfter
  dsimp only
  split
  · exact bytesCanonical_delRange _ _ h
  · generalize List.range 256 = l
    generalize s.host.flash = m at h ⊢
    induction l generalizing m with
    | nil => exact h
    | cons i l ih => exact ih _ (bytesCanonical_set _ _ h)

/-! ### The quay window -/

/-- One byte written to the quay window keeps the canonical form of the memories. -/
theorem memoriesCanonical_quayByte {s : State} (a : Nat) (b : Byte) (h : s.memoriesCanonical = true) :
    (s.withHost { s.host with quay := NMap.set (s.quayDefault a) s.host.quay a b }).memoriesCanonical = true := by
  simp only [State.memoriesCanonical, Bool.and_eq_true] at h ⊢
  obtain ⟨⟨⟨h1, h2⟩, h3⟩, h4⟩ := h
  refine ⟨⟨⟨NMap.wf_set _ _ _ h1, ?_⟩, h3⟩, h4⟩
  rw [List.all_eq_true] at h2 ⊢
  intro p hp
  have hq : ∀ x, (s.withHost { s.host with quay := NMap.set (s.quayDefault a) s.host.quay a b }).quayDefault x =
    s.quayDefault x := fun _ => rfl
  rw [hq]
  unfold NMap.set at hp
  by_cases e : b = s.quayDefault a
  · simp only [State.withHost_host, if_pos e, NMap.del_eq_filter] at hp
    exact h2 p (List.mem_filter.mp hp).1
  · simp only [State.withHost_host, if_neg e] at hp
    have key : ∀ (m : NMap Byte), p ∈ m.put a b → p = (a, b) ∨ p ∈ m := by
      intro m
      induction m with
      | nil => intro h; left; simpa [NMap.put] using h
      | cons q m ih =>
        obtain ⟨j, w⟩ := q
        simp only [NMap.put]
        intro h
        split at h
        · rcases List.mem_cons.mp h with h | h
          · exact .inl h
          · exact .inr h
        · split at h
          · rcases List.mem_cons.mp h with h | h
            · exact .inl h
            · exact .inr (List.mem_cons_of_mem _ h)
          · rcases List.mem_cons.mp h with h | h
            · exact .inr (h ▸ List.mem_cons_self)
            · rcases ih h with h | h
              · exact .inl h
              · exact .inr (List.mem_cons_of_mem _ h)
    rcases key _ hp with rfl | hp
    · simpa using e
    · exact h2 p hp

/-- A write of the quay window keeps the canonical form of the memories. -/
theorem memoriesCanonical_quayWrite {s : State} (a : Nat) (bs : List Byte) (h : s.memoriesCanonical = true) :
    (s.quayWrite a bs).memoriesCanonical = true := by
  induction bs generalizing s a with
  | nil => exact h
  | cons x bs ih => exact ih _ (memoriesCanonical_quayByte a x h)

/-- A new map order of a stack, whose bytes it leaves undefined (R384), keeps the canonical form. -/
theorem memoriesCanonical_applyHbmMap {old s : State} (d : Nat) (h : s.memoriesCanonical = true) :
    (applyHbmMap old d s).memoriesCanonical = true := by
  unfold applyHbmMap
  split
  · exact h
  · simp only [State.memoriesCanonical, Bool.and_eq_true] at h ⊢
    obtain ⟨⟨⟨h1, h2⟩, h3⟩, h4⟩ := h
    refine ⟨⟨⟨NMap.wf_delRange _ _ h1, ?_⟩, h3⟩, h4⟩
    rw [List.all_eq_true] at h2 ⊢
    intro p hp
    simp only [NMap.delRange] at hp
    obtain ⟨hm, hr⟩ := List.mem_filter.mp hp
    have hd : p.1 / 0x4000000 ≠ d := by
      simp at hr
      omega
    have := h2 p hm
    simp only [State.quayDefault, NMap.find_put, if_neg hd] at this ⊢
    exact this

end Sys2Proof.Machine
end

