-- ==== Sys2Proof/Tests/Slice0.lean ====
section
/-! SUPPORT. Tests: a witness for every clause of every statement (a state and operands that meet its hypotheses, shown by
applying the statement to them), ill-formed commands that WellFormed refuses, and a few meanings on small states. -/


namespace Sys2Proof.Tests

set_option maxRecDepth 20000
set_option Elab.async false

open Sys2Proof Sys2Proof.Machine

/-- A completed command answers a next state. -/
theorem next_of {c : Instr} {s : State} {P : State → Prop} (h : Completes c s P) : ∃ t, exec c s = .next t :=
  h.elim fun t ht => ⟨t, ht.1⟩

/-- A device that has started: every object at its default, BOOT_STAGE 9. -/
def run : State := (State.reset.withBoot { held := false, stage := 10 }).set Obj.bootStage 0 9

/-- `s` with time gone by: so many ticks, and as many ns on the clock. -/
def late (n : Nat) (s : State) : State := s.withTime { s.time with ticks := n, now := n * 2 ^ 32 }

/-- `s` with a request TAKEN in mailbox slot 0. -/
def asks (q : Request) (s : State) : State := mbRequest 0 q s

/-- The host's client, by mailbox slot 0. -/
def mb : Client := { path := .mailbox 0, tag := 7 }

/-- `s` after the request was taken. -/
def took (q : Request) (s : State) : State := (asks q s).takenBy mb.path

/-- A write that waits in mailbox slot 0. -/
def writes (index sub inst : Nat) (value : List Byte) (s : State) : State := asks (writeReq 7 index sub inst value) s

/-- An event ring of `n` pages from page 0, which the device owns, with its link up. -/
def ringed (r n : Nat) (s : State) : State :=
  let s := s.withHost { s.host with linkUp := true, bollards := (List.range n).map fun i => (i, 1) }
  s.set Obj.ringPages r n

/-- A response. -/
def done : Response := respond (readReq 7 0 0 0) St.ok


theorem wit_step_command (h : Obligations.StepRunsFrontCommand) :
    step { run with pending := [.mbRelease 0] } = exec (.mbRelease 0) run :=
  (h { run with pending := [.mbRelease 0] }).1 _ _ rfl

theorem wit_step_tick (h : Obligations.StepRunsFrontCommand) :
    step run = .next (tick run) :=
  (h run).2 rfl

theorem wit_read (h : Obligations.RequestsThatOnlyReadAreAnswered) :
    ∃ t, exec (.read (.mailbox 0) (readReq 7 0x1808 0 0)) (asks (readReq 7 0x1808 0 0) run) = .next t := by
  refine ⟨_, ((h (.mailbox 0) (readReq 7 0x1808 0 0) (asks (readReq 7 0x1808 0 0) run) ⟨?_, ?_, ?_, ?_, ?_, ?_, ?_, ?_⟩).1 Obj.timeState rfl ?_ ?_ ?_).1 ?_ ?_ ?_ ?_ ?_⟩ <;> decide +kernel

theorem wit_read_seg (h : Obligations.RequestsThatOnlyReadAreAnswered) :
    ∃ t, exec (.readSeg (.mailbox 0) { opcode := 3, index := 0x5000, length := 240 }) (asks { opcode := 3, index := 0x5000, length := 240 } run) = .next t := by
  refine ⟨_, ((h (.mailbox 0) { opcode := 3, index := 0x5000, length := 240 } (asks { opcode := 3, index := 0x5000, length := 240 } run) ⟨?_, ?_, ?_, ?_, ?_, ?_, ?_, ?_⟩).1 Obj.slotEntries rfl ?_ ?_ ?_).2 ?_ ?_ ?_⟩ <;> decide +kernel

theorem wit_describe (h : Obligations.RequestsThatOnlyReadAreAnswered) :
    ∃ t, exec (.describe (.mailbox 0) { opcode := 5, index := 0x1808 }) (asks { opcode := 5, index := 0x1808 } run) = .next t := by
  refine ⟨_, ((h (.mailbox 0) { opcode := 5, index := 0x1808 } (asks { opcode := 5, index := 0x1808 } run) ⟨?_, ?_, ?_, ?_, ?_, ?_, ?_, ?_⟩).2.1 Obj.timeState rfl ?_ ?_ ?_)⟩ <;> decide +kernel

theorem wit_nop (h : Obligations.RequestsThatOnlyReadAreAnswered) :
    ∃ t, exec (.nop (.mailbox 0) { opcode := 6, index := 0 }) (asks { opcode := 6, index := 0 } run) = .next t := by
  refine ⟨_, ((h (.mailbox 0) { opcode := 6, index := 0 } (asks { opcode := 6, index := 0 } run) ⟨?_, ?_, ?_, ?_, ?_, ?_, ?_, ?_⟩).2.2 ?_ ?_ ?_)⟩ <;> decide +kernel

theorem wit_write_staged (h : Obligations.WritesAndSegmentsTakeEffect) :
    ∃ t, exec (.write (.mailbox 0) (writeReq 7 0x1100 0 127 [1])) (writes 0x1100 0 127 [1] run) = .next t := by
  refine ⟨_, ((h.1 (.mailbox 0) (writeReq 7 0x1100 0 127 [1]) Obj.portEnable (writes 0x1100 0 127 [1] run) ⟨?_, ?_, ?_, ?_, ?_, ?_, ?_, ?_⟩ ?_ rfl ?_ ?_ ?_ ?_ ?_ ?_).1 ?_)⟩ <;> decide +kernel

theorem wit_write_rw (h : Obligations.WritesAndSegmentsTakeEffect) :
    ∃ t, exec (.write (.mailbox 0) (writeReq 7 0x1205 0 127 [1, 0, 0, 0])) (writes 0x1205 0 127 [1, 0, 0, 0] run) = .next t := by
  refine ⟨_, ((h.1 (.mailbox 0) (writeReq 7 0x1205 0 127 [1, 0, 0, 0]) Obj.eeeIdleNs (writes 0x1205 0 127 [1, 0, 0, 0] run) ⟨?_, ?_, ?_, ?_, ?_, ?_, ?_, ?_⟩ ?_ rfl ?_ ?_ ?_ ?_ ?_ ?_).2.1 ?_ ?_)⟩ <;> decide +kernel

theorem wit_write_w1c (h : Obligations.WritesAndSegmentsTakeEffect) :
    ∃ t, exec (.write (.mailbox 0) (writeReq 7 0x7842 0 0 [1])) (writes 0x7842 0 0 [1] (run.set Obj.eventOverflowSticky 0 1)) = .next t := by
  refine ⟨_, ((h.1 (.mailbox 0) (writeReq 7 0x7842 0 0 [1]) Obj.eventOverflowSticky (writes 0x7842 0 0 [1] (run.set Obj.eventOverflowSticky 0 1)) ⟨?_, ?_, ?_, ?_, ?_, ?_, ?_, ?_⟩ ?_ rfl ?_ ?_ ?_ ?_ ?_ ?_).2.2 ?_ ?_)⟩ <;> decide +kernel

theorem wit_segment_first (h : Obligations.WritesAndSegmentsTakeEffect) :
    ∃ t, exec (.writeSeg (.mailbox 0) { opcode := 4, index := 0x5000, length := 4, value := [1, 2, 3, 4] }) (asks { opcode := 4, index := 0x5000, length := 4, value := [1, 2, 3, 4] } run) = .next t := by
  refine (fun ⟨_, _, h, _⟩ => ⟨_, h⟩) (h.2 (.mailbox 0) { opcode := 4, index := 0x5000, length := 4, value := [1, 2, 3, 4] } Obj.slotEntries (asks { opcode := 4, index := 0x5000, length := 4, value := [1, 2, 3, 4] } run) ⟨?_, ?_, ?_, ?_, ?_, ?_, ?_, ?_⟩ ?_ rfl ?_ ?_ ?_ ?_ ?_ ?_ ?_ ?_ ?_) <;> decide +kernel

theorem wit_segment_last (h : Obligations.WritesAndSegmentsTakeEffect) :
    ∃ t, exec (.writeSeg (.mailbox 0) { opcode := 4, last := true, index := 0x5000, length := 4, value := [1, 2, 3, 4] }) (asks { opcode := 4, last := true, index := 0x5000, length := 4, value := [1, 2, 3, 4] } run) = .next t := by
  refine (fun ⟨_, _, h, _⟩ => ⟨_, h⟩) (h.2 (.mailbox 0) { opcode := 4, last := true, index := 0x5000, length := 4, value := [1, 2, 3, 4] } Obj.slotEntries (asks { opcode := 4, last := true, index := 0x5000, length := 4, value := [1, 2, 3, 4] } run) ⟨?_, ?_, ?_, ?_, ?_, ?_, ?_, ?_⟩ ?_ rfl ?_ ?_ ?_ ?_ ?_ ?_ ?_ ?_ ?_) <;> decide +kernel

/-- Group 0x01 of port 5 (PORT_CONFIG) with a staged copy of the host's session. -/
def staged (x : GroupInst) : State := run.setGroup 0x01 5 x

theorem wit_commit_now (h : Obligations.CommitsValidateArmAndAbort) :
    ∃ t, exec (.commitNow mb 0x01 5) (writes 0x0201 1 5 [1, 0, 0, 0] (staged { state := 1, owner := 0x10000000 })) = .next t := by
  refine ⟨_, ((h.1 mb 0x01 5 137 (writes 0x0201 1 5 [1, 0, 0, 0] (staged { state := 1, owner := 0x10000000 })) ?_ ?_).1 _ rfl ?_ ?_ ?_).1 ⟨⟨?_, ?_, ?_, ?_, ?_, ?_, ?_, ?_⟩, ?_, .inl ?_⟩⟩ <;> decide +kernel

theorem wit_commit_at (h : Obligations.CommitsValidateArmAndAbort) :
    ∃ t, exec (.commitAtSchedTime mb 0x01 5) (writes 0x0201 1 5 [2, 0, 0, 0] (staged { state := 1, owner := 0x10000000, schedTime := 2 ^ 32 * 10 })) = .next t := by
  refine ⟨_, ((h.1 mb 0x01 5 137 (writes 0x0201 1 5 [2, 0, 0, 0] (staged { state := 1, owner := 0x10000000, schedTime := 2 ^ 32 * 10 })) ?_ ?_).1 _ rfl ?_ ?_ ?_).2 ⟨⟨?_, ?_, ?_, ?_, ?_, ?_, ?_, ?_⟩, ?_, .inl ?_⟩ ?_⟩ <;> decide +kernel

theorem wit_commit_validated (h : Obligations.CommitsValidateArmAndAbort) :
    ∃ t, exec (.commitValidated 0x01 5) (staged { state := 1, validating := some { scheduled := false, path := some (.mailbox 0), tag := 7 } }) = .next t := by
  refine ⟨_, ((h.1 mb 0x01 5 137 (staged { state := 1, validating := some { scheduled := false, path := some (.mailbox 0), tag := 7 } }) ?_ ?_).2 _ { scheduled := false, path := some (.mailbox 0), tag := 7 } rfl ?_ ?_).1 ?_⟩ <;> decide +kernel

theorem wit_commit_validated_at (h : Obligations.CommitsValidateArmAndAbort) :
    ∃ t, exec (.commitValidated 0x01 5) (staged { state := 1, schedTime := 2 ^ 32, validating := some { scheduled := true, path := some (.mailbox 0), tag := 7 } }) = .next t := by
  refine ⟨_, ((h.1 mb 0x01 5 137 (staged { state := 1, schedTime := 2 ^ 32, validating := some { scheduled := true, path := some (.mailbox 0), tag := 7 } }) ?_ ?_).2 _ { scheduled := true, path := some (.mailbox 0), tag := 7 } rfl ?_ ?_).2 ?_ ?_⟩ <;> decide +kernel

theorem wit_abort (h : Obligations.CommitsValidateArmAndAbort) :
    ∃ t, exec (.abort mb 0x01 5 1) (writes 0x0201 4 5 [1] (staged { state := 1, owner := 0x10000000 })) = .next t := by
  refine ⟨_, h.2 mb 0x01 5 137 (writes 0x0201 4 5 [1] (staged { state := 1, owner := 0x10000000 })) ?_ ?_ ⟨⟨?_, ?_, ?_, ?_, ?_, ?_, ?_, ?_⟩, ?_, .inl ?_⟩ ?_ ?_ ?_⟩ <;> decide +kernel

theorem wit_switchover (h : Obligations.SwitchOverActivatesStagedCopy) :
    ∃ t, exec (.commitSwitchover 0x01 5) (staged { state := 2, tc := 0 }) = .next t := by
  refine (fun ⟨_, _, _, _, h⟩ => ⟨_, h⟩) (h.1 0x01 5 (staged { state := 2, tc := 0 }) _ rfl ?_ ?_) <;> decide +kernel

theorem wit_take_staged (h : Obligations.SwitchOverActivatesStagedCopy) :
    (takeStaged 0x01 5 (run.withDict { run.dict with staged := [(addrKey 0x1100 0 5, 1)] })).getS Obj.portEnable 0 5 = 1 := by
  refine (h.2 0x01 5 0 5 1 Obj.portEnable (run.withDict { run.dict with staged := [(addrKey 0x1100 0 5, 1)] }) rfl ?_ ?_ ?_ ?_ ?_).2.1 <;> decide +kernel

theorem wit_stage_expired (h : Obligations.IdleStagingExpires) :
    ∃ t, exec (.stageExpired 0x01 5) (late (2 ^ 40) (staged { state := 1, owner := 0x10000000 })) = .next t := by
  refine (fun ⟨_, h, _⟩ => ⟨_, h⟩) (h 0x01 5 (late (2 ^ 40) (staged { state := 1, owner := 0x10000000 })) ?_ ?_ ?_ ?_) <;> decide +kernel

theorem wit_vendor_unlock (h : Obligations.VendorLevelIsUnlockedAndLocked) :
    ∃ t, exec (.vendorUnlock mb [1]) (asks (segReq 7 0x0012 0 0 [1]) run) = .next t := by
  refine ⟨_, (h mb (asks (segReq 7 0x0012 0 0 [1]) run) _ rfl).1 [1] ⟨?_, ?_, ?_, ?_, ?_, ?_, ?_, ?_⟩ ?_ ?_ (.inl ?_) ?_⟩ <;> decide +kernel

theorem wit_vendor_lock (h : Obligations.VendorLevelIsUnlockedAndLocked) :
    ∃ t, exec (.vendorLock mb 1) (writes 0x0013 0 0 [1] run) = .next t := by
  refine ⟨_, (h mb (writes 0x0013 0 0 [1] run) _ rfl).2 ⟨⟨?_, ?_, ?_, ?_, ?_, ?_, ?_, ?_⟩, ?_, .inl ?_⟩⟩ <;> decide +kernel

/-- The event log in a ring of two pages, after the start. -/
def logged : State := (ringed 20 2 run).withEvents { run.events with storing := false }

theorem wit_event_counted (h : Obligations.EventsAreCountedSignalledAndLogged) :
    (raise Ev.linkDown 40 1 0 run).getS Obj.eventCount 2 Ev.linkDown = 1 := by
  refine ((h.1 Ev.linkDown 40 1 0 1 run _ ?_ ?_ ?_ ?_ ?_ rfl).1 ?_) <;> decide +kernel

theorem wit_event_wraps (h : Obligations.EventsAreCountedSignalledAndLogged) :
    (raise Ev.linkDown 40 1 0 (run.setS Obj.eventCount 2 Ev.linkDown (2 ^ 40 - 1))).getS Obj.eventCount 2 Ev.linkDown = 0 := by
  refine ((h.1 Ev.linkDown 40 1 0 1 (run.setS Obj.eventCount 2 Ev.linkDown (2 ^ 40 - 1)) _ ?_ ?_ ?_ ?_ ?_ rfl).2.1 ?_).1 <;> decide +kernel

theorem wit_event_signalled (h : Obligations.EventsAreCountedSignalledAndLogged) :
    bitOf (raise Ev.deckLost 1 1 0 run).host.vectorCause 0 = true := by
  refine ((h.1 Ev.deckLost 1 1 0 1 run _ ?_ ?_ ?_ ?_ ?_ rfl).2.2.1 ?_).2 <;> decide +kernel

theorem wit_event_logged (h : Obligations.EventsAreCountedSignalledAndLogged) :
    (raise Ev.linkDown 40 1 0 logged).get Obj.lastSequence = 1 := by
  refine ((h.1 Ev.linkDown 40 1 0 1 logged _ ?_ ?_ ?_ ?_ ?_ rfl).2.2.2 _ _ _ ?_ ?_ ?_ ?_ ?_ ?_ rfl ?_ ?_ rfl rfl).1 <;> decide +kernel

theorem wit_events_suppressed (h : Obligations.EventsAreCountedSignalledAndLogged) :
    ∃ t, exec (.eventsSuppressed) (late 2000000000 (run.withEvents { run.events with suppressed := [(0, [(0x1001, 3)])] })) = .next t := by
  refine ⟨_, h.2 (late 2000000000 (run.withEvents { run.events with suppressed := [(0, [(0x1001, 3)])] })) 0 0x1001 3 [] rfl ?_ ?_ ?_⟩ <;> decide +kernel

theorem wit_mb_doorbell (h : Obligations.MailboxSlotsGoRound) :
    ∃ t, exec (.mbDoorbell 15 [1, 2]) (run) = .next t := by
  refine next_of ((h.1 run 15).1 15 [1, 2] ?_ ?_ ?_) <;> decide +kernel

theorem wit_mb_response (h : Obligations.MailboxSlotsGoRound) :
    ∃ t, exec (.mbResponseReady 15) (run.setSlot 15 { state := 1, answer := some done }) = .next t := by
  refine next_of ((h.1 (run.setSlot 15 { state := 1, answer := some done }) 15).2.1 done ?_ ?_) <;> decide +kernel

theorem wit_mb_release (h : Obligations.MailboxSlotsGoRound) :
    ∃ t, exec (.mbRelease 15) (run.setSlot 15 { state := 2 }) = .next t := by
  refine next_of ((h.1 (run.setSlot 15 { state := 2 }) 15).2.2.1 15 ?_ ?_) <;> decide +kernel

theorem wit_mb_unserved (h : Obligations.MailboxSlotsGoRound) :
    ∃ t, exec (.mailboxUnserved 0) (late 1250000 (asks (readReq 7 0 0 0) run)) = .next t := by
  refine (fun ⟨_, h, _⟩ => ⟨_, h⟩) ((h.1 (late 1250000 (asks (readReq 7 0 0 0) run)) 0).2.2.2 ?_ ?_ ?_ ?_) <;> decide +kernel

theorem wit_mb_doorbell_ignored (h : Obligations.MailboxSlotsGoRound) :
    ∃ t, exec (.mbDoorbell 0 []) (asks (readReq 7 0 0 0) run) = .next t := by
  refine ⟨_, (h.2 (asks (readReq 7 0 0 0) run) 0 [] ?_).1 ?_⟩ <;> decide +kernel

theorem wit_mb_release_ignored (h : Obligations.MailboxSlotsGoRound) :
    ∃ t, exec (.mbRelease 0) (run) = .next t := by
  refine ⟨_, (h.2 run 0 [] ?_).2 ?_⟩ <;> decide +kernel

/-- A two-wire transaction of a request, with its PEC. -/
def transaction (q : Request) : List Byte :=
  let bs := [0x78, 1] ++ requestBytes q
  bs ++ [BitVec.ofNat 8 (pec bs)]

theorem wit_tw_request (h : Obligations.TwoWireTargetHoldsOneRequest) :
    ∃ t, exec (.twoWireRequest (transaction (readReq 7 0 0 0))) (run) = .next t := by
  refine ⟨_, ((h run (transaction (readReq 7 0 0 0))).1 ?_ ?_).1 ?_ ?_ ?_ (readReq 7 0 0 0) ?_⟩ <;> decide +kernel

theorem wit_tw_pec (h : Obligations.TwoWireTargetHoldsOneRequest) :
    ∃ t, exec (.twoWireRequest [0x78, 1, 2, 3]) (run) = .next t := by
  refine ⟨_, ((h run [0x78, 1, 2, 3]).1 ?_ ?_).2 ?_⟩ <;> decide +kernel

theorem wit_tw_response_ready (h : Obligations.TwoWireTargetHoldsOneRequest) :
    ∃ t, exec (.twoWireResponseReady) (run.withTw { run.tw with answer := some done }) = .next t :=
  ⟨_, (h (run.withTw { run.tw with answer := some done }) []).2.1 done (by decide +kernel)⟩

theorem wit_tw_response (h : Obligations.TwoWireTargetHoldsOneRequest) :
    ∃ t, exec (.twoWireResponse) (run.withTw { run.tw with ready := some done }) = .next t :=
  next_of ((h (run.withTw { run.tw with ready := some done }) []).2.2.1)

theorem wit_tw_unserved (h : Obligations.TwoWireTargetHoldsOneRequest) :
    ∃ t, exec (.twoWireUnserved) (late 1250000 (run.withTw { run.tw with serving := some (readReq 7 0 0 0, 0) })) = .next t := by
  refine ⟨_, (h (late 1250000 (run.withTw { run.tw with serving := some (readReq 7 0 0 0, 0) })) []).2.2.2.1 (readReq 7 0 0 0) 0 ?_ ?_ ?_ ?_⟩ <;> decide +kernel

theorem wit_tw_stuck (h : Obligations.TwoWireTargetHoldsOneRequest) :
    ∃ t, exec (.sclStuckTimeout) (run) = .next t :=
  ⟨_, (h run []).2.2.2.2.1⟩

theorem wit_tw_alert (h : Obligations.TwoWireTargetHoldsOneRequest) :
    ∃ t, exec (.alertResponseRead) ((run.set Obj.twAlertEnable 0 2).set Obj.intPinCause 0 2) = .next t :=
  ⟨_, (h ((run.set Obj.twAlertEnable 0 2).set Obj.intPinCause 0 2) []).2.2.2.2.2 (by decide +kernel)⟩

theorem wit_pcie_reset (h : Obligations.EndpointResetsAndVectorsClear) :
    ∃ t, exec (.pcieReset .linkLoss) (asks (readReq 7 0 0 0) run) = .next t :=
  next_of ((h.1 (asks (readReq 7 0 0 0) run) .linkLoss).1)

theorem wit_perst_low (h : Obligations.EndpointResetsAndVectorsClear) :
    ∃ t, exec (.pciePerst false) (run) = .next t :=
  next_of ((h.1 run .linkLoss).2.1)

theorem wit_perst_high (h : Obligations.EndpointResetsAndVectorsClear) :
    ∃ t, exec (.pciePerst true) (run) = .next t := by
  refine ⟨_, (h.1 run .linkLoss).2.2.1 ?_ ?_ ?_ ?_⟩ <;> decide +kernel

theorem wit_perst_high_held (h : Obligations.EndpointResetsAndVectorsClear) :
    ∃ t, exec (.pciePerst true) State.reset = .next t :=
  ⟨_, (h.1 State.reset .linkLoss).2.2.2.1 rfl⟩

theorem wit_pcie_link_down (h : Obligations.EndpointResetsAndVectorsClear) :
    ∃ t, exec (.pcieLinkDown) (late 5000 (run.withHost { run.host with lostAt := some 1, perstHigh := true })) = .next t := by
  refine (fun ⟨_, _, _, _, _, h⟩ => ⟨_, h⟩)
    ((h.1 (late 5000 (run.withHost { run.host with lostAt := some 1, perstHigh := true })) .linkLoss).2.2.2.2 1 ?_ ?_) <;> decide +kernel

theorem wit_vector_clear (h : Obligations.EndpointResetsAndVectorsClear) :
    ∃ t, exec (.vectorCauseClear true 0x80000001) (run.withHost { run.host with vectorCause := 2 ^ 64 - 1 }) = .next t :=
  next_of ((h.2 (run.withHost { run.host with vectorCause := 2 ^ 64 - 1 })).1 true 0x80000001 (by decide +kernel))

theorem wit_msix_unmask (h : Obligations.EndpointResetsAndVectorsClear) :
    ∃ t, exec (.msixUnmask 63) (run.withHost { run.host with msixEnabled := true, pba := 2 ^ 63 }) = .next t := by
  refine next_of ((h.2 (run.withHost { run.host with msixEnabled := true, pba := 2 ^ 63 })).2 63 ?_ ?_ ?_) <;> decide +kernel

theorem wit_bar2_read (h : Obligations.QuayWindowObeysBollards) :
    ∃ t, exec (.hostBar2Read 0xFFFFFFF) (run) = .next t := by
  refine ⟨_, ((h.1 run 0xFFFFFFF 0x01020304 _ rfl ?_).1 ?_).1 ?_⟩ <;> decide +kernel

theorem wit_bar2_write (h : Obligations.QuayWindowObeysBollards) :
    ∃ t, exec (.hostBar2Write 0xFFFFFFF 0x01020304) (run) = .next t := by
  refine next_of (((h.1 run 0xFFFFFFF 0x01020304 _ rfl ?_).1 ?_).2) <;> decide +kernel

theorem wit_bar2_read_owned (h : Obligations.QuayWindowObeysBollards) :
    ∃ t, exec (.hostBar2Read 0x1FFF) (ringed 20 2 run) = .next t := by
  refine ⟨_, ((h.1 (ringed 20 2 run) 0x1FFF 0x01020304 _ rfl ?_).2 ?_).1⟩ <;> decide +kernel

theorem wit_bar2_write_owned (h : Obligations.QuayWindowObeysBollards) :
    ∃ t, exec (.hostBar2Write 0x1FFF 0x01020304) (ringed 20 2 run) = .next t := by
  refine ⟨_, ((h.1 (ringed 20 2 run) 0x1FFF 0x01020304 _ rfl ?_).2 ?_).2⟩ <;> decide +kernel

theorem wit_bollard_give (h : Obligations.QuayWindowObeysBollards) :
    ∃ t, exec (.bollardGive 0x00020007) (run) = .next t :=
  (fun ⟨_, h, _⟩ => ⟨_, h⟩) (h.2.2 run 0x00020007 (by decide +kernel))

theorem wit_bollard_give_none (h : Obligations.QuayWindowObeysBollards) :
    ∃ t, exec (.bollardGive 0x0000FFFF) (run) = .next t :=
  ⟨_, h.2.1 run 0x0000FFFF (by decide +kernel)⟩

theorem wit_ring_flush (h : Obligations.RingsFlushAndStop) :
    ∃ t, exec (.ringFlush 12) (late 2000000000 ((ringed 12 2 run).setRing 12 { page := 1, byte := 64, firstAt := some 0 })) = .next t := by
  refine next_of ((h.1 (late 2000000000 ((ringed 12 2 run).setRing 12 { page := 1, byte := 64, firstAt := some 0 })) 12).1 0 ?_ ?_ ?_ ?_ ?_ ?_) <;> decide +kernel

theorem wit_ring_disable (h : Obligations.RingsFlushAndStop) :
    ∃ t, exec (.ringDisable mb 28) (writes 0x7010 2 28 [0, 0] run) = .next t := by
  refine ⟨_, (h.1 (writes 0x7010 2 28 [0, 0] run) 28).2 mb ⟨⟨?_, ?_, ?_, ?_, ?_, ?_, ?_, ?_⟩, ?_, .inl ?_⟩ ?_⟩ <;> decide +kernel

theorem wit_ring_disabled (h : Obligations.RingsFlushAndStop) :
    (ringPagesWritten 20 0 logged).ringPos 20 = {} :=
  (h.2.1 logged 20 (by decide +kernel)).2.1

theorem wit_lock_broken (h : Obligations.RingsFlushAndStop) :
    ∃ t, exec (.lockBroken 0x10 3 5) (late 2000000000 (run.withHost { run.host with locks := [(lockKey 0x10 3 5, { ring := 21, since := 0 })] })) = .next t := by
  refine ⟨_, (h.2.2 (late 2000000000 (run.withHost { run.host with locks := [(lockKey 0x10 3 5, { ring := 21, since := 0 })] })) 0x10 3 5 { ring := 21, since := 0 } ?_ ?_).1⟩ <;> decide +kernel

/-- Port 40 (deck 1) as a port of its own, in a link state. -/
def port40 (st : Nat) (l : PortLink) : State :=
  ((run.set Obj.lanePortMode 40 0x10).set Obj.linkState 40 st).setLink 40 l

theorem wit_rx_fault (h : Obligations.LinkStateFollowsReceivePath) :
    ∃ t, exec (.rxFaultBegin 40 .remoteFault) (port40 2 { fault := some (1, 5) }) = .next t :=
  next_of ((h.1 (port40 2 { fault := some (1, 5) }) 40 _ rfl).1 .remoteFault)

theorem wit_training_failed (h : Obligations.LinkStateFollowsReceivePath) :
    ∃ t, exec (.trainingFailed 40) (port40 1 { aligned := some 5 }) = .next t :=
  next_of ((h.1 (port40 1 { aligned := some 5 }) 40 _ rfl).2.1)

theorem wit_alignment (h : Obligations.LinkStateFollowsReceivePath) :
    ∃ t, exec (.alignmentAcquired 40) (port40 1 { fault := some (1, 5) }) = .next t :=
  next_of ((h.1 (port40 1 { fault := some (1, 5) }) 40 _ rfl).2.2.1 (by decide +kernel))

theorem wit_link_down (h : Obligations.LinkStateFollowsReceivePath) :
    ∃ t, exec (.linkDown 40) (late 100000000 (port40 2 { fault := some (4, 0) })) = .next t := by
  refine (fun ⟨_, _, _, _, h⟩ => ⟨_, h⟩) ((h.1 (late 100000000 (port40 2 { fault := some (4, 0) })) 40 _ rfl).2.2.2.1 4 0 ?_ ?_ ?_) <;> decide +kernel

theorem wit_link_up (h : Obligations.LinkStateFollowsReceivePath) :
    ∃ t, exec (.linkUp 40) (late 2000000000 (port40 4 { fault := none, aligned := some 0 })) = .next t := by
  refine (fun ⟨_, _, h, _⟩ => ⟨_, h⟩) ((h.1 (late 2000000000 (port40 4 { fault := none, aligned := some 0 })) 40 _ rfl).2.2.2.2.1 0 ?_ ?_ ?_ ?_ ?_ ?_) <;> decide +kernel

theorem wit_hold_expired (h : Obligations.LinkStateFollowsReceivePath) :
    ∃ t, exec (.holdExpired 40) (late 2000000000 (port40 3 { downAt := some 0 })) = .next t := by
  refine ⟨_, (h.1 (late 2000000000 (port40 3 { downAt := some 0 })) 40 _ rfl).2.2.2.2.2 ?_ fun _ e => (Option.some.inj e ▸ ?_)⟩ <;> decide +kernel

theorem wit_link_resumes (h : Obligations.LinkStateFollowsReceivePath) :
    ∃ t, exec (.linkUp 40) (late 2000000000 ((port40 3 { fault := none, aligned := some 0, downAt := some 1999999999 }).set Obj.linkHoldNs 40 1000000)) = .next t := by
  refine (fun ⟨_, h, _⟩ => ⟨_, h⟩) (h.2 (late 2000000000 ((port40 3 { fault := none, aligned := some 0, downAt := some 1999999999 }).set Obj.linkHoldNs 40 1000000)) 40 0 1999999999 ?_ ?_ ?_ ?_ ?_ ?_ ?_ ?_) <;> decide +kernel

theorem wit_lpi_enter (h : Obligations.PortTimersAndMacControl) :
    ∃ t, exec (.lpiEnter 40) (late 2000000000 ((port40 2 {}).set Obj.eeeMode 40 1)) = .next t := by
  refine ⟨_, (h.1 (late 2000000000 ((port40 2 {}).set Obj.eeeMode 40 1)) 40 _ rfl).1 ?_ ?_ ?_ ?_ ?_ ?_ ?_⟩ <;> decide +kernel

theorem wit_lpi_wake (h : Obligations.PortTimersAndMacControl) :
    ∃ t, exec (.lpiWakeDone 40) (late 5 (port40 2 { wakeAt := some 5 })) = .next t := by
  refine ⟨_, (h.1 (late 5 (port40 2 { wakeAt := some 5 })) 40 _ rfl).2.1 5 ?_ ?_⟩ <;> decide +kernel

theorem wit_pause_over (h : Obligations.PortTimersAndMacControl) :
    ∃ t, exec (.pfcPauseExpired 40 7) (late 5 (port40 2 { paused := [(7, 5)] })) = .next t := by
  refine ⟨_, (h.1 (late 5 (port40 2 { paused := [(7, 5)] })) 40 _ rfl).2.2.1 7 5 ?_ ?_⟩ <;> decide +kernel

theorem wit_fec (h : Obligations.PortTimersAndMacControl) :
    ∃ t, exec (.fecUncorrected 40 3 1) ((port40 2 { fault := none, aligned := some 0 }).set Obj.lanePortMode 40 0x11) = .next t := by
  refine (fun ⟨_, _, h⟩ => ⟨_, h⟩) ((h.1 ((port40 2 { fault := none, aligned := some 0 }).set Obj.lanePortMode 40 0x11) 40 _ rfl).2.2.2.1 3 1 ?_ ?_ ?_) <;> decide +kernel

theorem wit_mac_control (h : Obligations.PortTimersAndMacControl) :
    ∃ t, exec (.macControlRx 40 (List.replicate 60 0)) (port40 2 {}) = .next t := by
  refine ⟨_, (h.1 (port40 2 {}) 40 _ rfl).2.2.2.2.1 (List.replicate 60 0) ?_ ?_⟩ <;> decide +kernel

theorem wit_link_hold (h : Obligations.PortTimersAndMacControl) :
    ∃ t, exec (.linkHoldNsWrite mb 40 10000000000) (writes 0x1204 0 40 (leBytes 8 10000000000) (port40 3 { downAt := some 0 })) = .next t := by
  refine ⟨_, (h.1 (writes 0x1204 0 40 (leBytes 8 10000000000) (port40 3 { downAt := some 0 })) 40 _ rfl).2.2.2.2.2 mb 10000000000 ⟨⟨?_, ?_, ?_, ?_, ?_, ?_, ?_, ?_⟩, ?_, .inl ?_⟩ ?_⟩ <;> decide +kernel

theorem wit_pfc (h : Obligations.PortTimersAndMacControl) :
    ∃ t, exec (.macControlRx 40 (List.replicate 14 0 ++ [1, 1, 0, 0x83] ++ [0, 9, 0, 0] ++ List.replicate 30 5)) ((port40 2 { paused := [(1, 99), (3, 50)] }).set Obj.pfcRxEnable 40 0xFF) = .next t := by
  refine next_of (h.2 ((port40 2 { paused := [(1, 99), (3, 50)] }).set Obj.pfcRxEnable 40 0xFF) 40 (List.replicate 14 0 ++ [1, 1, 0, 0x83] ++ [0, 9, 0, 0] ++ List.replicate 30 5) _ _ ?_ ?_ rfl rfl) <;> decide +kernel

/-- A frame of 300 bytes from port 0. -/
def frm : Frame := { inPort := 0, data := 0x46 :: List.replicate 299 3, rxTime := 0, rxTick := 0 }

/-- A frame with the stated stage, as frame 1. -/
def frameAt (x : Frame) (s : State) : State := { s.setFrame 1 x with nextFrame := 2 }

/-- A word of the control store. -/
def mw (op dst a b imm rest : Nat) : MicroWord :=
  BitVec.ofNat 128 (op * 2 ^ 122 + dst * 2 ^ 118 + a * 2 ^ 114 + b * 2 ^ 110 + imm * 2 ^ 94 + rest)

/-- Engine 0 with frame 1. -/
def eng : Engine :=
  { freshEngine 1 false false 0 128 240 48 false with regs := (List.range 16).map fun i => BitVec.ofNat 32 (i * 0x11111111) }

/-- Engine 0 at a word. -/
def atWord (x : Engine) (w : MicroWord) : State :=
  (setCtl (State.fetchKey 0 x) { word := w } (frameAt { frm with stage := .parsing 0 } run)).setEngine 0 x

theorem wit_reg_micronop (h : Obligations.RegisterOperationsGiveTheirValues) :
    ∃ t, exec (.microNop 0) (atWord eng (mw 0 15 15 1 0xFFFF 0)) = .next t := by
  refine next_of ((h 0 eng (mw 0 15 15 1 0xFFFF 0) (atWord eng (mw 0 15 15 1 0xFFFF 0)) _ _ _ _ rfl rfl rfl rfl).1 ⟨?_, ?_, ?_, ?_, ?_, ?_, ?_, ?_, ?_⟩) <;> decide +kernel

theorem wit_reg_movi (h : Obligations.RegisterOperationsGiveTheirValues) :
    ∃ t, exec (.movi 0) (atWord eng (mw 2 15 15 1 0xFFFF 0)) = .next t := by
  refine next_of ((h 0 eng (mw 2 15 15 1 0xFFFF 0) (atWord eng (mw 2 15 15 1 0xFFFF 0)) _ _ _ _ rfl rfl rfl rfl).2.1 ⟨?_, ?_, ?_, ?_, ?_, ?_, ?_, ?_, ?_⟩) <;> decide +kernel

theorem wit_reg_movhi (h : Obligations.RegisterOperationsGiveTheirValues) :
    ∃ t, exec (.movhi 0) (atWord eng (mw 3 15 15 1 0xFFFF 0)) = .next t := by
  refine next_of ((h 0 eng (mw 3 15 15 1 0xFFFF 0) (atWord eng (mw 3 15 15 1 0xFFFF 0)) _ _ _ _ rfl rfl rfl rfl).2.2.1 ⟨?_, ?_, ?_, ?_, ?_, ?_, ?_, ?_, ?_⟩) <;> decide +kernel

theorem wit_reg_add (h : Obligations.RegisterOperationsGiveTheirValues) :
    ∃ t, exec (.add 0) (atWord eng (mw 4 15 15 1 0xFFFF 0)) = .next t := by
  refine next_of ((h 0 eng (mw 4 15 15 1 0xFFFF 0) (atWord eng (mw 4 15 15 1 0xFFFF 0)) _ _ _ _ rfl rfl rfl rfl).2.2.2.1 ⟨?_, ?_, ?_, ?_, ?_, ?_, ?_, ?_, ?_⟩) <;> decide +kernel

theorem wit_reg_addi (h : Obligations.RegisterOperationsGiveTheirValues) :
    ∃ t, exec (.addi 0) (atWord eng (mw 5 15 15 1 0xFFFF 0)) = .next t := by
  refine next_of ((h 0 eng (mw 5 15 15 1 0xFFFF 0) (atWord eng (mw 5 15 15 1 0xFFFF 0)) _ _ _ _ rfl rfl rfl rfl).2.2.2.2.1 ⟨?_, ?_, ?_, ?_, ?_, ?_, ?_, ?_, ?_⟩) <;> decide +kernel

theorem wit_reg_sub (h : Obligations.RegisterOperationsGiveTheirValues) :
    ∃ t, exec (.sub 0) (atWord eng (mw 6 15 15 1 0xFFFF 0)) = .next t := by
  refine next_of ((h 0 eng (mw 6 15 15 1 0xFFFF 0) (atWord eng (mw 6 15 15 1 0xFFFF 0)) _ _ _ _ rfl rfl rfl rfl).2.2.2.2.2.1 ⟨?_, ?_, ?_, ?_, ?_, ?_, ?_, ?_, ?_⟩) <;> decide +kernel

theorem wit_reg_and (h : Obligations.RegisterOperationsGiveTheirValues) :
    ∃ t, exec (.and 0) (atWord eng (mw 7 15 15 1 0xFFFF 0)) = .next t := by
  refine next_of ((h 0 eng (mw 7 15 15 1 0xFFFF 0) (atWord eng (mw 7 15 15 1 0xFFFF 0)) _ _ _ _ rfl rfl rfl rfl).2.2.2.2.2.2.1 ⟨?_, ?_, ?_, ?_, ?_, ?_, ?_, ?_, ?_⟩) <;> decide +kernel

theorem wit_reg_or (h : Obligations.RegisterOperationsGiveTheirValues) :
    ∃ t, exec (.or 0) (atWord eng (mw 8 15 15 1 0xFFFF 0)) = .next t := by
  refine next_of ((h 0 eng (mw 8 15 15 1 0xFFFF 0) (atWord eng (mw 8 15 15 1 0xFFFF 0)) _ _ _ _ rfl rfl rfl rfl).2.2.2.2.2.2.2.1 ⟨?_, ?_, ?_, ?_, ?_, ?_, ?_, ?_, ?_⟩) <;> decide +kernel

theorem wit_reg_xor (h : Obligations.RegisterOperationsGiveTheirValues) :
    ∃ t, exec (.xor 0) (atWord eng (mw 9 15 15 1 0xFFFF 0)) = .next t := by
  refine next_of ((h 0 eng (mw 9 15 15 1 0xFFFF 0) (atWord eng (mw 9 15 15 1 0xFFFF 0)) _ _ _ _ rfl rfl rfl rfl).2.2.2.2.2.2.2.2.1 ⟨?_, ?_, ?_, ?_, ?_, ?_, ?_, ?_, ?_⟩) <;> decide +kernel

theorem wit_reg_andi (h : Obligations.RegisterOperationsGiveTheirValues) :
    ∃ t, exec (.andi 0) (atWord eng (mw 10 15 15 1 0xFFFF 0)) = .next t := by
  refine next_of ((h 0 eng (mw 10 15 15 1 0xFFFF 0) (atWord eng (mw 10 15 15 1 0xFFFF 0)) _ _ _ _ rfl rfl rfl rfl).2.2.2.2.2.2.2.2.2.1 ⟨?_, ?_, ?_, ?_, ?_, ?_, ?_, ?_, ?_⟩) <;> decide +kernel

theorem wit_reg_ori (h : Obligations.RegisterOperationsGiveTheirValues) :
    ∃ t, exec (.ori 0) (atWord eng (mw 11 15 15 1 0xFFFF 0)) = .next t := by
  refine next_of ((h 0 eng (mw 11 15 15 1 0xFFFF 0) (atWord eng (mw 11 15 15 1 0xFFFF 0)) _ _ _ _ rfl rfl rfl rfl).2.2.2.2.2.2.2.2.2.2.1 ⟨?_, ?_, ?_, ?_, ?_, ?_, ?_, ?_, ?_⟩) <;> decide +kernel

theorem wit_reg_shl (h : Obligations.RegisterOperationsGiveTheirValues) :
    ∃ t, exec (.shl 0) (atWord eng (mw 12 15 15 1 0xFFFF 0)) = .next t := by
  refine next_of ((h 0 eng (mw 12 15 15 1 0xFFFF 0) (atWord eng (mw 12 15 15 1 0xFFFF 0)) _ _ _ _ rfl rfl rfl rfl).2.2.2.2.2.2.2.2.2.2.2.1 ⟨?_, ?_, ?_, ?_, ?_, ?_, ?_, ?_, ?_⟩) <;> decide +kernel

theorem wit_reg_shr (h : Obligations.RegisterOperationsGiveTheirValues) :
    ∃ t, exec (.shr 0) (atWord eng (mw 13 15 15 1 0xFFFF 0)) = .next t := by
  refine next_of ((h 0 eng (mw 13 15 15 1 0xFFFF 0) (atWord eng (mw 13 15 15 1 0xFFFF 0)) _ _ _ _ rfl rfl rfl rfl).2.2.2.2.2.2.2.2.2.2.2.2.1 ⟨?_, ?_, ?_, ?_, ?_, ?_, ?_, ?_, ?_⟩) <;> decide +kernel

theorem wit_reg_cmp (h : Obligations.RegisterOperationsGiveTheirValues) :
    ∃ t, exec (.cmp 0) (atWord eng (mw 14 15 15 1 0xFFFF 0)) = .next t := by
  refine next_of ((h 0 eng (mw 14 15 15 1 0xFFFF 0) (atWord eng (mw 14 15 15 1 0xFFFF 0)) _ _ _ _ rfl rfl rfl rfl).2.2.2.2.2.2.2.2.2.2.2.2.2.1 ⟨?_, ?_, ?_, ?_, ?_, ?_, ?_, ?_, ?_⟩) <;> decide +kernel

theorem wit_reg_cmpi (h : Obligations.RegisterOperationsGiveTheirValues) :
    ∃ t, exec (.cmpi 0) (atWord eng (mw 15 15 15 1 0xFFFF 0)) = .next t := by
  refine next_of ((h 0 eng (mw 15 15 15 1 0xFFFF 0) (atWord eng (mw 15 15 15 1 0xFFFF 0)) _ _ _ _ rfl rfl rfl rfl).2.2.2.2.2.2.2.2.2.2.2.2.2.2 ⟨?_, ?_, ?_, ?_, ?_, ?_, ?_, ?_, ?_⟩) <;> decide +kernel

theorem wit_extract (h : Obligations.HeaderAndEditOperations) :
    ∃ t, exec (.extract 0) (atWord eng (mw 1 3 0 0 0 (100 * 2 ^ 85 + 7 * 2 ^ 82 + 31 * 2 ^ 77))) = .next t := by
  refine next_of ((h.1 0 eng (mw 1 3 0 0 0 (100 * 2 ^ 85 + 7 * 2 ^ 82 + 31 * 2 ^ 77)) (atWord eng (mw 1 3 0 0 0 (100 * 2 ^ 85 + 7 * 2 ^ 82 + 31 * 2 ^ 77))) frm.data _ rfl).1 ⟨?_, ?_, ?_, ?_, ?_, ?_, ?_, ?_, ?_⟩ ⟨?_, ?_, ?_⟩) <;> decide +kernel

theorem wit_hashadd (h : Obligations.HeaderAndEditOperations) :
    ∃ t, exec (.hashadd 0) (atWord eng (mw 0x11 0 15 0 0 0)) = .next t := by
  refine next_of ((h.1 0 eng (mw 0x11 0 15 0 0 0) (atWord eng (mw 0x11 0 15 0 0 0)) frm.data _ rfl).2.1 ⟨?_, ?_, ?_, ?_, ?_, ?_, ?_, ?_, ?_⟩) <;> decide +kernel

theorem wit_key_l3 (h : Obligations.HeaderAndEditOperations) :
    ∃ t, exec (.keyL3 0) (atWord eng (mw 0x12 0 0 0 0 0)) = .next t := by
  refine next_of ((h.1 0 eng (mw 0x12 0 0 0 0 0) (atWord eng (mw 0x12 0 0 0 0 0)) frm.data _ rfl).2.2.1 ⟨?_, ?_, ?_, ?_, ?_, ?_, ?_, ?_, ?_⟩ 20 ?_ ⟨?_, ?_, ?_⟩ ?_) <;> decide +kernel

theorem wit_key_l4 (h : Obligations.HeaderAndEditOperations) :
    ∃ t, exec (.keyL4 0) (atWord eng (mw 0x13 0 5 0 3 (127 * 2 ^ 85))) = .next t := by
  refine next_of ((h.1 0 eng (mw 0x13 0 5 0 3 (127 * 2 ^ 85)) (atWord eng (mw 0x13 0 5 0 3 (127 * 2 ^ 85))) frm.data _ rfl).2.2.2.1 ⟨?_, ?_, ?_, ?_, ?_, ?_, ?_, ?_, ?_⟩ 2 ?_ ?_) <;> decide +kernel

theorem wit_setres (h : Obligations.HeaderAndEditOperations) :
    ∃ t, exec (.setres 0) (atWord eng (mw 0x14 0 0 0 1 0)) = .next t := by
  refine next_of ((h.1 0 eng (mw 0x14 0 0 0 1 0) (atWord eng (mw 0x14 0 0 0 1 0)) frm.data _ rfl).2.2.2.2.1 ⟨?_, ?_, ?_, ?_, ?_, ?_, ?_, ?_, ?_⟩ _ rfl ?_) <;> decide +kernel

theorem wit_setres_zone (h : Obligations.HeaderAndEditOperations) :
    ∃ t, exec (.setres 0) (atWord eng (mw 0x14 0 15 0 5 0)) = .next t := by
  refine next_of ((h.1 0 eng (mw 0x14 0 15 0 5 0) (atWord eng (mw 0x14 0 15 0 5 0)) frm.data _ rfl).2.2.2.2.1 ⟨?_, ?_, ?_, ?_, ?_, ?_, ?_, ?_, ?_⟩ _ rfl ?_) <;> decide +kernel

theorem wit_mark3 (h : Obligations.HeaderAndEditOperations) :
    ∃ t, exec (.mark 0) (atWord eng (mw 0x15 0 0 0 3 0)) = .next t := by
  refine next_of (((h.1 0 eng (mw 0x15 0 0 0 3 0) (atWord eng (mw 0x15 0 0 0 3 0)) frm.data _ rfl).2.2.2.2.2.1 ⟨?_, ?_, ?_, ?_, ?_, ?_, ?_, ?_, ?_⟩).1 ?_) <;> decide +kernel

theorem wit_mark2 (h : Obligations.HeaderAndEditOperations) :
    ∃ t, exec (.mark 0) (atWord eng (mw 0x15 0 0 0 2 (127 * 2 ^ 85))) = .next t := by
  refine next_of (((h.1 0 eng (mw 0x15 0 0 0 2 (127 * 2 ^ 85)) (atWord eng (mw 0x15 0 0 0 2 (127 * 2 ^ 85))) frm.data _ rfl).2.2.2.2.2.1 ⟨?_, ?_, ?_, ?_, ?_, ?_, ?_, ?_, ?_⟩).2 ?_ ?_) <;> decide +kernel

theorem wit_curset (h : Obligations.HeaderAndEditOperations) :
    ∃ t, exec (.curset 0) (atWord eng (mw 0x1A 0 15 0 0 0)) = .next t := by
  refine next_of ((h.1 0 eng (mw 0x1A 0 15 0 0 0) (atWord eng (mw 0x1A 0 15 0 0 0)) frm.data _ rfl).2.2.2.2.2.2.1 ⟨?_, ?_, ?_, ?_, ?_, ?_, ?_, ?_, ?_⟩) <;> decide +kernel

theorem wit_xwin (h : Obligations.HeaderAndEditOperations) :
    ∃ t, exec (.xwin 0) (atWord eng (mw 0x1B 0 0 0 512 0)) = .next t := by
  refine next_of ((h.1 0 eng (mw 0x1B 0 0 0 512 0) (atWord eng (mw 0x1B 0 0 0 512 0)) frm.data _ rfl).2.2.2.2.2.2.2.1 ⟨?_, ?_, ?_, ?_, ?_, ?_, ?_, ?_, ?_⟩) <;> decide +kernel

theorem wit_rdsave (h : Obligations.HeaderAndEditOperations) :
    ∃ t, exec (.rdsave 0) (atWord { eng with inTrap := true, saved := { regs := eng.regs } } (mw 0x1C 2 0 0 31 0)) = .next t := by
  refine next_of ((h.1 0 { eng with inTrap := true, saved := { regs := eng.regs } } (mw 0x1C 2 0 0 31 0) (atWord { eng with inTrap := true, saved := { regs := eng.regs } } (mw 0x1C 2 0 0 31 0)) frm.data _ rfl).2.2.2.2.2.2.2.2.1 ⟨?_, ?_, ?_, ?_, ?_, ?_, ?_, ?_, ?_⟩) <;> decide +kernel

theorem wit_wrsave (h : Obligations.HeaderAndEditOperations) :
    ∃ t, exec (.wrsave 0) (atWord { eng with inTrap := true, saved := { regs := eng.regs } } (mw 0x1D 0 4 0 0 0)) = .next t := by
  refine next_of ((h.1 0 { eng with inTrap := true, saved := { regs := eng.regs } } (mw 0x1D 0 4 0 0 0) (atWord { eng with inTrap := true, saved := { regs := eng.regs } } (mw 0x1D 0 4 0 0 0)) frm.data _ rfl).2.2.2.2.2.2.2.2.2 ⟨?_, ?_, ?_, ?_, ?_, ?_, ?_, ?_, ?_⟩) <;> decide +kernel

theorem wit_rewrite (h : Obligations.HeaderAndEditOperations) :
    ∃ t, exec (.rewrite 0) (atWord eng (mw 0x16 0 15 0 0 (5 * 2 ^ 85 + 11 * 2 ^ 77))) = .next t := by
  refine next_of ((h.2 0 eng (mw 0x16 0 15 0 0 (5 * 2 ^ 85 + 11 * 2 ^ 77)) (atWord eng (mw 0x16 0 15 0 0 (5 * 2 ^ 85 + 11 * 2 ^ 77))) frm.data ?_).1 ⟨?_, ?_, ?_, ?_, ?_, ?_, ?_, ?_, ?_⟩ ⟨?_, ?_, ?_⟩ ?_) <;> decide +kernel

theorem wit_push (h : Obligations.HeaderAndEditOperations) :
    ∃ t, exec (.push 0) (atWord eng (mw 0x17 0 14 0 63 (127 * 2 ^ 85))) = .next t := by
  refine next_of ((h.2 0 eng (mw 0x17 0 14 0 63 (127 * 2 ^ 85)) (atWord eng (mw 0x17 0 14 0 63 (127 * 2 ^ 85))) frm.data ?_).2.1 ⟨?_, ?_, ?_, ?_, ?_, ?_, ?_, ?_, ?_⟩ _ rfl ?_ ?_ (by simp [eng, freshEngine])) <;> decide +kernel

theorem wit_pop (h : Obligations.HeaderAndEditOperations) :
    ∃ t, exec (.pop 0) (atWord eng (mw 0x18 0 0 0 127 0)) = .next t := by
  refine next_of ((h.2 0 eng (mw 0x18 0 0 0 127 0) (atWord eng (mw 0x18 0 0 0 127 0)) frm.data ?_).2.2.1 ⟨?_, ?_, ?_, ?_, ?_, ?_, ?_, ?_, ?_⟩ _ rfl ?_ (by simp [eng, freshEngine])) <;> decide +kernel

theorem wit_csum4 (h : Obligations.HeaderAndEditOperations) :
    ∃ t, exec (.csum4 0) (atWord eng (mw 0x19 0 0 0 0 0)) = .next t := by
  refine next_of ((h.2 0 eng (mw 0x19 0 0 0 0 0) (atWord eng (mw 0x19 0 0 0 0 0)) frm.data ?_).2.2.2 ⟨?_, ?_, ?_, ?_, ?_, ?_, ?_, ?_, ?_⟩ ⟨?_, ?_, ?_⟩ ?_ ?_) <;> decide +kernel

theorem wit_branch (h : Obligations.SequencingTrapsAndEnds) :
    ∃ t, exec (.branch 0) ((frameAt { frm with stage := .parsing 0 } run).setEngine 0 { eng with done := some ((mw 0 0 0 0 0 (0 * 2 ^ 61 + 8191 * 2 ^ 19)), 0, true, 511), cursor := 1000 }) = .next t := by
  refine next_of ((h.1 0 ({ eng with done := some ((mw 0 0 0 0 0 (0 * 2 ^ 61 + 8191 * 2 ^ 19)), 0, true, 511), cursor := 1000 }) (((frameAt { frm with stage := .parsing 0 } run).setEngine 0 { eng with done := some ((mw 0 0 0 0 0 (0 * 2 ^ 61 + 8191 * 2 ^ 19)), 0, true, 511), cursor := 1000 })) _ _ _ _ _ _ ?_ rfl rfl rfl).1 ?_) <;> decide +kernel

theorem wit_call (h : Obligations.SequencingTrapsAndEnds) :
    ∃ t, exec (.call 0) ((frameAt { frm with stage := .parsing 0 } run).setEngine 0 { eng with done := some ((mw 0 0 0 0 0 (1 * 2 ^ 61 + 8191 * 2 ^ 19)), 0, true, 511), cursor := 1000, stack := [1, 2, 3] }) = .next t := by
  refine next_of ((h.1 0 ({ eng with done := some ((mw 0 0 0 0 0 (1 * 2 ^ 61 + 8191 * 2 ^ 19)), 0, true, 511), cursor := 1000, stack := [1, 2, 3] }) (((frameAt { frm with stage := .parsing 0 } run).setEngine 0 { eng with done := some ((mw 0 0 0 0 0 (1 * 2 ^ 61 + 8191 * 2 ^ 19)), 0, true, 511), cursor := 1000, stack := [1, 2, 3] })) _ _ _ _ _ _ ?_ rfl rfl rfl).2.1 ?_ ?_) <;> decide +kernel

theorem wit_ret (h : Obligations.SequencingTrapsAndEnds) :
    ∃ t, exec (.ret 0) ((frameAt { frm with stage := .parsing 0 } run).setEngine 0 { eng with done := some ((mw 0 0 0 0 0 (2 * 2 ^ 61 + 8191 * 2 ^ 19)), 0, true, 511), cursor := 1000, stack := [7, 1] }) = .next t := by
  refine next_of ((h.1 0 ({ eng with done := some ((mw 0 0 0 0 0 (2 * 2 ^ 61 + 8191 * 2 ^ 19)), 0, true, 511), cursor := 1000, stack := [7, 1] }) (((frameAt { frm with stage := .parsing 0 } run).setEngine 0 { eng with done := some ((mw 0 0 0 0 0 (2 * 2 ^ 61 + 8191 * 2 ^ 19)), 0, true, 511), cursor := 1000, stack := [7, 1] })) _ _ _ _ _ _ ?_ rfl rfl rfl).2.2.1 ?_ ?_ ?_ 7 [1] rfl) <;> decide +kernel

theorem wit_end (h : Obligations.SequencingTrapsAndEnds) :
    ∃ t, exec (.end_ 0) ((frameAt { frm with stage := .parsing 0 } run).setEngine 0 { eng with done := some ((mw 0 0 0 0 0 (3 * 2 ^ 61 + 8191 * 2 ^ 19)), 0, true, 511), cursor := 1000 }) = .next t := by
  refine ⟨_, (h.1 0 ({ eng with done := some ((mw 0 0 0 0 0 (3 * 2 ^ 61 + 8191 * 2 ^ 19)), 0, true, 511), cursor := 1000 }) (((frameAt { frm with stage := .parsing 0 } run).setEngine 0 { eng with done := some ((mw 0 0 0 0 0 (3 * 2 ^ 61 + 8191 * 2 ^ 19)), 0, true, 511), cursor := 1000 })) _ _ _ _ _ _ ?_ rfl rfl rfl).2.2.2.1 ?_ (.inr ?_)⟩ <;> decide +kernel

theorem wit_trap_return (h : Obligations.SequencingTrapsAndEnds) :
    ∃ t, exec (.trapReturn 0) ((frameAt { frm with stage := .parsing 0 } run).setEngine 0 { eng with done := some ((mw 0 0 0 0 0 (4 * 2 ^ 61 + 8191 * 2 ^ 19)), 0, true, 511), cursor := 1000, inTrap := true, saved := { pc := 9, regs := eng.regs } }) = .next t := by
  refine next_of ((h.1 0 ({ eng with done := some ((mw 0 0 0 0 0 (4 * 2 ^ 61 + 8191 * 2 ^ 19)), 0, true, 511), cursor := 1000, inTrap := true, saved := { pc := 9, regs := eng.regs } }) (((frameAt { frm with stage := .parsing 0 } run).setEngine 0 { eng with done := some ((mw 0 0 0 0 0 (4 * 2 ^ 61 + 8191 * 2 ^ 19)), 0, true, 511), cursor := 1000, inTrap := true, saved := { pc := 9, regs := eng.regs } })) _ _ _ _ _ _ ?_ rfl rfl rfl).2.2.2.2.1 ?_ ?_) <;> decide +kernel

theorem wit_restart (h : Obligations.SequencingTrapsAndEnds) :
    ∃ t, exec (.restart 0) ((frameAt { frm with stage := .parsing 0 } run).setEngine 0 { eng with done := some ((mw 0 0 0 0 0 (5 * 2 ^ 61 + 8191 * 2 ^ 19)), 0, true, 511), cursor := 1000 }) = .next t := by
  refine ⟨_, (h.1 0 ({ eng with done := some ((mw 0 0 0 0 0 (5 * 2 ^ 61 + 8191 * 2 ^ 19)), 0, true, 511), cursor := 1000 }) (((frameAt { frm with stage := .parsing 0 } run).setEngine 0 { eng with done := some ((mw 0 0 0 0 0 (5 * 2 ^ 61 + 8191 * 2 ^ 19)), 0, true, 511), cursor := 1000 })) _ _ _ _ _ _ ?_ rfl rfl rfl).2.2.2.2.2 ?_ _ rfl⟩ <;> decide +kernel

theorem wit_trap_entry1 (h : Obligations.SequencingTrapsAndEnds) :
    ∃ t, exec (.trapEntry 0) ((frameAt { frm with stage := .parsing 0 } run).setEngine 0 { eng with trap := some (1, 7, 5) }) = .next t := by
  refine ⟨_, (h.2 0 ({ eng with trap := some (1, 7, 5) }) ((frameAt { frm with stage := .parsing 0 } run).setEngine 0 { eng with trap := some (1, 7, 5) }) ?_).1 1 7 5 _ ?_ ?_ ?_ rfl⟩ <;> decide +kernel

theorem wit_trap_entry2 (h : Obligations.SequencingTrapsAndEnds) :
    ∃ t, exec (.trapEntry 0) ((frameAt { frm with stage := .parsing 0 } run).setEngine 0 { eng with trap := some (2, 7, 5) }) = .next t := by
  refine ⟨_, (h.2 0 ({ eng with trap := some (2, 7, 5) }) ((frameAt { frm with stage := .parsing 0 } run).setEngine 0 { eng with trap := some (2, 7, 5) }) ?_).1 2 7 5 _ ?_ ?_ ?_ rfl⟩ <;> decide +kernel

theorem wit_trap_entry3 (h : Obligations.SequencingTrapsAndEnds) :
    ∃ t, exec (.trapEntry 0) ((frameAt { frm with stage := .parsing 0 } run).setEngine 0 { eng with trap := some (3, 7, 5) }) = .next t := by
  refine ⟨_, (h.2 0 ({ eng with trap := some (3, 7, 5) }) ((frameAt { frm with stage := .parsing 0 } run).setEngine 0 { eng with trap := some (3, 7, 5) }) ?_).1 3 7 5 _ ?_ ?_ ?_ rfl⟩ <;> decide +kernel

theorem wit_trap_entry4 (h : Obligations.SequencingTrapsAndEnds) :
    ∃ t, exec (.trapEntry 0) ((frameAt { frm with stage := .parsing 0 } run).setEngine 0 { eng with trap := some (4, 7, 5) }) = .next t := by
  refine ⟨_, (h.2 0 ({ eng with trap := some (4, 7, 5) }) ((frameAt { frm with stage := .parsing 0 } run).setEngine 0 { eng with trap := some (4, 7, 5) }) ?_).1 4 7 5 _ ?_ ?_ ?_ rfl⟩ <;> decide +kernel

theorem wit_cycle_limit (h : Obligations.SequencingTrapsAndEnds) :
    ∃ t, exec (.cycleLimit 0) ((frameAt { frm with stage := .parsing 0 } run).setEngine 0 { eng with cycles := 240 }) = .next t := by
  refine ⟨_, (h.2 0 ({ eng with cycles := 240 }) ((frameAt { frm with stage := .parsing 0 } run).setEngine 0 { eng with cycles := 240 }) ?_).2.1 _ rfl ?_ ?_ ?_⟩ <;> decide +kernel

theorem wit_punt (h : Obligations.SequencingTrapsAndEnds) :
    ∃ t, exec (.punt 0) (atWord eng (mw 0x1E 0 0 0 0x40 0)) = .next t := by
  refine ⟨_, (h.2 0 eng (atWord eng (mw 0x1E 0 0 0 0x40 0)) ?_).2.2.1 (mw 0x1E 0 0 0 0x40 0) ⟨?_, ?_, ?_, ?_, ?_, ?_, ?_, ?_, ?_⟩ ?_ ?_⟩ <;> decide +kernel

theorem wit_drop (h : Obligations.SequencingTrapsAndEnds) :
    ∃ t, exec (.drop 0) (atWord eng (mw 0x1F 0 0 0 0xFF 0)) = .next t := by
  refine ⟨_, (h.2 0 eng (atWord eng (mw 0x1F 0 0 0 0xFF 0)) ?_).2.2.2 (mw 0x1F 0 0 0 0xFF 0) ⟨?_, ?_, ?_, ?_, ?_, ?_, ?_, ?_, ?_⟩ ?_ ?_⟩ <;> decide +kernel

theorem wit_dispatch (h : Obligations.EnginesAreDispatchedAndLookUp) :
    ∃ t, exec (.parseDispatch 1 127) ((frameAt frm run).set Obj.parseEntry 0 8191) = .next t := by
  refine next_of (h.1 1 127 frm ((frameAt frm run).set Obj.parseEntry 0 8191) ?_ ?_ ?_) <;> decide +kernel

theorem wit_lookup (h : Obligations.EnginesAreDispatchedAndLookUp) :
    ∃ t, exec (.lookup 0) (atWord eng (mw 0x10 15 2 0 4 0)) = .next t := by
  refine (fun ⟨_, _, _, _, _, t, ht⟩ => ⟨t, ht.1⟩) ((h.2 0 eng (atWord eng (mw 0x10 15 2 0 4 0))).1 (mw 0x10 15 2 0 4 0) 2 (1, 2) ⟨?_, ?_, ?_, ?_, ?_, ?_, ?_, ?_, ?_⟩ ?_ ?_ ?_ ?_ ?_ ?_) <;> decide +kernel

theorem wit_lookup_result (h : Obligations.EnginesAreDispatchedAndLookUp) :
    ∃ t, exec (.lookupResult 0 15) ((frameAt { frm with stage := .parsing 0 } run).setEngine 0 { eng with lookups := [{ first := 15, count := 2, result := [1, 2], issued := 0 }], total := 48 }) = .next t := by
  refine ⟨_, ((h.2 0 ({ eng with lookups := [{ first := 15, count := 2, result := [1, 2], issued := 0 }], total := 48 }) ((frameAt { frm with stage := .parsing 0 } run).setEngine 0 { eng with lookups := [{ first := 15, count := 2, result := [1, 2], issued := 0 }], total := 48 })).2 15 { first := 15, count := 2, result := [1, 2], issued := 0 } ?_ ?_ ?_).1 ?_⟩ <;> decide +kernel

theorem wit_lookup_timeout (h : Obligations.EnginesAreDispatchedAndLookUp) :
    ∃ t, exec (.lookupTimeout 0 15) ((frameAt { frm with stage := .parsing 0 } run).setEngine 0 { eng with lookups := [{ first := 15, count := 2, result := [1, 2], issued := 0 }], total := 48 }) = .next t := by
  refine ⟨_, ((h.2 0 ({ eng with lookups := [{ first := 15, count := 2, result := [1, 2], issued := 0 }], total := 48 }) ((frameAt { frm with stage := .parsing 0 } run).setEngine 0 { eng with lookups := [{ first := 15, count := 2, result := [1, 2], issued := 0 }], total := 48 })).2 15 { first := 15, count := 2, result := [1, 2], issued := 0 } ?_ ?_ ?_).2 ?_ ?_ ?_ ?_⟩ <;> decide +kernel

theorem wit_first_cell (h : Obligations.FrameCellsArriveAndTailsAreCounted) :
    ∃ t, exec (.frameFirstCell 40 frm.data) (port40 2 {}) = .next t := by
  refine (fun ⟨_, _, _, _, h⟩ => ⟨_, h⟩) ((h.1 (port40 2 {})).1 40 frm.data ?_ ?_ ?_ ?_) <;> decide +kernel

theorem wit_cell_truncated (h : Obligations.FrameCellsArriveAndTailsAreCounted) :
    ∃ t, exec (.frameCell 1 [2]) (frameAt { frm with truncated := some [1], tag := none } run) = .next t :=
  ⟨_, (h.1 (frameAt { frm with truncated := some [1], tag := none } run)).2.1 1 _ [2] [1] rfl (by decide +kernel) rfl⟩

theorem wit_cell_landed (h : Obligations.FrameCellsArriveAndTailsAreCounted) :
    ∃ t, exec (.frameCell 1 [2]) (frameAt { frm with stage := .landing } run) = .next t := by
  refine ⟨_, (h.1 (frameAt { frm with stage := .landing } run)).2.2 1 _ [2] rfl ?_ ?_ ?_⟩ <;> decide +kernel

theorem wit_tail_good (h : Obligations.FrameCellsArriveAndTailsAreCounted) :
    ∃ t, exec (.frameTailRx 1 (BitVec.ofNat 32 (fcs32 (List.replicate 60 3)))) (frameAt { frm with data := List.replicate 60 3, stage := .parsing 0 } (run.set Obj.maxFrameBytes 0 299)) = .next t := by
  refine next_of (h.2 (frameAt { frm with data := List.replicate 60 3, stage := .parsing 0 } (run.set Obj.maxFrameBytes 0 299)) 1 _ (BitVec.ofNat 32 (fcs32 (List.replicate 60 3))) rfl ?_ ?_ ?_ ?_ ?_) <;> decide +kernel

theorem wit_tail_fcs (h : Obligations.FrameCellsArriveAndTailsAreCounted) :
    ∃ t, exec (.frameTailRx 1 (BitVec.ofNat 32 (0))) (frameAt { frm with data := List.replicate 59 3, stage := .parsing 0 } (run.set Obj.maxFrameBytes 0 299)) = .next t := by
  refine next_of (h.2 (frameAt { frm with data := List.replicate 59 3, stage := .parsing 0 } (run.set Obj.maxFrameBytes 0 299)) 1 _ (BitVec.ofNat 32 (0)) rfl ?_ ?_ ?_ ?_ ?_) <;> decide +kernel

theorem wit_tail_big (h : Obligations.FrameCellsArriveAndTailsAreCounted) :
    ∃ t, exec (.frameTailRx 1 (BitVec.ofNat 32 (fcs32 (List.replicate 300 3)))) (frameAt { frm with data := List.replicate 300 3, stage := .parsing 0 } (run.set Obj.maxFrameBytes 0 299)) = .next t := by
  refine next_of (h.2 (frameAt { frm with data := List.replicate 300 3, stage := .parsing 0 } (run.set Obj.maxFrameBytes 0 299)) 1 _ (BitVec.ofNat 32 (fcs32 (List.replicate 300 3))) rfl ?_ ?_ ?_ ?_ ?_) <;> decide +kernel

theorem wit_tail_runt (h : Obligations.FrameCellsArriveAndTailsAreCounted) :
    ∃ t, exec (.frameTailRx 1 (BitVec.ofNat 32 (fcs32 (List.replicate 59 3)))) (frameAt { frm with data := List.replicate 59 3, stage := .parsing 0 } (run.set Obj.maxFrameBytes 0 299)) = .next t := by
  refine next_of (h.2 (frameAt { frm with data := List.replicate 59 3, stage := .parsing 0 } (run.set Obj.maxFrameBytes 0 299)) 1 _ (BitVec.ofNat 32 (fcs32 (List.replicate 59 3))) rfl ?_ ?_ ?_ ?_ ?_) <;> decide +kernel

theorem wit_ctl_repair_1 (h : Obligations.ControlStoresAndClustersAreRepaired) :
    ∃ t, exec (.controlStoreRepair 63 true 8191) (setCtl (storeKey 63 true 8191) { word := 5, ecc := .corrected, seen := true } run) = .next t := by
  refine next_of (((h.1 (setCtl (storeKey 63 true 8191) { word := 5, ecc := .corrected, seen := true } run)).1 63 true 8191 _ rfl).1 ?_) <;> decide +kernel

theorem wit_ctl_repair_2 (h : Obligations.ControlStoresAndClustersAreRepaired) :
    ∃ t, exec (.controlStoreRepair 0 false 0) (setCtl (storeKey 0 false 0) { word := 5, ecc := .uncorrectable, seen := true } run) = .next t := by
  refine next_of (((h.1 (setCtl (storeKey 0 false 0) { word := 5, ecc := .uncorrectable, seen := true } run)).1 0 false 0 _ rfl).2 ?_ ?_) <;> decide +kernel

theorem wit_scrub (h : Obligations.ControlStoresAndClustersAreRepaired) :
    ∃ t, exec (.scrubPass 7) (late 1250000 (run.set Obj.scrubPeriodMs 7 1)) = .next t := by
  refine (fun ⟨_, _, h⟩ => ⟨_, h⟩) ((h.1 (late 1250000 (run.set Obj.scrubPeriodMs 7 1))).2.1 7 ?_ ?_) <;> decide +kernel

theorem wit_ucode_load (h : Obligations.ControlStoresAndClustersAreRepaired) :
    ∃ t, exec (.ucodeLoad mb 7 (65535 * 2 ^ 32 + 240)) (writes 0x2130 0 7 (leBytes 8 (65535 * 2 ^ 32 + 240)) (ringed 0 0 run |>.setBollard 65535 1)) = .next t := by
  refine ⟨_, (h.1 (writes 0x2130 0 7 (leBytes 8 (65535 * 2 ^ 32 + 240)) (ringed 0 0 run |>.setBollard 65535 1))).2.2.1 mb 7 (65535 * 2 ^ 32 + 240) _ rfl ⟨⟨?_, ?_, ?_, ?_, ?_, ?_, ?_, ?_⟩, ?_, .inl ?_⟩ ?_ ?_ ?_ ?_ ?_⟩ <;> decide +kernel

theorem wit_ucode_loaded (h : Obligations.ControlStoresAndClustersAreRepaired) :
    ∃ t, exec (.ucodeLoaded 7 []) (run.withParse { run.parse with jobs := [(7, { aft := true, first := 0, bytes := 240 })] }) = .next t :=
  (fun ⟨_, _, _, _, _, _, _, _, h⟩ => ⟨_, h⟩) ((h.1 (run.withParse { run.parse with jobs := [(7, { aft := true, first := 0, bytes := 240 })] })).2.2.2 7 { aft := true, first := 0, bytes := 240 } (by decide +kernel) (by decide +kernel))

theorem wit_fence_client (h : Obligations.ControlStoresAndClustersAreRepaired) :
    ∃ t, exec (.clusterFence (some mb) 63) (writes 0x2121 0 63 [1] run) = .next t := by
  refine ⟨_, (h.2 mb 63 (writes 0x2121 0 63 [1] run)).1 ⟨⟨?_, ?_, ?_, ?_, ?_, ?_, ?_, ?_⟩, ?_, .inl ?_⟩ ?_⟩ <;> decide +kernel

theorem wit_fence_pilot (h : Obligations.ControlStoresAndClustersAreRepaired) :
    ∃ t, exec (.clusterFence none 63) (run) = .next t := by
  refine ⟨_, (h.2 mb 63 (run)).2.1 ?_ ?_ ?_⟩ <;> decide +kernel

theorem wit_unfence (h : Obligations.ControlStoresAndClustersAreRepaired) :
    ∃ t, exec (.clusterUnfence mb 63) (writes 0x2121 0 63 [0] (run.set Obj.clusterState 63 1)) = .next t := by
  refine ⟨_, (h.2 mb 63 (writes 0x2121 0 63 [0] (run.set Obj.clusterState 63 1))).2.2.1 ⟨⟨?_, ?_, ?_, ?_, ?_, ?_, ?_, ?_⟩, ?_, .inl ?_⟩⟩ <;> decide +kernel

theorem wit_restored (h : Obligations.ControlStoresAndClustersAreRepaired) :
    ∃ t, exec (.clusterRestored 63) (unfenceCluster 63 (run.set Obj.clusterState 63 1)) = .next t := by
  refine (fun ⟨_, _, e, _, _, h, _⟩ => ⟨_, e ▸ h⟩) ((h.2 mb 63 (run.set Obj.clusterState 63 1)).2.2.2 ?_ ?_) <;> decide +kernel

theorem wit_home_learn (h : Obligations.ForwardingTablesAreMaintained) :
    ∃ t, exec (.homeLearn 7) ({ run with tables := { run.tables with queue := [(7, [(1, 2, 3)])] } }) = .next t :=
  (fun ⟨_, _, h⟩ => ⟨_, h⟩) ((h 7 ({ run with tables := { run.tables with queue := [(7, [(1, 2, 3)])] } })).1 1 2 3 [] _ _ (by decide +kernel) rfl)

theorem wit_fdb_sweep (h : Obligations.ForwardingTablesAreMaintained) :
    ∃ t, exec (.fdbSweep 7) (late (2 * 300 * 1250000000) { (run.set Obj.fdbAgeS 0 300) with tables := { run.tables with mac := [(7 * 2 ^ 19 + 266239, { mac := 1, fid := 0, dest := 5, isStatic := false, gen := false, mcast := false, lastSeen := 0 })] } }) = .next t := by
  refine next_of ((h 7 (late (2 * 300 * 1250000000) { (run.set Obj.fdbAgeS 0 300) with tables := { run.tables with mac := [(7 * 2 ^ 19 + 266239, { mac := 1, fid := 0, dest := 5, isStatic := false, gen := false, mcast := false, lastSeen := 0 })] } })).2.1 ?_ ?_ ?_) <;> decide +kernel

theorem wit_rehash (h : Obligations.ForwardingTablesAreMaintained) :
    ∃ t, exec (.rehashPass 7) (run.set Obj.rehashState 7 1) = .next t := by
  refine ⟨_, (h 7 (run.set Obj.rehashState 7 1)).2.2 ?_ ?_⟩ <;> decide +kernel

/-- A key of an IPv4 flow with a flow hash of home entry 0 (pipe 0), and its record. -/
def key0 : RawKey := { vrf := 1, proto := 17, family := 4, src := 0x0A000001 * 65536 + 80, dst := 0x0A000002 * 65536 + 81 }

/-- The record of the key, as placed in pipe 0 of a device. -/
def withRecord (s : State) : State :=
  (placeRecord .lookup 0 { vrf := 1, proto := 17, keyBits := s.keyBits key0, hash := 5, slot := 0, lastSeen := 0 } (some (List.replicate 64 0)) (some 0) s).2

/-- A frame of the key at a stage. -/
def keyed (g : Stage) : Frame := { frm with stage := g, tail := some true, home := { key := some key0, hash := 5 } }

theorem wit_home_stateless (h : Obligations.HomeStageFindsOrPends) :
    ∃ t, exec (.homeStageFrame 0 1) (frameAt { frm with stage := .home 0, result := { stateless := true } } run) = .next t :=
  ⟨_, (h 0 1 _ (frameAt { frm with stage := .home 0, result := { stateless := true } } run) rfl).1 (by decide +kernel) (by decide +kernel) rfl rfl rfl rfl⟩

theorem wit_home_hit (h : Obligations.HomeStageFindsOrPends) :
    ∃ t, exec (.homeStageFrame 0 1) (frameAt (keyed (.home 0)) (withRecord run)) = .next t := by
  refine ⟨_, (h 0 1 _ (frameAt (keyed (.home 0)) (withRecord run)) rfl).2.1 key0 0 _ ?_ rfl rfl rfl rfl rfl rfl rfl ?_ ?_ ?_ ?_ ?_ rfl rfl⟩ <;> decide +kernel

theorem wit_home_miss (h : Obligations.HomeStageFindsOrPends) :
    ∃ t, exec (.homeLookupData 0 1) (frameAt (keyed (.lookup 0)) run) = .next t := by
  refine next_of ((h 0 1 _ (frameAt (keyed (.lookup 0)) run) rfl).2.2 key0 5 _ ?_ rfl rfl rfl rfl ?_ ?_ ?_ ?_ ?_ ?_ ?_ ?_ ?_) <;> decide +kernel

theorem wit_steered_none (h : Obligations.SteeredFramesAndCreations) :
    ∃ t, exec (.steeredResolve 0 1) (frameAt ({ keyed (.home 0) with home := { key := some key0, hash := 5, steer := some 0x8FFF1005 } }) run) = .next t := by
  refine ⟨_, ((h.1 0 1 _ key0 (frameAt ({ keyed (.home 0) with home := { key := some key0, hash := 5, steer := some 0x8FFF1005 } }) run) _ rfl rfl).1 0x8FFF1005 4095 0x1005 _ _ ?_ rfl rfl rfl ?_ ?_ ?_ rfl).1 ?_⟩ <;> decide +kernel

theorem wit_steered_bound (h : Obligations.SteeredFramesAndCreations) :
    ∃ t, exec (.steeredResolve 0 1) (frameAt ({ keyed (.home 0) with home := { key := some key0, hash := 5, steer := some 0x8FFF1005 } }) (setNat 4095 5 1 (0x0A000001 * 2 ^ 32 + 80 * 65536 + 2 ^ 14 + 1) run)) = .next t := by
  refine ⟨_, ((h.1 0 1 _ key0 (frameAt ({ keyed (.home 0) with home := { key := some key0, hash := 5, steer := some 0x8FFF1005 } }) (setNat 4095 5 1 (0x0A000001 * 2 ^ 32 + 80 * 65536 + 2 ^ 14 + 1) run)) _ rfl rfl).1 0x8FFF1005 4095 0x1005 _ _ ?_ rfl rfl rfl ?_ ?_ ?_ rfl).2 ?_ _ _ rfl rfl⟩ <;> decide +kernel

theorem wit_creation_refused (h : Obligations.SteeredFramesAndCreations) :
    ∃ t, exec (.frameTailHome 0 1) (frameAt (keyed (.stored 0)) (run.set Obj.flows 0 (2 ^ 24))) = .next t := by
  refine ⟨_, ((h.1 0 1 _ key0 (frameAt (keyed (.stored 0)) (run.set Obj.flows 0 (2 ^ 24))) (frameAt (keyed (.stored 0)) (run.set Obj.flows 0 (2 ^ 24))) rfl rfl).2 ?_ ?_ rfl rfl rfl ?_).1 2 ?_ ?_⟩ <;> decide +kernel

/-- What set-up makes of the key's first frame. -/
def newFore (s : State) : Fore × Option (List Byte) := match (setupFlow 0 (keyed (.stored 0)) key0 s).1 with
  | .record r aft => (r, aft)
  | _ => ({ vrf := 0, proto := 0, keyBits := 0, hash := 0, slot := 0, lastSeen := 0 }, none)

theorem wit_creation (h : Obligations.SteeredFramesAndCreations) :
    ∃ t, exec (.frameTailHome 0 1) (frameAt (keyed (.stored 0)) run) = .next t := by
  refine ⟨_, ((h.1 0 1 _ key0 (frameAt (keyed (.stored 0)) run) (setupFlow 0 (keyed (.stored 0)) key0 (frameAt (keyed (.stored 0)) run)).2 rfl rfl).2 ?_ ?_ rfl rfl rfl ?_).2 (newFore (frameAt (keyed (.stored 0)) run)).1 (newFore (frameAt (keyed (.stored 0)) run)).2 ?_ ?_⟩ <;> decide +kernel

theorem wit_placed (h : Obligations.SteeredFramesAndCreations) :
    ∃ t, placeRecord .insert 7 { vrf := 1, proto := 6, keyBits := 0, hash := 2 ^ 32 - 1, slot := 0, lastSeen := 0 } (some (List.replicate 64 0)) (some 15) run = (some 0, t) := by
  refine (h.2 .insert 7 15 { vrf := 1, proto := 6, keyBits := 0, hash := 2 ^ 32 - 1, slot := 0, lastSeen := 0 } (List.replicate 64 0) 0 0 run ?_ ?_ ?_ ?_ ?_ ?_ ?_).elim fun t ht => ⟨t, ht.1⟩ <;> decide +kernel

theorem wit_nat_bind (h : Obligations.ColumnsAndFlowEnginesRun) :
    ∃ t, exec (.natColumnOperation (.allocate 4095 0xFFFFFFFF 0x0A000001 80 none)) (run) = .next t := by
  refine ⟨_, (h.1 4095 (run)).1 0xFFFFFFFF 0x0A000001 80 4095 1 _ ?_ rfl ?_ ?_ rfl⟩ <;> decide +kernel

/-- Row 15 of column 4095 of the last pool BOUND with a number of references. -/
def boundRow (n : Nat) : State := setNat 4095 4095 15 (80 * 65536 + 2 ^ 14 + n) run

theorem wit_nat_ref (h : Obligations.ColumnsAndFlowEnginesRun) :
    ∃ t, exec (.natColumnOperation (.reference 4095 0xFFFF)) (boundRow 4094) = .next t := by
  refine ⟨_, ((h.1 4095 (boundRow 4094)).2 0xFFFF _ rfl ?_ ?_ ?_ ?_).1 ?_⟩ <;> decide +kernel

theorem wit_nat_last (h : Obligations.ColumnsAndFlowEnginesRun) :
    ∃ t, exec (.natColumnOperation (.release 4095 0xFFFF)) (boundRow 1) = .next t := by
  refine ⟨_, ((h.1 4095 (boundRow 1)).2 0xFFFF _ rfl ?_ ?_ ?_ ?_).2.1 ?_ ?_⟩ <;> decide +kernel

theorem wit_nat_rel (h : Obligations.ColumnsAndFlowEnginesRun) :
    ∃ t, exec (.natColumnOperation (.release 4095 0xFFFF)) (boundRow 4095) = .next t := by
  refine ⟨_, ((h.1 4095 (boundRow 4095)).2 0xFFFF _ rfl ?_ ?_ ?_ ?_).2.2 ?_⟩ <;> decide +kernel

theorem wit_eviction (h : Obligations.ColumnsAndFlowEnginesRun) :
    ∃ t, exec (.eviction 0) (late (2 ^ 50) ((withRecord run).withFlow { (withRecord run).flow with evictions := [(0, 3, (flowPiers 5).1, (flowPiers 5).2, 0)] })) = .next t := by
  refine ⟨_, (h.2 0 (late (2 ^ 50) ((withRecord run).withFlow { (withRecord run).flow with evictions := [(0, 3, (flowPiers 5).1, (flowPiers 5).2, 0)] }))).1 (flowPiers 5).1 (flowPiers 5).2 0 [] 0 ((late (2 ^ 50) ((withRecord run).withFlow { (withRecord run).flow with evictions := [(0, 3, (flowPiers 5).1, (flowPiers 5).2, 0)] })).nowMs % 2 ^ 32) _ ?_ ?_ rfl ?_⟩ <;> decide +kernel

theorem wit_relocation (h : Obligations.ColumnsAndFlowEnginesRun) :
    ∃ t, exec (.relocationPass 0) (late 12500000 (withRecord run)) = .next t := by
  refine ⟨_, (h.2 0 (late 12500000 (withRecord run))).2.1 ?_ ?_⟩ <;> decide +kernel

theorem wit_flip_done (h : Obligations.ColumnsAndFlowEnginesRun) :
    ∃ t, exec (.groupFlipFinish 7) (run.withFlow { run.flow with flips := [(7, { group := 3, old := [], new := [pierKey 7 0 0], anchor := 0, readers := [] })], piers := [(pierKey 7 0 0, { hash := 0, slot := 0, moving := true, family6 := false, vrf := 0, proto := 0, keyTag := 0 })] }) = .next t := by
  refine next_of ((h.2 7 (run.withFlow { run.flow with flips := [(7, { group := 3, old := [], new := [pierKey 7 0 0], anchor := 0, readers := [] })], piers := [(pierKey 7 0 0, { hash := 0, slot := 0, moving := true, family6 := false, vrf := 0, proto := 0, keyTag := 0 })] })).2.2.1 { group := 3, old := [], new := [pierKey 7 0 0], anchor := 0, readers := [] } ?_ rfl rfl ?_ ?_ ?_) <;> decide +kernel

theorem wit_sweep (h : Obligations.ColumnsAndFlowEnginesRun) :
    ∃ t, exec (.flowSweepPass 0) (withRecord run) = .next t := by
  refine (fun ⟨_, _, _, _, _, _, h⟩ => ⟨_, h⟩) ((h.2 0 (withRecord run)).2.2.2 ?_ ?_) <;> decide +kernel

theorem wit_consult (h : Obligations.ConsultsAndTransfersMoveRecords) :
    ∃ t, exec (.consultRequest 7 1) (frameAt (keyed (.consult 7)) run) = .next t := by
  refine ⟨_, (h.1 7 (frameAt (keyed (.consult 7)) run)).1 1 _ key0 _ rfl ?_ rfl rfl rfl ?_ ?_ ?_⟩ <;> decide +kernel

/-- A record's transfer. -/
def moving (n : Option (Option Nat)) : Transfer :=
  { fromPipe := 0, toPipe := 7, slot := 0, fore := { vrf := 1, proto := 6, keyBits := 0, hash := 5, slot := 0, lastSeen := 0 },
    aft := [], entry := 0, frame := none, placed := n }

/-- The record on its way from pipe 0 to pipe 7, with what the new home answered. -/
def onTheWay (n : Option (Option Nat)) (s : State) : State := s.withFlow { s.flow with transfers :=
  [moving n] }

theorem wit_transfer_refused (h : Obligations.ConsultsAndTransfersMoveRecords) :
    ∃ t, exec (.recordTransfer 0 0) (onTheWay none (run.set Obj.flows 7 (2 ^ 24))) = .next t := by
  refine ⟨_, (h.1 0 (onTheWay none (run.set Obj.flows 7 (2 ^ 24)))).2.1 0 (moving none) ?_ rfl ?_⟩ <;> decide +kernel

theorem wit_transfer_ack_no (h : Obligations.ConsultsAndTransfersMoveRecords) :
    ∃ t, exec (.transferAck 0 0) (onTheWay (some none) (withRecord run)) = .next t :=
  ⟨_, (h.1 0 (onTheWay (some none) (withRecord run))).2.2.1 0 (moving (some none)) (by decide +kernel) rfl rfl rfl⟩

theorem wit_transfer_ack_yes (h : Obligations.ConsultsAndTransfersMoveRecords) :
    ∃ t, exec (.transferAck 0 0) (onTheWay (some (some 9)) (withRecord run)) = .next t := by
  refine (fun ⟨_, _, h⟩ => ⟨_, h⟩) ((h.1 0 (onTheWay (some (some 9)) (withRecord run))).2.2.2.1 0 (moving (some (some 9))) 9 _ ?_ rfl rfl rfl ?_) <;> decide +kernel

theorem wit_walk (h : Obligations.ConsultsAndTransfersMoveRecords) :
    ∃ t, exec (.migrationWalk 0) ((withRecord run).set Obj.homeState 0 1) = .next t := by
  refine ⟨_, (h.1 0 ((withRecord run).set Obj.homeState 0 1)).2.2.2.2 _ _ ?_ ?_ rfl rfl ?_ rfl⟩ <;> decide +kernel

theorem wit_lost_rehome (h : Obligations.ConsultsAndTransfersMoveRecords) :
    ∃ t, exec (.lostDeckRehome) ((run.withAvail { run.avail with rehome := [3] }).set Obj.deckState 3 2) = .next t := by
  refine (fun ⟨_, h, _⟩ => ⟨_, h⟩) (h.2 ((run.withAvail { run.avail with rehome := [3] }).set Obj.deckState 3 2) ((run.withAvail { run.avail with rehome := [3] }).set Obj.deckState 3 2) 3 [] rfl ?_ ?_) <;> decide +kernel

theorem wit_export_flush (h : Obligations.ExportMessagesFallDue) :
    ∃ t, exec (.exportFlush 7) (late (2 ^ 50) (run.setExport 7 { open_ := [(false, [1])] })) = .next t := by
  refine ⟨_, (h 7 (late (2 ^ 50) (run.setExport 7 { open_ := [(false, [1])] })) _ rfl).1 ?_ ?_⟩ <;> decide +kernel

theorem wit_export_template (h : Obligations.ExportMessagesFallDue) :
    ∃ t, exec (.exportTemplate 7) (late (2 ^ 50) (((ringed (exportRing 7) 1 run).set Obj.exportEnable 0 1).setExport 7 { templateAt := some 0 })) = .next t := by
  refine (fun ⟨_, _, h⟩ => ⟨_, h⟩) ((h 7 (late (2 ^ 50) (((ringed (exportRing 7) 1 run).set Obj.exportEnable 0 1).setExport 7 { templateAt := some 0 })) _ rfl).2 0 ?_ ?_ ?_ ?_) <;> decide +kernel

/-- A cell of frame 1 from pipe 7 to pipe 5. -/
def cell (egress : Bool) : Cell := { frame := 1, egress := egress, cls := 0, src := 7, dst := 5, index := 0 }

theorem wit_slot_send (h : Obligations.SlotsCarryCells) :
    ∃ t, exec (.slotSend 11) (run.setDir 11 { queue := [cell false] }) = .next t := by
  refine next_of (((h.1 11 (run.setDir 11 { queue := [cell false] })).1 ?_).1 (cell false) _ rfl ?_ ?_ ?_ ?_ ?_ ?_ ?_ ?_) <;> decide +kernel

theorem wit_slot_retry_8 (h : Obligations.SlotsCarryCells) :
    ∃ t, exec (.slotRetry 11) (run.setDir 11 { fails := 7, slot := 9 }) = .next t :=
  ⟨_, ((h.1 11 (run.setDir 11 { fails := 7, slot := 9 })).1 (by decide +kernel)).2⟩

theorem wit_slot_retry_1 (h : Obligations.SlotsCarryCells) :
    ∃ t, exec (.slotRetry 0) (run) = .next t :=
  ⟨_, ((h.1 0 (run)).1 (by decide +kernel)).2⟩

theorem wit_free_count (h : Obligations.SlotsCarryCells) :
    ∃ t, exec (.freeCountReport) (run) = .next t :=
  next_of ((h.1 0 (run)).2)

theorem wit_land_home (h : Obligations.SlotsCarryCells) :
    ∃ t, exec (.cellLand 7 6 1) (frameAt { frm with stage := .crossing false 7 6, tail := some true } run) = .next t :=
  ⟨_, (h.2 7 6 1 _ (frameAt { frm with stage := .crossing false 7 6, tail := some true } run) rfl (by decide +kernel)).1
    (by decide +kernel) (fun _ e => Option.some.inj e ▸ by decide +kernel) false rfl⟩

theorem wit_land_egress (h : Obligations.SlotsCarryCells) :
    ∃ t, exec (.cellLand 7 6 1) (frameAt { frm with stage := .crossing true 7 6, tail := some true } run) = .next t :=
  ⟨_, (h.2 7 6 1 _ (frameAt { frm with stage := .crossing true 7 6, tail := some true } run) rfl (by decide +kernel)).1
    (by decide +kernel) (fun _ e => Option.some.inj e ▸ by decide +kernel) true rfl⟩

theorem wit_land_far (h : Obligations.SlotsCarryCells) :
    ∃ t, exec (.cellLand 7 5 1) ((frameAt { frm with stage := .crossing true 7 5, cells := [(3, 2)] } run).setDir 11 { flight := [cell true] }) = .next t := by
  refine (fun ⟨_, _, h⟩ => ⟨_, h⟩) ((h.2 7 5 1 _ ((frameAt { frm with stage := .crossing true 7 5, cells := [(3, 2)] } run).setDir 11 { flight := [cell true] }) rfl ?_).2 (cell true) 11 ?_ ?_ ?_ ?_ ?_ ?_ ?_ ?_ ?_) <;> decide +kernel

/-- The last context. -/
def lastKey : Nat := contextKey 136 true 7 15

/-- A frame with its stamp. -/
def stamped (n : Nat) : Frame := { frm with stage := .landed, stamp := some { redirect := true, pipe := 7, port := 136, cls := 15, seq := n } }

theorem wit_reseq_in_order (h : Obligations.ContextsKeepOrder) :
    ∃ t, exec (.reseqHead 1) ((run.setContext lastKey { next := 65535 } |> frameAt (stamped 65535))) = .next t := by
  refine next_of ((h.1 ((run.setContext lastKey { next := 65535 } |> frameAt (stamped 65535))) 1 (stamped 65535) _ _ _ rfl rfl rfl ?_ rfl rfl ?_).1 ?_ ?_ ?_ ?_) <;> decide +kernel

theorem wit_reseq_late (h : Obligations.ContextsKeepOrder) :
    ∃ t, exec (.reseqHead 1) ((run.setContext lastKey { next := 65535 } |> frameAt (stamped 65534))) = .next t := by
  refine ⟨_, (h.1 ((run.setContext lastKey { next := 65535 } |> frameAt (stamped 65534))) 1 (stamped 65534) _ _ _ rfl rfl rfl ?_ rfl rfl ?_).2.1 ?_⟩ <;> decide +kernel

theorem wit_reseq_held (h : Obligations.ContextsKeepOrder) :
    ∃ t, exec (.reseqHead 1) (((run.set Obj.landingHoldCells 3 0).setContext lastKey { next := 65535 } |> frameAt (stamped 0))) = .next t := by
  refine next_of ((h.1 (((run.set Obj.landingHoldCells 3 0).setContext lastKey { next := 65535 } |> frameAt (stamped 0))) 1 (stamped 0) _ _ _ rfl rfl rfl ?_ rfl rfl ?_).2.2 ?_ ?_ ?_ ?_) <;> decide +kernel

theorem wit_hole (h : Obligations.ContextsKeepOrder) :
    ∃ t, exec (.holeNotice 136 0) ((run.setContext lastKey { next := 65535 }).withCross { (run.setContext lastKey { next := 65535 }).cross with holes := [{ hole := true, cls := 15, redirect := true, stampPipe := 7, port := 136, value := 65535 }] }) = .next t := by
  refine ⟨_, (h.2 ((run.setContext lastKey { next := 65535 }).withCross { (run.setContext lastKey { next := 65535 }).cross with holes := [{ hole := true, cls := 15, redirect := true, stampPipe := 7, port := 136, value := 65535 }] }) 136 true 7 15 _ _ rfl rfl).1 { hole := true, cls := 15, redirect := true, stampPipe := 7, port := 136, value := 65535 } [] rfl ?_ ?_ ?_ ?_ ?_ ?_ ?_⟩ <;> decide +kernel

theorem wit_timeout (h : Obligations.ContextsKeepOrder) :
    ∃ t, exec (.reseqTimeout 136 true 7 15) (late 2000000000 (run.setContext lastKey { next := 65535, timer := some (0, 1000000) })) = .next t := by
  refine ⟨_, (h.2 (late 2000000000 (run.setContext lastKey { next := 65535, timer := some (0, 1000000) })) 136 true 7 15 _ _ rfl rfl).2.1 0 1000000 ?_ ?_⟩ <;> decide +kernel

theorem wit_credit_send (h : Obligations.ContextsKeepOrder) :
    ∃ t, exec (.creditSend 136 true 7 15 64) (run.setContext lastKey { owed := 64 }) = .next t := by
  refine ⟨_, (h.2 (run.setContext lastKey { owed := 64 }) 136 true 7 15 _ _ rfl rfl).2.2.1 64 ?_ ?_⟩ <;> decide +kernel

theorem wit_credit (h : Obligations.ContextsKeepOrder) :
    ∃ t, exec (.credit 7 0) (run.withCross { run.cross with credits := [{ hole := false, cls := 15, redirect := true, stampPipe := 7, port := 136, value := 64 }], outstanding := [(streamKey true 7 136 15, 65)] }) = .next t := by
  refine next_of ((h.2 (run.withCross { run.cross with credits := [{ hole := false, cls := 15, redirect := true, stampPipe := 7, port := 136, value := 64 }], outstanding := [(streamKey true 7 136 15, 65)] }) 136 true 7 15 _ _ rfl rfl).2.2.2 { hole := false, cls := 15, redirect := true, stampPipe := 7, port := 136, value := 64 } [] rfl ?_ ?_ ?_) <;> decide +kernel

theorem wit_mcast_arrive (h : Obligations.MulticastCopiesReachTheirPorts) :
    ∃ t, exec (.mcastCopyArrive 1 3) ((frameAt ({ frm with stage := .landed, origin := some 0, epipe := 7, targets := [127], mcastMode := 2 }) (port40 2 {})).setFrame 0 { frm with stage := .gone, copies := 1 }) = .next t :=
  ⟨_, (h ((frameAt ({ frm with stage := .landed, origin := some 0, epipe := 7, targets := [127], mcastMode := 2 }) (port40 2 {})).setFrame 0 { frm with stage := .gone, copies := 1 }) 3).1 1 ({ frm with stage := .landed, origin := some 0, epipe := 7, targets := [127], mcastMode := 2 }) 0 127 _ rfl rfl rfl (by decide +kernel) rfl rfl (by decide +kernel) rfl⟩

/-- Deck 3 with a residue entry for port 127. -/
def waitingCopy (s : State) : State := (frameAt { frm with stage := .replicated, origin := some 0, epipe := 7, refs := 1, group := some 65535 } s).setResidue 3
  [{ frame := 1, port := 127, cls := 0, srcPipe := 0, group := 65535, since := 0 }]

theorem wit_residue_serve (h : Obligations.MulticastCopiesReachTheirPorts) :
    ∃ t, exec (.residueServe 3 0) (waitingCopy run) = .next t := by
  refine ⟨_, (h (waitingCopy run) 3).2.1 { frame := 1, port := 127, cls := 0, srcPipe := 0, group := 65535, since := 0 } [] _ ?_ rfl ?_⟩ <;> decide +kernel

theorem wit_residue_aged (h : Obligations.MulticastCopiesReachTheirPorts) :
    ∃ t, exec (.residueAged 3 0) (late 1250000 (waitingCopy run)) = .next t := by
  refine ⟨_, (h (late 1250000 (waitingCopy run)) 3).2.2 { frame := 1, port := 127, cls := 0, srcPipe := 0, group := 65535, since := 0 } [] _ 65535 ?_ rfl rfl ?_⟩ <;> decide +kernel

theorem wit_enqueue (h : Obligations.FramesAreEnqueuedSelectedAndStarted) :
    ∃ t, exec (.enqueue 1) (frameAt ({ frm with stage := .released, port := 40, cls := 15 }) (port40 2 {})) = .next t := by
  refine next_of ((h.1 (frameAt ({ frm with stage := .released, port := 40, cls := 15 }) (port40 2 {}))).1 1 ({ frm with stage := .released, port := 40, cls := 15 }) 655 rfl ?_ ?_ ?_ ?_ ?_ ?_ ?_ ?_ ?_ ?_ ?_ ?_ ?_) <;> decide +kernel

theorem wit_enqueue_full (h : Obligations.FramesAreEnqueuedSelectedAndStarted) :
    ∃ t, exec (.enqueue 1) (frameAt ({ frm with stage := .released, port := 40, cls := 15 }) (((port40 2 {}).set Obj.queueLimitCells 655 1).set Obj.queueReservedCells 655 0)) = .next t := by
  refine ⟨_, (h.1 (frameAt ({ frm with stage := .released, port := 40, cls := 15 }) (((port40 2 {}).set Obj.queueLimitCells 655 1).set Obj.queueReservedCells 655 0))).2.1 1 ({ frm with stage := .released, port := 40, cls := 15 }) 655 rfl ?_ ?_ ?_ ?_ ?_ ?_ ?_ ?_ ?_ ?_ ?_ ?_ ?_⟩ <;> decide +kernel

/-- Port 40, or any UP port, with frame 1 in its queue 15. -/
def queued (s : State) : State :=
  (frameAt { frm with stage := .queued 655, port := 40, cls := 15, tail := some true } s).setQueue 655
    { frames := [{ frame := 1, cells := 2, tick := 0, depth := 0, buffer := 0 }], finish := 77 }

theorem wit_select (h : Obligations.FramesAreEnqueuedSelectedAndStarted) :
    ∃ t, exec (.selection 40) (queued (port40 2 {})) = .next t := by
  refine ⟨_, (h.1 (queued (port40 2 {}))).2.2 40 15 { frame := 1, cells := 2, tick := 0, depth := 0, buffer := 0 } [] ?_ ?_ ?_ ?_ ?_ ?_⟩ <;> decide +kernel

theorem wit_started (h : Obligations.FramesAreEnqueuedSelectedAndStarted) :
    ∃ x, ((startTx 655 (queued (port40 2 {}))).tmPort 40).sending = some x ∧ x.entry = some { frame := 1, cells := 2, tick := 0, depth := 0, buffer := 0 } := by
  refine (h.2 (queued (port40 2 {})) 40 15 655 { frame := 1, cells := 2, tick := 0, depth := 0, buffer := 0 } [] ?_ ?_ ?_).elim fun x hx => ⟨x, hx.1, hx.2.1⟩ <;> decide +kernel

/-- Port 40 sends: frame 1, or a PFC frame. -/
def sends (t : Sending) (s : State) : State := s.setTmPort 40 { s.tmPort 40 with sending := some t }

theorem wit_pfc_start (h : Obligations.TransmissionsAndGatesFollowTime) :
    ∃ t, exec (.txStartBoundary 40) (sends { entry := none, queue := 0, start := 0, end_ := 5 } (port40 2 {})) = .next t := by
  refine ⟨_, (h.1 (sends { entry := none, queue := 0, start := 0, end_ := 5 } (port40 2 {})) 40 { entry := none, queue := 0, start := 0, end_ := 5 } ?_).1 ?_ ?_⟩ <;> decide +kernel

theorem wit_tx_start (h : Obligations.TransmissionsAndGatesFollowTime) :
    ∃ t, exec (.txStartBoundary 40) (sends { entry := some { frame := 1, cells := 2, tick := 0, depth := 0, buffer := 0 }, queue := 655, start := 0, end_ := 5 } (queued (port40 2 {}))) = .next t := by
  refine ⟨_, (h.1 (sends { entry := some { frame := 1, cells := 2, tick := 0, depth := 0, buffer := 0 }, queue := 655, start := 0, end_ := 5 } (queued (port40 2 {}))) 40 { entry := some { frame := 1, cells := 2, tick := 0, depth := 0, buffer := 0 }, queue := 655, start := 0, end_ := 5 } ?_).2.1 { frame := 1, cells := 2, tick := 0, depth := 0, buffer := 0 } _ _ ?_ ?_ rfl rfl ?_ ?_ ?_ ?_ ?_⟩ <;> decide +kernel

theorem wit_tx_end (h : Obligations.TransmissionsAndGatesFollowTime) :
    ∃ t, exec (.txEnd 40) (late 2000000000 (sends { entry := some { frame := 1, cells := 2, tick := 0, depth := 0, buffer := 0 }, queue := 655, start := 0, end_ := 5, txTime := some 0 } (queued (port40 2 {})))) = .next t := by
  refine ⟨_, (h.1 (late 2000000000 (sends { entry := some { frame := 1, cells := 2, tick := 0, depth := 0, buffer := 0 }, queue := 655, start := 0, end_ := 5, txTime := some 0 } (queued (port40 2 {})))) 40 { entry := some { frame := 1, cells := 2, tick := 0, depth := 0, buffer := 0 }, queue := 655, start := 0, end_ := 5, txTime := some 0 } ?_).2.2.1 { frame := 1, cells := 2, tick := 0, depth := 0, buffer := 0 } ?_ ?_ ?_⟩ <;> decide +kernel

theorem wit_pfc_end (h : Obligations.TransmissionsAndGatesFollowTime) :
    ∃ t, exec (.txEnd 40) (late 5 (sends { entry := none, queue := 0, start := 0, end_ := 5, bytes := [1] } (port40 2 {}))) = .next t := by
  refine ⟨_, (h.1 (late 5 (sends { entry := none, queue := 0, start := 0, end_ := 5, bytes := [1] } (port40 2 {}))) 40 { entry := none, queue := 0, start := 0, end_ := 5, bytes := [1] } ?_).2.2.2 _ ?_ ?_ rfl⟩ <;> decide +kernel

theorem wit_gate_entry (h : Obligations.TransmissionsAndGatesFollowTime) :
    ∃ t, exec (.gateEntryChange 136) (run) = .next t :=
  ⟨_, (h.2 (run)).1 136⟩

theorem wit_gate_config (h : Obligations.TransmissionsAndGatesFollowTime) :
    ∃ t, exec (.gateConfigChanged 40) (late 10 ((port40 2 {}).setTmPort 40 { pendingGate := some (8, 1000000, []) })) = .next t := by
  refine ⟨_, (h.2 (late 10 ((port40 2 {}).setTmPort 40 { pendingGate := some (8, 1000000, []) }))).2.1 40 8 1000000 [] _ _ ?_ ?_ ?_ rfl rfl⟩ <;> decide +kernel

theorem wit_pfc_refresh (h : Obligations.TransmissionsAndGatesFollowTime) :
    ∃ t, exec (.pfcRefresh 40) (late 125000 ((port40 2 { xoff := [(7, 0)] }).setS Obj.pfcXonCells 8 40 0)) = .next t := by
  refine ⟨_, (h.2 (late 125000 ((port40 2 { xoff := [(7, 0)] }).setS Obj.pfcXonCells 8 40 0))).2.2 40 7 0 ?_ ?_ ?_⟩ <;> decide +kernel

theorem wit_hbm_read (h : Obligations.HbmRequestsAndRefreshes) :
    ∃ t, exec (.hbmRequest 126 .insert false 0xFFFFFFF) (run) = .next t := by
  refine next_of ((h.1 126 (run) _ rfl ?_).1 .insert 0xFFFFFFF _ rfl ?_ ?_ ?_ ?_ ?_ ?_ ?_ ?_ ?_ ?_) <;> decide +kernel

theorem wit_hbm_write (h : Obligations.HbmRequestsAndRefreshes) :
    ∃ t, exec (.hbmRequest 126 .dma true 0xFFFFFFF) (setPc 126 { issued := [{ rr := .insert, write := false, burst := 1, bank := 0, row := 0, since := 0 }] } run) = .next t := by
  refine next_of ((h.1 126 (setPc 126 { issued := [{ rr := .insert, write := false, burst := 1, bank := 0, row := 0, since := 0 }] } run) _ rfl ?_).2.1 .dma 0xFFFFFFF _ { rr := .insert, write := false, burst := 1, bank := 0, row := 0, since := 0 } ?_ ?_ ?_ ?_ ?_ rfl) <;> decide +kernel

theorem wit_hbm_lookup (h : Obligations.HbmRequestsAndRefreshes) :
    ∃ t, exec (.hbmRequest 126 .lookup false 0xFFFFFFF) (setPc 126 { issued := [{ rr := .insert, write := false, burst := 1, bank := 0, row := 0, since := 0 }] } run) = .next t := by
  refine next_of ((h.1 126 (setPc 126 { issued := [{ rr := .insert, write := false, burst := 1, bank := 0, row := 0, since := 0 }] } run) _ rfl ?_).2.2.1 0xFFFFFFF _ 7 rfl ?_ ?_ (.inr ?_) ?_) <;> decide +kernel

theorem wit_hbm_done (h : Obligations.HbmRequestsAndRefreshes) :
    ∃ t, exec (.burstComplete 126 .clean) (setPc 126 { issued := [{ rr := .insert, write := false, burst := 1, bank := 0, row := 0, since := 0 }] } run) = .next t := by
  refine ⟨_, (h.1 126 (setPc 126 { issued := [{ rr := .insert, write := false, burst := 1, bank := 0, row := 0, since := 0 }] } run) _ rfl ?_).2.2.2.1 { rr := .insert, write := false, burst := 1, bank := 0, row := 0, since := 0 } .clean ?_ ?_ ?_ ?_ ?_⟩ <;> decide +kernel

theorem wit_hbm_drain (h : Obligations.HbmRequestsAndRefreshes) :
    ∃ t, exec (.writeDrainTimeout 126) (late 625 (setPc 126 { queue := [{ rr := .insert, write := true, burst := 1, bank := 0, row := 0, since := 0 }] } run)) = .next t := by
  refine next_of ((h.1 126 (late 625 (setPc 126 { queue := [{ rr := .insert, write := true, burst := 1, bank := 0, row := 0, since := 0 }] } run)) _ rfl ?_).2.2.2.2 { rr := .insert, write := true, burst := 1, bank := 0, row := 0, since := 0 } ?_ ?_ ?_ ?_ ?_ ?_ ?_ ?_) <;> decide +kernel

theorem wit_refresh_owed (h : Obligations.HbmRequestsAndRefreshes) :
    ∃ t, exec (.refreshDue 127) (setPc 127 { refreshAt := some 0 } run) = .next t := by
  refine ⟨_, ((h.2 (setPc 127 { refreshAt := some 0 } run)).1 127 _ _ rfl ?_ ?_ rfl).1 ?_ ?_⟩ <;> decide +kernel

theorem wit_refresh_waits (h : Obligations.HbmRequestsAndRefreshes) :
    ∃ t, exec (.refreshDue 127) ((setPc 127 { issued := [{ rr := .insert, write := false, burst := 1, bank := 0, row := 0, since := 0 }] } run).set Obj.refreshOwed 127 8) = .next t := by
  refine ⟨_, ((h.2 ((setPc 127 { issued := [{ rr := .insert, write := false, burst := 1, bank := 0, row := 0, since := 0 }] } run).set Obj.refreshOwed 127 8)).1 127 _ _ rfl ?_ ?_ rfl).2.1 ?_ ?_⟩ <;> decide +kernel

theorem wit_refresh_forced (h : Obligations.HbmRequestsAndRefreshes) :
    ∃ t, exec (.refreshDue 127) ((setPc 127 { nextBank := 31 } run).set Obj.refreshOwed 127 8) = .next t := by
  refine next_of (((h.2 ((setPc 127 { nextBank := 31 } run).set Obj.refreshOwed 127 8)).1 127 _ _ rfl ?_ ?_ rfl).2.2 ?_ ?_ ?_ ?_) <;> decide +kernel

theorem wit_temp_normal (h : Obligations.HbmRequestsAndRefreshes) :
    ∃ t, exec (.hbmTempRead 3 85) (run) = .next t := by
  refine ⟨_, ((h.2 (run)).2 3 85 _ ?_ rfl).1 ?_ ?_⟩ <;> decide +kernel

theorem wit_temp_hot (h : Obligations.HbmRequestsAndRefreshes) :
    ∃ t, exec (.hbmTempRead 3 86) (run) = .next t := by
  refine ⟨_, ((h.2 (run)).2 3 86 _ ?_ rfl).2.1 _ _ ?_ ?_ rfl⟩ <;> decide +kernel

theorem wit_temp_cool (h : Obligations.HbmRequestsAndRefreshes) :
    ∃ t, exec (.hbmTempRead 3 81) (run.set Obj.refreshMode 3 1) = .next t := by
  refine ⟨_, ((h.2 (run.set Obj.refreshMode 3 1)).2 3 81 _ ?_ rfl).2.2 ?_ ?_⟩ <;> decide +kernel

theorem wit_patrol (h : Obligations.PatrolSparingAndRetraining) :
    ∃ t, exec (.patrolScrub 3 .clean) (run.withHbm { run.hbm with patrol := [(3, 0xFFFFFFF)] }) = .next t := by
  refine ⟨_, (h (run.withHbm { run.hbm with patrol := [(3, 0xFFFFFFF)] })).1 3 .clean _ _ _ rfl ?_ rfl ?_ rfl⟩ <;> decide +kernel

theorem wit_spare_client (h : Obligations.PatrolSparingAndRetraining) :
    ∃ t, exec (.spareRequest mb 127) (writes 0x6041 0 127 [1] run) = .next t := by
  refine ⟨_, (h (writes 0x6041 0 127 [1] run)).2.1 mb 127 ⟨⟨?_, ?_, ?_, ?_, ?_, ?_, ?_, ?_⟩, ?_, .inl ?_⟩⟩ <;> decide +kernel

theorem wit_spare_start (h : Obligations.PatrolSparingAndRetraining) :
    (startSpare 127 4 run).get Obj.pcState 127 = 1 := by
  refine ((h run).2.2.1 127 _ _ ?_ ?_ ?_ rfl rfl) ▸ ?_ <;> decide +kernel

theorem wit_spare_done (h : Obligations.PatrolSparingAndRetraining) :
    ∃ t, exec (.spareDone 127) (late 2000000000 ((setPc 127 { copyAt := some 0 } run).set Obj.pcState 127 1)) = .next t := by
  refine ⟨_, (h (late 2000000000 ((setPc 127 { copyAt := some 0 } run).set Obj.pcState 127 1))).2.2.2.1 127 0 ?_ ?_ ?_ ?_⟩ <;> decide +kernel

theorem wit_retrain (h : Obligations.PatrolSparingAndRetraining) :
    ∃ t, exec (.retrainStep 127 none 0) (late 2000 ((setPc 127 { steps := 62 } run).withHbm { (setPc 127 { steps := 62 } run).hbm with retraining := [(3, (31, true))] })) = .next t := by
  refine ⟨_, ((h (late 2000 ((setPc 127 { steps := 62 } run).withHbm { (setPc 127 { steps := 62 } run).hbm with retraining := [(3, (31, true))] }))).2.2.2.2.1 127 true ?_ ?_ ?_ ?_).1⟩ <;> decide +kernel

theorem wit_lane_repaired (h : Obligations.PatrolSparingAndRetraining) :
    ∃ t, exec (.retrainStep 127 (some 255) 1) (late 2000 ((setPc 127 { steps := 62 } run).withHbm { (setPc 127 { steps := 62 } run).hbm with retraining := [(3, (31, true))] })) = .next t := by
  refine (fun ⟨_, _, h, _⟩ => ⟨_, h 0⟩) (((h (late 2000 ((setPc 127 { steps := 62 } run).withHbm { (setPc 127 { steps := 62 } run).hbm with retraining := [(3, (31, true))] }))).2.2.2.2.1 127 true ?_ ?_ ?_ ?_).2 255) <;> decide +kernel

theorem wit_lane_failed (h : Obligations.PatrolSparingAndRetraining) :
    ∃ t, exec (.retrainStep 127 (some 255) 0) (late 2000 ((setPc 127 { steps := 62 } run).withHbm { (setPc 127 { steps := 62 } run).hbm with retraining := [(3, (31, true))] })) = .next t := by
  refine (fun ⟨_, _, _, h⟩ => ⟨_, h⟩) (((h (late 2000 ((setPc 127 { steps := 62 } run).withHbm { (setPc 127 { steps := 62 } run).hbm with retraining := [(3, (31, true))] }))).2.2.2.2.1 127 true ?_ ?_ ?_ ?_).2 255) <;> decide +kernel

theorem wit_req_prio (h : Obligations.PatrolSparingAndRetraining) :
    ∃ t, exec (.reqPriorityWrite mb false 6 3 7) (writes 0x6010 6 3 [7] run) = .next t := by
  refine ⟨_, (h (writes 0x6010 6 3 [7] run)).2.2.2.2.2 mb false 6 3 7 ⟨⟨?_, ?_, ?_, ?_, ?_, ?_, ?_, ?_⟩, ?_, .inl ?_⟩ ?_ ?_ ?_ ?_⟩ <;> decide +kernel

theorem wit_req_limit (h : Obligations.PatrolSparingAndRetraining) :
    ∃ t, exec (.reqPriorityWrite mb true 1 0 64) (writes 0x6011 1 0 [64] run) = .next t := by
  refine ⟨_, (h (writes 0x6011 1 0 [64] run)).2.2.2.2.2 mb true 1 0 64 ⟨⟨?_, ?_, ?_, ?_, ?_, ?_, ?_, ?_⟩, ?_, .inl ?_⟩ ?_ ?_ ?_ ?_⟩ <;> decide +kernel

theorem wit_increment (h : Obligations.TimeIsChangedAndAdvances) :
    ∃ t, exec (.timeIncrementWrite mb 3439409811) (writes 0x1802 0 0 (leBytes 8 3439409811) run) = .next t := by
  refine ⟨_, (h.1 mb (writes 0x1802 0 0 (leBytes 8 3439409811) run)).1 3439409811 ⟨⟨?_, ?_, ?_, ?_, ?_, ?_, ?_, ?_⟩, ?_, .inl ?_⟩ ?_ ?_⟩ <;> decide +kernel

theorem wit_increment_low (h : Obligations.TimeIsChangedAndAdvances) :
    ∃ t, exec (.timeIncrementWrite mb 3432537863) (writes 0x1802 0 0 (leBytes 8 3432537863) run) = .next t := by
  refine ⟨_, (h.1 mb (writes 0x1802 0 0 (leBytes 8 3432537863) run)).1 3432537863 ⟨⟨?_, ?_, ?_, ?_, ?_, ?_, ?_, ?_⟩, ?_, .inl ?_⟩ ?_ ?_⟩ <;> decide +kernel

theorem wit_step (h : Obligations.TimeIsChangedAndAdvances) :
    ∃ t, exec (.timeStep mb 0xFFFFFFFFFFFFFFFF) (writes 0x1804 0 0 (leBytes 8 0xFFFFFFFFFFFFFFFF) run) = .next t := by
  refine ⟨_, (h.1 mb (writes 0x1804 0 0 (leBytes 8 0xFFFFFFFFFFFFFFFF) run)).2.1 0xFFFFFFFFFFFFFFFF ⟨⟨?_, ?_, ?_, ?_, ?_, ?_, ?_, ?_⟩, ?_, .inl ?_⟩ ?_ (.inr ?_)⟩ <;> decide +kernel

theorem wit_forced (h : Obligations.TimeIsChangedAndAdvances) :
    ∃ t, exec (.timeForcedStep mb 5) (writes 0x1805 0 0 (leBytes 8 5) run) = .next t := by
  refine ⟨_, (h.1 mb (writes 0x1805 0 0 (leBytes 8 5) run)).2.2.1 5 ⟨⟨?_, ?_, ?_, ?_, ?_, ?_, ?_, ?_⟩, ?_, .inl ?_⟩ ?_⟩ <;> decide +kernel

theorem wit_set (h : Obligations.TimeIsChangedAndAdvances) :
    ∃ t, exec (.timeSet mb 999999999) (writes 0x1806 0 0 (leBytes 10 999999999) run) = .next t := by
  refine ⟨_, (h.1 mb (writes 0x1806 0 0 (leBytes 10 999999999) run)).2.2.2.1 999999999 ⟨⟨?_, ?_, ?_, ?_, ?_, ?_, ?_, ?_⟩, ?_, .inl ?_⟩ ?_⟩ <;> decide +kernel

theorem wit_hold_end (h : Obligations.TimeIsChangedAndAdvances) :
    ∃ t, exec (.timeHoldEnd) (run.withTime { run.time with holding := true }) = .next t := by
  refine ⟨_, (h.1 mb (run.withTime { run.time with holding := true })).2.2.2.2 ?_ ?_⟩ <;> decide +kernel

theorem wit_tick (h : Obligations.TimeIsChangedAndAdvances) :
    (timeTick run).time.ticks = run.time.ticks + 1 := by
  refine (h.2 run ?_ ?_ ?_ ?_ ?_).1 ▸ rfl <;> decide +kernel

/-- The PTP engine runs on port 40. -/
def ptp (s : State) : State := ((s.set Obj.ptpEnable 0 1).set Obj.ptpPortEnable 40 1).set Obj.clockRole 0 1

theorem wit_announce (h : Obligations.PtpEngineTriggersAndCaptures) :
    ∃ t, exec (.ptpMessageRx 40 (.announce 0 9)) (ptp run) = .next t := by
  refine ⟨_, (h.1 40 (ptp run) ?_ ?_).1 9 0 ?_ ?_⟩ <;> decide +kernel

theorem wit_sync (h : Obligations.PtpEngineTriggersAndCaptures) :
    ∃ t, exec (.ptpMessageRx 40 (.sync 0 (-1) 3435973837)) (((ptp run).set Obj.timeState 0 2).set Obj.ptpPortState 40 9) = .next t := by
  refine ⟨_, (h.1 40 (((ptp run).set Obj.timeState 0 2).set Obj.ptpPortState 40 9) ?_ ?_).2.1 0 (-1) 3435973837 ?_ ?_ ?_ ?_ ?_⟩ <;> decide +kernel

theorem wit_delay (h : Obligations.PtpEngineTriggersAndCaptures) :
    ∃ t, exec (.ptpMessageRx 40 (.delay 0 17)) (ptp run) = .next t := by
  refine ⟨_, (h.1 40 (ptp run) ?_ ?_).2.2.1 0 17 _ ?_ ?_ ?_ rfl⟩ <;> decide +kernel

theorem wit_ptp_tx (h : Obligations.PtpEngineTriggersAndCaptures) :
    ∃ t, exec (.ptpMessageTx 40) (late 2000000000 ((ptp (setPtpPort 40 { sent := [(1, (0xFFFF, 0))] } (port40 2 {}))).set Obj.ptpPortState 40 6 |> setPtpPort 40 { sent := [(0, (1, 2000000000)), (1, (0xFFFF, 0))] })) = .next t := by
  refine ⟨_, (h.1 40 (late 2000000000 ((ptp (setPtpPort 40 { sent := [(1, (0xFFFF, 0))] } (port40 2 {}))).set Obj.ptpPortState 40 6 |> setPtpPort 40 { sent := [(0, (1, 2000000000)), (1, (0xFFFF, 0))] })) ?_ ?_).2.2.2.1 0xFFFF 0 ?_ ?_ ?_ ?_⟩ <;> decide +kernel

theorem wit_resumed (h : Obligations.PtpEngineTriggersAndCaptures) :
    ∃ t, exec (.timeSourceResumed 40) (late 2000000000 (ptp (setPtpPort 40 { suspendedAt := some 0 } (run.set Obj.settleS 0 2)))) = .next t := by
  refine ⟨_, (h.1 40 (late 2000000000 (ptp (setPtpPort 40 { suspendedAt := some 0 } (run.set Obj.settleS 0 2)))) ?_ ?_).2.2.2.2 0 ?_ ?_⟩ <;> decide +kernel

theorem wit_trigger (h : Obligations.PtpEngineTriggersAndCaptures) :
    ∃ t, exec (.triggerEdge 3) (late 5 (setTrigger 3 { next := some 5 } (run.set Obj.ttMode 3 2))) = .next t := by
  refine ⟨_, (h.2 3 (late 5 (setTrigger 3 { next := some 5 } (run.set Obj.ttMode 3 2)))).1 5 ?_ ?_ ?_ ?_⟩ <;> decide +kernel

theorem wit_pulse_end (h : Obligations.PtpEngineTriggersAndCaptures) :
    ∃ t, exec (.triggerPulseEnd 3) (late 5 (setTrigger 3 { pulseEnd := some (5, true) } run)) = .next t := by
  refine ⟨_, (h.2 3 (late 5 (setTrigger 3 { pulseEnd := some (5, true) } run))).2.1 5 true ?_ ?_⟩ <;> decide +kernel

theorem wit_capture (h : Obligations.PtpEngineTriggersAndCaptures) :
    ∃ t, exec (.captureEdge 3 true) (setCapture 3 { entries := List.replicate 15 { time := 1, fraction := 2, falling := false, lost := false, stepped := false, coarse := false } } (run.set Obj.tcEdge 3 2)) = .next t := by
  refine ⟨_, (h.2 3 (setCapture 3 { entries := List.replicate 15 { time := 1, fraction := 2, falling := false, lost := false, stepped := false, coarse := false } } (run.set Obj.tcEdge 3 2))).2.2.1 true _ _ rfl ?_ ?_ rfl⟩ <;> decide +kernel

theorem wit_capture_read (h : Obligations.PtpEngineTriggersAndCaptures) :
    ∃ t, exec (.captureRead mb 3) (asks (readReq 7 0x1851 0 3) (setCapture 3 { entries := [{ time := 1, fraction := 2, falling := false, lost := false, stepped := false, coarse := false }] } run)) = .next t := by
  refine ⟨_, (h.2 3 (asks (readReq 7 0x1851 0 3) (setCapture 3 { entries := [{ time := 1, fraction := 2, falling := false, lost := false, stepped := false, coarse := false }] } run))).2.2.2 mb { time := 1, fraction := 2, falling := false, lost := false, stepped := false, coarse := false } [] _ rfl ⟨?_, ?_, ?_, ?_, ?_, ?_, ?_, ?_⟩ ?_⟩ <;> decide +kernel

/-- A frame under EtherType 0x88B6 from device 9. -/
def ctl (kind dst slot seq : Nat) (body : List Byte) (key : Option Nat) : List Byte :=
  let msg := ctrlHeader kind 1 dst 9 slot seq 0 body.length ++ body
  List.replicate 12 0 ++ [0x88, 0xB6] ++ msg ++ (match key with | some k => ctrlMac k msg | none => List.replicate 16 0)

/-- Port 40 in ferry mode and UP. -/
def ferry40 : State := (port40 2 {}).set Obj.ferryMode 40 1

/-- A hello, which names a neighbour and its port. -/
def hello (valid : Bool) : List Byte :=
  ctl 1 0 0 0 (beBytes 2 7 ++ [0, if valid then 0x80 else 0] ++ beBytes 2 (ferry40.deviceId) ++ beBytes 2 40 ++ List.replicate 24 0) none

theorem wit_hello_tx (h : Obligations.AdjacenciesAndClaims) :
    ∃ t, exec (.helloTx 40) (late 2000000000 (ferry40.withFabric { ferry40.fabric with hellos := [(40, (0, []))] })) = .next t := by
  refine (fun ⟨_, _, h⟩ => ⟨_, h⟩) ((h.1 40 (late 2000000000 (ferry40.withFabric { ferry40.fabric with hellos := [(40, (0, []))] }))).1 0 [] ?_ ?_ ?_) <;> decide +kernel

theorem wit_hello_new (h : Obligations.AdjacenciesAndClaims) :
    ∃ t, exec (.helloRx 40 (hello false)) (ferry40) = .next t := by
  refine next_of (((h.1 40 (ferry40)).2.1 (hello false) _ rfl ?_ ?_ ?_ ?_ ?_).1 ?_) <;> decide +kernel

theorem wit_hello_up (h : Obligations.AdjacenciesAndClaims) :
    ∃ t, exec (.helloRx 40 (hello true)) (ferry40) = .next t := by
  refine (fun ⟨_, h, _⟩ => ⟨_, h⟩) (((h.1 40 (ferry40)).2.1 (hello true) _ rfl ?_ ?_ ?_ ?_ ?_).2 ?_ ?_ ?_) <;> decide +kernel

theorem wit_adj_dead (h : Obligations.AdjacenciesAndClaims) :
    ∃ t, exec (.adjDead 40) (late 2000000000 ((ferry40.withFabric { ferry40.fabric with adj := [(40, {})] }).set Obj.adjState 40 2)) = .next t := by
  refine (fun ⟨_, h, _⟩ => ⟨_, h⟩) ((h.1 40 (late 2000000000 ((ferry40.withFabric { ferry40.fabric with adj := [(40, {})] }).set Obj.adjState 40 2))).2.2 {} ?_ ?_ ?_) <;> decide +kernel

/-- A claim or defence of an ID by a serial number that is not the device's own. -/
theorem wit_claim (h : Obligations.AdjacenciesAndClaims) : ∃ n : Nat, (∃ t, exec (.claimRx 40 (ctl 3 0 0 0 (beBytes 18 n) none)) ferry40 = .next t) ∧
    ∃ t, exec (.defendRx 40 (ctl 4 0 0 0 (beBytes 18 n) none)) ferry40 = .next t := by
  refine if h0 : ownSerial = 0 then
    ⟨1, ⟨_, (h.2.1 40 (ctl 3 0 0 0 (beBytes 18 1) none) _ ferry40 _ rfl ?_ ?_ ?_
      ?_ (by rw [h0]; decide +kernel) rfl).1 ?_⟩,
     ⟨_, (h.2.1 40 (ctl 4 0 0 0 (beBytes 18 1) none) _ ferry40 _ rfl ?_ ?_ ?_
      ?_ (by rw [h0]; decide +kernel) rfl).2 ?_⟩⟩
  else
    ⟨0, ⟨_, (h.2.1 40 (ctl 3 0 0 0 (beBytes 18 0) none) _ ferry40 _ rfl ?_ ?_ ?_
      ?_ (fun he => h0 (he.symm.trans ?_)) rfl).1 ?_⟩,
     ⟨_, (h.2.1 40 (ctl 4 0 0 0 (beBytes 18 0) none) _ ferry40 _ rfl ?_ ?_ ?_
      ?_ (fun he => h0 (he.symm.trans ?_)) rfl).2 ?_⟩⟩ <;> decide +kernel

/-- A device whose claim of ID 5 has waited. -/
def claimed (rejected : Bool) : State :=
  late 2000000000 (ferry40.withFabric { ferry40.fabric with claim := some (5, 0, rejected, 1) })

theorem wit_claim_ok (h : Obligations.AdjacenciesAndClaims) : ∃ t, exec .claimWaitEnd (claimed false) = .next t := by
  refine ⟨_, (h.2.2 (claimed false) ?_).1 5 0 1 rfl ?_⟩ <;> decide +kernel

theorem wit_claim_rejected (h : Obligations.AdjacenciesAndClaims) : ∃ t, exec .claimWaitEnd (claimed true) = .next t := by
  refine ⟨_, (h.2.2 (claimed true) ?_).2 5 0 1 rfl ?_⟩ <;> decide +kernel

theorem wit_lsa (h : Obligations.LinkStateDatabaseFollowsAdvertisements) :
    ∃ t, exec (.lsaRx 40 (ctl 2 0 0 0 (beBytes 2 9 ++ List.replicate 16 1 ++ beBytes 4 1 ++ beBytes 2 1 ++ beBytes 2 3 ++ beBytes 2 4) none)) (ferry40) = .next t := by
  refine next_of ((h (ferry40) ?_).1 40 (ctl 2 0 0 0 (beBytes 2 9 ++ List.replicate 16 1 ++ beBytes 4 1 ++ beBytes 2 1 ++ beBytes 2 3 ++ beBytes 2 4) none) _ rfl ?_ ?_ ?_ ?_ ?_ ?_ ?_) <;> decide +kernel

theorem wit_lsa_own (h : Obligations.LinkStateDatabaseFollowsAdvertisements) :
    ∃ t, exec (.lsaOriginate) (ferry40.withFabric { ferry40.fabric with lsaDue := some 0, lsaSeq := 0xFFFFFFFF }) = .next t := by
  refine next_of ((h (ferry40.withFabric { ferry40.fabric with lsaDue := some 0, lsaSeq := 0xFFFFFFFF }) ?_).2.1 ?_ ?_) <;> decide +kernel

theorem wit_lsa_old (h : Obligations.LinkStateDatabaseFollowsAdvertisements) :
    ∃ t, exec (.lsaAgeOut 9) (late 225000000000 (ferry40.withFabric { ferry40.fabric with lsdb := [(9, { serial := 1, seq := 1, links := [], refreshed := 0 })] })) = .next t := by
  refine next_of ((h (late 225000000000 (ferry40.withFabric { ferry40.fabric with lsdb := [(9, { serial := 1, seq := 1, links := [], refreshed := 0 })] })) ?_).2.2.1 9 { serial := 1, seq := 1, links := [], refreshed := 0 } ?_ ?_) <;> decide +kernel

theorem wit_routes (h : Obligations.LinkStateDatabaseFollowsAdvertisements) :
    ∃ t, exec (.routeCompute) (late 12500000 (ferry40.withFabric { ferry40.fabric with changedAt := some 0 })) = .next t := by
  refine ⟨_, (h (late 12500000 (ferry40.withFabric { ferry40.fabric with changedAt := some 0 })) ?_).2.2.2 0 ?_ ?_ ?_⟩ <;> decide +kernel

/-- The device with ACP key 255 valid. -/
def acpReady : State := (ferry40.set Obj.acpKeyValid 255 1).set Obj.acpKey 255 77

/-- An ACP request to the device under key 255. -/
def acpAsk : List Byte := ctl 5 ferry40.deviceId 255 1 (requestBytes (readReq 7 0 0 0)) (some 77)

/-- An ACP response to the device under key 255. -/
def acpReply : List Byte := ctl 6 ferry40.deviceId 255 1 [1, 2, 3] (some 77)

/-- A frame under ACP key 255 is authentic. -/
theorem acp_known (c : Ctrl) (h1 : c.slot = 255) (h2 : c.mac = ctrlMac 77 c.msg) : acpReady.authKey c = some (77, none) := by
  unfold State.authKey
  have hk : acpReady.get Obj.acpKey 255 = 77 := by decide +kernel
  rw [h1, if_neg (by decide), hk, if_pos ⟨by decide +kernel, h2⟩]

theorem wit_acp_request (h : Obligations.AcpRequestsWaitAndAreAnswered) :
    ∃ t, exec (.acpRequest 40 acpAsk) (acpReady) = .next t := by
  refine next_of ((h (acpReady)).1 40 acpAsk _ (readReq 7 0 0 0) 77 none rfl rfl ?_ ?_ rfl ?_ (acp_known _ ?_ rfl) ?_ ?_ ?_ ?_) <;> decide +kernel

theorem wit_acp_unserved (h : Obligations.AcpRequestsWaitAndAreAnswered) :
    ∃ t, exec (.acpUnserved 0) (late 1250000 (acpReady.withFabric { acpReady.fabric with acp := [{ device := 9, keySlot := 255, seq := 1, request := readReq 7 0 0 0, since := 0, port := 40, key := 77 }] })) = .next t := by
  refine ⟨_, (h (late 1250000 (acpReady.withFabric { acpReady.fabric with acp := [{ device := 9, keySlot := 255, seq := 1, request := readReq 7 0 0 0, since := 0, port := 40, key := 77 }] }))).2.1 { device := 9, keySlot := 255, seq := 1, request := readReq 7 0 0 0, since := 0, port := 40, key := 77 } ?_ ?_ ?_⟩ <;> decide +kernel

theorem wit_proxy_request (h : Obligations.AcpRequestsWaitAndAreAnswered) :
    ∃ t, exec (.acpProxyRequest mb 63 (List.replicate 2 255 ++ [255, 0] ++ List.replicate 20 0)) (asks (segReq 7 0x6870 0 63 (List.replicate 2 255 ++ [255, 0] ++ List.replicate 20 0)) acpReady) = .next t := by
  refine (fun ⟨_, _, _, h⟩ => ⟨_, h⟩) ((h (asks (segReq 7 0x6870 0 63 (List.replicate 2 255 ++ [255, 0] ++ List.replicate 20 0)) acpReady)).2.2.1 mb 63 (List.replicate 2 255 ++ [255, 0] ++ List.replicate 20 0) _ rfl ⟨?_, ?_, ?_, ?_, ?_, ?_, ?_, ?_⟩ ?_ (.inl ?_) ?_ ?_ ?_ ?_ ?_) <;> decide +kernel

theorem wit_proxy_response (h : Obligations.AcpRequestsWaitAndAreAnswered) :
    ∃ t, exec (.acpResponse 40 acpReply) (acpReady.withFabric { acpReady.fabric with proxies := [(63, { device := 9, keySlot := 255, seq := 1, deadline := 5, key := 77 })] }) = .next t :=
  ⟨_, (h (acpReady.withFabric { acpReady.fabric with proxies := [(63, { device := 9, keySlot := 255, seq := 1, deadline := 5, key := 77 })] })).2.2.2.1 40 acpReply _ 63 { device := 9, keySlot := 255, seq := 1, deadline := 5, key := 77 } rfl rfl (by decide +kernel) rfl rfl rfl rfl rfl rfl⟩

theorem wit_proxy_timeout (h : Obligations.AcpRequestsWaitAndAreAnswered) :
    ∃ t, exec (.acpProxyTimeout 63) (late 5 (acpReady.withFabric { acpReady.fabric with proxies := [(63, { device := 9, keySlot := 255, seq := 1, deadline := 5, key := 77 })] })) = .next t := by
  refine ⟨_, (h (late 5 (acpReady.withFabric { acpReady.fabric with proxies := [(63, { device := 9, keySlot := 255, seq := 1, deadline := 5, key := 77 })] }))).2.2.2.2.1 63 { device := 9, keySlot := 255, seq := 1, deadline := 5, key := 77 } ?_ ?_⟩ <;> decide +kernel

theorem wit_grace_end (h : Obligations.AcpRequestsWaitAndAreAnswered) :
    ∃ t, exec (.acpKeyGraceEnd 255) (late (2 ^ 50) (acpReady.withFabric { acpReady.fabric with grace := [(255, (1, 2, 0))] })) = .next t := by
  refine ⟨_, (h (late (2 ^ 50) (acpReady.withFabric { acpReady.fabric with grace := [(255, (1, 2, 0))] }))).2.2.2.2.2 255 (1, 2, 0) ?_ ?_⟩ <;> decide +kernel

theorem wit_doze (h : Obligations.SleepStatesFollowTheirSteps) :
    ∃ t, exec (.dozeEnter) (late (2 ^ 50) (run.set Obj.dozeEnable 0 1)) = .next t := by
  refine (fun ⟨_, h, _⟩ => ⟨_, h⟩) ((h.1 (late (2 ^ 50) (run.set Obj.dozeEnable 0 1))).1 ?_ ?_ ?_ ?_) <;> decide +kernel

theorem wit_moor (h : Obligations.SleepStatesFollowTheirSteps) :
    ∃ t, exec (.moorEnter) (late (2 ^ 50) (run.set Obj.moorEnable 0 1)) = .next t := by
  refine ⟨_, (h.1 (late (2 ^ 50) (run.set Obj.moorEnable 0 1))).2.1 ?_ ?_ ?_ ?_ ?_⟩ <;> decide +kernel

theorem wit_moor_step1 (h : Obligations.SleepStatesFollowTheirSteps) :
    ∃ t, exec (.moorEntryStepDone) ((run.set Obj.sleepState 0 3).withSleep { run.sleep with entryStep := 1 }) = .next t := by
  refine ⟨_, (h.1 ((run.set Obj.sleepState 0 3).withSleep { run.sleep with entryStep := 1 })).2.2.1 1 ?_ ?_ ?_ ?_ (fun _ => ?_)⟩ <;> decide +kernel

theorem wit_moor_step5 (h : Obligations.SleepStatesFollowTheirSteps) :
    ∃ t, exec (.moorEntryStepDone) ((run.set Obj.sleepState 0 3).withSleep { run.sleep with entryStep := 5 }) = .next t := by
  refine ⟨_, (h.1 ((run.set Obj.sleepState 0 3).withSleep { run.sleep with entryStep := 5 })).2.2.1 5 ?_ ?_ ?_ ?_ (fun _ => ?_)⟩ <;> decide +kernel

theorem wit_moor_step8 (h : Obligations.SleepStatesFollowTheirSteps) :
    ∃ t, exec (.moorEntryStepDone) ((run.set Obj.sleepState 0 3).withSleep { run.sleep with entryStep := 8 }) = .next t := by
  refine ⟨_, (h.1 ((run.set Obj.sleepState 0 3).withSleep { run.sleep with entryStep := 8 })).2.2.1 8 ?_ ?_ ?_ ?_ (fun _ => ?_)⟩ <;> decide +kernel

theorem wit_wake_moor (h : Obligations.SleepStatesFollowTheirSteps) :
    ∃ t, exec (.wake .frame) (run.set Obj.sleepState 0 2) = .next t := by
  refine ⟨_, ((h.1 (run.set Obj.sleepState 0 2)).2.2.2.1 .frame ?_).1 ?_⟩ <;> decide +kernel

theorem wit_wake_doze (h : Obligations.SleepStatesFollowTheirSteps) :
    ∃ t, exec (.wake .frame) (run.set Obj.sleepState 0 1) = .next t := by
  refine ⟨_, ((h.1 (run.set Obj.sleepState 0 1)).2.2.2.1 .frame ?_).2.1 ?_⟩ <;> decide +kernel

theorem wit_wake_entry (h : Obligations.SleepStatesFollowTheirSteps) :
    ∃ t, exec (.wake .frame) (run.set Obj.sleepState 0 3) = .next t := by
  refine ⟨_, ((h.1 (run.set Obj.sleepState 0 3)).2.2.2.1 .frame ?_).2.2 ?_⟩ <;> decide +kernel

theorem wit_wake_step1 (h : Obligations.SleepStatesFollowTheirSteps) :
    ∃ t, exec (.wakeStepDone) ((run.set Obj.sleepState 0 4).withSleep { run.sleep with wakeStep := 1 }) = .next t := by
  refine ⟨_, (h.1 ((run.set Obj.sleepState 0 4).withSleep { run.sleep with wakeStep := 1 })).2.2.2.2 1 ?_ ?_ ?_ ?_⟩ <;> decide +kernel

theorem wit_wake_step7 (h : Obligations.SleepStatesFollowTheirSteps) :
    ∃ t, exec (.wakeStepDone) ((run.set Obj.sleepState 0 4).withSleep { run.sleep with wakeStep := 7 }) = .next t := by
  refine ⟨_, (h.1 ((run.set Obj.sleepState 0 4).withSleep { run.sleep with wakeStep := 7 })).2.2.2.2 7 ?_ ?_ ?_ ?_⟩ <;> decide +kernel

theorem wit_wake_step9 (h : Obligations.SleepStatesFollowTheirSteps) :
    ∃ t, exec (.wakeStepDone) ((run.set Obj.sleepState 0 4).withSleep { run.sleep with wakeStep := 9 }) = .next t := by
  refine ⟨_, (h.1 ((run.set Obj.sleepState 0 4).withSleep { run.sleep with wakeStep := 9 })).2.2.2.2 9 ?_ ?_ ?_ ?_⟩ <;> decide +kernel

theorem wit_woken (h : Obligations.SleepStatesFollowTheirSteps) :
    ∃ u : State, u.get Obj.sleepState = 0 ∧ u.frames = run.frames :=
  (h.2 run).elim fun u hu => ⟨u, hu.2.1, hu.2.2.2.2⟩

theorem wit_ref_lost (h : Obligations.ReferencesAndGangways) :
    ∃ t, exec (.refclkLost 9 false) (run) = .next t :=
  (fun ⟨_, _, h⟩ => ⟨_, h⟩) ((h (run)).1 9 (by decide +kernel))

theorem wit_ref_back (h : Obligations.ReferencesAndGangways) :
    ∃ t, exec (.refclkLost 9 true) (run.set Obj.refclkPresent 0 0x1FF) = .next t := by
  refine ⟨_, (h (run.set Obj.refclkPresent 0 0x1FF)).2.1 9 ?_ ?_⟩ <;> decide +kernel

theorem wit_landing_pfc (h : Obligations.ReferencesAndGangways) :
    ∃ t, exec (.landingPfcRefresh 3) (late 2000000000 (run.withSleep { run.sleep with xoff := [(3, 0)] })) = .next t := by
  refine ⟨_, (h (late 2000000000 (run.withSleep { run.sleep with xoff := [(3, 0)] }))).2.2.1 3 0 ?_ ?_⟩ <;> decide +kernel

theorem wit_gw_ack (h : Obligations.ReferencesAndGangways) :
    ∃ t, exec (.gangwayEventAck 0) (setGw 0 { crossing := some 15, count := 3 } run) = .next t := by
  refine next_of ((h (setGw 0 { crossing := some 15, count := 3 } run)).2.2.2.1 0 15 ?_ ?_) <;> decide +kernel

theorem wit_gw_timeout (h : Obligations.ReferencesAndGangways) :
    ∃ t, exec (.gangwayTimeout 0 true 0) (run) = .next t :=
  ⟨_, (h (run)).2.2.2.2.1 0 true 0 (by decide +kernel)⟩

theorem wit_gw_reset (h : Obligations.ReferencesAndGangways) :
    ∃ t, exec (.gangwaySideReset 0 true) (setGw 0 { crossing := some 15, count := 3, fifo := 2 } run) = .next t := by
  refine next_of ((h (setGw 0 { crossing := some 15, count := 3, fifo := 2 } run)).2.2.2.2.2.1 0 true ?_ ?_) <;> decide +kernel

theorem wit_gw_resync (h : Obligations.ReferencesAndGangways) :
    ∃ t, exec (.gangwayResync 0) (run.set Obj.gangwayState 0 2) = .next t := by
  refine next_of ((h (run.set Obj.gangwayState 0 2)).2.2.2.2.2.2 0 ?_ ?_) <;> decide +kernel

/-- All Pilots in reset. -/
def dark (s : State) : State := (List.range 4).foldl (fun s d => s.set Obj.pilotState d 2) s

/-- The emergency window open on a target. -/
def raw (target : Nat) (s : State) : State := (dark s).withHost { s.host with rawStatus := 1, rawTarget := target }

theorem wit_raw_open (h : Obligations.RawWindowAndFlashEngine) :
    ∃ t, exec (.rawWindowOpen 0x45000000) (dark run) = .next t :=
  ⟨_, (h.1 (dark run)).1 0x45000000 _ _ _ rfl rfl rfl⟩

theorem wit_raw_refused (h : Obligations.RawWindowAndFlashEngine) :
    ∃ t, exec (.rawWindowOpen 0x45000000) (run) = .next t :=
  ⟨_, (h.1 (run)).1 0x45000000 _ _ _ rfl rfl rfl⟩

theorem wit_raw_close (h : Obligations.RawWindowAndFlashEngine) :
    ∃ t, exec (.rawWindowClose) (raw 0 run) = .next t :=
  ⟨_, (h.1 (raw 0 run)).2.1⟩

theorem wit_raw_closed_read (h : Obligations.RawWindowAndFlashEngine) :
    ∃ t, exec (.rawWindowAccess (.bar0 0x7FFFFC 4) none) (run) = .next t := by
  refine ⟨_, (((h.1 (run)).2.2.2.2.2.2 0x7FFFFC 5 0x3FFFFC ?_ ?_).1 ?_).1⟩ <;> decide +kernel

theorem wit_raw_closed_write (h : Obligations.RawWindowAndFlashEngine) :
    ∃ t, exec (.rawWindowAccess (.bar0 0x400000 4) (some 5)) (run) = .next t := by
  refine ⟨_, (((h.1 (run)).2.2.2.2.2.2 0x400000 5 0 ?_ ?_).1 ?_).2⟩ <;> decide +kernel

theorem wit_raw_read (h : Obligations.RawWindowAndFlashEngine) :
    ∃ t, exec (.rawWindowAccess (.bar0 0x7FFFFC 4) none) (raw 3 run) = .next t := by
  refine ⟨_, (((h.1 (raw 3 run)).2.2.2.2.2.2 0x7FFFFC 5 0x3FFFFC ?_ ?_).2 ?_ ?_).1 _ rfl⟩ <;> decide +kernel

theorem wit_raw_write (h : Obligations.RawWindowAndFlashEngine) :
    ∃ t, exec (.rawWindowAccess (.bar0 0x7FFFFC 4) (some 0x12345678)) (raw 3 run) = .next t := by
  refine next_of ((((h.1 (raw 3 run)).2.2.2.2.2.2 0x7FFFFC 0x12345678 0x3FFFFC ?_ ?_).2 ?_ ?_).2 ?_) <;> decide +kernel

theorem wit_bar0_width (h : Obligations.RawWindowAndFlashEngine) :
    ∃ t, exec (.rawWindowAccess (.bar0 1 4) none) run = .next t :=
  ⟨_, ((h.1 run).2.2.1 1 4 0 (.inr (by decide +kernel))).1⟩

theorem wit_bar0_id (h : Obligations.RawWindowAndFlashEngine) :
    ∃ t, exec (.rawWindowAccess (.bar0 0 4) none) run = .next t :=
  ⟨_, (h.1 run).2.2.2.1⟩

theorem wit_request_area (h : Obligations.RawWindowAndFlashEngine) :
    ∃ t, exec (.rawWindowAccess (.bar0 0x2EFC 4) (some 0xFFFFFFFF)) run = .next t := by
  refine next_of (((h.1 run).2.2.2.2.2.1 15 0x2EFC 0xFFFFFFFF 63 ?_ ?_).2 ?_) <;> decide +kernel

theorem wit_fe_erase (h : Obligations.RawWindowAndFlashEngine) :
    ∃ t, exec (.feErase) ((raw 5 run).withFe { addr := 65536 }) = .next t := by
  refine ⟨_, ((h.2 ((raw 5 run).withFe { addr := 65536 }) _ rfl).1 ?_ ?_ ?_).1 ?_⟩ <;> decide +kernel

theorem wit_fe_program (h : Obligations.RawWindowAndFlashEngine) :
    ∃ t, exec (.feProgram) ((raw 5 run).withFe { addr := 65280 }) = .next t := by
  refine ⟨_, ((h.2 ((raw 5 run).withFe { addr := 65280 }) _ rfl).1 ?_ ?_ ?_).2.1 ?_⟩ <;> decide +kernel

theorem wit_fe_erase_odd (h : Obligations.RawWindowAndFlashEngine) :
    ∃ t, exec (.feErase) ((raw 5 run).withFe { addr := 65281 }) = .next t := by
  refine ⟨_, (((h.2 ((raw 5 run).withFe { addr := 65281 }) _ rfl).1 ?_ ?_ ?_).2.2 ?_).1⟩ <;> decide +kernel

theorem wit_fe_program_odd (h : Obligations.RawWindowAndFlashEngine) :
    ∃ t, exec (.feProgram) ((raw 5 run).withFe { addr := 65281 }) = .next t := by
  refine ⟨_, (((h.2 ((raw 5 run).withFe { addr := 65281 }) _ rfl).1 ?_ ?_ ?_).2.2 ?_).2⟩ <;> decide +kernel

theorem wit_fe_failed (h : Obligations.RawWindowAndFlashEngine) :
    ∃ t, exec (.feDone false) (run.withFe { status := 1, cmd := 1 }) = .next t := by
  refine ⟨_, ((h.2 (run.withFe { status := 1, cmd := 1 }) _ rfl).2.1 ?_ ?_).1⟩ <;> decide +kernel

theorem wit_fe_erased (h : Obligations.RawWindowAndFlashEngine) :
    ∃ t, exec (.feDone true) ((run.withHost { run.host with flash := [(5, 7)] }).withFe { status := 1, cmd := 1 }) = .next t := by
  refine next_of (((h.2 ((run.withHost { run.host with flash := [(5, 7)] }).withFe { status := 1, cmd := 1 }) _ rfl).2.1 ?_ ?_).2.1 ?_) <;> decide +kernel

theorem wit_fe_programmed (h : Obligations.RawWindowAndFlashEngine) :
    ∃ t, exec (.feDone true) ((run.withHost { run.host with flash := [(5, 7)] }).withFe { status := 1, cmd := 2, data := [(5, 0xFE), (255, 0)] }) = .next t := by
  refine next_of (((h.2 ((run.withHost { run.host with flash := [(5, 7)] }).withFe { status := 1, cmd := 2, data := [(5, 0xFE), (255, 0)] }) _ rfl).2.1 ?_ ?_).2.2 ?_) <;> decide +kernel

theorem wit_vddio_back (h : Obligations.RawWindowAndFlashEngine) :
    ∃ t, exec (.vddioReturned) (run.withFe { waiting := true }) = .next t :=
  ⟨_, (h.2 (run.withFe { waiting := true }) _ rfl).2.2⟩

theorem wit_boot_start (h : Obligations.DeviceResetsStartsAndShutsDown) :
    ∃ t, exec (.bootStart 63) (State.reset) = .next t := by
  refine next_of ((h.1 (State.reset)).1 63 ?_ ?_) <;> decide +kernel

theorem wit_boot_test (h : Obligations.DeviceResetsStartsAndShutsDown) :
    ∃ t, exec (.bootStart 64) (State.reset) = .next t := by
  refine (fun ⟨_, _, h⟩ => ⟨_, h⟩) ((h.1 (State.reset)).2.1 64 ?_ ?_) <;> decide +kernel

theorem wit_sys_reset (h : Obligations.DeviceResetsStartsAndShutsDown) :
    ∃ t, exec (.sysReset 10000) (run.set Obj.portEnable 5 1) = .next t := by
  refine next_of ((h.1 (run.set Obj.portEnable 5 1)).2.2 10000 ?_ ?_) <;> decide +kernel

theorem wit_power_good (h : Obligations.DeviceResetsStartsAndShutsDown) :
    ∃ t, exec (.powerLoss (.pwrGoodLow 1000)) (run) = .next t :=
  next_of ((h.2 (run)).1 (.pwrGoodLow 1000) (by decide +kernel))

theorem wit_power_core (h : Obligations.DeviceResetsStartsAndShutsDown) :
    ∃ t, exec (.powerLoss (.vinCore 1699 2000)) (run) = .next t :=
  next_of ((h.2 (run)).1 (.vinCore 1699 2000) (by decide +kernel))

theorem wit_thermal_shutdown (h : Obligations.DeviceResetsStartsAndShutsDown) :
    ∃ t, exec (.thermalShutdown) (run) = .next t :=
  next_of ((h.2 (run)).2.1)

theorem wit_rail_in (h : Obligations.DeviceResetsStartsAndShutsDown) :
    ∃ t, exec (.supplyOutOfRange 1 1854) (run) = .next t := by
  refine ⟨_, ((h.2 (run)).2.2 1 1854 _ ?_ ?_ rfl).1 ?_ ?_⟩ <;> decide +kernel

theorem wit_rail_out (h : Obligations.DeviceResetsStartsAndShutsDown) :
    ∃ t, exec (.supplyOutOfRange 1 1855) (run) = .next t := by
  refine (fun ⟨_, _, h⟩ => ⟨_, h⟩) (((h.2 (run)).2.2 1 1855 _ ?_ ?_ rfl).2.2 ?_ ?_ ?_) <;> decide +kernel

theorem wit_rail_hard (h : Obligations.DeviceResetsStartsAndShutsDown) :
    ∃ t, exec (.supplyOutOfRange 1 1901) (run) = .next t := by
  refine ⟨_, ((h.2 (run)).2.2 1 1901 _ ?_ ?_ rfl).2.1 ?_ ?_⟩ <;> decide +kernel

theorem wit_vddio_low (h : Obligations.DeviceResetsStartsAndShutsDown) :
    ∃ t, exec (.supplyOutOfRange 5 0) (run) = .next t := by
  refine (fun ⟨_, _, h⟩ => ⟨_, h⟩) (((h.2 (run)).2.2 5 0 _ ?_ ?_ rfl).2.2 ?_ ?_ ?_) <;> decide +kernel

theorem wit_stage1 (h : Obligations.BootStagesAndRestarts) :
    ∃ t, exec (.bootStageDone {}) (State.reset.withBoot { held := false, stage := 1 }) = .next t := by
  refine (fun ⟨_, h, _⟩ => ⟨_, h⟩) ((h.1 (State.reset.withBoot { held := false, stage := 1 }) ?_ ?_).1 {}) <;> decide +kernel

theorem wit_stage4 (h : Obligations.BootStagesAndRestarts) :
    ∃ t, exec (.bootStageDone {}) (State.reset.withBoot { held := false, stage := 4 }) = .next t := by
  refine (fun ⟨_, h, _⟩ => ⟨_, h⟩) ((h.1 (State.reset.withBoot { held := false, stage := 4 }) ?_ ?_).1 {}) <;> decide +kernel

theorem wit_stage6 (h : Obligations.BootStagesAndRestarts) :
    ∃ t, exec (.bootStageDone {}) (State.reset.withBoot { held := false, stage := 6 }) = .next t := by
  refine (fun ⟨_, h, _⟩ => ⟨_, h⟩) ((h.1 (State.reset.withBoot { held := false, stage := 6 }) ?_ ?_).1 {}) <;> decide +kernel

theorem wit_stage8 (h : Obligations.BootStagesAndRestarts) :
    ∃ t, exec (.bootStageDone {}) (State.reset.withBoot { held := false, stage := 8 }) = .next t := by
  refine (fun ⟨_, h, _⟩ => ⟨_, h⟩) ((h.1 (State.reset.withBoot { held := false, stage := 8 }) ?_ ?_).1 {}) <;> decide +kernel

theorem wit_stage9 (h : Obligations.BootStagesAndRestarts) :
    ∃ t, exec (.bootStageDone {}) (State.reset.withBoot { held := false, stage := 9 }) = .next t := by
  refine (fun ⟨_, h, _⟩ => ⟨_, h⟩) ((h.1 (State.reset.withBoot { held := false, stage := 9 }) ?_ ?_).1 {}) <;> decide +kernel

/-- A device at the second record of its configuration. -/
def configuring : State :=
  State.reset.withBoot { held := false, stage := 8, config := [{ opcode := 2, index := 0x1100, inst := 5, length := 1, value := [1] }], configIndex := 1, answer := some done } |>.set Obj.pilotState 0 0

theorem wit_config_record (h : Obligations.BootStagesAndRestarts) : ∃ t, exec (.configRecord) configuring = .next t := by
  refine (fun ⟨_, _, h⟩ => ⟨_, h⟩) ((h.1 configuring ?_ ?_).2 { opcode := 2, index := 0x1100, inst := 5, length := 1, value := [1] } [] rfl ?_ ?_ ?_) <;> decide +kernel

theorem wit_restart_warm (h : Obligations.BootStagesAndRestarts) :
    ∃ t, exec (.restartWarm) (run) = .next t :=
  ⟨_, (h.2 (run) _ _ (by decide +kernel) rfl).1⟩

theorem wit_restart_cold (h : Obligations.BootStagesAndRestarts) :
    ∃ t, exec (.restartCold) (run) = .next t := by
  refine ⟨_, (h.2 (run) _ _ ?_ rfl).2.1 ?_⟩ <;> decide +kernel

theorem wit_restart_cold_config (h : Obligations.BootStagesAndRestarts) :
    ∃ t, exec (.restartColdConfig) (run) = .next t := by
  refine ⟨_, (h.2 (run) _ _ ?_ rfl).2.2.1 ?_⟩ <;> decide +kernel

theorem wit_restart_recovery (h : Obligations.BootStagesAndRestarts) :
    ∃ t, exec (.restartCold) (State.reset.withBoot { held := false, stage := 2, recovery := true }) = .next t := by
  refine ⟨_, ((h.2 (State.reset.withBoot { held := false, stage := 2, recovery := true }) _ _ ?_ rfl).2.2.2 ?_).2.1⟩ <;> decide +kernel

theorem wit_keel_write (h : Obligations.KeelAndRollbackAreStored) :
    ∃ t, exec (.keelWrite mb 0x9100 127 63) (writes 0x9100 1 127 [63] run) = .next t := by
  refine ⟨_, (h (writes 0x9100 1 127 [63] run)).1 mb 0x9100 127 63 Obj.sdTermTrim Obj.sdTermTrimWrites Obj.sdTermTrimOrigin _ rfl rfl ?_ ?_ ⟨⟨?_, ?_, ?_, ?_, ?_, ?_, ?_, ?_⟩, ?_, .inl ?_⟩ ?_ ?_ ?_⟩ <;> decide +kernel

theorem wit_keel_written (h : Obligations.KeelAndRollbackAreStored) :
    ∃ t, exec (.keelWritten) (run.withBoot { run.boot with keel := some { path := some (.mailbox 0), tag := 7, key := addrKey 0x9100 1 127, value := 63, old := 32 } }) = .next t := by
  refine (fun ⟨_, h, _⟩ => ⟨_, h⟩) ((h (run.withBoot { run.boot with keel := some { path := some (.mailbox 0), tag := 7, key := addrKey 0x9100 1 127, value := 63, old := 32 } })).2.1 { path := some (.mailbox 0), tag := 7, key := addrKey 0x9100 1 127, value := 63, old := 32 } 0x9100 127 Obj.sdTermTrim Obj.sdTermTrimWrites Obj.sdTermTrimOrigin ?_ ?_ ?_ rfl) <;> decide +kernel

/-- Every stack holds an image of SECURITY_VERSION 64 as its current copy. -/
def copied (s : State) : State := s.withAvail { s.avail with copies := (List.range 4).map fun d => (d, some { bytes := List.replicate 6 0 ++ [64, 0] }, none) }

/-- `s` with a value listed for an object whose default the part fixes. -/
def listed (o : ObjRow) (inst v : Nat) (s : State) : State :=
  s.withDict { s.dict with active := s.dict.active.put (addrKey o.index o.sub inst) v }

theorem wit_rollback (h : Obligations.KeelAndRollbackAreStored) :
    ∃ t, exec (.rollbackAdvance mb 64) (writes 0x9012 0 0 [64] (listed Obj.rollbackCounter 0 1 (copied run))) = .next t := by
  refine ⟨_, (h (writes 0x9012 0 0 [64] (listed Obj.rollbackCounter 0 1 (copied run)))).2.2.1 mb 64 _ rfl ⟨⟨?_, ?_, ?_, ?_, ?_, ?_, ?_, ?_⟩, ?_, .inl ?_⟩ ?_ ?_ ?_ ?_ ?_ ?_⟩ <;> decide +kernel

theorem wit_rollback_done (h : Obligations.KeelAndRollbackAreStored) :
    ∃ t, exec (.rollbackAdvanced) (run.withBoot { run.boot with rollback := some { path := some (.mailbox 0), tag := 7, key := addrKey 0x9012 0 0, value := 64, old := 0 } }) = .next t :=
  ⟨_, (h (run.withBoot { run.boot with rollback := some { path := some (.mailbox 0), tag := 7, key := addrKey 0x9012 0 0, value := 64, old := 0 } })).2.2.2 { path := some (.mailbox 0), tag := 7, key := addrKey 0x9012 0 0, value := 64, old := 0 } (by decide +kernel)⟩

theorem wit_heartbeat (h : Obligations.FailedPilotsAreReplacedAndRestarted) :
    ∃ t, exec (.heartbeat 3) (late 5 run) = .next t :=
  next_of ((h 3 _ (late 5 run) rfl).1 (by decide +kernel))

theorem wit_pilot_failed (h : Obligations.FailedPilotsAreReplacedAndRestarted) :
    ∃ t, exec (.pilotFailed 3 .watchdog) (late (2 ^ 50) run) = .next t := by
  refine ⟨_, ((h 3 _ (late (2 ^ 50) run) rfl).2.1 .watchdog false _ ?_ ?_ ?_ rfl).2⟩ <;> decide +kernel

theorem wit_pilot_failed_state (h : Obligations.FailedPilotsAreReplacedAndRestarted) :
    (declarePilot 3 1 (late (2 ^ 50) run)).get Obj.pilotState 3 = 1 := by
  refine (((h 3 _ (late (2 ^ 50) run) rfl).2.1 .watchdog false _ ?_ ?_ ?_ rfl).1 ?_ ?_).1 <;> decide +kernel

theorem wit_adopt (h : Obligations.FailedPilotsAreReplacedAndRestarted) :
    ∃ t, exec (.deckAdopt 3) (run.set Obj.pilotState 3 1) = .next t := by
  refine next_of ((h 3 _ (run.set Obj.pilotState 3 1) rfl).2.2.1 0 ?_ ?_) <;> decide +kernel

theorem wit_held_down (h : Obligations.FailedPilotsAreReplacedAndRestarted) :
    ∃ t, exec (.pilotRelease 3) (late 12500 ((setPilot 3 { declared := [0, 1, 2, 3, 4, 5, 6, 7, 8, 9] } run).set Obj.pilotState 3 1 |>.set Obj.restartLimit 0 9)) = .next t := by
  refine ⟨_, ((h 3 _ (late 12500 ((setPilot 3 { declared := [0, 1, 2, 3, 4, 5, 6, 7, 8, 9] } run).set Obj.pilotState 3 1 |>.set Obj.restartLimit 0 9)) rfl).2.2.2.1 ?_ ?_ ?_).1 ?_⟩ <;> decide +kernel

theorem wit_released (h : Obligations.FailedPilotsAreReplacedAndRestarted) :
    ∃ t, exec (.pilotRelease 3) (late 12500 ((copied run).set Obj.pilotState 3 1)) = .next t := by
  refine (fun ⟨t, h, _⟩ => ⟨t, h⟩) (((h 3 _ (late 12500 ((copied run).set Obj.pilotState 3 1)) rfl).2.2.2.1 ?_ ?_ ?_).2 (List.replicate 6 0 ++ [64, 0]) none ?_ ?_) <;> decide +kernel

theorem wit_restarted (h : Obligations.FailedPilotsAreReplacedAndRestarted) :
    ∃ t, exec (.pilotRestarted 3) ((setPilot 3 { booting := some (9, true) } run).set Obj.pilotState 3 1) = .next t := by
  refine ⟨_, (h 3 _ ((setPilot 3 { booting := some (9, true) } run).set Obj.pilotState 3 1) rfl).2.2.2.2.1 9 true _ _ ?_ ?_ rfl rfl⟩ <;> decide +kernel

theorem wit_all_down (h : Obligations.FailedPilotsAreReplacedAndRestarted) :
    ∃ t, exec (.allPilotsDown) (dark run) = .next t := by
  refine ⟨_, (h 3 _ (dark run) rfl).2.2.2.2.2 ?_ ?_ ?_⟩ <;> decide +kernel

theorem wit_pilot_release (h : Obligations.FirmwareIsManagedAndUpdated) :
    ∃ t, exec (.pilotRestart mb 3 1) (writes 0x8004 0 3 [1] (run.set Obj.pilotState 3 2)) = .next t := by
  refine ⟨_, (h.1 mb (writes 0x8004 0 3 [1] (run.set Obj.pilotState 3 2))).1 3 ⟨⟨?_, ?_, ?_, ?_, ?_, ?_, ?_, ?_⟩, ?_, .inl ?_⟩ ?_⟩ <;> decide +kernel

theorem wit_pilot_reset (h : Obligations.FirmwareIsManagedAndUpdated) :
    ∃ t, exec (.pilotRestart mb 3 1) (writes 0x8004 0 3 [1] run) = .next t := by
  refine ⟨_, (h.1 mb (writes 0x8004 0 3 [1] run)).2.1 3 ⟨⟨?_, ?_, ?_, ?_, ?_, ?_, ?_, ?_⟩, ?_, .inl ?_⟩ ?_⟩ <;> decide +kernel

theorem wit_retire (h : Obligations.FirmwareIsManagedAndUpdated) :
    ∃ t, exec (.deckRetire mb 3 1) (writes 0x8023 0 3 [1] run) = .next t := by
  refine ⟨_, (h.1 mb (writes 0x8023 0 3 [1] run)).2.2.1 3 0 ⟨⟨?_, ?_, ?_, ?_, ?_, ?_, ?_, ?_⟩, ?_, .inl ?_⟩ ?_ ?_⟩ <;> decide +kernel

theorem wit_fw_load (h : Obligations.FirmwareIsManagedAndUpdated) :
    ∃ t, exec (.fwLoad mb 352) (writes 0x8010 0 0 (leBytes 8 352) (ringed 0 1 run)) = .next t := by
  refine ⟨_, (h.1 mb (writes 0x8010 0 0 (leBytes 8 352) (ringed 0 1 run))).2.2.2.1 352 ⟨⟨?_, ?_, ?_, ?_, ?_, ?_, ?_, ?_⟩, ?_, .inl ?_⟩ (fun _ e => e ▸ ⟨?_, ?_, ?_, ?_⟩)⟩ <;> decide +kernel

theorem wit_fw_abort1 (h : Obligations.FirmwareIsManagedAndUpdated) :
    ∃ t, exec (.fwUpdateAbort mb 1) (writes 0x8014 0 0 [1] (run.set Obj.fwUpdateState 0 1)) = .next t := by
  refine ⟨_, ((h.1 mb (writes 0x8014 0 0 [1] (run.set Obj.fwUpdateState 0 1))).2.2.2.2 ⟨⟨?_, ?_, ?_, ?_, ?_, ?_, ?_, ?_⟩, ?_, .inl ?_⟩).1 ?_⟩ <;> decide +kernel

theorem wit_fw_abort2 (h : Obligations.FirmwareIsManagedAndUpdated) :
    ∃ t, exec (.fwUpdateAbort mb 1) (writes 0x8014 0 0 [1] (run.set Obj.fwUpdateState 0 2)) = .next t := by
  refine ⟨_, ((h.1 mb (writes 0x8014 0 0 [1] (run.set Obj.fwUpdateState 0 2))).2.2.2.2 ⟨⟨?_, ?_, ?_, ?_, ?_, ?_, ?_, ?_⟩, ?_, .inl ?_⟩).2 ?_⟩ <;> decide +kernel

theorem wit_fw_checked (h : Obligations.FirmwareIsManagedAndUpdated) :
    ∃ t, exec (.fwCheckDone) ((ringed 0 1 run).withAvail { run.avail with fw := (352, 0) } |>.set Obj.fwUpdateState 0 1) = .next t := by
  refine ⟨_, (h.2 ((ringed 0 1 run).withAvail { run.avail with fw := (352, 0) } |>.set Obj.fwUpdateState 0 1)).1 _ _ ?_ ?_ rfl rfl _ rfl⟩ <;> decide +kernel

theorem wit_fw_flashed (h : Obligations.FirmwareIsManagedAndUpdated) :
    ∃ t, exec (.fwFlashDone) (((copied run).withAvail { (copied run).avail with fwSlot := 2 }).set Obj.fwUpdateState 0 3) = .next t := by
  refine (fun ⟨_, h, _⟩ => ⟨_, h⟩) ((h.2 (((copied run).withAvail { (copied run).avail with fwSlot := 2 }).set Obj.fwUpdateState 0 3)).2.1 ?_ ?_ ?_) <;> decide +kernel

theorem wit_fw_timeout (h : Obligations.FirmwareIsManagedAndUpdated) :
    ∃ t, exec (.fwRestartTimeout 3) (late 312500000 ((run.set Obj.fwUpdateState 0 2).set Obj.pilotState 3 1)) = .next t := by
  refine ⟨_, (h.2 (late 312500000 ((run.set Obj.fwUpdateState 0 2).set Obj.pilotState 3 1))).2.2 3 ?_ ?_ ?_⟩ <;> decide +kernel

theorem wit_sram_ce (h : Obligations.MemoryErrorsAreHandled) :
    ∃ t, exec (.sramScrub 7 (.service 4095) .corrected) (run) = .next t :=
  (fun ⟨_, _, _, _, h, _⟩ => ⟨_, h⟩) ((h (run)).1 7 (.service 4095) (by decide +kernel))

theorem wit_sram_ue (h : Obligations.MemoryErrorsAreHandled) :
    ∃ t, exec (.sramScrub 7 (.service 4095) .uncorrectable) (run) = .next t :=
  (fun ⟨_, _, _, _, _, h⟩ => ⟨_, h⟩) ((h (run)).1 7 (.service 4095) (by decide +kernel))

theorem wit_repair (h : Obligations.MemoryErrorsAreHandled) :
    ∃ t, exec (.poisonRepair 3) (run.withHbm { run.hbm with poison := [(3, [5])], poisoned := [3 * 2 ^ 28 + 5] }) = .next t := by
  refine (fun ⟨_, _, _, _, h⟩ => ⟨_, h⟩) ((h (run.withHbm { run.hbm with poison := [(3, [5])], poisoned := [3 * 2 ^ 28 + 5] })).2 3 5 [] ?_ ?_ ?_ ?_) <;> decide +kernel

theorem wit_dir_stop (h : Obligations.DirectionsAndPllsRecoverOrFail) :
    ∃ t, exec (.directionRetrain 11) (run.setDir 11 { fails := 8 }) = .next t := by
  refine ⟨_, (h.1 11 _ (run.setDir 11 { fails := 8 }) rfl).1 1 ?_ ?_⟩ <;> decide +kernel

theorem wit_dir_up (h : Obligations.DirectionsAndPllsRecoverOrFail) :
    ∃ t, exec (.directionRetrainDone 11 true) (run.set Obj.directionState 11 1) = .next t :=
  next_of (((h.1 11 _ (run.set Obj.directionState 11 1) rfl).2.1 (by decide +kernel)).1)

theorem wit_dir_fail1 (h : Obligations.DirectionsAndPllsRecoverOrFail) :
    ∃ t, exec (.directionRetrainDone 11 false) ((run.setDir 11 { trainFails := 1 }).set Obj.directionState 11 1) = .next t := by
  refine ⟨_, ((h.1 11 _ ((run.setDir 11 { trainFails := 1 }).set Obj.directionState 11 1) rfl).2.1 ?_).2.1 ?_⟩ <;> decide +kernel

theorem wit_dir_fail3 (h : Obligations.DirectionsAndPllsRecoverOrFail) :
    ∃ t, exec (.directionRetrainDone 11 false) ((run.setDir 11 { trainFails := 2 }).set Obj.directionState 11 1) = .next t := by
  refine (fun ⟨_, h, _⟩ => ⟨_, h⟩) (((h.1 11 _ ((run.setDir 11 { trainFails := 2 }).set Obj.directionState 11 1) rfl).2.1 ?_).2.2 ?_ ?_) <;> decide +kernel

theorem wit_dir_retry (h : Obligations.DirectionsAndPllsRecoverOrFail) :
    ∃ t, exec (.directionRetry 11) (late 12500000000 (run.set Obj.directionState 11 2)) = .next t := by
  refine ⟨_, (h.1 11 _ (late 12500000000 (run.set Obj.directionState 11 2)) rfl).2.2 ?_ ?_ ?_ ?_⟩ <;> decide +kernel

theorem wit_pll_unlock (h : Obligations.DirectionsAndPllsRecoverOrFail) :
    ∃ t, exec (.pllUnlock 3 .core) (run) = .next t := by
  refine (fun ⟨_, h, _⟩ => ⟨_, h⟩) ((h.2 3 .core (run) ?_).1 ?_ ?_) <;> decide +kernel

theorem wit_pll_locked (h : Obligations.DirectionsAndPllsRecoverOrFail) :
    ∃ t, exec (.pllRelocked 3 .core) (run.withAvail { run.avail with unlocked := [(24, 0)] }) = .next t := by
  refine next_of (((h.2 3 .core (run.withAvail { run.avail with unlocked := [(24, 0)] }) ?_).2 0 ?_).1) <;> decide +kernel

theorem wit_pll_timeout (h : Obligations.DirectionsAndPllsRecoverOrFail) :
    ∃ t, exec (.pllRelockTimeout 3 .core) (late 125000 (run.withAvail { run.avail with unlocked := [(24, 0)] })) = .next t := by
  refine ⟨_, ((h.2 3 .core (late 125000 (run.withAvail { run.avail with unlocked := [(24, 0)] })) ?_).2 0 ?_).2 ?_ ?_⟩ <;> decide +kernel

theorem wit_snapshot (h : Obligations.SnapshotsChainsAndRates) :
    ∃ t, exec (.snapshot mb 1) (writes 0x8804 0 0 (leBytes 4 1) run) = .next t := by
  refine ⟨_, (h.1 mb (writes 0x8804 0 0 (leBytes 4 1) run)).1 ⟨⟨?_, ?_, ?_, ?_, ?_, ?_, ?_, ?_⟩, ?_, .inl ?_⟩⟩ <;> decide +kernel

theorem wit_snapshot_copies (h : Obligations.SnapshotsChainsAndRates) :
    (writeSnapshot run).getS Obj.snapCount 4 0x1001 = run.getS Obj.eventCount 4 0x1001 := by
  refine ((h.1 mb run).2.1 ?_).1 3 0x1001 ?_ ?_ <;> decide +kernel

theorem wit_chain (h : Obligations.SnapshotsChainsAndRates) :
    ∃ t, exec (.chain mb 3 0x1000 1) (writes 0x8802 4 0x1000 [1] run) = .next t := by
  refine ⟨_, (h.1 mb (writes 0x8802 4 0x1000 [1] run)).2.2 3 0x1000 1 ?_ ?_ ?_ ⟨⟨?_, ?_, ?_, ?_, ?_, ?_, ?_, ?_⟩, ?_, .inl ?_⟩⟩ <;> decide +kernel

theorem wit_window (h : Obligations.SnapshotsChainsAndRates) :
    ∃ t, exec (.bwWindowEnd) (late 1250000 (run.withCount { run.count with bytes := [(254, 1000), (255, 500)] })) = .next t := by
  refine next_of (h.2 (late 1250000 (run.withCount { run.count with bytes := [(254, 1000), (255, 500)] })) _ _ rfl ?_ ?_ ?_ rfl) <;> decide +kernel

/-- The host's session at VENDOR. -/
def vendor (s : State) : State := s.withDict { s.dict with vendor := [(0x10000000, 0)] }

theorem wit_challenge (h : Obligations.TestObjectsAreUnlockedByChallenge) :
    ∃ t, exec (.testChallenge mb) (asks (readReq 7 0x9801 0 0) (vendor run)) = .next t := by
  refine (fun ⟨_, _, _, _, _, _, h⟩ => ⟨_, h⟩) ((h mb (asks (readReq 7 0x9801 0 0) (vendor run)) _ rfl).1 ⟨?_, ?_, ?_, ?_, ?_, ?_, ?_, ?_⟩ ?_) <;> decide +kernel

theorem wit_test_unlock (h : Obligations.TestObjectsAreUnlockedByChallenge) :
    ∃ t, exec (.testUnlock mb 0x12345678) (writes 0x9800 0 0 (leBytes 4 0x12345678) (late 100 ((vendor run).withCount { run.count with challenge := some (0x12345678, 0x10000000, 0) }))) = .next t := by
  refine ⟨_, (h mb (writes 0x9800 0 0 (leBytes 4 0x12345678) (late 100 ((vendor run).withCount { run.count with challenge := some (0x12345678, 0x10000000, 0) }))) _ rfl).2.1 0x12345678 0 ⟨⟨?_, ?_, ?_, ?_, ?_, ?_, ?_, ?_⟩, ?_, .inl ?_⟩ ?_ ?_ ?_⟩ <;> decide +kernel

theorem wit_test_lock2 (h : Obligations.TestObjectsAreUnlockedByChallenge) :
    ∃ t, exec (.testLocked) (run.set Obj.testState 0 1) = .next t := by
  refine (fun ⟨_, _, _, h, _⟩ => ⟨_, h⟩) ((h mb (run.set Obj.testState 0 1) _ rfl).2.2 ?_ (.inl ?_)) <;> decide +kernel

theorem wit_test_lock3 (h : Obligations.TestObjectsAreUnlockedByChallenge) :
    ∃ t, exec (.testLocked) (late (2 ^ 50) (((vendor run).withCount { run.count with owner := 0x10000000 }).set Obj.testState 0 1)) = .next t := by
  refine (fun ⟨_, _, _, h, _⟩ => ⟨_, h⟩) ((h mb (late (2 ^ 50) (((vendor run).withCount { run.count with owner := 0x10000000 }).set Obj.testState 0 1)) _ rfl).2.2 ?_ (.inr ?_)) <;> decide +kernel

/-- The junction sensors without offsets. -/
def calm (s : State) : State := (List.range 16).foldl (fun s k => listed Obj.thermOffsetMc k 0 s) s

theorem wit_junction_warn (h : Obligations.ThermalStateFollowsTheHottestSensor) :
    ∃ t, exec (.junctionTempRead (105000 :: List.replicate 15 (-40000))) (calm (run.set Obj.thermalState 0 0)) = .next t := by
  refine next_of (h (calm (run.set Obj.thermalState 0 0)) (105000 :: List.replicate 15 (-40000)) _ _ _ 105000 rfl rfl rfl ?_ ?_ ?_ ⟨0, ?_, ?_⟩) <;> decide +kernel

theorem wit_junction_trip (h : Obligations.ThermalStateFollowsTheHottestSensor) :
    ∃ t, exec (.junctionTempRead (125000 :: List.replicate 15 (-40000))) (calm (run.set Obj.thermalState 0 0)) = .next t := by
  refine next_of (h (calm (run.set Obj.thermalState 0 0)) (125000 :: List.replicate 15 (-40000)) _ _ _ 125000 rfl rfl rfl ?_ ?_ ?_ ⟨0, ?_, ?_⟩) <;> decide +kernel

theorem wit_junction_cool (h : Obligations.ThermalStateFollowsTheHottestSensor) :
    ∃ t, exec (.junctionTempRead (0 :: List.replicate 15 (-40000))) (calm (run.set Obj.thermalState 0 2)) = .next t := by
  refine next_of (h (calm (run.set Obj.thermalState 0 2)) (0 :: List.replicate 15 (-40000)) _ _ _ 0 rfl rfl rfl ?_ ?_ ?_ ⟨0, ?_, ?_⟩) <;> decide +kernel

theorem wit_pin_clear (h : Obligations.PinsAndTestPortFollowTheirCommands) :
    ∃ t, exec (.intPinCauseClear mb 2) (writes 0x7A20 0 0 [2] (run.set Obj.intPinCause 0 3)) = .next t := by
  refine ⟨_, (h (writes 0x7A20 0 0 [2] (run.set Obj.intPinCause 0 3))).1 mb 2 ⟨⟨?_, ?_, ?_, ?_, ?_, ?_, ?_, ?_⟩, ?_, .inl ?_⟩⟩ <;> decide +kernel

theorem wit_jtag_bypass (h : Obligations.PinsAndTestPortFollowTheirCommands) :
    ∃ t, exec (.bypass) (run) = .next t :=
  next_of (((h (run)).2 (by decide +kernel)).1 .bypass _ _ _ (.inl ⟨rfl, rfl, rfl, rfl⟩))

theorem wit_jtag_idcode (h : Obligations.PinsAndTestPortFollowTheirCommands) :
    ∃ t, exec (.idcode) (run) = .next t :=
  next_of (((h (run)).2 (by decide +kernel)).1 .idcode _ _ _ (.inr (.inl ⟨rfl, rfl, rfl, rfl⟩)))

theorem wit_jtag_samplepreload (h : Obligations.PinsAndTestPortFollowTheirCommands) :
    ∃ t, exec (.samplePreload) (run) = .next t :=
  next_of (((h (run)).2 (by decide +kernel)).1 .samplePreload _ _ _ (.inr (.inr ⟨rfl, rfl, rfl, rfl⟩)))

theorem wit_jtag_extest (h : Obligations.PinsAndTestPortFollowTheirCommands) :
    ∃ t, exec (.extest [127, 0]) (port40 2 {}) = .next t :=
  next_of (((h (port40 2 {})).2 (by decide +kernel)).2 (.extest [127, 0]) _ [127, 0] (.inl ⟨rfl, rfl⟩))

theorem wit_jtag_extestpulse (h : Obligations.PinsAndTestPortFollowTheirCommands) :
    ∃ t, exec (.extestPulse [127, 0]) (port40 2 {}) = .next t :=
  next_of (((h (port40 2 {})).2 (by decide +kernel)).2 (.extestPulse [127, 0]) _ [127, 0] (.inr (.inl ⟨rfl, rfl⟩)))

theorem wit_jtag_extesttrain (h : Obligations.PinsAndTestPortFollowTheirCommands) :
    ∃ t, exec (.extestTrain [127, 0]) (port40 2 {}) = .next t :=
  next_of (((h (port40 2 {})).2 (by decide +kernel)).2 (.extestTrain [127, 0]) _ [127, 0] (.inr (.inr (.inl ⟨rfl, rfl⟩))))

theorem wit_jtag_clamp (h : Obligations.PinsAndTestPortFollowTheirCommands) :
    ∃ t, exec (.clamp [127, 0]) (port40 2 {}) = .next t :=
  next_of (((h (port40 2 {})).2 (by decide +kernel)).2 (.clamp [127, 0]) _ [127, 0] (.inr (.inr (.inr (.inl ⟨rfl, rfl⟩)))))

theorem wit_jtag_highz (h : Obligations.PinsAndTestPortFollowTheirCommands) :
    ∃ t, exec (.highz [127, 0]) (port40 2 {}) = .next t :=
  next_of (((h (port40 2 {})).2 (by decide +kernel)).2 (.highz [127, 0]) _ [127, 0] (.inr (.inr (.inr (.inr ⟨rfl, rfl⟩)))))

/-- A ring of two pages, with a record at its start. -/
def filled (r : Nat) (rec : List Byte) : State :=
  (ringed r 2 run).withHost { (ringed r 2 run).host with quay := (rec.zipIdx.filter fun e => e.1 != 0).map fun e => (e.2, e.1) }

theorem wit_inject (h : Obligations.RecordsOfRingsAreConsumed) :
    ∃ t, exec (.injectRecord 3) (filled 11 ([2, 0, 76, 0, 60] ++ List.replicate 71 0)) = .next t := by
  refine ⟨_, (h.1 3 (filled 11 ([2, 0, 76, 0, 60] ++ List.replicate 71 0)) ?_).1 ([2, 0, 76, 0, 60] ++ List.replicate 71 0) _ ?_ ?_ ?_ rfl⟩ <;> decide +kernel

theorem wit_inject_bad (h : Obligations.RecordsOfRingsAreConsumed) :
    ∃ t, exec (.injectRecord 3) (filled 11 [9]) = .next t := by
  refine ⟨_, (h.1 3 (filled 11 [9]) ?_).2.1 ?_ ?_ ?_⟩ <;> decide +kernel

/-- Ring 28 as well, of two pages. -/
def answered (s : State) : State := ((s.set Obj.ringFirstPage 28 2).set Obj.ringPages 28 2).setBollard 2 1 |>.setBollard 3 1

theorem wit_table_request (h : Obligations.RecordsOfRingsAreConsumed) :
    ∃ t, exec (.tableRequest 3) (answered (filled 24 ([5, 0, 32, 0, 0x10] ++ List.replicate 27 0))) = .next t := by
  refine ⟨_, (h.1 3 (answered (filled 24 ([5, 0, 32, 0, 0x10] ++ List.replicate 27 0))) ?_).2.2.1 ([5, 0, 32, 0, 0x10] ++ List.replicate 27 0) _ _ _ _ _ _ ?_ rfl ?_ rfl rfl⟩ <;> decide +kernel

theorem wit_table_bad (h : Obligations.RecordsOfRingsAreConsumed) :
    ∃ t, exec (.tableRequest 3) (filled 24 [9]) = .next t := by
  refine ⟨_, (h.1 3 (filled 24 [9]) ?_).2.2.2 ?_⟩ <;> decide +kernel

theorem wit_consumed (h : Obligations.RecordsOfRingsAreConsumed) :
    (consumeRecord 11 4032 ((filled 11 [9]).setRing 11 { page := 1, byte := 64 })).ringPos 11 = {} := by
  refine (h.2 ((filled 11 [9]).setRing 11 { page := 1, byte := 64 }) 11 4032 _ ?_ rfl ?_ ?_ ?_ _ rfl).2.2.2.1.trans ?_ <;> decide +kernel

theorem wit_every (h : Obligations.EveryCommandCompletes) :
    ∃ t, exec (.mbRelease 5) run = .next t :=
  h _ _

theorem wit_memories (h : Obligations.StepsKeepTheMemoriesCanonical) :
    (tick run).memoriesCanonical = true :=
  h run _ (by decide +kernel) rfl

theorem wit_flash_kept (h : Obligations.OnlyFlashOperationsChangeTheFlash) :
    ∀ t, exec .thermalShutdown run = .next t → t.host.flash = run.host.flash :=
  fun t ht => (h _ _ t ht (fun _ e => nomatch e) (fun e => nomatch e)).1

theorem wit_step_refused (h : Obligations.StepsBeyondTheLimitAreRefused) :
    ∃ t, exec (.timeStep mb 101) (writes 0x1804 0 0 (leBytes 8 101) (run.set Obj.stepLimitNs 0 100)) = .next t := by
  refine (fun ⟨_, h, _⟩ => ⟨_, h⟩) (h mb (writes 0x1804 0 0 (leBytes 8 101) (run.set Obj.stepLimitNs 0 100)) _ 101 rfl ⟨⟨?_, ?_, ?_, ?_, ?_, ?_, ?_, ?_⟩, ?_, .inl ?_⟩ ?_ ?_) <;> decide +kernel

theorem wit_rng (h : Obligations.TallyGeneratorIsXorshift) :
    (drawRng 7 run).2.rng 7 ≠ 0 :=
  (h 7 run _ _ _ _ _ rfl rfl rfl rfl).2.2.2.1 (by decide +kernel)

theorem wit_reset (h : Obligations.ResetHoldsDefaults) :
    State.reset.pending = [] :=
  h.1.1

/-! ### Ill-formed commands are refused -/

theorem test_illformed_read_with_value :
    (Instr.read (.mailbox 0) { opcode := 1, index := 0, value := [1] }).wellFormed = false := by decide +kernel
theorem test_illformed_write_length :
    (Instr.write (.mailbox 0) { opcode := 2, index := 0, length := 2, value := [1] }).wellFormed = false := by decide +kernel
theorem test_illformed_read_seg_opcode :
    (Instr.readSeg (.mailbox 0) { opcode := 1, index := 0 }).wellFormed = false := by decide +kernel
theorem test_illformed_write_seg_too_long : (Instr.writeSeg (.mailbox 0)
    { opcode := 4, index := 0, length := 241, value := List.replicate 241 0 }).wellFormed = false := by decide +kernel
theorem test_illformed_describe_opcode : (Instr.describe (.mailbox 0) { opcode := 6, index := 0 }).wellFormed = false := by
  decide +kernel
theorem test_illformed_nop_opcode : (Instr.nop (.mailbox 0) { opcode := 5, index := 0 }).wellFormed = false := by
  decide +kernel
theorem test_illformed_group : (Instr.commitNow mb 0x02 8).wellFormed = false ∧
    (Instr.commitAtSchedTime mb 0x01 137).wellFormed = false ∧ (Instr.commitValidated 0xFF 0).wellFormed = false ∧
    (Instr.commitSwitchover 0x18 1).wellFormed = false ∧ (Instr.abort mb 0x01 137 1).wellFormed = false ∧
    (Instr.stageExpired 0x01 137).wellFormed = false := by decide +kernel
theorem test_illformed_token : (Instr.vendorUnlock mb (List.replicate 241 0)).wellFormed = false := by decide +kernel
theorem test_illformed_doorbell : (Instr.mbDoorbell 0 (List.replicate 257 0)).wellFormed = false := by decide +kernel
theorem test_illformed_two_wire : (Instr.twoWireRequest (List.replicate 260 0)).wellFormed = false := by decide +kernel
theorem test_illformed_offsets : (Instr.hostBar2Read 2).wellFormed = false ∧ (Instr.hostBar2Write 1 0).wellFormed = false ∧
    (Instr.rawWindowAccess (.bar0 0 0) none).wellFormed = false := by decide +kernel
theorem test_illformed_cells : (Instr.frameFirstCell 0 []).wellFormed = false ∧
    (Instr.frameCell 0 (List.replicate 257 0)).wellFormed = false := by decide +kernel
theorem test_illformed_control_frames : (Instr.macControlRx 0 []).wellFormed = false ∧
    (Instr.helloRx 0 []).wellFormed = false ∧ (Instr.claimRx 0 []).wellFormed = false ∧
    (Instr.defendRx 0 []).wellFormed = false ∧ (Instr.lsaRx 0 []).wellFormed = false ∧
    (Instr.acpRequest 0 []).wellFormed = false ∧ (Instr.acpResponse 0 []).wellFormed = false := by decide +kernel
theorem test_illformed_no_credit : (Instr.creditSend 0 false 0 0 0).wellFormed = false := by decide +kernel
theorem test_illformed_requester : (Instr.reqPriorityWrite mb false 0 0 0).wellFormed = false ∧
    (Instr.reqPriorityWrite mb false 7 0 0).wellFormed = false := by decide +kernel
theorem test_illformed_proxy_value : (Instr.acpProxyRequest mb 0 (List.replicate 241 0)).wellFormed = false := by
  decide +kernel
theorem test_illformed_gangways : (Instr.gangwayEventAck 105).wellFormed = false ∧
    (Instr.gangwayTimeout 232 true 0).wellFormed = false ∧ (Instr.gangwaySideReset 127 true).wellFormed = false ∧
    (Instr.gangwayResync 511).wellFormed = false := by decide +kernel
theorem test_illformed_first_pilot : (Instr.bootStageDone { badPilots := [0] }).wellFormed = false := by decide +kernel
theorem test_illformed_odd_pair : (Instr.chain mb 0 0x1001 1).wellFormed = false := by decide +kernel
theorem test_illformed_rail : (Instr.supplyOutOfRange 0 0).wellFormed = false := by decide +kernel
theorem test_illformed_sensors : (Instr.junctionTempRead [0]).wellFormed = false := by decide +kernel

/-! ### Values from the spec's worked examples and from the standards it names -/

/-- The check value of CRC-32C over the nine ASCII digits (R24's generator). -/
theorem test_crc32c : crc32c [0x31, 0x32, 0x33, 0x34, 0x35, 0x36, 0x37, 0x38, 0x39] = 0xE3069283 := by decide +kernel

/-- The check value of the IEEE 802.3 FCS over the same digits. -/
theorem test_fcs : fcs32 [0x31, 0x32, 0x33, 0x34, 0x35, 0x36, 0x37, 0x38, 0x39] = 0xCBF43926 := by decide +kernel

/-- The check value of the SMBus PEC over the same digits (R64). -/
theorem test_pec : pec [0x31, 0x32, 0x33, 0x34, 0x35, 0x36, 0x37, 0x38, 0x39] = 0xF4 := by decide +kernel

/-- 01, the printing session's canonical key: either direction gives it (R25, R26). -/
theorem test_canonical_key : ∀ k ∈ ([⟨3, 6, 4, endpoint 0x0A280715 51812, endpoint 0x0A600008 443⟩,
      ⟨3, 6, 4, endpoint 0x0A600008 443, endpoint 0x0A280715 51812⟩] : List RawKey),
    k.bytes = [0, 3, 6, 4] ++ List.replicate 12 0 ++ [0x0A, 0x28, 0x07, 0x15, 0xCA, 0x64] ++ List.replicate 12 0 ++
      [0x0A, 0x60, 0x00, 0x08, 0x01, 0xBB] := by decide +kernel

/-- The microcode word of 05's example, at R149's bits. -/
def etherWord : MicroWord := BitVec.ofNat 128 (0x044000000181E0E0 * 2 ^ 64 + 0x0EFAE8000A000000)

/-- A frame whose EtherType is `t`, at the example's word. -/
def etherState (t : Nat) : State := (atWord { eng with regs := List.replicate 16 0, pc := 0x120 } etherWord).setFrame 1
  { frm with data := List.replicate 12 0 ++ beBytes 2 t ++ List.replicate 60 0, stage := .parsing 0 }

/-- The state after a command that completes. -/
def after (c : Instr) (s : State) : State := match exec c s with
  | .next t => t
  | _ => s

/-- 05: EXTRACT and the four-way branch of the example, for each EtherType of its table; the cursor moves by 14. -/
theorem test_ether_branch : ∀ e ∈ ([(0x0800, 0x142), (0x86DD, 0x141), (0x8100, 0x145), (0x8847, 0x143), (0x88A8, 0x143)] :
      List (Nat × Nat)),
    ((after (.branch 0) (after (.extract 0) (etherState e.1))).engine 0).map (fun x => (x.word 1, x.pc, x.cursor)) =
      some (BitVec.ofNat 32 e.1, e.2, 14) := by decide +kernel

/-- 06: the berth of the example's station. -/
theorem test_mac_berth : macBytes (some
    { mac := 0x025C001A7E03, fid := 210, dest := 44, isStatic := false, gen := true, mcast := false,
      lastSeen := 1780000123 }) false =
    [0x03, 0x7E, 0x1A, 0x00, 0x5C, 0x02, 0xD2, 0x00, 0x2C, 0x00, 0xA0, 0x00, 0x7B, 0xA5, 0x18, 0x6A] := by decide +kernel

/-- 06: the key registers of the example name that station. -/
theorem test_mac_key : macOfKey 0x025C001A 0x7E0300D2 = (210, 0x025C001A7E03) := by decide +kernel

/-- 08: the example's binding in pool 17, column 0x5B7 with CURSOR 4: row 5, public port 0x55B7. -/
theorem test_nat_allocate :
    (after (.natColumnOperation (.allocate 17 0x5B7E21C4 0xAC140E09 50122 none)) (setCursor 17 0x5B7 4 run)).natEntry
      17 0x5B7 5 = 0xAC140E09C3CA4001 := by decide +kernel

/-- 09: a draw whose low bits are 2 takes the example's tally from 0x1FFFFFE4 by 1,518 bytes to 0x24000051. -/
theorem test_tally : (drawRng 0 (run.withFlow { run.flow with rng := [(0, 2)] })).1 % 8 = 2 ∧
    (tallyAdd 0 0x1FFFFFE4 1518 (run.withFlow { run.flow with rng := [(0, 2)] })).1 = (0x24000051, false) := by
  decide +kernel

/-- 12: pier 0x2A5C3B of pipe 5 lies in stack 2, half 1. -/
theorem test_hbm_place : run.place 2 (2 ^ 27 + 0x2A5C3B) = { pc := 17, bank := 14, row := 338, column := 3 } := by
  decide +kernel

/-- 10: NEXT 0xFFFF, number 1 is two ahead: it is held and the timer starts. -/
theorem test_reseq_wraps : ((after (.reseqHead 1) (run.setContext lastKey { next := 65535 } |> frameAt (stamped 1))).context
    lastKey).state.find 1 = some (.held 1) := by decide +kernel

/-- R325: entries 31 and 33 of the default slot table are of the egress stage, classes 15 and 0; L is 256 (R324). -/
theorem test_default_slots : (defaultSlotTable.length, defaultSlotTable.getD 31 0, defaultSlotTable.getD 33 0) =
    (256, 0x8F, 0x80) := by decide +kernel

/-- R328: a hole notice at the table's bits. -/
theorem test_hole_bytes : CtrlMsg.bytes { hole := true, cls := 5, redirect := true, stampPipe := 3, port := 136, value := 0xFFFE } =
    [0x15, 0xB0, 0x88, 0, 0xFE, 0xFF] ++ List.replicate 10 0 := by decide +kernel

/-- R317: a slot is 320 bytes. -/
theorem test_slot_length : ((queued run).slotBytes {} (some (cell true, 9)) []).length = 320 ∧
    (run.slotBytes {} none []).length = 320 := by decide +kernel

/-- A policy rule with a reserved bit set, as a whole DOMAIN. -/
def badRule : Request := { opcode := 4, last := true, index := 0x4001, length := 32, value := List.replicate 31 0 ++ [0x80] }

/-- R15: its last segment is refused with BAD_VALUE, and nothing is staged. -/
theorem test_reserved_field :
    let t := after (.writeSeg (.mailbox 0) badRule) (asks badRule run)
    (t.slot 0).answer.map Response.status = some St.badValue ∧ t.dict.stagedDoms = [] := by decide +kernel

/-- A device held in reset serves nothing, and a tick of it changes nothing. -/
theorem test_held : step State.reset = .next State.reset := by rfl

/-- R28: entry e's default home is pipe e mod 8. -/
theorem test_home_table : run.homeOf 0x5B7E21C4 = 7 := by decide +kernel

/-- A write to a read-only object is refused with ACCESS, and changes nothing else (R51). -/
theorem test_read_only : (after (.write (.mailbox 0) (writeReq 7 0x1808 0 0 [1])) (writes 0x1808 0 0 [1] run)).slot 0 =
    { (took (writeReq 7 0x1808 0 0 [1]) run).slot 0 with answer := some (respond (writeReq 7 0x1808 0 0 [1]) St.access) } := by
  decide +kernel

end Sys2Proof.Tests
end

section
/-! SUPPORT. The rules of the mailbox's operations (R94 to R96) and of interrupt vectors (R584): what a slot, a request
area and VECTOR_CAUSE read afterwards, and what each operation leaves as it was. -/

namespace Sys2Proof.Machine

/-! ### Interrupt vectors -/

theorem bitOf_setBit_same (v i : Nat) : bitOf (setBit v i) i = true := by
  unfold setBit
  split
  case isTrue h => exact h
  case isFalse h =>
    simp only [bitOf, beq_iff_eq] at h ⊢
    rw [Nat.add_div_right _ (Nat.two_pow_pos i)]
    omega

theorem signalVector_vectorCause {v : Nat} (h : v < 64) (s : State) :
    (signalVector v s).host.vectorCause = setBit s.host.vectorCause v := by
  unfold signalVector
  rw [if_neg (Nat.not_le.mpr h)]
  dsimp only
  split
  · rfl
  · split <;> rfl

/-- A signalled vector changes its cause bit and its message or pending bit alone. -/
theorem signalVector_rest (v : Nat) (s : State) :
    signalVector v s = s.withHost { s.host with
      vectorCause := (signalVector v s).host.vectorCause, pba := (signalVector v s).host.pba,
      messages := (signalVector v s).host.messages } := by
  unfold signalVector
  dsimp only
  split
  · rfl
  · split
    · rfl
    · split <;> rfl

@[simp] theorem signalVector_slot (v j : Nat) (s : State) : (signalVector v s).slot j = s.slot j := by
  rw [signalVector_rest]; rfl

@[simp] theorem signalVector_order (v : Nat) (s : State) : (signalVector v s).host.order = s.host.order := by
  rw [signalVector_rest]; rfl

/-! ### Request areas (R93, R94) -/

theorem mbWriteArea_free {s : State} {k : Nat} (h : (s.slot k).state = 0) (off : Nat) (bs : List Byte) :
    mbWriteArea k off bs s =
      s.withHost { s.host with areas := putBytes 0 s.host.areas (k * 256 + off) bs } := if_pos h

theorem mbWriteArea_not_free {s : State} {k : Nat} (h : (s.slot k).state ≠ 0) (off : Nat) (bs : List Byte) :
    mbWriteArea k off bs s = s := if_neg h

/-- A write of a request area changes no slot. -/
@[simp] theorem mbWriteArea_slot (k off : Nat) (bs : List Byte) (s : State) (j : Nat) :
    (mbWriteArea k off bs s).slot j = s.slot j := by
  unfold mbWriteArea
  split <;> rfl

/-- The bytes written at the start of a FREE slot's request area are read back, and the rest of it is as before. -/
theorem requestArea_mbWriteArea_same {s : State} {k : Nat} (h : (s.slot k).state = 0) {bs : List Byte}
    (hl : bs.length ≤ 256) :
    (mbWriteArea k 0 bs s).requestArea k = bs ++ (s.requestArea k).drop bs.length := by
  rw [mbWriteArea_free h]
  apply List.ext_getElem
  · simp [State.requestArea]; omega
  · intro i h1 h2
    simp only [State.requestArea, State.withHost_host, List.getElem_map, List.getElem_range, getD_putBytes]
    by_cases hi : i < bs.length
    · rw [if_pos (by omega), List.getElem_append_left hi]
      simp [hi]
    · rw [if_neg (by omega), List.getElem_append_right (Nat.le_of_not_lt hi)]
      simp [show bs.length + (i - bs.length) = i by omega]

/-- A write of a request area changes no other slot's area. -/
theorem requestArea_mbWriteArea_other {s : State} {j k : Nat} (hj : j ≠ k) {bs : List Byte} (hl : bs.length ≤ 256) :
    (mbWriteArea k 0 bs s).requestArea j = s.requestArea j := by
  unfold mbWriteArea
  split
  · apply List.map_congr_left
    intro i hi
    have hi : i < 256 := List.mem_range.mp hi
    rw [State.withHost_host, getD_putBytes, if_neg (by omega)]
  · rfl

/-! ### Doorbells, responses and releases (R94 to R96) -/

/-- A doorbell for a FREE slot takes it (R94). -/
theorem exec_mbDoorbell_free {value : Word32} {area : List Byte} {k : Nat} {s : State} (hk : value.toNat % 16 = k)
    (hl : area.length ≤ 256) (hf : (s.slot k).state = 0) :
    exec (.mbDoorbell value area) s = .next (mbSubmit k (mbWriteArea k 0 area s)) := by
  subst hk
  change execMbDoorbell value area s = _
  rw [execMbDoorbell, List.take_of_length_le hl, mbDoorbell, mbWriteArea_slot, if_pos hf]

/-- The order of those that wait is no part of a slot. -/
theorem mbSubmit_slot (k j : Nat) (s : State) :
    (mbSubmit k s).slot j =
      (s.setSlot k { state := 1, area := s.requestArea k, since := s.time.ticks }).slot j := rfl

theorem mbSubmit_slot_same (k : Nat) (s : State) :
    (mbSubmit k s).slot k = { state := 1, area := s.requestArea k, since := s.time.ticks } :=
  (mbSubmit_slot ..).trans (State.slot_setSlot_same ..)

theorem mbSubmit_slot_other {j k : Nat} (h : j ≠ k) (s : State) : (mbSubmit k s).slot j = s.slot j :=
  (mbSubmit_slot ..).trans (State.slot_setSlot_other _ _ h)

@[simp] theorem mbSubmit_requestArea (k j : Nat) (s : State) : (mbSubmit k s).requestArea j = s.requestArea j := rfl

/-- A response that has been made for a TAKEN slot is put into it (R95). -/
theorem exec_mbResponseReady_made {k : Fin 16} {s : State} {r : Response} (ht : (s.slot k.val).state = 1)
    (hr : (s.slot k.val).answer = some r) : exec (.mbResponseReady k) s = .next (mbFinish k.val r s) := by
  change execMbResponseReady k s = _
  simp [execMbResponseReady, ht, hr]

/-- Neither the order of those that wait nor the signalled vector is part of a slot. -/
theorem mbFinish_slot (k j : Nat) (r : Response) (s : State) :
    (mbFinish k r s).slot j = (s.setSlot k
      { s.slot k with state := 2, response := responseBytes r, answer := none, taken := none }).slot j :=
  signalVector_slot ..

theorem mbFinish_slot_same (k : Nat) (r : Response) (s : State) :
    (mbFinish k r s).slot k =
      { s.slot k with state := 2, response := responseBytes r, answer := none, taken := none } :=
  (mbFinish_slot ..).trans (State.slot_setSlot_same ..)

theorem mbFinish_slot_other {j k : Nat} (h : j ≠ k) (r : Response) (s : State) :
    (mbFinish k r s).slot j = s.slot j :=
  (mbFinish_slot ..).trans (State.slot_setSlot_other _ _ h)

theorem mbFinish_order (k : Nat) (r : Response) (s : State) :
    (mbFinish k r s).host.order = s.host.order.filter (· != k) := signalVector_order ..

theorem mbFinish_signals (k : Nat) (r : Response) (s : State) :
    bitOf (mbFinish k r s).host.vectorCause 1 = true := by
  unfold mbFinish
  rw [signalVector_vectorCause (by decide)]
  exact bitOf_setBit_same _ _

/-- A finished request changes its slot, the order of those that wait and the vector's signals alone. -/
theorem mbFinish_rest (k : Nat) (r : Response) (s : State) :
    mbFinish k r s = { s with host := { s.host with
      slots := (mbFinish k r s).host.slots, order := (mbFinish k r s).host.order,
      vectorCause := (mbFinish k r s).host.vectorCause, pba := (mbFinish k r s).host.pba,
      messages := (mbFinish k r s).host.messages } } := by
  unfold mbFinish
  rw [signalVector_rest]
  rfl

/-- A release of a DONE slot empties it (R95). -/
theorem exec_mbRelease_done {value : Word32} {k : Nat} {s : State} (hk : value.toNat % 16 = k)
    (hd : (s.slot k).state = 2) : exec (.mbRelease value) s = .next (s.setSlot k {}) := by
  subst hk
  change execMbRelease value s = _
  rw [execMbRelease, mbRelease, if_pos hd]

/-- A request that no Pilot has taken for 1 ms is answered BUSY and reported (R63). -/
theorem exec_mailboxUnserved_waiting {k : Fin 16} {s : State} (hs : (s.slot k.val).state = 1)
    (ht : (s.slot k.val).taken = none) (ha : (s.slot k.val).answer = none)
    (he : s.elapsed (s.slot k.val).since 1000000 = true) :
    exec (.mailboxUnserved k) s =
      .next (raise Ev.mailboxUnserved 0 k.val 0 (mbFinish k.val (busyFor (s.slot k.val).area) s)) := by
  change execMailboxUnserved k s = _
  rw [execMailboxUnserved, if_pos ⟨hs, ht, ha, he⟩]

/-- Below saturation an ignored write counts one (R96). -/
theorem mbIgnore_counts {s : State} (h : s.host.ignored < 0xFFFFFFFF) (k what : Nat) :
    mbIgnore k what s = raise Ev.mbWriteIgnored 0 k what
      (s.withHost { s.host with ignored := s.host.ignored + 1 }) := by
  rw [mbIgnore, capAt, if_pos (show s.host.ignored + 1 ≤ _ from h)]

/-- A doorbell for a slot that is not FREE is ignored, and so are the bytes written before it (R94, R96). -/
theorem exec_mbDoorbell_not_free {value : Word32} {s : State} (area : List Byte)
    (h : (s.slot (value.toNat % 16)).state ≠ 0) :
    exec (.mbDoorbell value area) s = .next (mbIgnore (value.toNat % 16) 0 s) := by
  change execMbDoorbell value area s = _
  rw [execMbDoorbell, mbWriteArea_not_free h, mbDoorbell, if_neg h]

/-- A release of a slot that is not DONE is ignored (R96). -/
theorem exec_mbRelease_not_done {value : Word32} {s : State} (h : (s.slot (value.toNat % 16)).state ≠ 2) :
    exec (.mbRelease value) s = .next (mbIgnore (value.toNat % 16) 1 s) := by
  change execMbRelease value s = _
  rw [execMbRelease, mbRelease, if_neg h]

/-- Settles O10: each write of the mailbox meets its slot in one state, and the rules above say what it leaves. -/
theorem mailboxSlotsGoRound : Obligations.MailboxSlotsGoRound := by
  refine ⟨fun s k => ⟨?doorbell, ?response, ?release, ?unserved⟩, fun s value area hc => ⟨?notFree, ?notDone⟩⟩
  case doorbell =>
    intro value area hl hk hf
    refine ⟨_, exec_mbDoorbell_free hk hl hf, ?_, fun j hj => ⟨?_, ?_⟩, ?_, ?_⟩
    · rw [mbSubmit_slot_same, requestArea_mbWriteArea_same hf hl, mbWriteArea_free hf, State.withHost_time]
    · rw [mbSubmit_slot_other hj, mbWriteArea_slot]
    · rw [mbSubmit_requestArea, requestArea_mbWriteArea_other hj hl]
    all_goals rw [mbWriteArea_free hf]; rfl
  case response =>
    intro r ht hr
    refine ⟨_, exec_mbResponseReady_made ht hr, ?_, ?_, fun j hj => mbFinish_slot_other hj r s,
      mbFinish_signals .., mbFinish_order .., mbFinish_rest ..⟩
    all_goals rw [mbFinish_slot_same]
  case release =>
    intro value hk hd
    exact ⟨_, exec_mbRelease_done hk hd, State.slot_setSlot_same .., fun j hj => State.slot_setSlot_other s _ hj, rfl⟩
  case unserved =>
    intro hs ht ha he
    refine ⟨_, exec_mailboxUnserved_waiting hs ht ha he, ?_, ?_, fun j hj => mbFinish_slot_other hj _ s,
      mbFinish_rest ..⟩
    all_goals rw [mbFinish_slot_same]
  case notFree =>
    intro h
    rw [exec_mbDoorbell_not_free area h, mbIgnore_counts hc]
  case notDone =>
    intro h
    rw [exec_mbRelease_not_done h, mbIgnore_counts hc]

end Sys2Proof.Machine
end

section
/-! SUPPORT. The quay window (R97 to R99): what a write of its memory, the bursts asked for it and a write of
BOLLARD_GIVE change, and what they leave as it was. -/

namespace Sys2Proof.Machine

/-! ### The window's memory and its bursts -/

/-- A byte of a little-endian number is the number without its lower bytes, cut to 8 bits (R14). -/
theorem getD_leBytes {n i : Nat} (h : i < n) (v : Nat) : (leBytes n v).getD i 0 = BitVec.ofNat 8 (v / 256 ^ i) := by
  induction n generalizing i v with
  | zero => omega
  | succ n ih =>
    cases i with
    | zero => simp [leBytes]
    | succ i => rw [leBytes, List.getD_cons_succ, ih (by omega), Nat.div_div_eq_div_mul, Nat.pow_succ']

@[simp] theorem length_leBytes (n v : Nat) : (leBytes n v).length = n := by
  induction n generalizing v with
  | zero => rfl
  | succ n ih => rw [leBytes, List.length_cons, ih]

/-- A write of the window changes its bytes alone. -/
theorem State.quayWrite_rest (s : State) (a : Nat) (bs : List Byte) :
    s.quayWrite a bs = s.withHost { s.host with quay := (s.quayWrite a bs).host.quay } := by
  induction bs generalizing s a with
  | nil => rfl
  | cons b bs ih => exact ih ..

/-- Bursts asked for the window change nothing but what its controllers still have to take over. -/
theorem quayAsk_rest (rr : Requester) (write : Bool) (a n : Nat) (s : State) :
    quayAsk rr write a n s = s.withHbm { s.hbm with due := (quayAsk rr write a n s).hbm.due } := by
  unfold quayAsk
  split
  · rfl
  · refine List.foldlRecOn (motive := fun t : State => t = s.withHbm { s.hbm with due := t.hbm.due }) _ _ rfl ?_
    intro t ht i _
    rw [ht]
    rfl

@[simp] theorem quayAsk_quayByte (rr : Requester) (write : Bool) (a n : Nat) (s : State) (b : Nat) :
    (quayAsk rr write a n s).quayByte b = s.quayByte b := by
  rw [quayAsk_rest]; rfl

/-- After a little-endian number is written, its bytes are read back. -/
theorem State.quayByte_quayWrite_leBytes (s : State) (a v : Nat) {n i : Nat} (h : i < n) :
    (s.quayWrite a (leBytes n v)).quayByte (a + i) = BitVec.ofNat 8 (v / 256 ^ i) := by
  rw [State.quayByte_quayWrite, length_leBytes, if_pos (by omega), Nat.add_sub_cancel_left, getD_leBytes h]

/-- A byte outside a write stays as it was. -/
theorem State.quayByte_quayWrite_outside (s : State) {a b : Nat} {bs : List Byte} (h : b < a ∨ a + bs.length ≤ b) :
    (s.quayWrite a bs).quayByte b = s.quayByte b := by
  rw [State.quayByte_quayWrite, if_neg (by omega)]

/-- A write of the window with its bursts changes the window's bytes and what is due at its controllers alone. -/
theorem quayAsk_quayWrite_rest (rr : Requester) (write : Bool) (a n : Nat) (bs : List Byte) (s : State) :
    quayAsk rr write a n (s.quayWrite a bs) = { s with
      host := { s.host with quay := (quayAsk rr write a n (s.quayWrite a bs)).host.quay },
      hbm := { s.hbm with due := (quayAsk rr write a n (s.quayWrite a bs)).hbm.due } } := by
  rw [quayAsk_rest, State.quayWrite_rest]
  rfl

/-! ### Host accesses (R97, R99) -/

section
variable {s : State} {offset : BitVec 28} {a : Nat} (ha : a = offset.toNat / 4 * 4)
  (hu : s.deckUp (a / pageSize / 16384) = true)
include ha hu

/-- A host read of a word that is not poisoned, in a page of its own. -/
theorem exec_hostBar2Read_own (ho : s.owned (a / pageSize) = false)
    (hp : s.poison (quayPlace a).1 (quayPlace a).2 = false) :
    exec (.hostBar2Read offset) s = .next ((quayAsk .dma false a 4 s).withRead (leNat (s.quayRead a 4)) false) := by
  subst ha
  change execHostBar2Read offset s = _
  simp only [execHostBar2Read, hu, ho, hp, Bool.not_true, Bool.false_eq_true, if_false]

/-- A host write of a word in a page of its own. -/
theorem exec_hostBar2Write_own (data : Word32) (ho : s.owned (a / pageSize) = false) :
    exec (.hostBar2Write offset data) s = .next (quayAsk .dma true a 4 (s.quayWrite a (leBytes 4 data.toNat))) := by
  subst ha
  change execHostBar2Write offset data s = _
  simp only [execHostBar2Write, hu, ho, Bool.not_true, Bool.false_eq_true, if_false]

/-- A host read of a device-owned page returns all ones and is reported. -/
theorem exec_hostBar2Read_owned (ho : s.owned (a / pageSize) = true) :
    exec (.hostBar2Read offset) s =
      .next ((raise Ev.bollardFault 0 (a / pageSize) 0 (s.bump Obj.bollardFaults)).withRead 0xFFFFFFFF false) := by
  subst ha
  change execHostBar2Read offset s = _
  simp only [execHostBar2Read, bollardFault, hu, ho, Bool.not_true, Bool.false_eq_true, if_false, if_true]

/-- A host write of a device-owned page is reported and has no other effect. -/
theorem exec_hostBar2Write_owned (data : Word32) (ho : s.owned (a / pageSize) = true) :
    exec (.hostBar2Write offset data) s =
      .next (raise Ev.bollardFault 0 (a / pageSize) 1 (s.bump Obj.bollardFaults)) := by
  subst ha
  change execHostBar2Write offset data s = _
  simp only [execHostBar2Write, bollardFault, hu, ho, Bool.not_true, Bool.false_eq_true, if_false, if_true]

end

/-! ### BOLLARD_GIVE (R98) -/

/-- The pages [first, first + n) of the window are the device's; no page lies beyond the window. -/
def bollardsGiven (first n : Nat) (s : State) : State :=
  (List.range n).foldl (fun s i => if first + i < 65536 then s.setBollard (first + i) 1 else s) s

theorem bollardsGiven_succ (first n : Nat) (s : State) :
    bollardsGiven first (n + 1) s =
      if first + n < 65536 then (bollardsGiven first n s).setBollard (first + n) 1 else bollardsGiven first n s := by
  rw [bollardsGiven, List.range_succ, List.foldl_append]
  rfl

theorem owned_bollardsGiven (first n : Nat) (s : State) {page : Nat} (h : page < 65536) :
    (bollardsGiven first n s).owned page =
      (s.owned page || (decide (first ≤ page) && decide (page < first + n))) := by
  induction n with
  | zero =>
    have hno : ¬ (first ≤ page ∧ page < first) := by omega
    simp [bollardsGiven, ← Bool.decide_and, hno]
  | succ n ih =>
    rw [bollardsGiven_succ]
    split
    · rw [State.owned_setBollard, ih]
      by_cases e : page = first + n
      · simp [e]
      · rw [if_neg e]
        simp only [show page < first + (n + 1) ↔ page < first + n by omega]
    · rw [ih]
      simp only [show page < first + (n + 1) ↔ page < first + n by omega]

/-- Pages given change the bollards alone. -/
theorem bollardsGiven_rest (first n : Nat) (s : State) :
    bollardsGiven first n s = { s with host := { s.host with bollards := (bollardsGiven first n s).host.bollards } } := by
  induction n with
  | zero => rfl
  | succ n ih =>
    rw [bollardsGiven_succ]
    split
    · rw [ih]; rfl
    · exact ih

/-- A count of 0 passes nothing. -/
theorem exec_bollardGive_none {value : Word32} (h : value.toNat < 65536) (s : State) :
    exec (.bollardGive value) s = .next s := by
  change execBollardGive value s = _
  rw [execBollardGive, giveBollards, if_pos (Nat.div_eq_of_lt h)]

/-- The pages pass to the device, then the producers that waited go on (R98, R104, R309). -/
theorem exec_bollardGive_pages {value : Word32} (h : 65536 ≤ value.toNat) (s : State) :
    exec (.bollardGive value) s =
      .next (drainExports (ringsResume (bollardsGiven (value.toNat % 65536) (value.toNat / 65536) s))) := by
  change execBollardGive value s = _
  rw [execBollardGive, giveBollards, if_neg (by omega), bollardsGiven]

/-- Settles O13: an access turns on its page's bollard, and BOLLARD_GIVE sets those of its pages one by one. -/
theorem quayWindowObeysBollards : Obligations.QuayWindowObeysBollards := by
  refine ⟨fun s offset data a ha hu => ⟨fun ho => ⟨exec_hostBar2Read_own ha hu ho, ?write⟩, fun ho =>
      ⟨exec_hostBar2Read_owned ha hu ho, exec_hostBar2Write_owned ha hu data ho⟩⟩,
    fun s value h => exec_bollardGive_none h s, fun s value h => ?give⟩
  case write =>
    exact ⟨_, exec_hostBar2Write_own ha hu data ho,
      fun i hi => (quayAsk_quayByte ..).trans (State.quayByte_quayWrite_leBytes s a _ hi),
      fun b hb => (quayAsk_quayByte ..).trans (State.quayByte_quayWrite_outside s hb),
      quayAsk_quayWrite_rest ..⟩
  case give =>
    exact ⟨_, exec_bollardGive_pages h s, fun n hn => owned_bollardsGiven _ _ s hn, bollardsGiven_rest ..⟩

end Sys2Proof.Machine
end

section
/-! SUPPORT. The pipes' generators (R299): what a draw reads and sets, and that the xorshift maps no state but zero
to zero. -/

namespace Sys2Proof.Machine

/-! ### A shifted word folded into itself -/

/-- A word equal to its own left shift is zero: each bit copies one `n` places below it, and none stands below bit 0. -/
theorem eq_zero_of_eq_shiftLeft {w n : Nat} (hn : 0 < n) {x : BitVec w} (h : x = x <<< n) : x = 0 := by
  have bit : ∀ i, x.getLsbD i = false := by
    intro i
    induction i using Nat.strongRecOn with
    | ind i ih =>
      rw [h, BitVec.getLsbD_shiftLeft]
      by_cases hi : i < n
      · simp [hi]
      · simp [ih (i - n) (by omega)]
  exact BitVec.eq_of_getLsbD_eq fun i _ => by simp [bit]

/-- A word equal to its own logical right shift is zero: the shift divides its value by at least 2. -/
theorem eq_zero_of_eq_ushiftRight {w n : Nat} (hn : 0 < n) {x : BitVec w} (h : x = x >>> n) : x = 0 := by
  have value : x.toNat = x.toNat / 2 ^ n := by
    rw [← Nat.shiftRight_eq_div_pow, ← BitVec.toNat_ushiftRight, ← h]
  have zero : x.toNat = 0 := by
    rcases Nat.eq_zero_or_pos x.toNat with hx | hx
    · exact hx
    · have smaller := Nat.div_lt_self hx (Nat.one_lt_two_pow (Nat.ne_of_gt hn))
      omega
  exact BitVec.eq_of_toNat_eq (by simp [zero])

theorem xor_shiftLeft_ne_zero {w n : Nat} (hn : 0 < n) {x : BitVec w} (hx : x ≠ 0) : x ^^^ x <<< n ≠ 0 :=
  fun h => hx (eq_zero_of_eq_shiftLeft hn (BitVec.xor_eq_zero_iff.mp h))

theorem xor_ushiftRight_ne_zero {w n : Nat} (hn : 0 < n) {x : BitVec w} (hx : x ≠ 0) : x ^^^ x >>> n ≠ 0 :=
  fun h => hx (eq_zero_of_eq_ushiftRight hn (BitVec.xor_eq_zero_iff.mp h))

/-- No state but zero is drawn to zero (R299). -/
theorem xorshift_ne_zero {x : Word64} (hx : x ≠ 0) : xorshift x ≠ 0 :=
  xor_shiftLeft_ne_zero (by decide) (xor_ushiftRight_ne_zero (by decide) (xor_shiftLeft_ne_zero (by decide) hx))

/-! ### The generators of the pipes -/

@[simp] theorem State.rng_setRng_same (s : State) (p : Nat) (x : Word64) : (setRng p x s).rng p = x :=
  NMap.getD_set_same ..

theorem State.rng_setRng_other (s : State) {p q : Nat} (x : Word64) (h : q ≠ p) : (setRng p x s).rng q = s.rng q :=
  NMap.getD_set_other _ _ _ h

/-- Setting a generator changes the generators alone. -/
theorem setRng_rest (p : Nat) (x : Word64) (s : State) :
    setRng p x s = { s with flow := { s.flow with rng := (setRng p x s).flow.rng } } := rfl

/-- A draw answers the low 32 bits of the advanced state, and sets that state (R299). -/
theorem drawRng_eq (p : Nat) (s : State) :
    drawRng p s = ((xorshift (s.rng p)).toNat % 2 ^ 32, setRng p (xorshift (s.rng p)) s) := rfl

/-- Settles O60: a draw sets the pipe's generator to the xorshift of its state, and a nonzero word stays nonzero
under each of the three shifts. -/
theorem tallyGeneratorIsXorshift : Obligations.TallyGeneratorIsXorshift := by
  intro p s t n a b c hdraw ha hb hc
  have advanced : xorshift (s.rng p) = c := by rw [hc, hb, ha, xorshift]
  rw [drawRng_eq, advanced, Prod.mk.injEq] at hdraw
  obtain ⟨rfl, rfl⟩ := hdraw
  refine ⟨State.rng_setRng_same .., rfl, fun q hq => State.rng_setRng_other s c hq, fun hs => ?nonzero, setRng_rest ..⟩
  case nonzero =>
    rw [State.rng_setRng_same, ← advanced]
    exact xorshift_ne_zero hs

end Sys2Proof.Machine
end

section
/-! SUPPORT. Writes of TIME_STEP_NS (R411, R412): the signed 64-bit value that a request's bytes spell, what marking a
request as taken leaves as it was, and what a refused step changes. -/

namespace Sys2Proof.Machine

/-! ### Bytes and two's complement (R14, R45) -/

/-- Little-endian bytes spell the number they were cut from, as far as they reach. -/
theorem leNat_leBytes (n v : Nat) : leNat (leBytes n v) = v % 256 ^ n := by
  induction n generalizing v with
  | zero => simp [leBytes, leNat, Nat.mod_one]
  | succ n ih => rw [leBytes, leNat, ih, Nat.pow_succ', Nat.mod_mul, BitVec.toNat_ofNat]

theorem toSigned_toNat {w : Nat} (x : BitVec w) : toSigned w x.toNat = x.toInt := by
  cases w with
  | zero => rw [BitVec.eq_nil x]; rfl
  | succ n =>
    rw [BitVec.toInt_eq_toNat_cond, toSigned, Nat.mod_eq_of_lt x.isLt, Nat.add_sub_cancel]
    have half : x.toNat < 2 ^ n ↔ 2 * x.toNat < 2 ^ (n + 1) := by rw [Nat.pow_succ']; omega
    simp [half]

theorem ofSigned_toInt {w : Nat} (x : BitVec w) : ofSigned w x.toInt = x.toNat := by
  have encoded := BitVec.toNat_ofInt (n := w) x.toInt
  rw [BitVec.ofInt_toInt] at encoded
  simp [encoded, ofSigned]

/-! ### Taken requests and counters -/

/-- Marking a request as taken changes nothing but the path that it came by. -/
theorem State.takenBy_rest (s : State) (p : Path) :
    s.takenBy p = { s with
      host := (s.takenBy p).host, tw := (s.takenBy p).tw, fabric := (s.takenBy p).fabric, boot := (s.takenBy p).boot } := by
  cases p with
  | acp d k n => unfold State.takenBy; dsimp only; split <;> rfl
  | _ => rfl

@[simp] theorem State.takenBy_dict (s : State) (p : Path) : (s.takenBy p).dict = s.dict := by
  rw [State.takenBy_rest]

@[simp] theorem State.takenBy_time (s : State) (p : Path) : (s.takenBy p).time = s.time := by
  rw [State.takenBy_rest]

theorem State.get_bump_same (s : State) (o : ObjRow) (inst : Nat) :
    (s.bump o inst).get o inst = (s.get o inst + 1) % 2 ^ (8 * o.ty.size) :=
  State.get_set_same ..

/-! ### TIME_STEP_NS -/

/-- A client's write of TIME_STEP_NS in its turn is answered with the status of the step (R411, R412). -/
theorem exec_timeStep {c : Client} {v : Word64} {s : State} (h : ClientMay c 0x1804 0 0 (leBytes 8 v.toNat) 1 s) :
    exec (.timeStep c v) s = .next
      (answer c.path
        (respond (writeReq c.tag 0x1804 0 0 (leBytes 8 v.toNat))
          (writeTimeStep (sessionId c.path) v.toNat (s.takenBy c.path)).1)
        (writeTimeStep (sessionId c.path) v.toNat (s.takenBy c.path)).2) := by
  have ⟨_, _, booted⟩ := h
  change Host.Outcome.next (clientWrite c 0x1804 0 0 (leBytes 8 v.toNat) s) = _
  have value : leNat (leBytes 8 v.toNat) = v.toNat := by rw [leNat_leBytes]; exact Nat.mod_eq_of_lt v.isLt
  have started : (s.takenBy c.path).busyFor c.path Obj.timeStepNs 0 = false :=
    busyFor_started booted (by decide) (by decide)
  have checked : (s.takenBy c.path).writeCheck c.path Obj.timeStepNs 0 0 (leNat (leBytes 8 v.toNat)) = St.ok :=
    writeCheck_plain rfl rfl started nofun rfl (.inr ⟨rfl, rfl, rfl, rfl, rfl⟩)
  rw [clientWrite_effect h Obj.timeStepNs rfl rfl (by decide) (by decide) (by decide) rfl (by simp) rfl rfl nofun nofun
    rfl checked, value]
  rfl

/-- A step beyond a limit that is not 0 is refused with RANGE, counted and reported (R412). -/
theorem writeTimeStep_beyond_limit {v : Word64} {s : State} (session : Nat) (hl : s.get Obj.stepLimitNs ≠ 0)
    (hv : s.get Obj.stepLimitNs < v.toInt.natAbs) :
    writeTimeStep session v.toNat s =
      (St.range, raise Ev.stepRefused 0 session v.toNat (s.bump Obj.stepsRefused)) := by
  simp only [writeTimeStep, toSigned_toNat, ofSigned_toInt]
  exact if_pos ⟨hl, hv⟩

/-- Settles O59: the write reaches the step's own check, and counting and reporting a refusal touch no time. -/
theorem stepsBeyondTheLimitAreRefused : Obligations.StepsBeyondTheLimitAreRefused := by
  intro c s u v hu may hl hv
  subst hu
  have hc : Ev.stepRefused < 65536 := by decide
  refine ⟨_, ?refused, rfl, ?time, ?counted⟩
  case refused => rw [exec_timeStep may, writeTimeStep_beyond_limit _ hl hv]
  case time => rw [raise_time _ _ _ _ _ hc, State.bump_time, State.takenBy_time]
  case counted =>
    rw [raise_get _ _ _ _ _ hc Obj.stepsRefused 0 (by decide) (by decide) rfl, State.get_bump_same,
      State.get_congr (congrArg Dict.active (State.takenBy_dict ..))]
    rfl

end Sys2Proof.Machine
end
section
/-! SUPPORT. Every operation of the model keeps the byte memories canonical (log entry 71): one lemma for each operation
on the state, from the lemmas of those that it calls, in the order of the model's files; then the commands and the step.
Only a write of the quay window, a new map order, the flash engine, a live update, the raw window and a reset touch a
memory; every other operation hands the host interface's memories on. -/

namespace Sys2Proof.Machine

/-! ### The memories as a property of the host interface -/

/-- The canonical form of the byte memories, as a property of the host interface that holds them. -/
def HostIf.canonical (h : HostIf) : Bool :=
  NMap.wf h.quay && h.quay.all (fun p => decide (p.2 ≠ match h.scrambled.find (p.1 / 0x4000000) with
    | some n => BitVec.ofNat 8 (Config.free (n + p.1)).toNat
    | none => 0)) &&
  bytesCanonical 0xFF h.flash && bytesCanonical 0 h.pilotMem

theorem memoriesCanonical_eq (s : State) : s.memoriesCanonical = s.host.canonical := rfl

theorem HostIf.canonical_flash {h : HostIf} (hc : h.canonical = true) : bytesCanonical 0xFF h.flash = true := by
  simp only [HostIf.canonical, Bool.and_eq_true] at hc
  exact hc.1.2

theorem HostIf.canonical_pilotMem {h : HostIf} (hc : h.canonical = true) : bytesCanonical 0 h.pilotMem = true := by
  simp only [HostIf.canonical, Bool.and_eq_true] at hc
  exact hc.2

/-- A canonical flash beside the memories. -/
theorem HostIf.canonical_withFlash {h : HostIf} {m : NMap Byte} {fe : FlashEngine} (hc : h.canonical = true)
    (hm : bytesCanonical 0xFF m = true) : ({ h with flash := m, fe := fe } : HostIf).canonical = true := by
  simp only [HostIf.canonical, Bool.and_eq_true] at hc ⊢
  exact ⟨⟨hc.1.1, hm⟩, hc.2⟩

/-- Canonical Pilot memories beside the others. -/
theorem HostIf.canonical_withPilotMem {h : HostIf} {m : NMap Byte} (hc : h.canonical = true)
    (hm : bytesCanonical 0 m = true) : ({ h with pilotMem := m } : HostIf).canonical = true := by
  simp only [HostIf.canonical, Bool.and_eq_true] at hc ⊢
  exact ⟨hc.1, hm⟩

/-- Nothing listed but a canonical flash. -/
theorem HostIf.canonical_flashOnly {m : NMap Byte} {b : Bool} (hm : bytesCanonical 0xFF m = true) :
    ({ flash := m, perstHigh := b } : HostIf).canonical = true := by
  simpa [HostIf.canonical, NMap.wf, bytesCanonical, NMap.lean] using hm

/-- What every step of a walk keeps, the walk keeps. -/
theorem foldl_canonical {α : Type} {f : State → α → State} {l : List α} {s : State}
    (hf : ∀ t x, t.host.canonical = true → (f t x).host.canonical = true) (h : s.host.canonical = true) :
    (l.foldl f s).host.canonical = true := by
  induction l generalizing s with
  | nil => exact h
  | cons x l ih => exact ih (hf s x h)

theorem clearBurst_canonical {k : Nat} {s : State} (h : s.host.canonical = true) :
    (clearBurst k s).host.canonical = true := by
  unfold clearBurst; grind -ring -linarith [State.withHbm_host, State.set_host]

theorem clearRange_canonical {p off n : Nat} {s : State} (h : s.host.canonical = true) :
    (clearRange p off n s).host.canonical = true := foldl_canonical (fun _ _ h => clearBurst_canonical h) h

theorem HostIf.canonical_linkDown {h : HostIf} (hc : h.canonical = true) :
    ({ h with linkUp := false } : HostIf).canonical = true := hc

theorem State.set_canonical {o : ObjRow} {inst v : Nat} {s : State} (h : s.host.canonical = true) :
    (s.set o inst v).host.canonical = true := h

theorem State.setDom_canonical {o : ObjRow} {inst : Nat} {v : List Byte} {s : State} (h : s.host.canonical = true) :
    (s.setDom o inst v).host.canonical = true := h

/-! ### The operations of Machine/Ops -/

theorem State.draw_canonical {s : State} (h : s.host.canonical = true) :
    (State.draw s).2.host.canonical = true := by
  unfold State.draw; grind -ring -linarith

theorem State.setBollard_canonical {s : State} {page v : Nat} (h : s.host.canonical = true) :
    (s.setBollard page v).host.canonical = true := h

/-- A write of the quay window keeps the canonical form. -/
theorem State.quayWrite_canonical {s : State} {a : Nat} {bs : List Byte} (h : s.host.canonical = true) :
    (s.quayWrite a bs).host.canonical = true := memoriesCanonical_quayWrite a bs h

theorem passBack_canonical {v : Nat} {s : State} (h : s.host.canonical = true) :
    (passBack v s).host.canonical = true := by
  unfold passBack; grind -ring -linarith [State.setBollard_canonical, foldl_canonical]

theorem clearPoison_canonical {p off : Nat} {s : State} (h : s.host.canonical = true) :
    (clearPoison p off s).host.canonical = true := by
  unfold clearPoison; grind -ring -linarith [clearBurst_canonical]

theorem wantBurst_canonical {rr : Requester} {write : Bool} {p off : Nat} {s : State} {n : Nat}
    (h : s.host.canonical = true) :
    (wantBurst rr write p off s n).host.canonical = true := by
  unfold wantBurst; grind -ring -linarith [askBurst_host]

theorem quayPiece_canonical {rr : Requester} {write : Bool} {a n : Nat} {s : State} (h : s.host.canonical = true) :
    (quayPiece rr write a n s).host.canonical = true := by
  unfold quayPiece; grind -ring -linarith [askBurst_host]

theorem quayAsk_canonical {rr : Requester} {write : Bool} {a n : Nat} {s : State} (h : s.host.canonical = true) :
    (quayAsk rr write a n s).host.canonical = true := by
  unfold quayAsk; grind -ring -linarith [quayPiece_canonical, foldl_canonical]

theorem signalVector_canonical {v : Nat} {s : State} (h : s.host.canonical = true) :
    (signalVector v s).host.canonical = true := by
  unfold signalVector
  dsimp only
  repeat' split
  all_goals exact h

theorem setPinCause_canonical {i : Nat} {s : State} (h : s.host.canonical = true) :
    (setPinCause i s).host.canonical = true := by
  unfold setPinCause; grind -ring -linarith [State.set_host]

theorem State.setRing_canonical {s : State} {r : Nat} {x : RingPos} (h : s.host.canonical = true) :
    (s.setRing r x).host.canonical = true := h

theorem passPage_canonical {r page : Nat} {s : State} (h : s.host.canonical = true) :
    (passPage r page s).host.canonical = true := by
  unfold passPage; grind -ring -linarith [signalVector_canonical, State.setBollard_canonical]

theorem ringCleared_canonical {r off n : Nat} {s : State} (h : s.host.canonical = true) :
    (ringCleared r off n s).host.canonical = true := by
  unfold ringCleared; grind -ring -linarith [clearPoison_canonical, foldl_canonical]

theorem ringWrite_canonical {r off : Nat} {bs : List Byte} {s : State} (h : s.host.canonical = true) :
    (ringWrite r off bs s).host.canonical = true :=
  quayAsk_canonical (ringCleared_canonical (State.quayWrite_canonical h))

theorem ringAdvance_canonical {r off off' : Nat} {s : State} (h : s.host.canonical = true) :
    (ringAdvance r off off' s).host.canonical = true := by
  unfold ringAdvance; grind -ring -linarith [passPage_canonical, State.setRing_canonical, foldl_canonical]

theorem ringPassPartial_canonical {r : Nat} {s : State} (h : s.host.canonical = true) :
    (ringPassPartial r s).host.canonical = true := by
  unfold ringPassPartial; grind -ring -linarith [ringAdvance_canonical, ringWrite_canonical]

theorem ringPut_canonical {r : Nat} {rec : List Byte} {s : State} (h : s.host.canonical = true) :
    (ringPut r rec s).host.canonical = true := by
  unfold ringPut
  grind -ring -linarith [ringAdvance_canonical, ringWrite_canonical, State.bump_host, ringPassPartial_canonical]

theorem countOne_canonical {code d : Nat} {s : State} (h : s.host.canonical = true) :
    (countOne code d s).2.host.canonical = true := by
  unfold countOne; grind -ring -linarith [State.setS_host]

theorem countEvent_canonical {code d : Nat} {s : State} (h : s.host.canonical = true) :
    (countEvent code d s).2.host.canonical = true := by
  unfold countEvent; grind -ring -linarith [countOne_canonical, State.setS_host]

theorem logWrite_canonical {r : LogRec} {s : State} (h : s.host.canonical = true) :
    (logWrite r s).host.canonical = true := by
  unfold logWrite; grind -ring -linarith [ringPut_canonical, State.set_host]

theorem logDrop_canonical {s : State} (h : s.host.canonical = true) :
    (logDrop s).host.canonical = true := by
  unfold logDrop; grind -ring -linarith [State.withEvents_host, State.bump_host]

theorem noteLogged_canonical {code : Nat} {s : State} (h : s.host.canonical = true) :
    (noteLogged code s).host.canonical = true := by
  unfold noteLogged; grind -ring -linarith [State.withEvents_host]

theorem ringStall_canonical {r n : Nat} {s : State} (h : s.host.canonical = true) :
    (ringStall r n s).2.host.canonical = true := by
  unfold ringStall; grind -ring -linarith [State.setRing_canonical]

theorem ringDropped_canonical {r : Nat} {s : State} (h : s.host.canonical = true) :
    (ringDropped r s).host.canonical = true := by
  unfold ringDropped; grind -ring -linarith [State.setRing_canonical]

theorem signalEvent_canonical {code : Nat} {s : State} (h : s.host.canonical = true) :
    (signalEvent code s).host.canonical = true := by
  unfold signalEvent; grind -ring -linarith [signalVector_canonical, setPinCause_canonical]

theorem logRecord_canonical {r : LogRec} {s : State} (h : s.host.canonical = true) :
    (logRecord r s).2.host.canonical = true := by
  unfold logRecord
  grind -ring -linarith [logWrite_canonical, ringStall_canonical, ringDropped_canonical, logDrop_canonical]

theorem noteSuppressed_canonical {code : Nat} {s : State} (h : s.host.canonical = true) :
    (noteSuppressed code s).host.canonical = true := by
  unfold noteSuppressed; grind -ring -linarith [State.withEvents_host]

theorem logEvent_canonical {code inst arg0 arg1 : Nat} {s : State} (h : s.host.canonical = true) :
    (logEvent code inst arg0 arg1 s).2.host.canonical = true := by
  unfold logEvent
  grind -ring -linarith [noteSuppressed_canonical, noteLogged_canonical, State.withEvents_host, State.set_host,
    State.bump_host, logRecord_canonical]

theorem raiseN_canonical {fuel code inst arg0 arg1 : Nat} {s : State} (h : s.host.canonical = true) :
    (raiseN fuel code inst arg0 arg1 s).host.canonical = true := by
  induction fuel generalizing code inst arg0 arg1 s with
  | zero => exact h
  | succ fuel ih =>
    unfold raiseN
    grind -ring -linarith [countEvent_canonical, logEvent_canonical, signalEvent_canonical]

theorem raise_canonical {code inst arg0 arg1 : Nat} {s : State} (h : s.host.canonical = true) :
    (raise code inst arg0 arg1 s).host.canonical = true := raiseN_canonical h

theorem produce_canonical {r : Nat} {rec : List Byte} {s : State} (h : s.host.canonical = true) :
    (produce r rec s).2.host.canonical = true := by
  unfold produce; grind -ring -linarith [ringPut_canonical, ringStall_canonical, raise_canonical]

theorem drainStores_canonical {fuel : Nat} {s : State} (h : s.host.canonical = true) :
    (drainStores fuel s).host.canonical = true := by
  induction fuel generalizing s with
  | zero => exact h
  | succ fuel ih => unfold drainStores; grind -ring -linarith [State.withEvents_host, logWrite_canonical]

theorem endStall_canonical {r : Nat} {s : State} (h : s.host.canonical = true) :
    (endStall r s).host.canonical = true := by
  unfold endStall; grind -ring -linarith [raise_canonical, ringStall_canonical, State.setRing_canonical]

theorem ringSpaceReturned_canonical {r : Nat} {s : State} (h : s.host.canonical = true) :
    (ringSpaceReturned r s).host.canonical = true := by
  unfold ringSpaceReturned
  grind -ring -linarith [endStall_canonical, raise_canonical, State.withEvents_host, drainStores_canonical]

theorem noteBytes_canonical {port tx n : Nat} {s : State} (h : s.host.canonical = true) :
    (noteBytes port tx n s).host.canonical = true := by
  unfold noteBytes; grind -ring -linarith

theorem sendFabric_canonical {port : Nat} {bs : List Byte} {s : State} (h : s.host.canonical = true) :
    (sendFabric port bs s).host.canonical = true := by
  unfold sendFabric; grind -ring -linarith [noteBytes_canonical, State.withFabric_host]

theorem sendAcpAnswer_canonical {a : AcpPending} {r : Response} {s : State} (h : s.host.canonical = true) :
    (sendAcpAnswer a r s).host.canonical = true := by
  unfold sendAcpAnswer; grind -ring -linarith [sendFabric_canonical]

theorem State.setSlot_canonical {s : State} {k : Nat} {x : MbSlot} (h : s.host.canonical = true) :
    (s.setSlot k x).host.canonical = true := h

theorem answer_canonical {p : Path} {r : Response} {s : State} (h : s.host.canonical = true) :
    (answer p r s).host.canonical = true := by
  unfold answer
  grind -ring -linarith [State.setSlot_canonical, sendAcpAnswer_canonical, State.withFabric_host, raise_canonical,
    State.bump_host]

theorem answerOpt_canonical {p : Option Path} {r : Response} {s : State} (h : s.host.canonical = true) :
    (answerOpt p r s).host.canonical = true := by
  unfold answerOpt; grind -ring -linarith [answer_canonical]

theorem dropReplies_canonical {drop : Path → Bool} {s : State} (h : s.host.canonical = true) :
    (dropReplies drop s).host.canonical = true := by
  unfold dropReplies; grind -ring -linarith [State.drop_host, State.withDict_host]

theorem State.modFrame_canonical {s : State} {f : FrameId} {g : Frame → Frame} (h : s.host.canonical = true) :
    (State.modFrame s f g).host.canonical = true := by
  unfold State.modFrame; grind -ring -linarith [State.setFrame_host]

/-! ### The operations of Machine/Frames -/

theorem pfcAsk_canonical {port prio quanta : Nat} {s : State} (h : s.host.canonical = true) :
    (pfcAsk port prio quanta s).host.canonical = true := by
  unfold pfcAsk; grind -ring -linarith [State.setLink_host]

theorem State.setTmPort_canonical {s : State} {p : Nat} {x : TmPort} (h : s.host.canonical = true) :
    (State.setTmPort s p x).host.canonical = true := by
  unfold State.setTmPort; grind -ring -linarith [State.set_host]

theorem pfcSend_canonical {port : Nat} {s : State} (h : s.host.canonical = true) :
    (pfcSend port s).host.canonical = true := by
  unfold pfcSend; grind -ring -linarith [State.setLink_host, State.setTmPort_canonical]

theorem chargeIngress_canonical {port prio n : Nat} {s : State} (h : s.host.canonical = true) :
    (chargeIngress port prio n s).host.canonical = true := by
  unfold chargeIngress; grind -ring -linarith [State.setS_host, pfcSend_canonical, pfcAsk_canonical]

theorem dischargeIngress_canonical {port prio n : Nat} {s : State} (h : s.host.canonical = true) :
    (dischargeIngress port prio n s).host.canonical = true := by
  unfold dischargeIngress; grind -ring -linarith [State.setS_host, pfcSend_canonical, pfcAsk_canonical]

theorem queueCells_canonical {egress : Bool} {src dst cls start n : Nat} {f : FrameId} {s : State}
    (h : s.host.canonical = true) :
    (queueCells egress src dst cls start n f s).host.canonical = true := by
  unfold queueCells; grind -ring -linarith [State.setDir_host]

theorem purgeCells_canonical {f : FrameId} {s : State} (h : s.host.canonical = true) :
    (purgeCells f s).host.canonical = true := by
  unfold purgeCells; grind -ring -linarith [State.setDir_host, foldl_canonical]

theorem sendCtrl_canonical {fromDeck : Nat} {m : CtrlMsg} {s : State} (h : s.host.canonical = true) :
    (sendCtrl fromDeck m s).host.canonical = true := by
  unfold sendCtrl; grind -ring -linarith [State.withCross_host, State.setDir_host]

theorem sendHole_canonical {fromDeck : Nat} {st : Stamp} {s : State} (h : s.host.canonical = true) :
    (sendHole fromDeck st s).host.canonical = true := by
  unfold sendHole; grind -ring -linarith [sendCtrl_canonical]

theorem noteRoom_canonical {s : State} (h : s.host.canonical = true) :
    (noteRoom s).host.canonical = true := by
  unfold noteRoom; grind -ring -linarith [State.withCross_host]

theorem endFrame_canonical {f : FrameId} {s : State} (h : s.host.canonical = true) :
    (endFrame f s).host.canonical = true := by
  unfold endFrame
  grind -ring -linarith [purgeCells_canonical, dischargeIngress_canonical, State.withCross_host, noteRoom_canonical,
    State.setFrame_host, State.freeFrame_host]

theorem releaseOrigin_canonical {o : FrameId} {s : State} (h : s.host.canonical = true) :
    (releaseOrigin o s).host.canonical = true := by
  unfold releaseOrigin; grind -ring -linarith [noteRoom_canonical, State.setFrame_host]

theorem finishFrame_canonical {f : FrameId} {s : State} (h : s.host.canonical = true) :
    (finishFrame f s).host.canonical = true := by
  unfold finishFrame; grind -ring -linarith [endFrame_canonical, State.setFrame_host, releaseOrigin_canonical]

theorem dropPointer_canonical {f : FrameId} {s : State} (h : s.host.canonical = true) :
    (dropPointer f s).host.canonical = true := by
  unfold dropPointer; grind -ring -linarith [finishFrame_canonical, State.setFrame_host]

theorem discardAt_canonical {deck : Nat} {f : FrameId} {s : State} (h : s.host.canonical = true) :
    (discardAt deck f s).host.canonical = true := by
  unfold discardAt; grind -ring -linarith [sendHole_canonical, finishFrame_canonical]

theorem stampFrame_canonical {redirect : Bool} {pipe : Nat} {f : FrameId} {s : State} (h : s.host.canonical = true) :
    (stampFrame redirect pipe f s).host.canonical = true := by
  unfold stampFrame; grind -ring -linarith [State.withCross_host, State.set_host, State.setFrame_host]

theorem crossTo_canonical {egress : Bool} {src dst : Nat} {f : FrameId} {s : State} (h : s.host.canonical = true) :
    (crossTo egress src dst f s).host.canonical = true := by
  unfold crossTo
  grind -ring -linarith [State.setFrame_host, finishFrame_canonical, discardAt_canonical, State.bump_host,
    queueCells_canonical]

theorem toHome_canonical {f : FrameId} {s : State} (h : s.host.canonical = true) :
    (toHome f s).host.canonical = true := by
  unfold toHome; grind -ring -linarith [crossTo_canonical]

theorem toEgress_canonical {f : FrameId} {s : State} (h : s.host.canonical = true) :
    (toEgress f s).host.canonical = true := by
  unfold toEgress; grind -ring -linarith [crossTo_canonical]

theorem stampOrWait_canonical {redirect : Bool} {pipe : Nat} {f : FrameId} {s : State} (h : s.host.canonical = true) :
    (stampOrWait redirect pipe f s).host.canonical = true := by
  unfold stampOrWait
  grind -ring -linarith [State.setFrame_host, State.withCross_host, State.bump_host, stampFrame_canonical,
    toEgress_canonical, toHome_canonical]

theorem followHead_canonical {atHome : Bool} {start n : Nat} {f : FrameId} {s : State} (h : s.host.canonical = true) :
    (followHead atHome start n f s).host.canonical = true := by
  unfold followHead; grind -ring -linarith [queueCells_canonical, foldl_canonical]

theorem recount_canonical {q : Nat} {s : State} (h : s.host.canonical = true) :
    (recount q s).host.canonical = true := by
  unfold recount; grind -ring -linarith [State.set_host, queueCells_canonical]

theorem State.setQueue_canonical {s : State} {q : Nat} {x : Queue} (h : s.host.canonical = true) :
    (State.setQueue s q x).host.canonical = true := by
  unfold State.setQueue; grind -ring -linarith [recount_canonical, State.set_host, State.setLink_host]

theorem endSending_canonical {port : Nat} {s : State} (h : s.host.canonical = true) :
    (endSending port s).host.canonical = true := by
  unfold endSending; grind -ring -linarith [recount_canonical, State.setTmPort_canonical]

theorem emptyQueue_canonical {o : ObjRow} {q : Nat} {s : State} (h : s.host.canonical = true) :
    (emptyQueue o q s).host.canonical = true := by
  unfold emptyQueue
  grind -ring -linarith [State.setQueue_canonical, dropPointer_canonical, State.bump_host, foldl_canonical]

theorem State.setResidue_canonical {s : State} {d : Nat} {l : List Residue} (h : s.host.canonical = true) :
    (State.setResidue s d l).host.canonical = true := by
  unfold State.setResidue; grind -ring -linarith [State.withCross_host, State.set_host]

theorem dropResidue_canonical {port : Nat} {s : State} (h : s.host.canonical = true) :
    (dropResidue port s).host.canonical = true := by
  unfold dropResidue
  grind -ring -linarith [State.setResidue_canonical, dropPointer_canonical, State.bump_host, foldl_canonical]

theorem unselect_canonical {port : Nat} {s : State} (h : s.host.canonical = true) :
    (unselect port s).host.canonical = true := by
  unfold unselect
  grind -ring -linarith [State.setTmPort_canonical, State.setQueue_canonical, State.modFrame_canonical]

theorem cutTransmission_canonical {port : Nat} {s : State} (h : s.host.canonical = true) :
    (cutTransmission port s).host.canonical = true := by
  unfold cutTransmission
  grind -ring -linarith [unselect_canonical, dropPointer_canonical, endSending_canonical, State.bump_host]

theorem flushPort_canonical {port cause : Nat} {s : State} (h : s.host.canonical = true) :
    (flushPort port cause s).host.canonical = true := by
  unfold flushPort
  grind -ring -linarith [unselect_canonical, State.setLink_host, emptyQueue_canonical, pfcSend_canonical,
    dropResidue_canonical, cutTransmission_canonical, raise_canonical, foldl_canonical]

/-! ### The operations of Machine/Ports -/

theorem lpiLeave_canonical {port : Nat} {s : State} (h : s.host.canonical = true) :
    (lpiLeave port s).host.canonical = true := by
  unfold lpiLeave; grind -ring -linarith [State.setLink_host, State.add_host]

theorem adjLeave_canonical {port why : Nat} {s : State} (h : s.host.canonical = true) :
    (adjLeave port why s).host.canonical = true := by
  unfold adjLeave; grind -ring -linarith [State.set_host, raise_canonical]

theorem linkLost_canonical {port : Nat} {s : State} (h : s.host.canonical = true) :
    (linkLost port s).host.canonical = true := by
  unfold linkLost; grind -ring -linarith [lpiLeave_canonical, State.setLink_host, adjLeave_canonical, State.set_host]

theorem declareDown_canonical {port cause : Nat} {s : State} (h : s.host.canonical = true) :
    (declareDown port cause s).host.canonical = true := by
  unfold declareDown
  grind -ring -linarith [linkLost_canonical, State.setLink_host, raise_canonical, State.bump_host,
    flushPort_canonical, State.set_host, cutTransmission_canonical]

theorem holdExpire_canonical {port : Nat} {s : State} (h : s.host.canonical = true) :
    (holdExpire port s).host.canonical = true := by
  unfold holdExpire; grind -ring -linarith [flushPort_canonical, State.set_host]

theorem resumeHold_canonical {port : Nat} {s : State} (h : s.host.canonical = true) :
    (resumeHold port s).host.canonical = true := by
  unfold resumeHold
  dsimp only
  apply raise_canonical
  refine List.foldlRecOn (motive := fun acc : State × Nat × Nat => acc.1.host.canonical = true) _ _ h ?_
  rintro ⟨t, kept, gone⟩ ht c -
  exact foldl_canonical (fun _ _ hu => dropPointer_canonical hu) (State.setQueue_canonical ht)

theorem declareUp_canonical {port : Nat} {s : State} (h : s.host.canonical = true) :
    (declareUp port s).host.canonical = true := by
  unfold declareUp
  grind -ring -linarith [holdExpire_canonical, State.set_host, State.setLink_host, raise_canonical,
    resumeHold_canonical]

theorem restartTraining_canonical {port : Nat} {s : State} (h : s.host.canonical = true) :
    (restartTraining port s).host.canonical = true := by
  unfold restartTraining; grind -ring -linarith [State.setLink_host]

theorem beginFault_canonical {port cause : Nat} {s : State} (h : s.host.canonical = true) :
    (beginFault port cause s).host.canonical = true := by
  unfold beginFault; grind -ring -linarith [State.setLink_host]

theorem execRxFaultBegin_canonical {port : FrontPort} {cause : RxFault} {s : State} {t : State}
    (e : execRxFaultBegin port cause s = .next t)
    (h : s.host.canonical = true) : t.host.canonical = true := by
  unfold execRxFaultBegin at e; grind -ring -linarith [beginFault_canonical]

theorem execAlignmentAcquired_canonical {port : FrontPort} {s : State} {t : State}
    (e : execAlignmentAcquired port s = .next t)
    (h : s.host.canonical = true) : t.host.canonical = true := by
  unfold execAlignmentAcquired at e; grind -ring -linarith [State.setLink_host]

theorem execTrainingFailed_canonical {port : FrontPort} {s : State} {t : State}
    (e : execTrainingFailed port s = .next t)
    (h : s.host.canonical = true) : t.host.canonical = true := by
  obtain rfl := Host.Outcome.next.inj e
  exact execRxFaultBegin_canonical (cause := .trainingFailed) rfl h

theorem execLinkDown_canonical {port : FrontPort} {s : State} {t : State} (e : execLinkDown port s = .next t)
    (h : s.host.canonical = true) : t.host.canonical = true := by
  unfold execLinkDown at e; grind -ring -linarith [declareDown_canonical]

theorem execLinkUp_canonical {port : FrontPort} {s : State} {t : State} (e : execLinkUp port s = .next t)
    (h : s.host.canonical = true) : t.host.canonical = true := by
  unfold execLinkUp at e; grind -ring -linarith [declareUp_canonical]

theorem execHoldExpired_canonical {port : FrontPort} {s : State} {t : State} (e : execHoldExpired port s = .next t)
    (h : s.host.canonical = true) : t.host.canonical = true := by
  unfold execHoldExpired at e; grind -ring -linarith [holdExpire_canonical]

theorem execFecUncorrected_canonical {port : FrontPort} {corrected uncorrected : Nat} {s : State} {t : State}
    (e : execFecUncorrected port corrected uncorrected s = .next t)
    (h : s.host.canonical = true) : t.host.canonical = true := by
  unfold execFecUncorrected at e; grind -ring -linarith [State.setLink_host, State.add_host, raise_canonical]

theorem beginTraining_canonical {port : Nat} {enabled : Bool} {s : State} (h : s.host.canonical = true) :
    (beginTraining port enabled s).host.canonical = true := by
  unfold beginTraining; grind -ring -linarith [State.setLink_host, State.set_host]

theorem applyLane_canonical {old : State} {port : Nat} {s : State} (h : s.host.canonical = true) :
    (applyLane old port s).host.canonical = true := by
  unfold applyLane
  grind -ring -linarith [flushPort_canonical, linkLost_canonical, State.set_host, beginTraining_canonical]

theorem applyLaneMap_canonical {pipe : Nat} {old : State} {s : State} (h : s.host.canonical = true) :
    (applyLaneMap pipe old s).host.canonical = true := by
  unfold applyLaneMap; grind -ring -linarith [applyLane_canonical, foldl_canonical]

theorem applyPortConfig_canonical {port : Nat} {old : State} {s : State} (h : s.host.canonical = true) :
    (applyPortConfig port old s).host.canonical = true := by
  unfold applyPortConfig
  grind -ring -linarith [lpiLeave_canonical, beginTraining_canonical, flushPort_canonical, linkLost_canonical,
    State.set_host, adjLeave_canonical, declareDown_canonical, restartTraining_canonical]

theorem holdWritten_canonical {port : Nat} {s : State} (h : s.host.canonical = true) :
    (holdWritten port s).host.canonical = true := by
  unfold holdWritten; grind -ring -linarith [holdExpire_canonical]

theorem execLpiEnter_canonical {port : FrontPort} {s : State} {t : State} (e : execLpiEnter port s = .next t)
    (h : s.host.canonical = true) : t.host.canonical = true := by
  unfold execLpiEnter at e; grind -ring -linarith [State.setLink_host]

theorem lpiWake_canonical {port : Nat} {s : State} (h : s.host.canonical = true) :
    (lpiWake port s).host.canonical = true := by
  unfold lpiWake; grind -ring -linarith [lpiLeave_canonical, State.setLink_host]

theorem execLpiWakeDone_canonical {port : FrontPort} {s : State} {t : State} (e : execLpiWakeDone port s = .next t)
    (h : s.host.canonical = true) : t.host.canonical = true := by
  unfold execLpiWakeDone at e; grind -ring -linarith [State.setLink_host]

theorem pfcReceive_canonical {port : Nat} {data : List Byte} {s : State} (h : s.host.canonical = true) :
    (pfcReceive port data s).host.canonical = true := by
  unfold pfcReceive; grind -ring -linarith [State.setLink_host, State.bump_host, foldl_canonical]

theorem execMacControlRx_canonical {port : FrontPort} {data : List Byte} {s : State} {t : State}
    (e : execMacControlRx port data s = .next t)
    (h : s.host.canonical = true) : t.host.canonical = true := by
  unfold execMacControlRx at e; grind -ring -linarith [noteBytes_canonical, pfcReceive_canonical, State.bump_host]

theorem execPfcPauseExpired_canonical {port : FrontPort} {priority : Fin 8} {s : State} {t : State}
    (e : execPfcPauseExpired port priority s = .next t)
    (h : s.host.canonical = true) : t.host.canonical = true := by
  unfold execPfcPauseExpired at e; grind -ring -linarith [State.setLink_host]

theorem bufferFull_canonical {deck port : Nat} {s : State} (h : s.host.canonical = true) :
    (bufferFull deck port s).host.canonical = true := by
  unfold bufferFull; grind -ring -linarith [State.bump_host, raise_canonical, State.withCross_host]

theorem headroomDrop_canonical {port p : Nat} {s : State} (h : s.host.canonical = true) :
    (headroomDrop port p s).host.canonical = true := by
  unfold headroomDrop; grind -ring -linarith [raise_canonical, State.bump_host]

theorem tailKnown_canonical {f : FrameId} {s : State} (h : s.host.canonical = true) :
    (tailKnown f s).host.canonical = true := by
  unfold tailKnown; grind -ring -linarith [endFrame_canonical, discardAt_canonical]

theorem truncate_canonical {f : FrameId} {s : State} (h : s.host.canonical = true) :
    (truncate f s).host.canonical = true := by
  unfold truncate; grind -ring -linarith [tailKnown_canonical, State.modFrame_canonical]

theorem takeCells_canonical {f : FrameId} {n : Nat} {s : State} (h : s.host.canonical = true) :
    (takeCells f n s).host.canonical = true := by
  induction n generalizing s with
  | zero => exact h
  | succ n ih =>
    unfold takeCells
    grind -ring -linarith [truncate_canonical, bufferFull_canonical, headroomDrop_canonical,
      chargeIngress_canonical, State.setFrame_host]

theorem admitFirst_canonical {f : FrameId} {s : State} (h : s.host.canonical = true) :
    (admitFirst f s).host.canonical = true := by
  unfold admitFirst
  grind -ring -linarith [takeCells_canonical, endFrame_canonical, bufferFull_canonical, headroomDrop_canonical,
    chargeIngress_canonical,
    State.setFrame_host, State.bump_host]

theorem transitFrame_canonical {f : FrameId} {t : FerryTag} {s : State} (h : s.host.canonical = true) :
    (transitFrame f t s).host.canonical = true := by
  unfold transitFrame
  grind -ring -linarith [State.bump_host, endFrame_canonical, State.setFrame_host, stampOrWait_canonical]

theorem enterIngress_canonical {f : FrameId} {s : State} (h : s.host.canonical = true) :
    (enterIngress f s).host.canonical = true := by
  unfold enterIngress
  grind -ring -linarith [admitFirst_canonical, endFrame_canonical, State.bump_host, transitFrame_canonical]

theorem ferryArrive_canonical {port : Nat} {t : FerryTag} {s : State} (h : s.host.canonical = true) :
    (ferryArrive port t s).host.canonical = true := by
  unfold ferryArrive; grind -ring -linarith [State.setLink_host, State.bump_host, State.add_host]

theorem landingPfc_canonical {deck : Nat} {on : Bool} {s : State} (h : s.host.canonical = true) :
    (landingPfc deck on s).host.canonical = true := by
  unfold landingPfc; grind -ring -linarith [pfcSend_canonical, State.setLink_host, foldl_canonical]

theorem setLanding_canonical {deck n : Nat} {s : State} (h : s.host.canonical = true) :
    (setLanding deck n s).host.canonical = true := by
  unfold setLanding; grind -ring -linarith [State.set_host, State.withSleep_host, landingPfc_canonical]

theorem landBytes_canonical {f : FrameId} {n : Nat} {s : State} (h : s.host.canonical = true) :
    (landBytes f n s).host.canonical = true := by
  unfold landBytes
  grind -ring -linarith [setLanding_canonical, State.bump_host, raise_canonical, State.withSleep_host,
    endFrame_canonical]

theorem leaveLanding_canonical {f : FrameId} {s : State} (h : s.host.canonical = true) :
    (leaveLanding f s).host.canonical = true := by
  unfold leaveLanding; grind -ring -linarith [enterIngress_canonical, setLanding_canonical]

theorem firstCell_canonical {port : Nat} {data : List Byte} {s : State} (h : s.host.canonical = true) :
    (firstCell port data s).host.canonical = true := by
  unfold firstCell
  grind -ring -linarith [noteBytes_canonical, State.bump_host, ferryArrive_canonical, State.setFrame_host,
    enterIngress_canonical, landBytes_canonical]

theorem execFrameFirstCell_canonical {port : FrontPort} {data : List Byte} {s : State} {t : State}
    (e : execFrameFirstCell port data s = .next t)
    (h : s.host.canonical = true) : t.host.canonical = true := by
  unfold execFrameFirstCell at e; grind -ring -linarith [firstCell_canonical]

theorem countTail_canonical {x : Frame} {data : List Byte} {fcs : Nat} {s : State} (h : s.host.canonical = true) :
    (countTail x data fcs s).2.host.canonical = true := by
  unfold countTail; grind -ring -linarith [State.bump_host, State.add_host]

/-! ### The operations of Machine/Tm -/

theorem chargeShapers_canonical {q n : Nat} {s : State} (h : s.host.canonical = true) :
    (chargeShapers q n s).host.canonical = true := by
  unfold chargeShapers; grind -ring -linarith [State.setTmPort_canonical, State.set_host]

theorem applyTmPort_canonical {port : Nat} {old : State} {s : State} (h : s.host.canonical = true) :
    (applyTmPort port old s).host.canonical = true := by
  unfold applyTmPort; grind -ring -linarith [State.setTmPort_canonical, State.set_host, foldl_canonical]

theorem execGateEntryChange_canonical {port : Port} {s : State} {t : State} (e : execGateEntryChange port s = .next t)
    (h : s.host.canonical = true) : t.host.canonical = true := by
  unfold execGateEntryChange at e; grind -ring -linarith [State.setTmPort_canonical]

theorem execGateConfigChanged_canonical {port : Port} {s : State} {t : State}
    (e : execGateConfigChanged port s = .next t)
    (h : s.host.canonical = true) : t.host.canonical = true := by
  obtain rfl := Host.Outcome.next.inj e
  split
  · exact h
  · split
    · exact h
    · apply raise_canonical
      apply State.set_canonical
      apply State.setDom_canonical
      apply State.set_canonical
      apply State.set_canonical
      apply State.setTmPort_canonical
      split
      · extract_lets tail
        split
        · exact h
        · exact h
      · exact h

theorem applyGateList_canonical {port tc : Nat} {s : State} (h : s.host.canonical = true) :
    (applyGateList port tc s).host.canonical = true := by
  unfold applyGateList
  split
  · exact State.set_canonical (State.set_canonical (State.set_canonical (State.setDom_canonical
      (State.setTmPort_canonical h))))
  · exact State.set_canonical (State.set_canonical (State.setTmPort_canonical h))

theorem formTag_canonical {q : Nat} {s : State} (h : s.host.canonical = true) :
    (formTag q s).host.canonical = true := by
  unfold formTag
  dsimp only
  split
  · exact h
  · exact State.setQueue_canonical h

theorem enqueueTo_canonical {f : FrameId} {q : Nat} {s : State} (h : s.host.canonical = true) :
    (enqueueTo f q s).2.host.canonical = true := by
  unfold enqueueTo
  grind -ring -linarith [State.bump_host, queueCells_canonical, State.setQueue_canonical,
    formTag_canonical, lpiWake_canonical]

theorem execEnqueue_canonical {f : FrameId} {s : State} {t : State} (e : execEnqueue f s = .next t)
    (h : s.host.canonical = true) : t.host.canonical = true := by
  unfold execEnqueue at e
  grind -ring -linarith [finishFrame_canonical, State.bump_host, enqueueTo_canonical, State.modFrame_canonical]

theorem discardHead_canonical {q : Nat} {s : State} (h : s.host.canonical = true) :
    (discardHead q s).host.canonical = true := by
  unfold discardHead; grind -ring -linarith [formTag_canonical, dropPointer_canonical, State.setQueue_canonical]

theorem dropTooLong_canonical {port c fuel : Nat} {s : State} (h : s.host.canonical = true) :
    (dropTooLong port c fuel s).host.canonical = true := by
  induction fuel generalizing s with
  | zero => exact h
  | succ fuel ih => unfold dropTooLong; grind -ring -linarith [discardHead_canonical, raise_canonical,
    State.bump_host]

theorem reenter_canonical {port : Nat} {bytes : List Byte} {length : Nat} {s : State} (h : s.host.canonical = true) :
    (reenter port bytes length s).host.canonical = true := by
  unfold reenter; grind -ring -linarith [enterIngress_canonical, State.setFrame_host]

theorem startTx_canonical {q : Nat} {s : State} (h : s.host.canonical = true) :
    (startTx q s).host.canonical = true := by
  unfold startTx
  grind -ring -linarith [State.setTmPort_canonical, chargeShapers_canonical, State.setQueue_canonical,
    State.set_host, State.modFrame_canonical, reenter_canonical]

theorem selectLoop_canonical {port fuel : Nat} {s : State} (h : s.host.canonical = true) :
    (selectLoop port fuel s).host.canonical = true := by
  induction fuel generalizing s with
  | zero => exact h
  | succ fuel ih => unfold selectLoop; grind -ring -linarith [discardHead_canonical, startTx_canonical,
    State.bump_host]

theorem execSelection_canonical {port : Port} {s : State} {t : State} (e : execSelection port s = .next t)
    (h : s.host.canonical = true) : t.host.canonical = true := by
  unfold execSelection at e; grind -ring -linarith [dropTooLong_canonical, selectLoop_canonical, foldl_canonical]

theorem noteOverrun_canonical {port : Nat} {s : State} (h : s.host.canonical = true) :
    (noteOverrun port s).host.canonical = true := by
  unfold noteOverrun; grind -ring -linarith [State.setTmPort_canonical]

theorem noteOverruns_canonical {s : State} (h : s.host.canonical = true) :
    (noteOverruns s).host.canonical = true := by
  unfold noteOverruns; grind -ring -linarith [noteOverrun_canonical, foldl_canonical]

theorem countSent_canonical {port : Nat} {x : Sending} {e : QEntry} {s : State} (h : s.host.canonical = true) :
    (countSent port x e s).host.canonical = true := by
  unfold countSent; grind -ring -linarith [State.bump_host, State.add_host, noteBytes_canonical, State.setLink_host]

theorem execPfcRefresh_canonical {port : FrontPort} {s : State} {t : State} (e : execPfcRefresh port s = .next t)
    (h : s.host.canonical = true) : t.host.canonical = true := by
  unfold execPfcRefresh at e; grind -ring -linarith [pfcSend_canonical, pfcAsk_canonical, foldl_canonical]

theorem moreBytes_canonical {f : FrameId} {data : List Byte} {s : State} (h : s.host.canonical = true) :
    (moreBytes f data s).host.canonical = true := by
  unfold moreBytes
  split
  · exact h
  · split
    · exact h
    · dsimp only
      split
      · exact h
      · exact landBytes_canonical h
      · exact followHead_canonical (takeCells_canonical h)

theorem execFrameCell_canonical {f : FrameId} {data : List Byte} {s : State} {t : State}
    (e : execFrameCell f data s = .next t)
    (h : s.host.canonical = true) : t.host.canonical = true := by
  unfold execFrameCell at e; grind -ring -linarith [moreBytes_canonical, noteBytes_canonical]

/-! ### The operations of Machine/Time -/

theorem commitPassed_canonical {before : Nat} {s : State} {g : Nat × GroupInst} (h : s.host.canonical = true) :
    (commitPassed before s g).host.canonical = true := by
  unfold commitPassed; grind -ring -linarith [raise_canonical, State.setGroup_host]

theorem commitsPassed_canonical {before : Nat} {s : State} (h : s.host.canonical = true) :
    (commitsPassed before s).host.canonical = true := by
  unfold commitsPassed; grind -ring -linarith [commitPassed_canonical, foldl_canonical]

theorem triggersPassed_canonical {natural : Nat} {s : State} (h : s.host.canonical = true) :
    (triggersPassed natural s).host.canonical = true := by
  unfold triggersPassed; grind -ring -linarith

theorem retimeTriggers_canonical {s : State} (h : s.host.canonical = true) :
    (retimeTriggers s).host.canonical = true := by
  unfold retimeTriggers; grind -ring -linarith

theorem stepTo_canonical {kind new : Nat} {stated : Int} {s : State} (h : s.host.canonical = true) :
    (stepTo kind new stated s).host.canonical = true := by
  unfold stepTo
  grind -ring -linarith [State.withTime_host, retimeTriggers_canonical, triggersPassed_canonical,
    commitsPassed_canonical, raise_canonical]

theorem applyJump_canonical {s : State} {j : Nat × Int} (h : s.host.canonical = true) :
    (applyJump s j).host.canonical = true := by
  unfold applyJump; grind -ring -linarith [stepTo_canonical]

theorem applySteps_canonical {l : List Int} {s : State} (h : s.host.canonical = true) :
    (applySteps l s).host.canonical = true := by
  induction l generalizing s with
  | nil => exact h
  | cons v rest ih => unfold applySteps; grind -ring -linarith [stepTo_canonical, raise_canonical,
    State.withTime_host]

theorem timeTick_canonical {s : State} (h : s.host.canonical = true) : (timeTick s).host.canonical = true := by
  unfold timeTick
  grind -ring -linarith [foldl_canonical, applyJump_canonical, applySteps_canonical, State.withTime_host]

theorem execTimeHoldEnd_canonical {s : State} {t : State} (e : execTimeHoldEnd s = .next t)
    (h : s.host.canonical = true) : t.host.canonical = true := by
  unfold execTimeHoldEnd at e; grind -ring -linarith [State.withTime_host]

theorem writeTimeStep_canonical {session : Nat} {value : Nat} {s : State} (h : s.host.canonical = true) :
    (writeTimeStep session value s).2.host.canonical = true := by
  unfold writeTimeStep; grind -ring -linarith [raise_canonical, State.bump_host, State.withTime_host]

theorem forceTime_canonical {kind : Nat} {v : Int} {s : State} (h : s.host.canonical = true) :
    (forceTime kind v s).host.canonical = true := by
  unfold forceTime; grind -ring -linarith [State.withTime_host]

theorem writeForcedStep_canonical {value : Nat} {s : State} (h : s.host.canonical = true) :
    (writeForcedStep value s).2.host.canonical = true := by
  unfold writeForcedStep; grind -ring -linarith [forceTime_canonical]

theorem writeTimeSet_canonical {value : Nat} {s : State} (h : s.host.canonical = true) :
    (writeTimeSet value s).2.host.canonical = true := by
  unfold writeTimeSet; grind -ring -linarith [forceTime_canonical]

theorem setTimeState_canonical {new : Nat} {s : State} (h : s.host.canonical = true) :
    (setTimeState new s).host.canonical = true := by
  unfold setTimeState; grind -ring -linarith [State.set_host, raise_canonical]

theorem setPtpPort_canonical {p : Nat} {x : PtpPort} {s : State} (h : s.host.canonical = true) :
    (setPtpPort p x s).host.canonical = true := by
  unfold setPtpPort; grind -ring -linarith [State.set_host]

theorem servoWrite_canonical {v : Nat} {s : State} (h : s.host.canonical = true) :
    (servoWrite v s).host.canonical = true := by
  unfold servoWrite; grind -ring -linarith [State.set_host]

theorem lockingOffset_canonical {offset : Int} {s : State} (h : s.host.canonical = true) :
    (lockingOffset offset s).host.canonical = true := by
  unfold lockingOffset; grind -ring -linarith [forceTime_canonical, setTimeState_canonical]

theorem takeOffset_canonical {p : Nat} {offset : Int} {increment : Nat} {s : State} (h : s.host.canonical = true) :
    (takeOffset p offset increment s).host.canonical = true := by
  unfold takeOffset
  grind -ring -linarith [State.set_host, servoWrite_canonical, setTimeState_canonical, lockingOffset_canonical]

theorem endSuspension_canonical {p : Nat} {s : State} (h : s.host.canonical = true) :
    (endSuspension p s).host.canonical = true := by
  unfold endSuspension
  grind -ring -linarith [setPtpPort_canonical, State.set_host, raise_canonical, setTimeState_canonical]

theorem suspendPort_canonical {p : Nat} {mean : Int} {s : State} (h : s.host.canonical = true) :
    (suspendPort p mean s).host.canonical = true := by
  unfold suspendPort
  grind -ring -linarith [setPtpPort_canonical, State.set_host, State.bump_host, raise_canonical,
    setTimeState_canonical, endSuspension_canonical, foldl_canonical]

theorem takeDelay_canonical {p : Nat} {mean : Int} {s : State} (h : s.host.canonical = true) :
    (takeDelay p mean s).host.canonical = true := by
  unfold takeDelay; grind -ring -linarith [setPtpPort_canonical, suspendPort_canonical, State.set_host]

theorem execPtpMessageRx_canonical {port : FrontPort} {m : PtpMessage} {s : State} {t : State}
    (e : execPtpMessageRx port m s = .next t)
    (h : s.host.canonical = true) : t.host.canonical = true := by
  unfold execPtpMessageRx at e
  grind -ring -linarith [State.bump_host, State.set_host, takeOffset_canonical, takeDelay_canonical]

theorem execTimeSourceResumed_canonical {port : FrontPort} {s : State} {t : State}
    (e : execTimeSourceResumed port s = .next t)
    (h : s.host.canonical = true) : t.host.canonical = true := by
  unfold execTimeSourceResumed at e; grind -ring -linarith [endSuspension_canonical]

theorem sendPtp_canonical {p kind : Nat} {s : State} (h : s.host.canonical = true) :
    (sendPtp p kind s).host.canonical = true := by
  unfold sendPtp; grind -ring -linarith [setPtpPort_canonical, State.bump_host]

theorem execPtpMessageTx_canonical {port : FrontPort} {s : State} {t : State} (e : execPtpMessageTx port s = .next t)
    (h : s.host.canonical = true) : t.host.canonical = true := by
  unfold execPtpMessageTx at e; grind -ring -linarith [sendPtp_canonical]

theorem setTrigger_canonical {n : Nat} {x : Trigger} {s : State} (h : s.host.canonical = true) :
    (setTrigger n x s).host.canonical = true := by
  unfold setTrigger; grind -ring -linarith [State.set_host]

theorem execTriggerEdge_canonical {n : Fin 4} {s : State} {t : State} (e : execTriggerEdge n s = .next t)
    (h : s.host.canonical = true) : t.host.canonical = true := by
  unfold execTriggerEdge at e; grind -ring -linarith [setTrigger_canonical, State.bump_host, raise_canonical]

theorem execTriggerPulseEnd_canonical {n : Fin 4} {s : State} {t : State} (e : execTriggerPulseEnd n s = .next t)
    (h : s.host.canonical = true) : t.host.canonical = true := by
  unfold execTriggerPulseEnd at e; grind -ring -linarith [setTrigger_canonical]

theorem applyTrigger_canonical {n : Nat} {s : State} (h : s.host.canonical = true) :
    (applyTrigger n s).host.canonical = true := setTrigger_canonical h

theorem applyTime_canonical {old s : State} (h : s.host.canonical = true) :
    (applyTime old s).host.canonical = true := by
  unfold applyTime; grind -ring -linarith [applyTrigger_canonical, State.set_host, foldl_canonical]

theorem setCapture_canonical {n : Nat} {x : CaptureFifo} {s : State} (h : s.host.canonical = true) :
    (setCapture n x s).host.canonical = true := by
  unfold setCapture; grind -ring -linarith [State.set_host]

theorem execCaptureEdge_canonical {n : Fin 4} {falling : Bool} {s : State} {t : State}
    (e : execCaptureEdge n falling s = .next t)
    (h : s.host.canonical = true) : t.host.canonical = true := by
  unfold execCaptureEdge at e; grind -ring -linarith [setCapture_canonical, State.bump_host, raise_canonical]

theorem readCapture_canonical {n : Nat} {s : State} (h : s.host.canonical = true) :
    (readCapture n s).2.host.canonical = true := by
  unfold readCapture; grind -ring -linarith [setCapture_canonical]

/-! ### The operations of Machine/Boundary -/

theorem ioamFills_canonical {port : Nat} {x : Frame} {t : Sending} {e : QEntry} {bs : List Byte} {s : State}
    (h : s.host.canonical = true) :
    (ioamFills port x t e bs s).2.host.canonical = true := by
  unfold ioamFills; grind -ring -linarith [State.bump_host]

theorem ferryTagOut_canonical {port : Nat} {x y : Frame} {s : State} (h : s.host.canonical = true) :
    (ferryTagOut port x y s).2.host.canonical = true := by
  unfold ferryTagOut; grind -ring -linarith [State.setLink_host]

theorem ptpFills_canonical {port : Nat} {y : Frame} {bs : List Byte} {s : State} (h : s.host.canonical = true) :
    (ptpFills port y bs s).2.host.canonical = true := by
  unfold ptpFills; grind -ring -linarith [State.bump_host]

theorem injectTimestamp_canonical {port : Nat} {y : Frame} {s : State} (h : s.host.canonical = true) :
    (injectTimestamp port y s).host.canonical = true := by
  unfold injectTimestamp; grind -ring -linarith [raise_canonical]

theorem passBoundary_canonical {port : Nat} {t : Sending} {e : QEntry} {x y : Frame} {s : State}
    (h : s.host.canonical = true) :
    (passBoundary port t e x y s).host.canonical = true := by
  unfold passBoundary
  grind -ring -linarith [ioamFills_canonical, ptpFills_canonical, ferryTagOut_canonical, injectTimestamp_canonical,
    State.setTmPort_canonical]

theorem execTxStartBoundary_canonical {port : Port} {s : State} {t : State} (e : execTxStartBoundary port s = .next t)
    (h : s.host.canonical = true) : t.host.canonical = true := by
  unfold execTxStartBoundary at e; grind -ring -linarith [State.setTmPort_canonical, passBoundary_canonical]

/-! ### The operations of Machine/Fabric -/

theorem receiveCtrl_canonical {port : Nat} {bs : List Byte} {s : State} (h : s.host.canonical = true) :
    (receiveCtrl port bs s).host.canonical = true := by
  unfold receiveCtrl; grind -ring -linarith [noteBytes_canonical]

theorem takeCtrl_canonical {port kind : Nat} {bs : List Byte} {s : State} (h : s.host.canonical = true) :
    (takeCtrl port kind bs s).2.host.canonical = true := by
  unfold takeCtrl; grind -ring -linarith [receiveCtrl_canonical, raise_canonical, State.bump_host]

theorem flood_canonical {kind : Nat} {body : List Byte} {except : Option Nat} {s : State}
    (h : s.host.canonical = true) :
    (flood kind body except s).host.canonical = true := by
  unfold flood; grind -ring -linarith [sendFabric_canonical, foldl_canonical]

theorem execHelloTx_canonical {port : FrontPort} {s : State} {t : State} (e : execHelloTx port s = .next t)
    (h : s.host.canonical = true) : t.host.canonical = true := by
  unfold execHelloTx at e; grind -ring -linarith [noteBytes_canonical, State.withFabric_host]

theorem lsaNeeded_canonical {s : State} (h : s.host.canonical = true) :
    (lsaNeeded s).host.canonical = true := by
  unfold lsaNeeded; grind -ring -linarith [State.withFabric_host]

theorem adjHello_canonical {p : Nat} {c : Ctrl} {valid mine : Bool} {peerPort : Nat} {s : State}
    (h : s.host.canonical = true) :
    (adjHello p c valid mine peerPort s).host.canonical = true := by
  unfold adjHello; grind -ring -linarith [State.set_host, lsaNeeded_canonical, raise_canonical]

theorem takeHello_canonical {p : Nat} {c : Ctrl} {s : State} (h : s.host.canonical = true) :
    (takeHello p c s).host.canonical = true := by
  unfold takeHello; grind -ring -linarith [State.withFabric_host, State.set_host, adjHello_canonical]

theorem execHelloRx_canonical {port : FrontPort} {frame : List Byte} {s : State} {t : State}
    (e : execHelloRx port frame s = .next t)
    (h : s.host.canonical = true) : t.host.canonical = true := by
  unfold execHelloRx at e; grind -ring -linarith [takeCtrl_canonical, takeHello_canonical]

theorem execAdjDead_canonical {port : FrontPort} {s : State} {t : State} (e : execAdjDead port s = .next t)
    (h : s.host.canonical = true) : t.host.canonical = true := by
  unfold execAdjDead at e; grind -ring -linarith [adjLeave_canonical]

theorem claimCandidate_canonical {id rejected : Nat} {s : State} (h : s.host.canonical = true) :
    (claimCandidate id rejected s).host.canonical = true := by
  unfold claimCandidate; grind -ring -linarith [State.withFabric_host, flood_canonical, State.set_host]

theorem rejectClaim_canonical {id : Nat} {s : State} (h : s.host.canonical = true) :
    (rejectClaim id s).host.canonical = true := by
  unfold rejectClaim; grind -ring -linarith [State.withFabric_host]

theorem execClaimRx_canonical {port : FrontPort} {frame : List Byte} {s : State} {t : State}
    (e : execClaimRx port frame s = .next t)
    (h : s.host.canonical = true) : t.host.canonical = true := by
  obtain rfl := Host.Outcome.next.inj e
  have taken := takeCtrl_canonical (port := port.val) (kind := 3) (bs := frame) h
  split
  · rename_i eq
    rw [eq] at taken
    exact taken
  · rename_i c u eq
    rw [eq] at taken
    have flooded (id : Nat) (u : State) (hu : u.host.canonical = true) :
        (if id = u.deviceId then flood 4 (claimBody id) none u else u).host.canonical = true := by
      split
      · exact flood_canonical hu
      · exact hu
    extract_lets id serial v w
    have hw : w.host.canonical = true := flooded _ _ (flood_canonical taken)
    clear_value w serial
    split
    · exact taken
    · split
      · exact rejectClaim_canonical hw
      · exact hw

theorem execDefendRx_canonical {port : FrontPort} {frame : List Byte} {s : State} {t : State}
    (e : execDefendRx port frame s = .next t)
    (h : s.host.canonical = true) : t.host.canonical = true := by
  unfold execDefendRx at e; grind -ring -linarith [takeCtrl_canonical, rejectClaim_canonical, flood_canonical]

theorem noteChange_canonical {s : State} (h : s.host.canonical = true) :
    (noteChange s).host.canonical = true := by
  unfold noteChange; grind -ring -linarith [State.withFabric_host]

theorem setActiveId_canonical {id : Nat} {s : State} (h : s.host.canonical = true) :
    (setActiveId id s).host.canonical = true := by
  unfold setActiveId
  grind -ring -linarith [State.set_host, flood_canonical, State.withFabric_host, noteChange_canonical,
    lsaNeeded_canonical]

theorem execClaimWaitEnd_canonical {s : State} {t : State} (e : execClaimWaitEnd s = .next t)
    (h : s.host.canonical = true) : t.host.canonical = true := by
  unfold execClaimWaitEnd at e
  grind -ring -linarith [claimCandidate_canonical, setActiveId_canonical, State.withFabric_host, raise_canonical]

theorem applyFabric_canonical {old s : State} (h : s.host.canonical = true) :
    (applyFabric old s).host.canonical = true := by
  unfold applyFabric; grind -ring -linarith [State.withFabric_host, setActiveId_canonical, claimCandidate_canonical]

theorem storeLsa_canonical {origin : Nat} {x : Lsa} {s : State} (h : s.host.canonical = true) :
    (storeLsa origin x s).host.canonical = true := by
  unfold storeLsa; grind -ring -linarith [State.withFabric_host, noteChange_canonical]

theorem execLsaOriginate_canonical {s : State} {t : State} (e : execLsaOriginate s = .next t)
    (h : s.host.canonical = true) : t.host.canonical = true := by
  unfold execLsaOriginate at e; grind -ring -linarith [State.withFabric_host, flood_canonical, storeLsa_canonical]

theorem idConflict_canonical {serial : Nat} {s : State} (h : s.host.canonical = true) :
    (idConflict serial s).host.canonical = true := by
  unfold idConflict
  split
  · exact h
  · apply raise_canonical
    split
    · exact State.set_canonical h
    · exact h

theorem acceptLsa_canonical {port : Nat} {body : List Byte} {s : State} (h : s.host.canonical = true) :
    (acceptLsa port body s).host.canonical = true := by
  unfold acceptLsa
  grind -ring -linarith [flood_canonical, noteChange_canonical, State.withFabric_host, storeLsa_canonical]

theorem takeLsa_canonical {port : Nat} {body : List Byte} {s : State} (h : s.host.canonical = true) :
    (takeLsa port body s).host.canonical = true := by
  unfold takeLsa
  extract_lets origin serial seq n fresh x u
  have conflict : u.host.canonical = true := idConflict_canonical h
  clear_value origin serial seq n fresh u
  split
  · exact h
  · split
    · split
      · exact lsaNeeded_canonical h
      · exact h
    · split
      · split
        · exact acceptLsa_canonical conflict
        · exact conflict
      · split
        · exact acceptLsa_canonical h
        · exact h

theorem execLsaRx_canonical {port : FrontPort} {frame : List Byte} {s : State} {t : State}
    (e : execLsaRx port frame s = .next t)
    (h : s.host.canonical = true) : t.host.canonical = true := by
  unfold execLsaRx at e; grind -ring -linarith [takeCtrl_canonical, takeLsa_canonical]

theorem execLsaAgeOut_canonical {origin : BitVec 16} {s : State} {t : State} (e : execLsaAgeOut origin s = .next t)
    (h : s.host.canonical = true) : t.host.canonical = true := by
  unfold execLsaAgeOut at e; grind -ring -linarith [noteChange_canonical, State.withFabric_host]

theorem computeRoutes_canonical {s : State} (h : s.host.canonical = true) :
    (computeRoutes s).host.canonical = true := by
  unfold computeRoutes
  grind -ring -linarith [State.withDict_host, State.set_host, State.bump_host, raise_canonical, foldl_canonical]

theorem execRouteCompute_canonical {s : State} {t : State} (e : execRouteCompute s = .next t)
    (h : s.host.canonical = true) : t.host.canonical = true := by
  unfold execRouteCompute at e; grind -ring -linarith [computeRoutes_canonical, State.withFabric_host]

theorem forwardAcp_canonical {port : Nat} {c : Ctrl} {bs : List Byte} {s : State} (h : s.host.canonical = true) :
    (forwardAcp port c bs s).host.canonical = true := by
  unfold forwardAcp; grind -ring -linarith [State.bump_host, sendFabric_canonical]

theorem acceptAcp_canonical {a : AcpPending} {table : NMap (Nat × Nat)} {s : State} (h : s.host.canonical = true) :
    (acceptAcp a table s).host.canonical = true := by
  unfold acceptAcp; grind -ring -linarith [State.withFabric_host, State.bump_host, sendAcpAnswer_canonical]

theorem sessionAcp_canonical {a : AcpPending} {s : State} (h : s.host.canonical = true) :
    (sessionAcp a s).host.canonical = true := by
  unfold sessionAcp
  repeat' split
  · exact acceptAcp_canonical h
  · exact h
  · exact acceptAcp_canonical h
  · exact sendAcpAnswer_canonical h

theorem ownAcp_canonical {port : Nat} {edge : Bool} {c : Ctrl} {s : State} (h : s.host.canonical = true) :
    (ownAcp port edge c s).host.canonical = true := by
  unfold ownAcp; grind -ring -linarith [sessionAcp_canonical, raise_canonical, State.bump_host]

theorem execAcpRequest_canonical {port : FrontPort} {frame : List Byte} {s : State} {t : State}
    (e : execAcpRequest port frame s = .next t)
    (h : s.host.canonical = true) : t.host.canonical = true := by
  unfold execAcpRequest at e; grind -ring -linarith [receiveCtrl_canonical, forwardAcp_canonical, ownAcp_canonical]

theorem endProxy_canonical {j state : Nat} {s : State} (h : s.host.canonical = true) :
    (endProxy j state s).host.canonical = true := by
  unfold endProxy; grind -ring -linarith [State.withFabric_host, State.set_host]

theorem execAcpResponse_canonical {port : FrontPort} {frame : List Byte} {s : State} {t : State}
    (e : execAcpResponse port frame s = .next t)
    (h : s.host.canonical = true) : t.host.canonical = true := by
  unfold execAcpResponse at e
  grind -ring -linarith [receiveCtrl_canonical, forwardAcp_canonical, endProxy_canonical, State.setDom_host]

theorem writeProxy_canonical {j : Nat} {value : List Byte} {s : State} (h : s.host.canonical = true) :
    (writeProxy j value s).2.host.canonical = true := by
  unfold writeProxy
  grind -ring -linarith [State.withFabric_host, State.drop_host, State.set_host, sendFabric_canonical]

theorem execAcpProxyTimeout_canonical {j : Fin 64} {s : State} {t : State} (e : execAcpProxyTimeout j s = .next t)
    (h : s.host.canonical = true) : t.host.canonical = true := by
  unfold execAcpProxyTimeout at e; grind -ring -linarith [endProxy_canonical]

theorem execAcpUnserved_canonical {index : Nat} {s : State} {t : State} (e : execAcpUnserved index s = .next t)
    (h : s.host.canonical = true) : t.host.canonical = true := by
  unfold execAcpUnserved at e; grind -ring -linarith [sendAcpAnswer_canonical, State.withFabric_host]

theorem applyKey_canonical {old : State} {k : Nat} {s : State} (h : s.host.canonical = true) :
    (applyKey old k s).host.canonical = true := by
  unfold applyKey; grind -ring -linarith [State.withFabric_host]

theorem applyKeys_canonical {old s : State} (h : s.host.canonical = true) :
    (applyKeys old s).host.canonical = true := by
  unfold applyKeys; grind -ring -linarith [applyKey_canonical, foldl_canonical]

theorem execAcpKeyGraceEnd_canonical {slot : Fin 256} {s : State} {t : State}
    (e : execAcpKeyGraceEnd slot s = .next t)
    (h : s.host.canonical = true) : t.host.canonical = true := by
  obtain rfl := Host.Outcome.next.inj e
  split
  · split
    · exact h
    · exact h
  · exact h

/-! ### The operations of Machine/Crossing -/

theorem deliver_canonical {ms : List CtrlMsg} {s : State} (h : s.host.canonical = true) :
    (deliver ms s).host.canonical = true := by
  unfold deliver; grind -ring -linarith [State.withCross_host]

theorem takeTable_canonical {d : Nat} {s : State} (h : s.host.canonical = true) :
    (takeTable d s).host.canonical = true := by
  unfold takeTable; grind -ring -linarith [State.setDir_host, State.set_host, raise_canonical]

theorem perturbDraw_canonical {j : Nat} {s : State} (h : s.host.canonical = true) :
    (perturbDraw j s).2.host.canonical = true := by
  unfold perturbDraw; grind -ring -linarith [State.set_host]

theorem slotDue_canonical {d : Nat} {s : State} (h : s.host.canonical = true) :
    (slotDue d s).2.host.canonical = true := by
  unfold slotDue; grind -ring -linarith [perturbDraw_canonical, State.setDir_host]

theorem sendSlot_canonical {d : Nat} {s : State} (h : s.host.canonical = true) :
    (sendSlot d s).host.canonical = true := by
  unfold sendSlot
  grind -ring -linarith [slotDue_canonical, takeTable_canonical, State.drop_host, State.setDir_host,
    State.bump_host, deliver_canonical, State.add_host]

theorem execSlotSend_canonical {d : Direction} {s : State} {t : State} (e : execSlotSend d s = .next t)
    (h : s.host.canonical = true) : t.host.canonical = true := by
  unfold execSlotSend at e; grind -ring -linarith [sendSlot_canonical]

theorem execSlotRetry_canonical {d : Direction} {s : State} {t : State} (e : execSlotRetry d s = .next t)
    (h : s.host.canonical = true) : t.host.canonical = true := by
  unfold execSlotRetry at e; grind -ring -linarith [State.setDir_host, State.bump_host, raise_canonical]

theorem applySlotTable_canonical {d : Nat} {s : State} (h : s.host.canonical = true) :
    (applySlotTable d s).host.canonical = true := by
  unfold applySlotTable; grind -ring -linarith [State.setDir_host]

theorem execFreeCountReport_canonical {s : State} {t : State} (e : execFreeCountReport s = .next t)
    (h : s.host.canonical = true) : t.host.canonical = true := by
  unfold execFreeCountReport at e; grind -ring -linarith [State.withCross_host, State.set_host, foldl_canonical]

theorem landCell_canonical {d : Nat} {c : Cell} {s : State} (h : s.host.canonical = true) :
    (landCell d c s).host.canonical = true := by
  unfold landCell
  grind -ring -linarith [State.setDir_host, noteRoom_canonical, State.setFrame_host, releaseOrigin_canonical,
    followHead_canonical]

theorem execCellLand_canonical {src dst : Pipe} {f : FrameId} {s : State} {t : State}
    (e : execCellLand src dst f s = .next t)
    (h : s.host.canonical = true) : t.host.canonical = true := by
  unfold execCellLand at e; grind -ring -linarith [State.setFrame_host, landCell_canonical]

theorem State.setContext_canonical {s : State} {k : Nat} {x : Context} (h : s.host.canonical = true) :
    (State.setContext s k x).host.canonical = true := by
  unfold State.setContext; grind -ring -linarith [State.withCross_host, State.set_host]

theorem setHold_canonical {deck n : Nat} {s : State} (h : s.host.canonical = true) :
    (setHold deck n s).host.canonical = true := by
  unfold setHold; grind -ring -linarith [State.set_host, State.withCross_host]

theorem releaseFrame_canonical {f : FrameId} {s : State} (h : s.host.canonical = true) :
    (releaseFrame f s).host.canonical = true := by
  unfold releaseFrame; grind -ring -linarith [setHold_canonical, State.setFrame_host]

theorem armContext_canonical {k : Nat} {s : State} (h : s.host.canonical = true) :
    (armContext k s).host.canonical = true := by
  unfold armContext; grind -ring -linarith [State.setContext_canonical]

theorem passHeld_canonical {k fuel : Nat} {s : State} (h : s.host.canonical = true) :
    (passHeld k fuel s).host.canonical = true := by
  induction fuel generalizing s with
  | zero => exact h
  | succ fuel ih => unfold passHeld; grind -ring -linarith [releaseFrame_canonical, State.setContext_canonical]

theorem advance_canonical {k : Nat} {s : State} (h : s.host.canonical = true) : (advance k s).host.canonical = true :=
  passHeld_canonical (State.setContext_canonical h)

theorem holdDrop_canonical {k : Nat} {st : Stamp} {f : FrameId} {s : State} (h : s.host.canonical = true) :
    (holdDrop k st f s).host.canonical = true := by
  unfold holdDrop
  grind -ring -linarith [State.setContext_canonical, finishFrame_canonical, State.bump_host, raise_canonical,
    State.withCross_host]

theorem reseqFrame_canonical {f : FrameId} {x : Frame} {st : Stamp} {s : State} (h : s.host.canonical = true) :
    (reseqFrame f x st s).host.canonical = true := by
  unfold reseqFrame
  grind -ring -linarith [raise_canonical, finishFrame_canonical, State.bump_host, armContext_canonical,
    advance_canonical, releaseFrame_canonical, State.setContext_canonical, setHold_canonical, State.setFrame_host,
    holdDrop_canonical]

theorem execReseqHead_canonical {f : FrameId} {s : State} {t : State} (e : execReseqHead f s = .next t)
    (h : s.host.canonical = true) : t.host.canonical = true := by
  unfold execReseqHead at e; grind -ring -linarith [reseqFrame_canonical]

theorem holeNotice_canonical {m : CtrlMsg} {s : State} (h : s.host.canonical = true) :
    (holeNotice m s).host.canonical = true := by
  unfold holeNotice
  grind -ring -linarith [State.bump_host, raise_canonical, armContext_canonical, advance_canonical,
    State.setContext_canonical]

theorem execHoleNotice_canonical {port : Port} {index : Nat} {s : State} {t : State}
    (e : execHoleNotice port index s = .next t)
    (h : s.host.canonical = true) : t.host.canonical = true := by
  unfold execHoleNotice at e; grind -ring -linarith [holeNotice_canonical, State.withCross_host]

theorem execReseqTimeout_canonical {port : Port} {redirect : Bool} {stampPipe : Pipe} {cls : Fin 16} {s : State}
    {t : State} (e : execReseqTimeout port redirect stampPipe cls s = .next t)
    (h : s.host.canonical = true) : t.host.canonical = true := by
  unfold execReseqTimeout at e
  grind -ring -linarith [raise_canonical, State.bump_host, armContext_canonical, advance_canonical]

theorem execCreditSend_canonical {port : Port} {redirect : Bool} {stampPipe : Pipe} {cls : Fin 16} {n : Fin 65}
    {s : State} {t : State} (e : execCreditSend port redirect stampPipe cls n s = .next t)
    (h : s.host.canonical = true) : t.host.canonical = true := by
  unfold execCreditSend at e; grind -ring -linarith [sendCtrl_canonical, State.setContext_canonical]

theorem openWindow_canonical {redirect : Bool} {pipe port cls fuel : Nat} {s : State} (h : s.host.canonical = true) :
    (openWindow redirect pipe port cls fuel s).host.canonical = true := by
  induction fuel generalizing s with
  | zero => exact h
  | succ fuel ih =>
    unfold openWindow; grind -ring -linarith [stampFrame_canonical, toEgress_canonical, toHome_canonical,
      State.withCross_host]

theorem execCredit_canonical {p : Pipe} {index : Nat} {s : State} {t : State} (e : execCredit p index s = .next t)
    (h : s.host.canonical = true) : t.host.canonical = true := by
  unfold execCredit at e; grind -ring -linarith [State.withCross_host, openWindow_canonical]

theorem countGroup_canonical {o : ObjRow} {g : Option Nat} {s : State} (h : s.host.canonical = true) :
    (countGroup o g s).host.canonical = true := by
  unfold countGroup; grind -ring -linarith [State.bump_host]

theorem sendCopy_canonical {o : FrameId} {x : Frame} {targets : List Nat} {d : Nat} {s : State}
    (h : s.host.canonical = true) :
    (sendCopy o x targets d s).host.canonical = true := by
  unfold sendCopy; grind -ring -linarith [State.setFrame_host, State.modFrame_canonical, crossTo_canonical]

theorem fanOut_canonical {f : FrameId} {s : State} (h : s.host.canonical = true) :
    (fanOut f s).host.canonical = true := by
  unfold fanOut
  grind -ring -linarith [State.bump_host, raise_canonical, State.withCross_host, endFrame_canonical,
    countGroup_canonical, State.setFrame_host, sendCopy_canonical, foldl_canonical]

theorem enqueuePointer_canonical {f : FrameId} {x : Frame} {port : Nat} {s : State} (h : s.host.canonical = true) :
    (enqueuePointer f x port s).host.canonical = true := by
  unfold enqueuePointer; grind -ring -linarith [enqueueTo_canonical, countGroup_canonical, State.modFrame_canonical]

theorem addResidue_canonical {f : FrameId} {x : Frame} {port : Nat} {s : State} (h : s.host.canonical = true) :
    (addResidue f x port s).host.canonical = true := by
  unfold addResidue
  grind -ring -linarith [countGroup_canonical, raise_canonical, State.setResidue_canonical,
    State.modFrame_canonical]

theorem execMcastCopyArrive_canonical {f : FrameId} {d : Deck} {s : State} {t : State}
    (e : execMcastCopyArrive f d s = .next t)
    (h : s.host.canonical = true) : t.host.canonical = true := by
  unfold execMcastCopyArrive at e
  grind -ring -linarith [State.setFrame_host, addResidue_canonical, enqueuePointer_canonical, finishFrame_canonical,
    foldl_canonical]

theorem execResidueServe_canonical {d : Deck} {index : Nat} {s : State} {t : State}
    (e : execResidueServe d index s = .next t)
    (h : s.host.canonical = true) : t.host.canonical = true := by
  unfold execResidueServe at e
  grind -ring -linarith [State.setResidue_canonical, dropPointer_canonical, enqueuePointer_canonical]

theorem execResidueAged_canonical {d : Deck} {index : Nat} {s : State} {t : State}
    (e : execResidueAged d index s = .next t)
    (h : s.host.canonical = true) : t.host.canonical = true := by
  unfold execResidueAged at e
  grind -ring -linarith [dropPointer_canonical, countGroup_canonical, State.setResidue_canonical]

theorem applyMcastGroup_canonical {g : Nat} {s : State} (h : s.host.canonical = true) :
    (applyMcastGroup g s).host.canonical = true := by
  unfold applyMcastGroup; grind -ring -linarith [State.withCross_host]

theorem drainContext_canonical {port k fuel : Nat} {s : State} (h : s.host.canonical = true) :
    (drainContext port k fuel s).host.canonical = true := by
  induction fuel generalizing s with
  | zero => exact h
  | succ fuel ih => unfold drainContext; grind -ring -linarith [State.add_host, releaseFrame_canonical,
    State.setContext_canonical]

theorem loseStreams_canonical {d : Nat} {s : State} (h : s.host.canonical = true) :
    (loseStreams d s).host.canonical = true := by
  unfold loseStreams
  dsimp only
  rw [State.withCross_host]
  refine foldl_canonical (fun t k ht => ?_) h
  grind -ring -linarith [drainContext_canonical, State.setContext_canonical]

/-! ### The operations of Machine/Tables -/

theorem State.setMac_canonical {s : State} {p i : Nat} {b : Option MacBerth} (h : s.host.canonical = true) :
    (State.setMac s p i b).host.canonical = true := by
  unfold State.setMac; grind -ring -linarith [State.set_host]

theorem learnCount_canonical {p : Nat} {b : MacBerth} {up : Bool} {s : State} (h : s.host.canonical = true) :
    (learnCount p b up s).host.canonical = true := by
  unfold learnCount; grind -ring -linarith [State.setS_host]

theorem learnReached_canonical {p port : Nat} {s : State} (h : s.host.canonical = true) :
    (learnReached p port s).host.canonical = true := by
  unfold learnReached; grind -ring -linarith [learnCount_canonical, raise_canonical]

theorem learnFound_canonical {p i port : Nat} {b : MacBerth} {s : State} (h : s.host.canonical = true) :
    (learnFound p i port b s).2.host.canonical = true := by
  unfold learnFound
  grind -ring -linarith [State.bump_host, State.setMac_canonical, learnCount_canonical, raise_canonical,
    learnReached_canonical]

theorem macLearn_canonical {p fid mac port : Nat} {s : State} (h : s.host.canonical = true) :
    (macLearn p fid mac port s).2.host.canonical = true := by
  unfold macLearn
  grind -ring -linarith [learnFound_canonical, learnReached_canonical, learnCount_canonical, State.setMac_canonical,
    State.bump_host, raise_canonical]

theorem queueLearn_canonical {p : Nat} {k : Nat × Nat × Nat} {s : State} (h : s.host.canonical = true) :
    (queueLearn p k s).host.canonical = true := by
  unfold queueLearn; grind -ring -linarith [State.bump_host, State.set_host]

theorem execHomeLearn_canonical {p : Pipe} {s : State} {t : State} (e : execHomeLearn p s = .next t)
    (h : s.host.canonical = true) : t.host.canonical = true := by
  unfold execHomeLearn at e; grind -ring -linarith [State.set_host, macLearn_canonical, State.bump_host]

theorem macRemove_canonical {p i : Nat} {b : MacBerth} {s : State} (h : s.host.canonical = true) :
    (macRemove p i b s).host.canonical = true := by
  unfold macRemove; grind -ring -linarith [learnCount_canonical, State.setMac_canonical]

theorem execFdbSweep_canonical {p : Pipe} {s : State} {t : State} (e : execFdbSweep p s = .next t)
    (h : s.host.canonical = true) : t.host.canonical = true := by
  unfold execFdbSweep at e
  grind -ring -linarith [State.set_host, macRemove_canonical, State.bump_host, foldl_canonical]

theorem applyFdb_canonical {p : Nat} {old : State} {s : State} (h : s.host.canonical = true) :
    (applyFdb p old s).host.canonical = true := by
  unfold applyFdb; grind -ring -linarith [State.set_host]

theorem moveBerth_canonical {p i : Nat} {s : State} (h : s.host.canonical = true) :
    (moveBerth p i s).2.host.canonical = true := by
  unfold moveBerth; grind -ring -linarith [State.setMac_canonical]

theorem moveAshore_canonical {p i : Nat} {s : State} (h : s.host.canonical = true) :
    (moveAshore p i s).2.host.canonical = true := by
  unfold moveAshore; grind -ring -linarith [State.setMac_canonical]

theorem settleRehash_canonical {p : Nat} {s : State} (h : s.host.canonical = true) :
    (settleRehash p s).host.canonical = true := by
  unfold settleRehash; grind -ring -linarith [raise_canonical, State.set_host]

theorem discardRemaining_canonical {p : Nat} {s : State} (h : s.host.canonical = true) :
    (discardRemaining p s).host.canonical = true := by
  unfold discardRemaining; grind -ring -linarith [macRemove_canonical, State.bump_host, foldl_canonical]

theorem rehashPass_canonical {p : Nat} {s : State} (h : s.host.canonical = true) :
    (rehashPass p s).host.canonical = true := by
  unfold rehashPass
  dsimp only
  generalize e : (List.foldl _ _ _ : Bool × State) = x
  have hx : x.2.host.canonical = true := by
    rw [← e]
    refine List.foldlRecOn (motive := fun a : Bool × State => a.2.host.canonical = true) _ _
      (List.foldlRecOn (motive := fun a : Bool × State => a.2.host.canonical = true) _ _ h ?_) ?_
    · intro a ha i _
      exact moveBerth_canonical ha
    · intro a ha i _
      exact moveAshore_canonical ha
  grind -ring -linarith [settleRehash_canonical, discardRemaining_canonical, raise_canonical, State.set_host]

theorem execRehashPass_canonical {p : Pipe} {s : State} {t : State} (e : execRehashPass p s = .next t)
    (h : s.host.canonical = true) : t.host.canonical = true := by
  unfold execRehashPass at e; grind -ring -linarith [rehashPass_canonical]

/-! ### The operations of Machine/ParseEnd -/

theorem bankDrain_canonical {p : Nat} {aft : Bool} {s : State} (h : s.host.canonical = true) :
    (bankDrain p aft s).host.canonical = true := by
  unfold bankDrain; grind -ring -linarith [raise_canonical, State.set_host]

theorem banksDrain_canonical {p : Nat} {s : State} (h : s.host.canonical = true) :
    (banksDrain p s).host.canonical = true := by
  unfold banksDrain; grind -ring -linarith [bankDrain_canonical]

theorem leaveEngine_canonical {e : Nat} {s : State} (h : s.host.canonical = true) :
    (leaveEngine e s).host.canonical = true := by
  unfold leaveEngine; grind -ring -linarith [State.withParse_host, banksDrain_canonical, State.bump_host]

theorem drawToken_canonical {k n : Nat} {s : State} (h : s.host.canonical = true) :
    (drawToken k n s).host.canonical = true := by
  unfold drawToken; grind -ring -linarith [State.withParse_host]

theorem changeBucket_canonical {k level depth : Nat} {s : State} (h : s.host.canonical = true) :
    (changeBucket k level depth s).host.canonical = true := by
  unfold changeBucket; grind -ring -linarith [State.withParse_host]

theorem applyPunt_canonical {p : Nat} {old s : State} (h : s.host.canonical = true) :
    (applyPunt p old s).host.canonical = true := by
  unfold applyPunt; grind -ring -linarith [changeBucket_canonical, foldl_canonical]

theorem settleCeiling_canonical {s : State} (h : s.host.canonical = true) :
    (settleCeiling s).host.canonical = true := by
  unfold settleCeiling; grind -ring -linarith [changeBucket_canonical, foldl_canonical]

theorem puntWrite_canonical {p reason : Nat} {x : Frame} {s : State} (h : s.host.canonical = true) :
    (puntWrite p reason x s).host.canonical = true := by
  unfold puntWrite; grind -ring -linarith [State.addS_host, produce_canonical, ringDropped_canonical, State.bump_host]

theorem policePunt_canonical {p reason : Nat} {x : Frame} {s : State} (h : s.host.canonical = true) :
    (policePunt p reason x s).host.canonical = true := by
  unfold policePunt
  grind -ring -linarith [State.addS_host, State.bump_host, drawToken_canonical, puntWrite_canonical]

theorem puntFrame_canonical {p reason : Nat} {f : FrameId} {s : State} (h : s.host.canonical = true) :
    (puntFrame p reason f s).host.canonical = true := by
  unfold puntFrame; grind -ring -linarith [State.setFrame_host, discardAt_canonical, policePunt_canonical]

theorem puntIngress_canonical {p reason : Nat} {f : FrameId} {s : State} (h : s.host.canonical = true) :
    (puntIngress p reason f s).host.canonical = true := by
  unfold puntIngress; grind -ring -linarith [puntFrame_canonical, State.modFrame_canonical]

theorem noteFail_canonical {p reason : Nat} {f : FrameId} {s : State} (h : s.host.canonical = true) :
    (noteFail p reason f s).host.canonical = true := by
  unfold noteFail; grind -ring -linarith [raise_canonical, State.bump_host]

theorem failFrame_canonical {p reason : Nat} {drop : Bool} {f : FrameId} {s : State} (h : s.host.canonical = true) :
    (failFrame p reason drop f s).host.canonical = true := by
  unfold failFrame
  grind -ring -linarith [State.drop_host, noteFail_canonical, endFrame_canonical, State.addS_host,
    puntIngress_canonical]

theorem orLimitDrop_canonical {x : Engine} {k : State → State} {s : State} (hk : (k s).host.canonical = true)
    (h : s.host.canonical = true) : (orLimitDrop x k s).host.canonical = true := by
  unfold orLimitDrop
  split
  · exact endFrame_canonical h
  · exact hk

theorem failParse_canonical {reason e : Nat} {s : State} (h : s.host.canonical = true) :
    (failParse reason e s).host.canonical = true := by
  unfold failParse
  grind -ring -linarith [State.modFrame_canonical, leaveEngine_canonical, endFrame_canonical, noteFail_canonical,
    State.bump_host, failFrame_canonical]

theorem anchorTest_canonical {hash index : Nat} {fromFerry : Bool} {s : State} (h : s.host.canonical = true) :
    (anchorTest hash index fromFerry s).2.host.canonical = true := by
  unfold anchorTest; grind -ring -linarith [State.bump_host, raise_canonical]

theorem sendParsed_canonical {ip : Nat} {f : FrameId} {x : Frame} {s : State} (h : s.host.canonical = true) :
    (sendParsed ip f x s).host.canonical = true := by
  unfold sendParsed
  grind -ring -linarith [State.setFrame_host, stampOrWait_canonical, endFrame_canonical, State.bump_host]

theorem chooseHome_canonical {ip : Nat} {f : FrameId} {x : Frame} {k : RawKey} {s : State}
    (h : s.host.canonical = true) :
    (chooseHome ip f x k s).host.canonical = true := by
  unfold chooseHome
  grind -ring -linarith [anchorTest_canonical, endFrame_canonical, sendParsed_canonical, State.bump_host]

theorem finishEnd_canonical {ip : Nat} {f : FrameId} {x : Frame} {s : State} (h : s.host.canonical = true) :
    (finishEnd ip f x s).host.canonical = true := by
  unfold finishEnd; grind -ring -linarith [sendParsed_canonical, chooseHome_canonical]

theorem endParse_canonical {e : Nat} {s : State} (h : s.host.canonical = true) :
    (endParse e s).host.canonical = true := by
  unfold endParse
  split
  · exact h
  · split
    · exact leaveEngine_canonical h
    · extract_lets f ip u tagHash h' x v received hops
      have hu : u.host.canonical = true := leaveEngine_canonical h
      clear_value u
      have hv : v.host.canonical = true := hu
      clear_value v x tagHash received hops
      split
      · exact endFrame_canonical hv
      · refine orLimitDrop_canonical ?_ hv
        extract_lets addr
        clear_value addr
        split
        · exact finishEnd_canonical hv
        · exact finishEnd_canonical hv
        · split
          · exact finishEnd_canonical hv
          · split
            · exact failFrame_canonical hv
            · exact finishEnd_canonical hv

theorem takeTail_canonical {f : FrameId} {check : Frame → List Byte → State → Bool × State} {s : State}
    (hc : ∀ x bs, (check x bs s).2.host.canonical = true) (h : s.host.canonical = true) : (takeTail f check
      s).host.canonical = true := by
  unfold takeTail
  grind -ring -linarith [tailKnown_canonical, puntFrame_canonical, State.setFrame_host, State.freeFrame_host]

theorem execFrameTailRx_canonical {f : FrameId} {fcs : Word32} {s : State} {t : State}
    (e : execFrameTailRx f fcs s = .next t)
    (h : s.host.canonical = true) : t.host.canonical = true := by
  unfold execFrameTailRx at e; grind -ring -linarith [takeTail_canonical, countTail_canonical, noteBytes_canonical]

theorem reenterTail_canonical {port : Nat} {x : Sending} {e : QEntry} {s : State} (h : s.host.canonical = true) :
    (reenterTail port x e s).host.canonical = true := by
  unfold reenterTail
  grind -ring -linarith [takeTail_canonical, State.bump_host, State.add_host, moreBytes_canonical, State.drop_host]

theorem execTxEnd_canonical {port : Port} {s : State} {t : State} (e : execTxEnd port s = .next t)
    (h : s.host.canonical = true) : t.host.canonical = true := by
  unfold execTxEnd at e
  grind -ring -linarith [reenterTail_canonical, pfcSend_canonical, dropPointer_canonical, endSending_canonical,
    countSent_canonical, State.bump_host, State.setLink_host, noteBytes_canonical]

/-! ### The operations of Machine/Parse -/

theorem countSlot_canonical {p : Nat} {k : Slot} {s : State} (h : s.host.canonical = true) :
    (countSlot p k s).host.canonical = true := by
  unfold countSlot; grind -ring -linarith [State.bump_host]

theorem spend_canonical {k : Slot} {e : Nat} {s : State} (h : s.host.canonical = true) :
    (spend k e s).host.canonical = true := by
  unfold spend; grind -ring -linarith [State.setEngine_host, countSlot_canonical]

theorem raiseTrap_canonical {cause detail e : Nat} {s : State} (h : s.host.canonical = true) :
    (raiseTrap cause detail e s).host.canonical = true := by
  unfold raiseTrap; grind -ring -linarith [failParse_canonical, spend_canonical, State.setEngine_host]

theorem noteWait_canonical {f p : Nat} {s : State} (h : s.host.canonical = true) :
    (noteWait f p s).host.canonical = true := by
  unfold noteWait; grind -ring -linarith [State.withParse_host, State.bump_host]

theorem execParseDispatch_canonical {f : FrameId} {e : EngineId} {s : State} {t : State}
    (e : execParseDispatch f e s = .next t)
    (h : s.host.canonical = true) : t.host.canonical = true := by
  unfold execParseDispatch at e
  grind -ring -linarith [State.withParse_host, State.setEngine_host, State.setFrame_host, noteWait_canonical]

theorem setCtl_canonical {k : Nat} {w : CtlWord} {s : State} (h : s.host.canonical = true) :
    (setCtl k w s).host.canonical = true := by
  unfold setCtl; grind -ring -linarith [State.withParse_host, State.set_host]

theorem fenceCluster_canonical {cl by_ addr : Nat} {s : State} (h : s.host.canonical = true) :
    (fenceCluster cl by_ addr s).host.canonical = true := by
  unfold fenceCluster; grind -ring -linarith [State.withParse_host, raise_canonical, State.set_host]

theorem unfenceCluster_canonical {cl : Nat} {s : State} (h : s.host.canonical = true) :
    (unfenceCluster cl s).host.canonical = true := by
  unfold unfenceCluster; grind -ring -linarith [State.withParse_host]

theorem noteCheck_canonical {cluster : Nat} {aft : Bool} {addr : Nat} {c : CtlWord} {s : State}
    (h : s.host.canonical = true) :
    (noteCheck cluster aft addr c s).host.canonical = true := by
  unfold noteCheck; grind -ring -linarith [setCtl_canonical, State.bump_host, raise_canonical, fenceCluster_canonical]

theorem settle_canonical {e : Nat} {x : Engine} {w : MicroWord} {d : Did} {s : State} (h : s.host.canonical = true) :
    (settle e x w d s).host.canonical = true := by
  unfold settle
  grind -ring -linarith [spend_canonical, State.setEngine_host, failParse_canonical, raiseTrap_canonical]

theorem openWord_canonical {mine : Nat → Bool} {e : Nat} {s t : State} (eq : openWord mine e s = .spent t)
    (h : s.host.canonical = true) : t.host.canonical = true := by
  unfold openWord at eq
  grind -ring -linarith [spend_canonical, raiseTrap_canonical, noteCheck_canonical, State.setEngine_host]

theorem runWord_canonical {op : Nat} {act : State → Engine → MicroWord → Did} {e : Nat} {s : State}
    (h : s.host.canonical = true) :
    (runWord op act e s).host.canonical = true := by
  unfold runWord
  split
  · exact h
  · exact openWord_canonical ‹_› h
  · exact settle_canonical h

theorem aluWord_canonical {op : Nat} {g : Engine → MicroWord → Nat × Bool} {e : Nat} {s : State}
    (h : s.host.canonical = true) :
    (aluWord op g e s).host.canonical = true := by
  unfold aluWord; grind -ring -linarith [runWord_canonical]

theorem execMicroNop_canonical {e : EngineId} {s : State} {t : State} (e : execMicroNop e s = .next t)
    (h : s.host.canonical = true) : t.host.canonical = true := by
  obtain rfl := Host.Outcome.next.inj e
  split
  · exact h
  · exact openWord_canonical ‹_› h
  · exact settle_canonical h

theorem execExtract_canonical {e : EngineId} {s : State} {t : State} (e : execExtract e s = .next t)
    (h : s.host.canonical = true) : t.host.canonical = true := by
  unfold execExtract at e; grind -ring -linarith [runWord_canonical]

theorem execMovi_canonical {e : EngineId} {s : State} {t : State} (e : execMovi e s = .next t)
    (h : s.host.canonical = true) : t.host.canonical = true := by
  unfold execMovi at e; grind -ring -linarith [aluWord_canonical]

theorem execMovhi_canonical {e : EngineId} {s : State} {t : State} (e : execMovhi e s = .next t)
    (h : s.host.canonical = true) : t.host.canonical = true := by
  unfold execMovhi at e; grind -ring -linarith [aluWord_canonical]

theorem execAdd_canonical {e : EngineId} {s : State} {t : State} (e : execAdd e s = .next t)
    (h : s.host.canonical = true) : t.host.canonical = true := by
  unfold execAdd at e; grind -ring -linarith [aluWord_canonical]

theorem execAddi_canonical {e : EngineId} {s : State} {t : State} (e : execAddi e s = .next t)
    (h : s.host.canonical = true) : t.host.canonical = true := by
  unfold execAddi at e; grind -ring -linarith [aluWord_canonical]

theorem execSub_canonical {e : EngineId} {s : State} {t : State} (e : execSub e s = .next t)
    (h : s.host.canonical = true) : t.host.canonical = true := by
  unfold execSub at e; grind -ring -linarith [aluWord_canonical]

theorem execAnd_canonical {e : EngineId} {s : State} {t : State} (e : execAnd e s = .next t)
    (h : s.host.canonical = true) : t.host.canonical = true := by
  unfold execAnd at e; grind -ring -linarith [aluWord_canonical]

theorem execOr_canonical {e : EngineId} {s : State} {t : State} (e : execOr e s = .next t)
    (h : s.host.canonical = true) : t.host.canonical = true := by
  unfold execOr at e; grind -ring -linarith [aluWord_canonical]

theorem execXor_canonical {e : EngineId} {s : State} {t : State} (e : execXor e s = .next t)
    (h : s.host.canonical = true) : t.host.canonical = true := by
  unfold execXor at e; grind -ring -linarith [aluWord_canonical]

theorem execAndi_canonical {e : EngineId} {s : State} {t : State} (e : execAndi e s = .next t)
    (h : s.host.canonical = true) : t.host.canonical = true := by
  unfold execAndi at e; grind -ring -linarith [aluWord_canonical]

theorem execOri_canonical {e : EngineId} {s : State} {t : State} (e : execOri e s = .next t)
    (h : s.host.canonical = true) : t.host.canonical = true := by
  unfold execOri at e; grind -ring -linarith [aluWord_canonical]

theorem execShl_canonical {e : EngineId} {s : State} {t : State} (e : execShl e s = .next t)
    (h : s.host.canonical = true) : t.host.canonical = true := by
  unfold execShl at e; grind -ring -linarith [aluWord_canonical]

theorem execShr_canonical {e : EngineId} {s : State} {t : State} (e : execShr e s = .next t)
    (h : s.host.canonical = true) : t.host.canonical = true := by
  unfold execShr at e; grind -ring -linarith [aluWord_canonical]

theorem execCmp_canonical {e : EngineId} {s : State} {t : State} (e : execCmp e s = .next t)
    (h : s.host.canonical = true) : t.host.canonical = true := by
  unfold execCmp at e; grind -ring -linarith [runWord_canonical]

theorem execCmpi_canonical {e : EngineId} {s : State} {t : State} (e : execCmpi e s = .next t)
    (h : s.host.canonical = true) : t.host.canonical = true := by
  unfold execCmpi at e; grind -ring -linarith [runWord_canonical]

theorem doLookup_canonical {p code : Nat} {x : Engine} {w : MicroWord} {s : State} (h : s.host.canonical = true) :
    (doLookup p code x w s).2.2.host.canonical = true := by
  unfold doLookup; grind -ring -linarith [macLearn_canonical, State.bump_host]

theorem execLookup_canonical {e : EngineId} {s : State} {t : State} (e : execLookup e s = .next t)
    (h : s.host.canonical = true) : t.host.canonical = true := by
  obtain rfl := Host.Outcome.next.inj e
  split
  · exact h
  · exact openWord_canonical ‹_› h
  · extract_lets code
    split
    · exact settle_canonical h
    · split
      · exact settle_canonical h
      · split
        · exact settle_canonical h
        · exact settle_canonical (doLookup_canonical h)

theorem execLookupResult_canonical {e : EngineId} {first : Fin 16} {s : State} {t : State}
    (e : execLookupResult e first s = .next t)
    (h : s.host.canonical = true) : t.host.canonical = true := by
  unfold execLookupResult at e; grind -ring -linarith [State.setEngine_host]

theorem execLookupTimeout_canonical {e : EngineId} {first : Fin 16} {s : State} {t : State}
    (e : execLookupTimeout e first s = .next t)
    (h : s.host.canonical = true) : t.host.canonical = true := by
  unfold execLookupTimeout at e; grind -ring -linarith [State.setEngine_host, failParse_canonical]

theorem execHashadd_canonical {e : EngineId} {s : State} {t : State} (e : execHashadd e s = .next t)
    (h : s.host.canonical = true) : t.host.canonical = true := by
  unfold execHashadd at e; grind -ring -linarith [runWord_canonical]

theorem execKeyL3_canonical {e : EngineId} {s : State} {t : State} (e : execKeyL3 e s = .next t)
    (h : s.host.canonical = true) : t.host.canonical = true := by
  unfold execKeyL3 at e; grind -ring -linarith [runWord_canonical]

theorem execKeyL4_canonical {e : EngineId} {s : State} {t : State} (e : execKeyL4 e s = .next t)
    (h : s.host.canonical = true) : t.host.canonical = true := by
  unfold execKeyL4 at e; grind -ring -linarith [runWord_canonical]

theorem execSetres_canonical {e : EngineId} {s : State} {t : State} (e : execSetres e s = .next t)
    (h : s.host.canonical = true) : t.host.canonical = true := by
  unfold execSetres at e; grind -ring -linarith [runWord_canonical]

theorem execMark_canonical {e : EngineId} {s : State} {t : State} (e : execMark e s = .next t)
    (h : s.host.canonical = true) : t.host.canonical = true := by
  unfold execMark at e; grind -ring -linarith [runWord_canonical]

theorem execRewrite_canonical {e : EngineId} {s : State} {t : State} (e : execRewrite e s = .next t)
    (h : s.host.canonical = true) : t.host.canonical = true := by
  unfold execRewrite at e; grind -ring -linarith [runWord_canonical]

theorem execPush_canonical {e : EngineId} {s : State} {t : State} (e : execPush e s = .next t)
    (h : s.host.canonical = true) : t.host.canonical = true := by
  unfold execPush at e; grind -ring -linarith [runWord_canonical]

theorem execPop_canonical {e : EngineId} {s : State} {t : State} (e : execPop e s = .next t)
    (h : s.host.canonical = true) : t.host.canonical = true := by
  unfold execPop at e; grind -ring -linarith [runWord_canonical]

theorem execCsum4_canonical {e : EngineId} {s : State} {t : State} (e : execCsum4 e s = .next t)
    (h : s.host.canonical = true) : t.host.canonical = true := by
  unfold execCsum4 at e; grind -ring -linarith [runWord_canonical]

theorem execCurset_canonical {e : EngineId} {s : State} {t : State} (e : execCurset e s = .next t)
    (h : s.host.canonical = true) : t.host.canonical = true := by
  unfold execCurset at e; grind -ring -linarith [runWord_canonical]

theorem execXwin_canonical {e : EngineId} {s : State} {t : State} (e : execXwin e s = .next t)
    (h : s.host.canonical = true) : t.host.canonical = true := by
  unfold execXwin at e; grind -ring -linarith [runWord_canonical]

theorem execRdsave_canonical {e : EngineId} {s : State} {t : State} (e : execRdsave e s = .next t)
    (h : s.host.canonical = true) : t.host.canonical = true := by
  unfold execRdsave at e; grind -ring -linarith [aluWord_canonical]

theorem execWrsave_canonical {e : EngineId} {s : State} {t : State} (e : execWrsave e s = .next t)
    (h : s.host.canonical = true) : t.host.canonical = true := by
  unfold execWrsave at e; grind -ring -linarith [runWord_canonical]

theorem endWord_canonical {op : Nat} {count : Nat → State → State}
    {act : Nat → Engine → State → State} {e : Nat}
    {s : State} (hc : ∀ n t, t.host.canonical = true → (count n t).host.canonical = true)
    (ha : ∀ n x t, t.host.canonical = true → (act n x t).host.canonical = true) (h : s.host.canonical = true) :
    (endWord op count act e s).host.canonical = true := by
  unfold endWord
  split
  · exact h
  · exact openWord_canonical ‹_› h
  · have counted (n : Nat) : (count n (leaveEngine e (spend .retired e s))).host.canonical = true :=
      hc n _ (leaveEngine_canonical (spend_canonical h))
    split
    · exact settle_canonical h
    · exact orLimitDrop_canonical (ha _ _ _ (counted _)) (counted _)

theorem execPunt_canonical {e : EngineId} {s : State} {t : State} (e : execPunt e s = .next t)
    (h : s.host.canonical = true) : t.host.canonical = true := by
  obtain rfl := Host.Outcome.next.inj e
  exact endWord_canonical (fun _ _ ht => ht)
    (fun _ _ _ ht => puntIngress_canonical (State.modFrame_canonical ht)) h

theorem execDrop_canonical {e : EngineId} {s : State} {t : State} (e : execDrop e s = .next t)
    (h : s.host.canonical = true) : t.host.canonical = true := by
  unfold execDrop at e; grind -ring -linarith [endWord_canonical, State.addS_host, endFrame_canonical]

theorem execBranch_canonical {e : EngineId} {s : State} {t : State} (e : execBranch e s = .next t)
    (h : s.host.canonical = true) : t.host.canonical = true := by
  unfold execBranch at e; grind -ring -linarith [State.setEngine_host]

theorem execCall_canonical {e : EngineId} {s : State} {t : State} (e : execCall e s = .next t)
    (h : s.host.canonical = true) : t.host.canonical = true := by
  unfold execCall at e; grind -ring -linarith [failParse_canonical, State.setEngine_host]

theorem execRet_canonical {e : EngineId} {s : State} {t : State} (e : execRet e s = .next t)
    (h : s.host.canonical = true) : t.host.canonical = true := by
  unfold execRet at e; grind -ring -linarith [failParse_canonical, spend_canonical, State.setEngine_host]

theorem execEnd_canonical {e : EngineId} {s : State} {t : State} (e : execEnd e s = .next t)
    (h : s.host.canonical = true) : t.host.canonical = true := by
  unfold execEnd at e; grind -ring -linarith [spend_canonical, endParse_canonical, State.setEngine_host]

theorem execTrapReturn_canonical {e : EngineId} {s : State} {t : State} (e : execTrapReturn e s = .next t)
    (h : s.host.canonical = true) : t.host.canonical = true := by
  unfold execTrapReturn at e; grind -ring -linarith [spend_canonical, State.setEngine_host, failParse_canonical]

theorem execRestart_canonical {e : EngineId} {s : State} {t : State} (e : execRestart e s = .next t)
    (h : s.host.canonical = true) : t.host.canonical = true := by
  unfold execRestart at e; grind -ring -linarith [State.setEngine_host, banksDrain_canonical, spend_canonical]

theorem execTrapEntry_canonical {e : EngineId} {s : State} {t : State} (e : execTrapEntry e s = .next t)
    (h : s.host.canonical = true) : t.host.canonical = true := by
  unfold execTrapEntry at e; grind -ring -linarith [State.setEngine_host, State.bump_host]

theorem execCycleLimit_canonical {e : EngineId} {s : State} {t : State} (e : execCycleLimit e s = .next t)
    (h : s.host.canonical = true) : t.host.canonical = true := by
  unfold execCycleLimit at e; grind -ring -linarith [failParse_canonical]

/-! ### The operations of Machine/Poison -/

theorem poisonBurst_canonical {k : Nat} {s : State} (h : s.host.canonical = true) :
    (poisonBurst k s).host.canonical = true := by
  unfold poisonBurst; grind -ring -linarith [State.withHbm_host, raise_canonical, State.set_host]

/-! ### The operations of Machine/Control -/

theorem setGolden_canonical {k : Nat} {w : CtlWord} {s : State} (h : s.host.canonical = true) :
    (setGolden k w s).host.canonical = true := by
  unfold setGolden; grind -ring -linarith [State.withParse_host, State.set_host]

theorem rebuildGolden_canonical {p : Nat} {aft : Bool} {addr : Nat} {s : State} (h : s.host.canonical = true) :
    (rebuildGolden p aft addr s).host.canonical = true := by
  unfold rebuildGolden
  grind -ring -linarith [clearPoison_canonical, setGolden_canonical, wantBurst_canonical, raise_canonical,
    State.withParse_host, State.set_host]

theorem readGolden_canonical {p : Nat} {aft : Bool} {addr : Nat} {s : State} (h : s.host.canonical = true) :
    (readGolden p aft addr s).host.canonical = true := by
  unfold readGolden; grind -ring -linarith [wantBurst_canonical, rebuildGolden_canonical]

theorem rewriteBank_canonical {cl : Nat} {aft : Bool} {s : State} (h : s.host.canonical = true) :
    (rewriteBank cl aft s).host.canonical = true := by
  unfold rewriteBank
  grind -ring -linarith [readGolden_canonical, wantBurst_canonical, State.withParse_host, foldl_canonical]

theorem rewriteCluster_canonical {cl : Nat} {s : State} (h : s.host.canonical = true) :
    (rewriteCluster cl s).host.canonical = true := by
  unfold rewriteCluster; grind -ring -linarith [rewriteBank_canonical]

theorem execClusterRestored_canonical {cl : ClusterId} {s : State} {t : State}
    (e : execClusterRestored cl s = .next t)
    (h : s.host.canonical = true) : t.host.canonical = true := by
  unfold execClusterRestored at e
  grind -ring -linarith [rewriteCluster_canonical, State.withParse_host, raise_canonical, State.set_host]

theorem execControlStoreRepair_canonical {cl : ClusterId} {aft : Bool} {addr : BitVec 13} {s : State} {t : State}
    (e : execControlStoreRepair cl aft addr s = .next t)
    (h : s.host.canonical = true) : t.host.canonical = true := by
  unfold execControlStoreRepair at e
  grind -ring -linarith [setCtl_canonical, readGolden_canonical, State.withParse_host]

theorem scrubWord_canonical {p : Nat} {aft : Bool} {addr cl : Nat} {s : State} (h : s.host.canonical = true) :
    (scrubWord p aft addr cl s).host.canonical = true := by
  unfold scrubWord; grind -ring -linarith [setCtl_canonical, State.bump_host]

theorem scrubBank_canonical {p : Nat} {aft : Bool} {s : State} (h : s.host.canonical = true) :
    (scrubBank p aft s).host.canonical = true := by
  unfold scrubBank
  grind -ring -linarith [wantBurst_canonical, rebuildGolden_canonical, scrubWord_canonical, foldl_canonical]

theorem execScrubPass_canonical {p : Pipe} {s : State} {t : State} (e : execScrubPass p s = .next t)
    (h : s.host.canonical = true) : t.host.canonical = true := by
  unfold execScrubPass at e; grind -ring -linarith [scrubBank_canonical, State.withParse_host]

theorem refuseLoad_canonical {v : Nat} {s : State} (h : s.host.canonical = true) :
    (refuseLoad v s).host.canonical = true := by
  unfold refuseLoad; grind -ring -linarith [State.setBollard_canonical, foldl_canonical]

theorem ucodeLoad_canonical {p v : Nat} {s : State} (h : s.host.canonical = true) :
    (ucodeLoad p v s).2.host.canonical = true := by
  unfold ucodeLoad
  grind -ring -linarith [refuseLoad_canonical, State.withParse_host, quayAsk_canonical, State.set_host]

theorem writeBank_canonical {p : Nat} {aft : Bool} {ws : List CtlWord} {s : State} (h : s.host.canonical = true) :
    (writeBank p aft ws s).host.canonical = true := by
  unfold writeBank; grind -ring -linarith [clearRange_canonical, State.withParse_host, foldl_canonical]

theorem execUcodeLoaded_canonical {p : Pipe} {readBackFails : List ClusterId} {s : State} {t : State}
    (e : execUcodeLoaded p readBackFails s = .next t)
    (h : s.host.canonical = true) : t.host.canonical = true := by
  obtain rfl := Host.Outcome.next.inj e
  split
  · exact h
  · split
    · exact h
    · rename_i j _ _
      obtain ⟨range, hr⟩ : ∃ range, range = j.first * 2 ^ 32 + j.bytes := ⟨_, rfl⟩
      rw [← hr]
      extract_lets v b version x u refuse bad golden
      have hu : u.host.canonical = true := passBack_canonical h
      have refused (step : Nat) (w : State) (hw : w.host.canonical = true) : (refuse step w).host.canonical = true :=
        raise_canonical hw
      clear_value u refuse
      split
      · exact refused _ _ hu
      · have written (ws : List CtlWord) (j : UcodeJob) : (wantBurst .dma true p.val (goldenOffset j.aft 0)
            (writeBank p.val j.aft ws u) 4096).host.canonical = true := wantBurst_canonical (writeBank_canonical hu)
        extract_lets w
        have hw : w.host.canonical = true := written _ _
        clear_value w
        split
        · exact foldl_canonical (fun _ _ ht => fenceCluster_canonical ht) (refused _ _ hw)
        · exact raise_canonical hw

theorem applyParseBank_canonical {p : Nat} {old : State} {s : State} (h : s.host.canonical = true) :
    (applyParseBank p old s).host.canonical = true := by
  unfold applyParseBank; grind -ring -linarith [State.set_host, banksDrain_canonical, State.withParse_host]

/-! ### The operations of Machine/Hbm -/

theorem issueBurst_canonical {c : Nat} {i : Nat} {q : HbmReq} {owner : Requester} {n limit : Nat} {s : State}
    (h : s.host.canonical = true) :
    (issueBurst c i q owner n limit s).host.canonical = true := by
  unfold issueBurst; grind -ring -linarith [State.bump_host, setPc_host, State.drop_host]

theorem serve_canonical {c : Nat} {s : State} (h : s.host.canonical = true) :
    (serve c s).host.canonical = true := by
  unfold serve; grind -ring -linarith [issueBurst_canonical, setPc_host]

theorem enterOrder_canonical {c : Nat} {q : HbmReq} {s : State} (h : s.host.canonical = true) :
    (enterOrder c q s).host.canonical = true := by
  unfold enterOrder; grind -ring -linarith [setPc_host, State.bump_host]

theorem queueBurst_canonical {c : Nat} {q : HbmReq} {s : State} (h : s.host.canonical = true) :
    (queueBurst c q s).host.canonical = true := by
  unfold queueBurst; grind -ring -linarith [enterOrder_canonical, setPc_host]

theorem setOutstanding_canonical {p n : Nat} {up : Bool} {s : State} (h : s.host.canonical = true) :
    (setOutstanding p n up s).host.canonical = true := by
  unfold setOutstanding
  grind -ring -linarith [State.set_host, State.withHbm_host, raise_canonical, State.bump_host, State.add_host]

theorem refresh_canonical {c : Nat} {s : State} (h : s.host.canonical = true) :
    (refresh c s).host.canonical = true := by
  unfold refresh; grind -ring -linarith [setPc_host, State.bump_host]

theorem payOwed_canonical {c : Nat} {s : State} (h : s.host.canonical = true) :
    (payOwed c s).host.canonical = true := by
  unfold payOwed; grind -ring -linarith [refresh_canonical, State.drop_host]

theorem forceRefresh_canonical {c : Nat} {s : State} (h : s.host.canonical = true) :
    (forceRefresh c s).host.canonical = true := by
  unfold forceRefresh; grind -ring -linarith [refresh_canonical, setPc_host, State.drop_host, State.bump_host]

theorem dueRefresh_canonical {c : Nat} {s : State} (h : s.host.canonical = true) :
    (dueRefresh c s).host.canonical = true := by
  unfold dueRefresh; grind -ring -linarith [setPc_host, forceRefresh_canonical, payOwed_canonical, State.bump_host]

theorem execRefreshDue_canonical {pc : Pc} {s : State} {t : State} (e : execRefreshDue pc s = .next t)
    (h : s.host.canonical = true) : t.host.canonical = true := by
  unfold execRefreshDue at e; grind -ring -linarith [dueRefresh_canonical]

theorem orderPayments_canonical {d : Nat} {s : State} (h : s.host.canonical = true) :
    (orderPayments d s).2.host.canonical = true := by
  unfold orderPayments
  refine List.foldlRecOn (motive := fun a : Nat × State => a.2.host.canonical = true) _ _ h ?_
  intro a ha i _
  dsimp only
  split
  · exact ha
  · exact forceRefresh_canonical ha

theorem readTemp_canonical {d : Nat} {celsius : Int} {s : State} (h : s.host.canonical = true) :
    (readTemp d celsius s).host.canonical = true := by
  unfold readTemp
  grind -ring -linarith [State.withHbm_host, State.set_host, orderPayments_canonical, raise_canonical]

theorem execHbmTempRead_canonical {d : Deck} {celsius : Int} {s : State} {t : State}
    (e : execHbmTempRead d celsius s = .next t)
    (h : s.host.canonical = true) : t.host.canonical = true := by
  unfold execHbmTempRead at e; grind -ring -linarith [readTemp_canonical]

theorem startSpare_canonical {c cause : Nat} {s : State} (h : s.host.canonical = true) :
    (startSpare c cause s).host.canonical = true := by
  unfold startSpare; grind -ring -linarith [raise_canonical, State.set_host, setPc_host]

theorem settleCopies_canonical {d : Nat} {s : State} (h : s.host.canonical = true) :
    (settleCopies d s).host.canonical = true := by
  unfold settleCopies; grind -ring -linarith [setPc_host, foldl_canonical]

theorem resumeCopies_canonical {s : State} (h : s.host.canonical = true) :
    (resumeCopies s).host.canonical = true := by
  unfold resumeCopies; grind -ring -linarith [setPc_host, foldl_canonical]

theorem execSpareDone_canonical {pc : Pc} {s : State} {t : State} (e : execSpareDone pc s = .next t)
    (h : s.host.canonical = true) : t.host.canonical = true := by
  unfold execSpareDone at e; grind -ring -linarith [setPc_host, State.set_host, raise_canonical, State.add_host]

theorem writeFix_canonical {c burst : Nat} {s : State} (h : s.host.canonical = true) :
    (writeFix c burst s).host.canonical = true := by
  unfold writeFix; grind -ring -linarith [queueBurst_canonical, setPc_host]

theorem retryFixes_canonical {c : Nat} {s : State} (h : s.host.canonical = true) :
    (retryFixes c s).host.canonical = true := by
  unfold retryFixes; grind -ring -linarith [writeFix_canonical, setPc_host, foldl_canonical]

theorem cancelFix_canonical {c burst : Nat} {s : State} (h : s.host.canonical = true) :
    (cancelFix c burst s).host.canonical = true := by
  unfold cancelFix; grind -ring -linarith [setPc_host]

theorem correctedRead_canonical {c : Nat} {r : Requester} {burst : Nat} {s : State} (h : s.host.canonical = true) :
    (correctedRead c r burst s).host.canonical = true := by
  unfold correctedRead
  grind -ring -linarith [raise_canonical, State.bump_host, writeFix_canonical, setPc_host, startSpare_canonical]

theorem poisonGolden_canonical {p off : Nat} {scrub : Bool} {s : State} (h : s.host.canonical = true) :
    (poisonGolden p off scrub s).host.canonical = true := by
  unfold poisonGolden; grind -ring -linarith [setGolden_canonical, rebuildGolden_canonical, foldl_canonical]

theorem poisonedRead_canonical {c : Nat} {r : Requester} {burst : Nat} {s : State} (h : s.host.canonical = true) :
    (poisonedRead c r burst s).host.canonical = true := by
  unfold poisonedRead
  grind -ring -linarith [raise_canonical, State.bump_host, poisonBurst_canonical, poisonGolden_canonical,
    startSpare_canonical, setPc_host]

theorem checkRead_canonical {c : Nat} {r : Requester} {burst : Nat} {ecc : EccResult} {s : State}
    (h : s.host.canonical = true) :
    (checkRead c r burst ecc s).host.canonical = true := by
  unfold checkRead; grind -ring -linarith [correctedRead_canonical, poisonedRead_canonical]

theorem acceptBurst_canonical {c : Nat} {q : HbmReq} {s : State} (h : s.host.canonical = true) :
    (acceptBurst c q s).host.canonical = true := by
  unfold acceptBurst
  grind -ring -linarith [queueBurst_canonical, cancelFix_canonical, serve_canonical, setOutstanding_canonical]

theorem execHbmRequest_canonical {pc : Pc} {r : Requester} {write : Bool} {burst : BitVec 28} {s : State}
    {t : State} (e : execHbmRequest pc r write burst s = .next t)
    (h : s.host.canonical = true) : t.host.canonical = true := by
  unfold execHbmRequest at e; grind -ring -linarith [askBurst_host, acceptBurst_canonical]

theorem takeAsk_canonical {b : BurstAsk} {s : State} (h : s.host.canonical = true) :
    (takeAsk b s).2.host.canonical = true := by
  unfold takeAsk; grind -ring -linarith [acceptBurst_canonical]

theorem takeAsks_canonical {s : State} (h : s.host.canonical = true) :
    (takeAsks s).host.canonical = true := by
  unfold takeAsks; grind -ring -linarith [takeAsk_canonical, State.withHbm_host, foldl_canonical]

theorem finishBurst_canonical {c : Nat} {q : HbmReq} {ecc : EccResult} {s : State} (h : s.host.canonical = true) :
    (finishBurst c q ecc s).host.canonical = true := by
  unfold finishBurst
  grind -ring -linarith [State.bump_host, clearBurst_canonical, checkRead_canonical, setOutstanding_canonical]

theorem execBurstComplete_canonical {pc : Pc} {ecc : EccResult} {s : State} {t : State}
    (e : execBurstComplete pc ecc s = .next t)
    (h : s.host.canonical = true) : t.host.canonical = true := by
  unfold execBurstComplete at e
  grind -ring -linarith [retryFixes_canonical, finishBurst_canonical, setPc_host, serve_canonical,
    payOwed_canonical, forceRefresh_canonical]

theorem finishWhere_canonical {c : Nat} {pick : HbmReq → Bool} {s : State} (h : s.host.canonical = true) :
    (finishWhere c pick s).host.canonical = true := by
  unfold finishWhere; grind -ring -linarith [finishBurst_canonical, setPc_host, foldl_canonical]

theorem finishAsk_canonical {b : BurstAsk} {s : State} (h : s.host.canonical = true) :
    (finishAsk b s).host.canonical = true := by
  unfold finishAsk; grind -ring -linarith [State.bump_host, clearBurst_canonical, foldl_canonical]

theorem returnReads_canonical {p : Nat} {f : FrameId} {s : State} (h : s.host.canonical = true) :
    (returnReads p f s).host.canonical = true := by
  unfold returnReads
  grind -ring -linarith [State.withHbm_host, finishWhere_canonical, finishAsk_canonical, foldl_canonical]

theorem finishAll_canonical {s : State} (h : s.host.canonical = true) :
    (finishAll s).host.canonical = true := by
  unfold finishAll
  grind -ring -linarith [finishAsk_canonical, State.withHbm_host, finishWhere_canonical, foldl_canonical]

theorem hbmTick_canonical {s : State} (h : s.host.canonical = true) :
    (hbmTick s).host.canonical = true := by
  unfold hbmTick
  grind -ring -linarith [takeAsks_canonical, serve_canonical, payOwed_canonical, forceRefresh_canonical,
    foldl_canonical]

theorem execWriteDrainTimeout_canonical {pc : Pc} {s : State} {t : State} (e : execWriteDrainTimeout pc s = .next t)
    (h : s.host.canonical = true) : t.host.canonical = true := by
  unfold execWriteDrainTimeout at e; grind -ring -linarith [serve_canonical]

theorem execPatrolScrub_canonical {d : Deck} {ecc : EccResult} {s : State} {t : State}
    (e : execPatrolScrub d ecc s = .next t)
    (h : s.host.canonical = true) : t.host.canonical = true := by
  unfold execPatrolScrub at e; grind -ring -linarith [State.withHbm_host, acceptBurst_canonical, State.set_host]

theorem State.startTrain_canonical {s t : State} {c : Nat} (e : s.startTrain c = some t)
    (h : s.host.canonical = true) :
    t.host.canonical = true := by
  unfold State.startTrain at e
  dsimp only at e
  split at e
  · cases e
  · split at e
    · obtain rfl := Option.some.inj e
      exact h
    · split at e
      · obtain rfl := Option.some.inj e
        exact h
      · cases e

theorem endTrain_canonical {c : Nat} {s : State} (h : s.host.canonical = true) :
    (endTrain c s).host.canonical = true := by
  unfold endTrain; grind -ring -linarith [State.withHbm_host, setPc_host, State.bump_host]

theorem trainStep_canonical {c : Nat} {failedLane : Option Nat} {left : Nat} {s : State}
    (h : s.host.canonical = true) :
    (trainStep c failedLane left s).host.canonical = true := by
  unfold trainStep
  grind -ring -linarith [setPc_host, startSpare_canonical, endTrain_canonical, raise_canonical, State.bump_host]

theorem execRetrainStep_canonical {pc : Pc} {failedLane : Option (BitVec 8)} {redundantLeft : Nat} {s : State}
    {t : State} (e : execRetrainStep pc failedLane redundantLeft s = .next t)
    (h : s.host.canonical = true) : t.host.canonical = true := by
  unfold execRetrainStep at e; grind -ring -linarith [trainStep_canonical, State.startTrain_canonical]

theorem enterSelfRefresh_canonical {s : State} (h : s.host.canonical = true) :
    (enterSelfRefresh s).host.canonical = true := by
  unfold enterSelfRefresh
  grind -ring -linarith [settleCopies_canonical, finishAll_canonical, State.add_host, State.set_host,
    State.withHbm_host, foldl_canonical]

theorem exitSelfRefresh_canonical {s : State} (h : s.host.canonical = true) :
    (exitSelfRefresh s).host.canonical = true := by
  unfold exitSelfRefresh; grind -ring -linarith [resumeCopies_canonical, State.withHbm_host]

/-- A new map order leaves the bytes of its stack undefined (R384). -/
theorem applyHbmMap_canonical {old : State} {d : Nat} {s : State} (h : s.host.canonical = true) :
    (applyHbmMap old d s).host.canonical = true := memoriesCanonical_applyHbmMap d h

/-! ### The operations of Machine/Host -/

theorem mbIgnore_canonical {slot what : Nat} {s : State} (h : s.host.canonical = true) :
    (mbIgnore slot what s).host.canonical = true := raise_canonical h

theorem mbWriteArea_canonical {k off : Nat} {bs : List Byte} {s : State} (h : s.host.canonical = true) :
    (mbWriteArea k off bs s).host.canonical = true := by
  unfold mbWriteArea
  split
  · exact h
  · exact h

theorem mbSubmit_canonical {k : Nat} {s : State} (h : s.host.canonical = true) :
    (mbSubmit k s).host.canonical = true := h

theorem mbDoorbell_canonical {v : Nat} {s : State} (h : s.host.canonical = true) :
    (mbDoorbell v s).host.canonical = true := by
  unfold mbDoorbell; grind -ring -linarith [mbSubmit_canonical, mbIgnore_canonical]

theorem execMbDoorbell_canonical {value : Word32} {area : List Byte} {s : State} {t : State}
    (e : execMbDoorbell value area s = .next t)
    (h : s.host.canonical = true) : t.host.canonical = true := by
  unfold execMbDoorbell at e; grind -ring -linarith [mbDoorbell_canonical, mbWriteArea_canonical]

theorem mbRelease_canonical {v : Nat} {s : State} (h : s.host.canonical = true) :
    (mbRelease v s).host.canonical = true := by
  unfold mbRelease; grind -ring -linarith [State.setSlot_canonical, mbIgnore_canonical]

theorem execMbRelease_canonical {value : Word32} {s : State} {t : State} (e : execMbRelease value s = .next t)
    (h : s.host.canonical = true) : t.host.canonical = true := by
  unfold execMbRelease at e; grind -ring -linarith [mbRelease_canonical]

theorem mbFinish_canonical {k : Nat} {r : Response} {s : State} (h : s.host.canonical = true) :
    (mbFinish k r s).host.canonical = true := signalVector_canonical h

theorem execMbResponseReady_canonical {slot : Fin 16} {s : State} {t : State}
    (e : execMbResponseReady slot s = .next t)
    (h : s.host.canonical = true) : t.host.canonical = true := by
  unfold execMbResponseReady at e; grind -ring -linarith [answer_canonical, mbFinish_canonical]

theorem orphanUnserved_canonical {k : Nat} {s : State} (h : s.host.canonical = true) :
    (orphanUnserved k s).host.canonical = true := by
  unfold orphanUnserved
  split
  · exact raise_canonical h
  · exact h

theorem execMailboxUnserved_canonical {slot : Fin 16} {s : State} {t : State}
    (e : execMailboxUnserved slot s = .next t)
    (h : s.host.canonical = true) : t.host.canonical = true := by
  unfold execMailboxUnserved at e
  grind -ring -linarith [answer_canonical, raise_canonical, mbFinish_canonical, orphanUnserved_canonical]

theorem twAccept_canonical {q : Request} {s : State} (h : s.host.canonical = true) :
    (twAccept q s).host.canonical = true := by
  unfold twAccept; grind -ring -linarith [State.withTw_host, answer_canonical]

theorem execTwoWireRequest_canonical {bytes : List Byte} {s : State} {t : State}
    (e : execTwoWireRequest bytes s = .next t)
    (h : s.host.canonical = true) : t.host.canonical = true := by
  unfold execTwoWireRequest at e
  grind -ring -linarith [raise_canonical, State.withTw_host, State.drop_host, twAccept_canonical]

theorem execTwoWireResponse_canonical {s : State} {t : State} (e : execTwoWireResponse s = .next t)
    (h : s.host.canonical = true) : t.host.canonical = true := by
  unfold execTwoWireResponse at e; grind -ring -linarith [State.withTw_host]

theorem execTwoWireResponseReady_canonical {s : State} {t : State} (e : execTwoWireResponseReady s = .next t)
    (h : s.host.canonical = true) : t.host.canonical = true := by
  unfold execTwoWireResponseReady at e; grind -ring -linarith [answer_canonical, State.withTw_host]

theorem execTwoWireUnserved_canonical {s : State} {t : State} (e : execTwoWireUnserved s = .next t)
    (h : s.host.canonical = true) : t.host.canonical = true := by
  unfold execTwoWireUnserved at e; grind -ring -linarith [answer_canonical, State.withTw_host]

theorem execSclStuckTimeout_canonical {s : State} {t : State} (e : execSclStuckTimeout s = .next t)
    (h : s.host.canonical = true) : t.host.canonical = true := by
  unfold execSclStuckTimeout at e; grind -ring -linarith [State.withTw_host]

theorem execAlertResponseRead_canonical {s : State} {t : State} (e : execAlertResponseRead s = .next t)
    (h : s.host.canonical = true) : t.host.canonical = true := by
  unfold execAlertResponseRead at e; grind -ring -linarith [State.draw_canonical, State.withTw_host]

theorem endpointReset_canonical {s : State} (h : s.host.canonical = true) :
    (endpointReset s).host.canonical = true := by
  unfold endpointReset
  exact dropReplies_canonical h

theorem loseLink_canonical {s : State} (h : s.host.canonical = true) : (loseLink s).host.canonical = true :=
  endpointReset_canonical h

theorem execPcieReset_canonical {kind : PcieResetKind} {s : State} {t : State} (e : execPcieReset kind s = .next t)
    (h : s.host.canonical = true) : t.host.canonical = true := by
  unfold execPcieReset at e; grind -ring -linarith [loseLink_canonical, endpointReset_canonical]

theorem ringsResume_canonical {s : State} (h : s.host.canonical = true) :
    (ringsResume s).host.canonical = true := by
  unfold ringsResume; grind -ring -linarith [ringSpaceReturned_canonical, foldl_canonical]

theorem trainLink_canonical {s : State} (h : s.host.canonical = true) : (trainLink s).host.canonical = true := h

theorem linkReturns_canonical {s : State} (h : s.host.canonical = true) : (linkReturns s).host.canonical = true := by
  unfold linkReturns
  apply ringsResume_canonical
  split
  · exact raise_canonical h
  · exact h

theorem execPcieLinkDown_canonical {s : State} {t : State} (e : execPcieLinkDown s = .next t)
    (h : s.host.canonical = true) : t.host.canonical = true := by
  unfold execPcieLinkDown at e; grind -ring -linarith [linkReturns_canonical]

theorem linkMayReturn_canonical {s : State} (h : s.host.canonical = true) :
    (linkMayReturn s).host.canonical = true := by
  unfold linkMayReturn; grind -ring -linarith [linkReturns_canonical]

theorem execPciePerst_canonical {high : Bool} {s : State} {t : State} (e : execPciePerst high s = .next t)
    (h : s.host.canonical = true) : t.host.canonical = true := by
  obtain rfl := Host.Outcome.next.inj e
  split
  · exact linkMayReturn_canonical h
  · exact loseLink_canonical h

theorem clearCauses_canonical {mask : Nat} {s : State} (h : s.host.canonical = true) :
    (clearCauses mask s).host.canonical = true := h

theorem execVectorCauseClear_canonical {upper : Bool} {value : Word32} {s : State} {t : State}
    (e : execVectorCauseClear upper value s = .next t)
    (h : s.host.canonical = true) : t.host.canonical = true := by
  unfold execVectorCauseClear at e; grind -ring -linarith [clearCauses_canonical]

theorem sendPending_canonical {v : Nat} {s : State} (h : s.host.canonical = true) :
    (sendPending v s).host.canonical = true := by
  unfold sendPending
  dsimp only
  split
  · exact h
  · exact h

theorem maskVector_canonical {v : Nat} {masked : Bool} {s : State} (h : s.host.canonical = true) :
    (maskVector v masked s).host.canonical = true := sendPending_canonical h

theorem controlMsix_canonical {enable mask : Bool} {s : State} (h : s.host.canonical = true) :
    (controlMsix enable mask s).host.canonical = true :=
  foldl_canonical (fun _ _ ht => sendPending_canonical ht) h

theorem execMsixUnmask_canonical {v : Fin 64} {s : State} {t : State} (e : execMsixUnmask v s = .next t)
    (h : s.host.canonical = true) : t.host.canonical = true := by
  unfold execMsixUnmask at e; grind -ring -linarith [maskVector_canonical]

theorem rawSelect_canonical {v : Nat} {s : State} (h : s.host.canonical = true) :
    (rawSelect v s).host.canonical = true := h

theorem rawOpen_canonical {v : Nat} {s : State} (h : s.host.canonical = true) :
    (rawOpen v s).host.canonical = true := by
  unfold rawOpen
  dsimp only
  split
  · exact raise_canonical h
  · exact h

theorem execRawWindowOpen_canonical {value : Word32} {s : State} {t : State} (e : execRawWindowOpen value s = .next t)
    (h : s.host.canonical = true) : t.host.canonical = true := by
  unfold execRawWindowOpen at e; grind -ring -linarith [rawOpen_canonical]

theorem rawClose_canonical {s : State} (h : s.host.canonical = true) : (rawClose s).host.canonical = true := h

theorem execRawWindowClose_canonical {s : State} {t : State} (e : execRawWindowClose s = .next t)
    (h : s.host.canonical = true) : t.host.canonical = true := by
  unfold execRawWindowClose at e; grind -ring -linarith [rawClose_canonical]

theorem State.withFe_canonical {s : State} {f : FlashEngine} (h : s.host.canonical = true) :
    (s.withFe f).host.canonical = true := h

theorem feCommand_canonical {cmd : Nat} {s : State} (h : s.host.canonical = true) :
    (feCommand cmd s).host.canonical = true := by
  unfold feCommand; grind -ring -linarith [State.withFe_canonical]

theorem execFeErase_canonical {s : State} {t : State} (e : execFeErase s = .next t)
    (h : s.host.canonical = true) : t.host.canonical = true := by
  unfold execFeErase at e; grind -ring -linarith [feCommand_canonical]

theorem execFeProgram_canonical {s : State} {t : State} (e : execFeProgram s = .next t)
    (h : s.host.canonical = true) : t.host.canonical = true := by
  unfold execFeProgram at e; grind -ring -linarith [feCommand_canonical]

theorem execFeDone_canonical {ok : Bool} {s : State} {t : State} (e : execFeDone ok s = .next t)
    (h : s.host.canonical = true) : t.host.canonical = true := by
  obtain rfl := Host.Outcome.next.inj e
  split
  · split
    · exact HostIf.canonical_withFlash h (bytesCanonical_flashAfter (HostIf.canonical_flash h))
    · exact h
  · exact h

theorem execVddioReturned_canonical {s : State} {t : State} (e : execVddioReturned s = .next t)
    (h : s.host.canonical = true) : t.host.canonical = true := by
  unfold execVddioReturned at e; grind -ring -linarith [State.withFe_canonical]

theorem feWrite_canonical {off v : Nat} {s : State} (h : s.host.canonical = true) :
    (feWrite off v s).host.canonical = true := by
  unfold feWrite; grind -ring -linarith [feCommand_canonical, State.withFe_canonical]

theorem rawWrite_canonical {off v : Nat} {s : State} (h : s.host.canonical = true) :
    (rawWrite off v s).host.canonical = true := by
  unfold rawWrite
  dsimp only
  repeat' split
  · exact HostIf.canonical_withPilotMem h (bytesCanonical_putBytes _ _ (HostIf.canonical_pilotMem h))
  · exact h
  · exact feWrite_canonical h
  · exact h

/-! ### The operations of Machine/Image -/

theorem slotsFailed_canonical {l : List (Nat × Nat)} {s : State} (h : s.host.canonical = true) :
    (slotsFailed l s).host.canonical = true := by
  unfold slotsFailed; grind -ring -linarith [raise_canonical, foldl_canonical]

theorem changeCopies_canonical {f : Option Image × Option Image → Option Image × Option Image} {s : State}
    (h : s.host.canonical = true) : (changeCopies f s).host.canonical = true := by
  have kept : ((List.range 4).foldl (fun (s : State) d => if s.deckUp d
      then s.withAvail { s.avail with copies := s.avail.copies.put d (f (s.copies d)) } else s) s).host.canonical =
        true :=
    foldl_canonical (fun t d ht => by split <;> exact ht) h
  unfold changeCopies
  extract_lets u
  split
  · rw [State.set_host]
    exact kept
  · exact kept

theorem newCopies_canonical {b : List Byte} {s : State} (h : s.host.canonical = true) :
    (newCopies b s).host.canonical = true := by
  unfold newCopies
  exact changeCopies_canonical h

theorem markCopy_canonical {d : Nat} {s : State} (h : s.host.canonical = true) :
    (markCopy d s).host.canonical = true := by
  unfold markCopy; grind -ring -linarith [State.withAvail_host]

theorem takeKeys_canonical {p : List Byte} {s : State} (h : s.host.canonical = true) :
    (takeKeys p s).host.canonical = true := by
  unfold takeKeys; grind -ring -linarith [State.withParse_host, State.setS_host, foldl_canonical]

/-! ### The operations of Machine/Pilots -/

theorem execHeartbeat_canonical {d : Deck} {s : State} {t : State} (e : execHeartbeat d s = .next t)
    (h : s.host.canonical = true) : t.host.canonical = true := by
  unfold execHeartbeat at e; grind -ring -linarith [setPilot_host]

theorem electLeader_canonical {s : State} (h : s.host.canonical = true) :
    (electLeader s).host.canonical = true := by
  unfold electLeader
  grind -ring -linarith [State.set_host, State.bump_host, raise_canonical, noteChange_canonical,
    setTimeState_canonical, claimCandidate_canonical]

theorem keepLeader_canonical {s : State} (h : s.host.canonical = true) :
    (keepLeader s).host.canonical = true := by
  unfold keepLeader; grind -ring -linarith [electLeader_canonical]

theorem dropTaken_canonical {d : Nat} {s : State} (h : s.host.canonical = true) :
    (dropTaken d s).host.canonical = true := by
  unfold dropTaken
  grind -ring -linarith [answer_canonical, dropReplies_canonical, mbFinish_canonical, State.withFabric_host,
    State.withTw_host, foldl_canonical]

theorem dropWork_canonical {s : State} (h : s.host.canonical = true) :
    (dropWork s).host.canonical = true := by
  unfold dropWork
  grind -ring -linarith [State.withDict_host, endProxy_canonical, passBack_canonical, State.withParse_host,
    State.draw_canonical, raise_canonical, State.set_host, foldl_canonical]

theorem pilotGone_canonical {d : Nat} {before s : State} (h : s.host.canonical = true) :
    (pilotGone d before s).host.canonical = true := by
  unfold pilotGone
  grind -ring -linarith [dropTaken_canonical, dropWork_canonical, State.withDict_host, electLeader_canonical]

theorem holdPilot_canonical {d : Nat} {onPurpose : Bool} {s : State} (h : s.host.canonical = true) :
    (holdPilot d onPurpose s).host.canonical = true := by
  unfold holdPilot; grind -ring -linarith [setPilot_host, State.set_host, pilotGone_canonical]

theorem declarePilot_canonical {d cause : Nat} {s : State} (h : s.host.canonical = true) :
    (declarePilot d cause s).host.canonical = true := by
  unfold declarePilot; grind -ring -linarith [holdPilot_canonical, setPilot_host, State.bump_host, raise_canonical]

theorem execDeckAdopt_canonical {d : Deck} {s : State} {t : State} (e : execDeckAdopt d s = .next t)
    (h : s.host.canonical = true) : t.host.canonical = true := by
  unfold execDeckAdopt at e; grind -ring -linarith [State.set_host, foldl_canonical]

theorem bootPilot_canonical {d : Nat} {s : State} (h : s.host.canonical = true) :
    (bootPilot d s).host.canonical = true := by
  unfold bootPilot; grind -ring -linarith [setPilot_host, markCopy_canonical, slotsFailed_canonical]

theorem execPilotRelease_canonical {d : Deck} {s : State} {t : State} (e : execPilotRelease d s = .next t)
    (h : s.host.canonical = true) : t.host.canonical = true := by
  unfold execPilotRelease at e; grind -ring -linarith [raise_canonical, State.set_host, bootPilot_canonical]

theorem updateDone_canonical {s : State} (h : s.host.canonical = true) :
    (updateDone s).host.canonical = true := by
  unfold updateDone; grind -ring -linarith [State.set_host, raise_canonical]

theorem updateEnds_canonical {s : State} (h : s.host.canonical = true) :
    (updateEnds s).host.canonical = true := by
  unfold updateEnds
  grind -ring -linarith [State.set_host, raise_canonical, takeKeys_canonical, updateDone_canonical,
    State.withAvail_host]

theorem updateStep_canonical {s : State} (h : s.host.canonical = true) :
    (updateStep s).host.canonical = true := by
  unfold updateStep; grind -ring -linarith [holdPilot_canonical, State.set_host, updateEnds_canonical]

theorem reverseUpdate_canonical {check pilot : Nat} {s : State} (h : s.host.canonical = true) :
    (reverseUpdate check pilot s).host.canonical = true := by
  unfold reverseUpdate
  apply updateStep_canonical
  apply foldl_canonical
  · intro t d ht
    simpa only [setPilot_host] using ht
  · rw [State.withAvail_host]
    exact changeCopies_canonical h

theorem fwLoad_canonical {v : Nat} {s : State} (h : s.host.canonical = true) :
    (fwLoad v s).2.host.canonical = true := by
  unfold fwLoad; grind -ring -linarith [refuseLoad_canonical, quayAsk_canonical, State.set_host, State.withAvail_host]

theorem execFwCheckDone_canonical {s : State} {t : State} (e : execFwCheckDone s = .next t)
    (h : s.host.canonical = true) : t.host.canonical = true := by
  unfold execFwCheckDone at e
  grind -ring -linarith [raise_canonical, passBack_canonical, State.set_host, newCopies_canonical,
    updateStep_canonical, setPilot_host, foldl_canonical]

theorem execFwFlashDone_canonical {s : State} {t : State} (e : execFwFlashDone s = .next t)
    (h : s.host.canonical = true) : t.host.canonical = true := by
  obtain rfl := Host.Outcome.next.inj e
  split
  · exact h
  · exact updateDone_canonical (HostIf.canonical_withFlash h (bytesCanonical_putBytes _ _ (HostIf.canonical_flash h)))

theorem fwAbort_canonical {v : Nat} {s : State} (h : s.host.canonical = true) :
    (fwAbort v s).2.host.canonical = true := by
  unfold fwAbort; grind -ring -linarith [raise_canonical, passBack_canonical, State.set_host, reverseUpdate_canonical]

theorem execFwRestartTimeout_canonical {d : Deck} {s : State} {t : State} (e : execFwRestartTimeout d s = .next t)
    (h : s.host.canonical = true) : t.host.canonical = true := by
  unfold execFwRestartTimeout at e; grind -ring -linarith [reverseUpdate_canonical]

theorem execPilotFailed_canonical {d : Deck} {cause : PilotFailCause} {s : State} {t : State}
    (e : execPilotFailed d cause s = .next t)
    (h : s.host.canonical = true) : t.host.canonical = true := by
  unfold execPilotFailed at e
  grind -ring -linarith [declarePilot_canonical, reverseUpdate_canonical, updateStep_canonical]

theorem pilotRuns_canonical {d : Nat} {s : State} (h : s.host.canonical = true) :
    (pilotRuns d s).host.canonical = true := by
  unfold pilotRuns
  grind -ring -linarith [setPilot_host, State.set_host, rawClose_canonical, State.withAvail_host,
    updateStep_canonical, keepLeader_canonical, raise_canonical]

theorem execPilotRestarted_canonical {d : Deck} {s : State} {t : State} (e : execPilotRestarted d s = .next t)
    (h : s.host.canonical = true) : t.host.canonical = true := by
  unfold execPilotRestarted at e; grind -ring -linarith [pilotRuns_canonical]

theorem restartPilot_canonical {d v : Nat} {s : State} (h : s.host.canonical = true) :
    (restartPilot d v s).2.host.canonical = true := by
  unfold restartPilot; grind -ring -linarith [setPilot_host, State.set_host, holdPilot_canonical]

theorem execAllPilotsDown_canonical {s : State} {t : State} (e : execAllPilotsDown s = .next t)
    (h : s.host.canonical = true) : t.host.canonical = true := by
  unfold execAllPilotsDown at e
  grind -ring -linarith [State.withAvail_host, signalVector_canonical, raise_canonical, setPinCause_canonical]

/-! ### The operations of Machine/Keel -/

theorem writeKeel_canonical {path : Path} {tag : BitVec 16} {index inst v : Nat} {s : State}
    (h : s.host.canonical = true) :
    (writeKeel path tag index inst v s).2.host.canonical = true := by
  unfold writeKeel; grind -ring -linarith [State.withBoot_host]

theorem trimOutput_canonical {d : Nat} {was now : Nat} {s : State} (h : s.host.canonical = true) :
    (trimOutput d was now s).host.canonical = true := by
  unfold trimOutput; grind -ring -linarith [State.set_host]

theorem storeKeel_canonical {j : KeelJob} {s : State} (h : s.host.canonical = true) :
    (storeKeel j s).host.canonical = true := by
  unfold storeKeel; grind -ring -linarith [State.set_host, State.bump_host, State.withBoot_host, trimOutput_canonical]

theorem execKeelWritten_canonical {s : State} {t : State} (e : execKeelWritten s = .next t)
    (h : s.host.canonical = true) : t.host.canonical = true := by
  unfold execKeelWritten at e
  grind -ring -linarith [storeKeel_canonical, State.withBoot_host, State.drop_host, raise_canonical,
    answerOpt_canonical]

theorem corruptKeel_canonical {index inst : Nat} {s : State} (h : s.host.canonical = true) :
    (corruptKeel index inst s).host.canonical = true := by
  unfold corruptKeel; grind -ring -linarith [raise_canonical, State.withBoot_host]

theorem cutKeel_canonical {s : State} (h : s.host.canonical = true) :
    (cutKeel s).host.canonical = true := by
  unfold cutKeel; grind -ring -linarith [State.draw_canonical, storeKeel_canonical]

theorem writeRollback_canonical {path : Path} {tag : BitVec 16} {v : Nat} {s : State} (h : s.host.canonical = true) :
    (writeRollback path tag v s).2.host.canonical = true := by
  unfold writeRollback; grind -ring -linarith [State.withBoot_host]

theorem execRollbackAdvanced_canonical {s : State} {t : State} (e : execRollbackAdvanced s = .next t)
    (h : s.host.canonical = true) : t.host.canonical = true := by
  unfold execRollbackAdvanced at e
  grind -ring -linarith [State.withBoot_host, State.set_host, answerOpt_canonical, raise_canonical]

theorem cutRollback_canonical {s : State} (h : s.host.canonical = true) :
    (cutRollback s).host.canonical = true := by
  unfold cutRollback; grind -ring -linarith [State.draw_canonical, State.set_host]

/-- A reset of the whole device empties the quay window and the Pilots' memories; the flash stays. -/
theorem resetDevice_canonical {s : State} (h : s.host.canonical = true) : (resetDevice s).host.canonical = true :=
  HostIf.canonical_flashOnly (HostIf.canonical_flash (cutRollback_canonical (cutKeel_canonical h)))

/-! ### The operations of Machine/Tally -/

theorem setRng_canonical {p : Nat} {x : Word64} {s : State} (h : s.host.canonical = true) :
    (setRng p x s).host.canonical = true := by
  unfold setRng; grind -ring -linarith [State.withFlow_host, State.set_host]

theorem drawRng_canonical {p : Nat} {s : State} (h : s.host.canonical = true) :
    (drawRng p s).2.host.canonical = true := by
  unfold drawRng; grind -ring -linarith [setRng_canonical]

theorem tallyNorm_canonical {p fuel e m : Nat} {s : State} (h : s.host.canonical = true) :
    (tallyNorm p fuel e m s).2.host.canonical = true := by
  induction fuel generalizing e m s with
  | zero => exact h
  | succ fuel ih => unfold tallyNorm; grind -ring -linarith [drawRng_canonical]

theorem tallyAdd_canonical {p t n : Nat} {s : State} (h : s.host.canonical = true) :
    (tallyAdd p t n s).2.host.canonical = true := by
  have drawn := drawRng_canonical (p := p) h
  unfold tallyAdd
  dsimp only
  repeat' split
  · exact h
  · exact tallyNorm_canonical h
  · exact tallyNorm_canonical drawn
  · exact tallyNorm_canonical drawn

theorem State.setExport_canonical {s : State} {p : Nat} {x : Export} (h : s.host.canonical = true) :
    (State.setExport s p x).host.canonical = true := by
  unfold State.setExport; grind -ring -linarith [State.set_host, foldl_canonical]

theorem exportWrite_canonical {p : Nat} {m : List Byte × Nat × Bool} {s : State} (h : s.host.canonical = true) :
    (exportWrite p m s).2.host.canonical = true := by
  unfold exportWrite
  grind -ring -linarith [produce_canonical, State.setExport_canonical, State.add_host, State.bump_host]

theorem endDiscard_canonical {p : Nat} {s : State} (h : s.host.canonical = true) :
    (endDiscard p s).host.canonical = true := by
  unfold endDiscard; grind -ring -linarith [raise_canonical, State.setExport_canonical]

theorem stageMessage_canonical {p : Nat} {m : List Byte × Nat × Bool} {s : State} (h : s.host.canonical = true) :
    (stageMessage p m s).host.canonical = true := by
  unfold stageMessage
  grind -ring -linarith [endDiscard_canonical, wantBurst_canonical, State.setExport_canonical, raise_canonical,
    State.add_host]

theorem exportQueue_canonical {p : Nat} {m : List Byte × Nat × Bool} {s : State} (h : s.host.canonical = true) :
    (exportQueue p m s).host.canonical = true := by
  unfold exportQueue; grind -ring -linarith [exportWrite_canonical, endDiscard_canonical, stageMessage_canonical]

theorem stagedPoison_canonical {p : Nat} {s : State} (h : s.host.canonical = true) :
    (stagedPoison p s).2.host.canonical = true := by
  unfold stagedPoison; grind -ring -linarith [State.draw_canonical]

theorem loseStaged_canonical {p n : Nat} {rest : List (List Byte × Nat × Bool)} {s : State}
    (h : s.host.canonical = true) :
    (loseStaged p n rest s).host.canonical = true := by
  unfold loseStaged; grind -ring -linarith [State.setExport_canonical, State.add_host]

theorem drainStaging_canonical {p fuel : Nat} {s : State} (h : s.host.canonical = true) :
    (drainStaging p fuel s).host.canonical = true := by
  induction fuel generalizing s with
  | zero => exact h
  | succ fuel ih =>
    unfold drainStaging
    grind -ring -linarith [stagedPoison_canonical, loseStaged_canonical, exportWrite_canonical, wantBurst_canonical,
      State.setExport_canonical]

theorem closeMessage_canonical {p utc : Nat} {s : State} (h : s.host.canonical = true) :
    (closeMessage p utc s).host.canonical = true := by
  unfold closeMessage; grind -ring -linarith [exportQueue_canonical, State.setExport_canonical]

theorem queueTemplate_canonical {p : Nat} {s : State} (h : s.host.canonical = true) :
    (queueTemplate p s).host.canonical = true := by
  unfold queueTemplate; grind -ring -linarith [State.setExport_canonical, exportQueue_canonical]

theorem buildRecord_canonical {p : Nat} {r : Fore} {aft : List Byte} {reason : Nat} {s : State}
    (h : s.host.canonical = true) :
    (buildRecord p r aft reason s).host.canonical = true := by
  unfold buildRecord; grind -ring -linarith [closeMessage_canonical, State.setExport_canonical]

theorem execExportFlush_canonical {p : Pipe} {s : State} {t : State} (e : execExportFlush p s = .next t)
    (h : s.host.canonical = true) : t.host.canonical = true := by
  unfold execExportFlush at e; grind -ring -linarith [closeMessage_canonical]

theorem execExportTemplate_canonical {p : Pipe} {s : State} {t : State} (e : execExportTemplate p s = .next t)
    (h : s.host.canonical = true) : t.host.canonical = true := by
  unfold execExportTemplate at e; grind -ring -linarith [queueTemplate_canonical]

theorem emptyExport_canonical {p : Nat} {s : State} (h : s.host.canonical = true) :
    (emptyExport p s).host.canonical = true := by
  unfold emptyExport; grind -ring -linarith [State.setExport_canonical]

theorem applyExport_canonical {old : State} {s : State} (h : s.host.canonical = true) :
    (applyExport old s).host.canonical = true := by
  unfold applyExport
  grind -ring -linarith [closeMessage_canonical, emptyExport_canonical, queueTemplate_canonical, foldl_canonical]

/-! ### The operations of Machine/Nat -/

theorem dropBindings_canonical {q P : Nat} {s : State} (h : s.host.canonical = true) :
    (dropBindings q P s).host.canonical = true := by
  unfold dropBindings; grind -ring -linarith [State.withFlow_host, foldl_canonical]

theorem setNat_canonical {q c r v : Nat} {s : State} (h : s.host.canonical = true) :
    (setNat q c r v s).host.canonical = true := by
  unfold setNat; grind -ring -linarith [dropBindings_canonical, State.withFlow_host, State.set_host]

theorem setCursor_canonical {q c r : Nat} {s : State} (h : s.host.canonical = true) :
    (setCursor q c r s).host.canonical = true := by
  unfold setCursor; grind -ring -linarith [State.withFlow_host, State.set_host]

theorem columnBurst_canonical {write : Bool} {q c r n : Nat} {s : State} (h : s.host.canonical = true) :
    (columnBurst write q c r n s).host.canonical = true := by
  unfold columnBurst; grind -ring -linarith [wantBurst_canonical]

theorem columnUpdate_canonical {q c r : Nat} {s : State} (h : s.host.canonical = true) :
    (columnUpdate q c r s).host.canonical = true := by
  unfold columnUpdate; grind -ring -linarith [columnBurst_canonical]

theorem addReference_canonical {q c r : Nat} {s : State} (h : s.host.canonical = true) :
    (addReference q c r s).2.host.canonical = true := by
  unfold addReference; grind -ring -linarith [columnBurst_canonical, setNat_canonical]

theorem columnAllocate_canonical {q hash a p : Nat} {service : Option Nat} {s : State} (h : s.host.canonical = true) :
    (columnAllocate q hash a p service s).2.host.canonical = true := by
  unfold columnAllocate
  grind -ring -linarith [columnBurst_canonical, addReference_canonical, setCursor_canonical, setNat_canonical,
    raise_canonical]

theorem bindLoop_canonical {first count hash a p : Nat} {service : Option Nat} {fuel q c : Nat} {s : State}
    (h : s.host.canonical = true) : (bindLoop first count hash a p service fuel q c s).2.host.canonical = true := by
  induction fuel generalizing q c s with
  | zero => exact h
  | succ fuel ih => unfold bindLoop; grind -ring -linarith [columnAllocate_canonical]

theorem bindSource_canonical {first count hash a p : Nat} {service : Option Nat} {s : State}
    (h : s.host.canonical = true) :
    (bindSource first count hash a p service s).2.host.canonical = true := by
  unfold bindSource; grind -ring -linarith [bindLoop_canonical, raise_canonical, State.bump_host]

theorem columnReference_canonical {q P : Nat} {s : State} (h : s.host.canonical = true) :
    (columnReference q P s).2.host.canonical = true := by
  unfold columnReference; grind -ring -linarith [columnBurst_canonical, addReference_canonical]

theorem columnRelease_canonical {q P : Nat} {s : State} (h : s.host.canonical = true) :
    (columnRelease q P s).host.canonical = true := by
  unfold columnRelease; grind -ring -linarith [columnUpdate_canonical, raise_canonical, setNat_canonical]

theorem execNatColumnOperation_canonical {op : ColumnOp} {s : State} {t : State}
    (e : execNatColumnOperation op s = .next t)
    (h : s.host.canonical = true) : t.host.canonical = true := by
  unfold execNatColumnOperation at e
  grind -ring -linarith [columnAllocate_canonical, columnReference_canonical, columnRelease_canonical]

theorem readBinding_canonical {p q P : Nat} {s : State} (h : s.host.canonical = true) :
    (readBinding p q P s).2.host.canonical = true := by
  unfold readBinding; grind -ring -linarith [columnBurst_canonical, State.withFlow_host, State.bump_host]

/-! ### The operations of Machine/Policy -/

theorem applyService_canonical {v : Nat} {s : State} (h : s.host.canonical = true) :
    (applyService v s).host.canonical = true := by
  unfold applyService; grind -ring -linarith [State.withFlow_host, State.set_host, foldl_canonical]

theorem applyToll_canonical {t : Nat} {s : State} (h : s.host.canonical = true) :
    (applyToll t s).host.canonical = true := by
  unfold applyToll; grind -ring -linarith [State.set_host]

theorem refillQuanta_canonical {p n rpt : Nat} {s : State} (h : s.host.canonical = true) :
    (refillQuanta p n rpt s).2.host.canonical = true := by
  unfold refillQuanta; grind -ring -linarith [drawRng_canonical]

theorem refillToll_canonical {p : Nat} {x : Profile} {n c b : Nat} {s : State} (h : s.host.canonical = true) :
    (refillToll p x n c b s).2.host.canonical = true := by
  unfold refillToll; grind -ring -linarith [refillQuanta_canonical]

theorem evalToll_canonical {p : Nat} {x : Profile} {toll lastSeen len : Nat} {s : State}
    (h : s.host.canonical = true) :
    (evalToll p x toll lastSeen len s).2.host.canonical = true := by
  unfold evalToll; grind -ring -linarith [refillToll_canonical]

/-! ### The operations of Machine/Flow -/

theorem setChoice_canonical {p g v : Nat} {s : State} (h : s.host.canonical = true) :
    (setChoice p g v s).host.canonical = true := by
  unfold setChoice; grind -ring -linarith [State.withFlow_host, State.set_host]

theorem setAft_canonical {p slot : Nat} {bs : List Byte} {s : State} (h : s.host.canonical = true) :
    (setAft p slot bs s).host.canonical = true := by
  unfold setAft; grind -ring -linarith [clearPoison_canonical, State.withFlow_host, State.set_host]

theorem setPier_canonical {p pier n : Nat} {b : Option PierBerth} {s : State} (h : s.host.canonical = true) :
    (setPier p pier n b s).host.canonical = true := by
  unfold setPier; grind -ring -linarith [clearPoison_canonical, State.withFlow_host]

theorem setLine_canonical {p slot : Nat} {l : Line} {s : State} (h : s.host.canonical = true) :
    (setLine p slot l s).host.canonical = true := by
  unfold setLine; grind -ring -linarith [State.withFlow_host]

theorem modLine_canonical {p slot : Nat} {g : Line → Line} {s : State} (h : s.host.canonical = true) :
    (modLine p slot g s).host.canonical = true := by
  unfold modLine; grind -ring -linarith [setLine_canonical]

theorem writeFore_canonical {p slot : Nat} {r : Fore} {s : State} (h : s.host.canonical = true) :
    (writeFore p slot r s).host.canonical = true := by
  unfold writeFore; grind -ring -linarith [State.withFlow_host, clearPoison_canonical]

theorem writeBack_canonical {p slot : Nat} {s : State} (h : s.host.canonical = true) :
    (writeBack p slot s).host.canonical = true := by
  unfold writeBack
  grind -ring -linarith [wantBurst_canonical, setLine_canonical, writeFore_canonical, State.bump_host]

theorem takeWay_canonical {p set : Nat} {s : State} (h : s.host.canonical = true) :
    (takeWay p set s).2.host.canonical = true := by
  unfold takeWay; grind -ring -linarith [State.set_host, writeBack_canonical, State.withFlow_host, foldl_canonical]

theorem fillLine_canonical {p slot : Nat} {r : Fore} {dirty : Bool} {s : State} (h : s.host.canonical = true) :
    (fillLine p slot r dirty s).host.canonical = true := by
  unfold fillLine; grind -ring -linarith [takeWay_canonical, setLine_canonical]

theorem loadLine_canonical {p slot : Nat} {s : State} (h : s.host.canonical = true) :
    (loadLine p slot s).host.canonical = true := by
  unfold loadLine; grind -ring -linarith [setLine_canonical, fillLine_canonical]

theorem updateFore_canonical {p slot : Nat} {g : Fore → Fore} {s : State} (h : s.host.canonical = true) :
    (updateFore p slot g s).host.canonical = true := by
  unfold updateFore; grind -ring -linarith [loadLine_canonical, setLine_canonical]

theorem readPier_canonical {p pier : Nat} {k : RawKey} {hash : Nat} {s : State} (h : s.host.canonical = true) :
    (readPier p pier k hash s).2.host.canonical = true := by
  unfold readPier; grind -ring -linarith [State.add_host]

theorem noteAnchored_canonical {p : Nat} {up : Bool} {s : State} (h : s.host.canonical = true) :
    (noteAnchored p up s).host.canonical = true := by
  unfold noteAnchored; grind -ring -linarith [State.set_host, raise_canonical]

theorem placeRecord_canonical {rr : Requester} {p : Nat} {r : Fore} {aft : Option (List Byte)} {way : Option Nat}
    {s : State} (h : s.host.canonical = true) : (placeRecord rr p r aft way s).2.host.canonical = true := by
  unfold placeRecord
  split
  · exact h
  · rename_i slot
    extract_lets r' t u pier
    have hu : u.host.canonical = true := h
    clear_value u
    split
    rename_i r'' v e
    have hv : v.host.canonical = true := by
      split at e
      · obtain ⟨-, rfl⟩ := Prod.mk.inj e
        exact wantBurst_canonical (setPier_canonical hu)
      · split at e
        · obtain ⟨-, rfl⟩ := Prod.mk.inj e
          exact hu
        · obtain ⟨-, rfl⟩ := Prod.mk.inj e
          exact noteAnchored_canonical hu
    extract_lets w
    have hw : w.host.canonical = true := by
      cases way
      · exact fillLine_canonical hv
      · exact setLine_canonical hv
    clear_value w
    dsimp only
    split
    · exact wantBurst_canonical (setAft_canonical hw)
    · exact hw

theorem removeRecord_canonical {p slot : Nat} {r : Fore} {s : State} (h : s.host.canonical = true) :
    (removeRecord p slot r s).host.canonical = true := by
  unfold removeRecord
  grind -ring -linarith [noteAnchored_canonical, State.withFlow_host, setPier_canonical, State.drop_host,
    foldl_canonical]

theorem releaseBindings_canonical {r : Fore} {s : State} (h : s.host.canonical = true) :
    (releaseBindings r s).host.canonical = true := by
  unfold releaseBindings; grind -ring -linarith [columnRelease_canonical]

theorem reclaimNow_canonical {p slot forced : Nat} {r : Fore} {s : State} (h : s.host.canonical = true) :
    (reclaimNow p slot forced r s).host.canonical = true := by
  unfold reclaimNow; grind -ring -linarith [removeRecord_canonical, buildRecord_canonical, releaseBindings_canonical]

theorem reclaim_canonical {p slot forced : Nat} {o : ObjRow} {s : State} (h : s.host.canonical = true) :
    (reclaim p slot forced o s).2.host.canonical = true := by
  unfold reclaim; grind -ring -linarith [reclaimNow_canonical, State.bump_host]

/-! ### The operations of Machine/Actions -/

theorem noRoute_canonical {p vrf hash : Nat} {s : State} (h : s.host.canonical = true) :
    (noRoute p vrf hash s).host.canonical = true := by
  unfold noRoute; grind -ring -linarith [raise_canonical, State.bump_host]

theorem bindResolved_canonical {p q P hash : Nat} {hairpin : Bool} {set : Option (Nat × Nat)} {k : RawKey}
    {s : State} (h : s.host.canonical = true) :
    (bindResolved p q P hash hairpin set k s).2.host.canonical = true := by
  unfold bindResolved
  grind -ring -linarith [State.set_host, State.bump_host, columnReference_canonical, bindSource_canonical,
    columnRelease_canonical]

theorem bindPrefix_canonical {q : Nat} {insideAddr : Nat} {insideLow v6 : Bool} {s : State}
    (h : s.host.canonical = true) :
    (bindPrefix q insideAddr insideLow v6 s).2.host.canonical = true := by
  unfold bindPrefix; grind -ring -linarith [State.bump_host]

theorem bindSet_canonical {first count hash : Nat} {service : Option Nat} {frag : Bool} {k : RawKey} {s : State}
    (h : s.host.canonical = true) :
    (bindSet first count hash service frag k s).2.host.canonical = true := by
  unfold bindSet; grind -ring -linarith [bindPrefix_canonical, State.bump_host, bindSource_canonical]

theorem bindFlow_canonical {p : Nat} {x : Frame} {k : RawKey} {hash : Nat} {service : Option Nat}
    {rule : Option Rule} {s : State} (h : s.host.canonical = true) :
    (bindFlow p x k hash service rule s).2.host.canonical = true := by
  unfold bindFlow
  grind -ring -linarith [State.set_host, bindResolved_canonical, bindPrefix_canonical, bindSet_canonical]

theorem setupAllowed_canonical {p : Nat} {x : Frame} {k : RawKey} {rule : Option Rule} {service : Option (Nat × Nat)}
    {respZone : Nat} {s : State} (h : s.host.canonical = true) :
    (setupAllowed p x k rule service respZone s).2.host.canonical = true := by
  unfold setupAllowed; grind -ring -linarith [State.bump_host, State.drop_host, bindFlow_canonical]

theorem setupJudged_canonical {p : Nat} {x : Frame} {k : RawKey} {service : Option (Nat × Nat)} {port : Nat}
    {s : State} (h : s.host.canonical = true) :
    (setupJudged p x k service port s).2.host.canonical = true := by
  unfold setupJudged
  grind -ring -linarith [setupAllowed_canonical, State.drop_host, raise_canonical, State.bump_host]

theorem readSlots_canonical {p v start : Nat} {s : State} (h : s.host.canonical = true) :
    (readSlots p v start s).host.canonical = true := by
  unfold readSlots; grind -ring -linarith [wantBurst_canonical, foldl_canonical]

theorem setupFlow_canonical {p : Nat} {x : Frame} {k : RawKey} {s : State} (h : s.host.canonical = true) :
    (setupFlow p x k s).2.host.canonical = true := by
  unfold setupFlow
  grind -ring -linarith [readSlots_canonical, raise_canonical, State.bump_host, State.drop_host, noRoute_canonical,
    setupJudged_canonical]

theorem actionDrop_canonical {p : Nat} {f : FrameId} {s : State} (h : s.host.canonical = true) :
    (actionDrop p f s).host.canonical = true := by
  unfold actionDrop; grind -ring -linarith [discardAt_canonical]

theorem sendOn_canonical {p : Nat} {f : FrameId} {port cls : Nat} {s : State} (h : s.host.canonical = true) :
    (sendOn p f port cls s).host.canonical = true := by
  unfold sendOn
  grind -ring -linarith [toEgress_canonical, sendHole_canonical, stampOrWait_canonical, State.setFrame_host]

theorem applyRewrites_canonical {p slot : Nat} {r : Fore} {f : FrameId} {x : Frame} {cls : Nat} {s : State}
    (h : s.host.canonical = true) :
    (applyRewrites p slot r f x cls s).host.canonical = true := by
  unfold applyRewrites
  grind -ring -linarith [sendOn_canonical, State.setFrame_host, actionDrop_canonical, noRoute_canonical]

theorem tollStep_canonical {p slot : Nat} {r : Fore} {f : FrameId} {x : Frame} {s : State}
    (h : s.host.canonical = true) :
    (tollStep p slot r f x s).2.host.canonical = true := by
  unfold tollStep
  grind -ring -linarith [evalToll_canonical, updateFore_canonical, State.bump_host, State.modFrame_canonical]

theorem actionsFrom3_canonical {p slot : Nat} {r : Fore} {f : FrameId} {x : Frame} {s : State}
    (h : s.host.canonical = true) :
    (actionsFrom3 p slot r f x s).host.canonical = true := by
  unfold actionsFrom3; grind -ring -linarith [tollStep_canonical, actionDrop_canonical, applyRewrites_canonical]

theorem applyActions_canonical {p slot : Nat} {f : FrameId} {s : State} (h : s.host.canonical = true) :
    (applyActions p slot f s).host.canonical = true := by
  unfold applyActions
  grind -ring -linarith [loadLine_canonical, actionDrop_canonical, State.bump_host, actionsFrom3_canonical,
    State.setFrame_host, raise_canonical]

theorem addTally_canonical {p slot which n : Nat} {s : State} (h : s.host.canonical = true) :
    (addTally p slot which n s).host.canonical = true := by
  unfold addTally; grind -ring -linarith [tallyAdd_canonical, updateFore_canonical, raise_canonical, State.bump_host]

theorem settleFrame_canonical {p slot : Nat} {x : Frame} {len : Option Nat} {s : State}
    (h : s.host.canonical = true) :
    (settleFrame p slot x len s).host.canonical = true := by
  unfold settleFrame; grind -ring -linarith [updateFore_canonical]

theorem tailUpdates_canonical {p slot : Nat} {x : Frame} {good : Bool} {s : State} (h : s.host.canonical = true) :
    (tailUpdates p slot x good s).host.canonical = true := by
  unfold tailUpdates; grind -ring -linarith [settleFrame_canonical, addTally_canonical, updateFore_canonical]

theorem makeUpdates_canonical {f : FrameId} {s : State} (h : s.host.canonical = true) :
    (makeUpdates f s).host.canonical = true := by
  unfold makeUpdates; grind -ring -linarith [tailUpdates_canonical, State.freeFrame_host, State.setFrame_host]

/-! ### The operations of Machine/HomeStage -/

theorem setStage_canonical {f : FrameId} {g : Stage} {s : State} (h : s.host.canonical = true) :
    (setStage f g s).host.canonical = true := by
  unfold setStage; grind -ring -linarith [State.modFrame_canonical]

theorem crossHome_canonical {p new : Nat} {f : FrameId} {s : State} (h : s.host.canonical = true) :
    (crossHome p new f s).host.canonical = true := by
  unfold crossHome; grind -ring -linarith [crossTo_canonical, State.modFrame_canonical]

theorem handOn_canonical {p new : Nat} {f : FrameId} {s : State} (h : s.host.canonical = true) :
    (handOn p new f s).host.canonical = true := by
  unfold handOn; grind -ring -linarith [State.setFrame_host, State.bump_host, crossHome_canonical]

theorem releaseOp_canonical {p : Nat} {f : FrameId} {s : State} (h : s.host.canonical = true) :
    (releaseOp p f s).host.canonical = true := by
  unfold releaseOp; grind -ring -linarith [State.withFlow_host]

theorem takeOp_canonical {p : Nat} {f : FrameId} {s : State} (h : s.host.canonical = true) :
    (takeOp p f s).host.canonical = true := by
  unfold takeOp; grind -ring -linarith [State.withFlow_host]

theorem tagOps_canonical {p : Nat} {f : FrameId} {n : Nat} {s : State} (h : s.host.canonical = true) :
    (tagOps p f n s).host.canonical = true := by
  unfold tagOps; grind -ring -linarith [State.withHbm_host, State.drop_host]

theorem charging_canonical {p : Nat} {f : FrameId} {g : State → State} {s : State}
    (hg : (g s).host.canonical = true) : (charging p f g s).host.canonical = true := tagOps_canonical hg

theorem noteAdmitted_canonical {p : Nat} {s : State} (h : s.host.canonical = true) :
    (noteAdmitted p s).host.canonical = true := by
  unfold noteAdmitted; grind -ring -linarith [State.withFlow_host]

theorem joinPending_canonical {p : Nat} {f : FrameId} {k : RawKey} {s : State} (h : s.host.canonical = true) :
    (joinPending p f k s).host.canonical = true := by
  unfold joinPending
  grind -ring -linarith [State.withFlow_host, setStage_canonical, releaseOp_canonical, State.bump_host]

theorem dropPending_canonical {p : Nat} {f : FrameId} {s : State} (h : s.host.canonical = true) :
    (dropPending p f s).host.canonical = true := by
  unfold dropPending; grind -ring -linarith [State.withFlow_host]

theorem writePending_canonical {p : Nat} {f : FrameId} {k : RawKey} {hash : Nat} {s : State}
    (h : s.host.canonical = true) :
    (writePending p f k hash s).host.canonical = true := by
  unfold writePending; grind -ring -linarith [takeWay_canonical, State.withFlow_host]

theorem restage_canonical {p : Nat} {l : List FrameId} {s : State} (h : s.host.canonical = true) :
    (restage p l s).host.canonical = true := by
  unfold restage; grind -ring -linarith [setStage_canonical, foldl_canonical]

theorem lookupMissed_canonical {p : Nat} {f : FrameId} {x : Frame} {k : RawKey} {s : State}
    (h : s.host.canonical = true) :
    (lookupMissed p f x k s).host.canonical = true := by
  unfold lookupMissed
  grind -ring -linarith [State.bump_host, handOn_canonical, releaseOp_canonical, takeOp_canonical,
    State.setFrame_host, writePending_canonical]

theorem holdMigrating_canonical {p slot : Nat} {f : FrameId} {s : State} (h : s.host.canonical = true) :
    (holdMigrating p slot f s).host.canonical = true := by
  unfold holdMigrating; grind -ring -linarith [State.withFlow_host, setStage_canonical, releaseOp_canonical]

theorem lookupFound_canonical {p slot : Nat} {f : FrameId} {x : Frame} {k : RawKey} {s : State}
    (h : s.host.canonical = true) :
    (lookupFound p slot f x k s).host.canonical = true := by
  unfold lookupFound
  grind -ring -linarith [holdMigrating_canonical, discardAt_canonical, addTally_canonical, releaseOp_canonical,
    reclaim_canonical, lookupMissed_canonical, applyActions_canonical]

theorem startReads_canonical {rr : Requester} {p pier : Nat} {k : RawKey} {hash : Nat} {s : State}
    (h : s.host.canonical = true) :
    (startReads rr p pier k hash s).host.canonical = true := by
  unfold startReads; grind -ring -linarith [wantBurst_canonical, foldl_canonical]

theorem probe_canonical {p : Nat} {f : FrameId} {x : Frame} {k : RawKey} {s : State} (h : s.host.canonical = true) :
    (probe p f x k s).host.canonical = true := by
  unfold probe
  grind -ring -linarith [lookupFound_canonical, State.bump_host, joinPending_canonical, loadLine_canonical,
    startReads_canonical, takeOp_canonical, State.setFrame_host]

theorem homeFlow_canonical {p : Nat} {f : FrameId} {x : Frame} {k : RawKey} {s : State}
    (h : s.host.canonical = true) :
    (homeFlow p f x k s).host.canonical = true := by
  unfold homeFlow; grind -ring -linarith [probe_canonical, State.setFrame_host]

theorem homeLearning_canonical {p : Nat} {f : FrameId} {x : Frame} {s : State} (h : s.host.canonical = true) :
    (homeLearning p f x s).host.canonical = true := by
  unfold homeLearning; grind -ring -linarith [queueLearn_canonical, State.setFrame_host]

theorem admitFrame_canonical {p : Nat} {f : FrameId} {x : Frame} {s : State} (h : s.host.canonical = true) :
    (admitFrame p f x s).host.canonical = true := by
  unfold admitFrame
  grind -ring -linarith [homeLearning_canonical, fanOut_canonical, State.setFrame_host, toEgress_canonical,
    charging_canonical, homeFlow_canonical]

theorem execHomeStageFrame_canonical {p : Pipe} {f : FrameId} {s : State} {t : State}
    (e : execHomeStageFrame p f s = .next t)
    (h : s.host.canonical = true) : t.host.canonical = true := by
  unfold execHomeStageFrame at e; grind -ring -linarith [admitFrame_canonical, noteAdmitted_canonical]

theorem lookupData_canonical {p : Nat} {f : FrameId} {x : Frame} {k : RawKey} {s : State}
    (h : s.host.canonical = true) :
    (lookupData p f x k s).host.canonical = true := by
  unfold lookupData
  grind -ring -linarith [lookupFound_canonical, loadLine_canonical, State.bump_host, joinPending_canonical,
    discardAt_canonical, releaseOp_canonical, lookupMissed_canonical, readPier_canonical]

theorem execHomeLookupData_canonical {p : Pipe} {f : FrameId} {s : State} {t : State}
    (e : execHomeLookupData p f s = .next t)
    (h : s.host.canonical = true) : t.host.canonical = true := by
  unfold execHomeLookupData at e
  grind -ring -linarith [charging_canonical, lookupData_canonical, returnReads_canonical]

theorem resolveFrame_canonical {p : Nat} {f : FrameId} {x : Frame} {k : RawKey} {q P : Nat} {s : State}
    (h : s.host.canonical = true) :
    (resolveFrame p f x k q P s).host.canonical = true := by
  unfold resolveFrame
  grind -ring -linarith [readBinding_canonical, discardAt_canonical, State.bump_host, State.setFrame_host]

theorem execSteeredResolve_canonical {p : Pipe} {f : FrameId} {s : State} {t : State}
    (e : execSteeredResolve p f s = .next t)
    (h : s.host.canonical = true) : t.host.canonical = true := by
  unfold execSteeredResolve at e; grind -ring -linarith [charging_canonical, resolveFrame_canonical]

theorem overflowFrame_canonical {p : Nat} {f : FrameId} {s : State} (h : s.host.canonical = true) :
    (overflowFrame p f s).host.canonical = true := by
  unfold overflowFrame
  grind -ring -linarith [discardAt_canonical, puntFrame_canonical, toEgress_canonical, State.modFrame_canonical]

theorem refuseCreation_canonical {p : Nat} {f : FrameId} {hash cause : Nat} {waiters : List FrameId} {s : State}
    (h : s.host.canonical = true) :
    (refuseCreation p f hash cause waiters s).host.canonical = true := by
  unfold refuseCreation
  grind -ring -linarith [raise_canonical, State.bump_host, State.withFlow_host, overflowFrame_canonical,
    dropPending_canonical, foldl_canonical]

theorem proceed_canonical {p slot : Nat} {f : FrameId} {s : State} (h : s.host.canonical = true) :
    (proceed p slot f s).host.canonical = true := by
  unfold proceed; grind -ring -linarith [makeUpdates_canonical, applyActions_canonical]

theorem createRecord_canonical {p : Nat} {f : FrameId} {r : Fore} {aft : Option (List Byte)}
    {pend : Option PendingLine} {s : State} (h : s.host.canonical = true) :
    (createRecord p f r aft pend s).host.canonical = true := by
  unfold createRecord
  grind -ring -linarith [placeRecord_canonical, dropPending_canonical, proceed_canonical, State.bump_host,
    foldl_canonical]

theorem createFlow_canonical {p : Nat} {f : FrameId} {x : Frame} {k : RawKey} {s : State}
    (h : s.host.canonical = true) :
    (createFlow p f x k s).host.canonical = true := by
  unfold createFlow
  grind -ring -linarith [handOn_canonical, dropPending_canonical, refuseCreation_canonical, setupFlow_canonical,
    createRecord_canonical, State.drop_host, restage_canonical, discardAt_canonical, puntFrame_canonical,
    foldl_canonical]

theorem creatorBad_canonical {p : Nat} {f : FrameId} {s : State} (h : s.host.canonical = true) :
    (creatorBad p f s).host.canonical = true := by
  unfold creatorBad
  grind -ring -linarith [discardAt_canonical, dropPending_canonical, State.withFlow_host, setStage_canonical]

theorem consultedTail_canonical {p slot : Nat} {f : FrameId} {x : Frame} {k : RawKey} {s : State}
    (h : s.host.canonical = true) :
    (consultedTail p slot f x k s).host.canonical = true := by
  unfold consultedTail
  grind -ring -linarith [discardAt_canonical, addTally_canonical, proceed_canonical, State.setFrame_host]

theorem execFrameTailHome_canonical {p : Pipe} {f : FrameId} {s : State} {t : State}
    (e : execFrameTailHome p f s = .next t)
    (h : s.host.canonical = true) : t.host.canonical = true := by
  unfold execFrameTailHome at e
  grind -ring -linarith [makeUpdates_canonical, crossHome_canonical, charging_canonical, consultedTail_canonical,
    creatorBad_canonical, createFlow_canonical]

theorem answerNone_canonical {p : Nat} {f : FrameId} {s : State} (h : s.host.canonical = true) :
    (answerNone p f s).host.canonical = true := by
  unfold answerNone; grind -ring -linarith [State.modFrame_canonical]

theorem answerHeld_canonical {p old : Nat} {f : FrameId} {s : State} (h : s.host.canonical = true) :
    (answerHeld p old f s).host.canonical = true := by
  unfold answerHeld
  grind -ring -linarith [dropPending_canonical, State.modFrame_canonical, handOn_canonical, foldl_canonical]

theorem beginTransfer_canonical {old new slot entry : Nat} {frame : Option FrameId} {s : State}
    (h : s.host.canonical = true) :
    (beginTransfer old new slot entry frame s).host.canonical = true := by
  unfold beginTransfer
  grind -ring -linarith [wantBurst_canonical, loadLine_canonical, modLine_canonical, State.withFlow_host]

theorem startTransfer_canonical {old new slot entry : Nat} {frame : Option FrameId} {s : State}
    (h : s.host.canonical = true) :
    (startTransfer old new slot entry frame s).host.canonical = true := by
  unfold startTransfer; grind -ring -linarith [raise_canonical, answerHeld_canonical, beginTransfer_canonical]

theorem consult_canonical {p : Nat} {f : FrameId} {x : Frame} {k : RawKey} {s : State} (h : s.host.canonical = true) :
    (consult p f x k s).host.canonical = true := by
  unfold consult
  grind -ring -linarith [answerNone_canonical, State.bump_host, startReads_canonical, answerHeld_canonical,
    raise_canonical, startTransfer_canonical]

theorem execConsultRequest_canonical {p : Pipe} {f : FrameId} {s : State} {t : State}
    (e : execConsultRequest p f s = .next t)
    (h : s.host.canonical = true) : t.host.canonical = true := by
  unfold execConsultRequest at e; grind -ring -linarith [consult_canonical]

theorem useTransferred_canonical {p slot : Nat} {f : FrameId} {waiters : List FrameId} {s : State}
    (h : s.host.canonical = true) :
    (useTransferred p slot f waiters s).host.canonical = true := by
  unfold useTransferred; grind -ring -linarith [State.modFrame_canonical, proceed_canonical, foldl_canonical]

theorem placeTransfer_canonical {t : Transfer} {s : State} (h : s.host.canonical = true) :
    (placeTransfer t s).host.canonical = true := by
  unfold placeTransfer
  grind -ring -linarith [State.withFlow_host, dropPending_canonical, placeRecord_canonical, State.drop_host,
    State.bump_host, useTransferred_canonical]

theorem execRecordTransfer_canonical {p : Pipe} {slot : BitVec 24} {s : State} {t : State}
    (e : execRecordTransfer p slot s = .next t)
    (h : s.host.canonical = true) : t.host.canonical = true := by
  unfold execRecordTransfer at e; grind -ring -linarith [placeTransfer_canonical]

theorem dropTransfer_canonical {t : Transfer} {s : State} (h : s.host.canonical = true) :
    (dropTransfer t s).host.canonical = true := by
  unfold dropTransfer; grind -ring -linarith [State.withFlow_host]

theorem berthWrites_canonical {p slot : Nat} {r : Fore} {s : State} (h : s.host.canonical = true) :
    (berthWrites p slot r s).host.canonical = true := by
  unfold berthWrites; grind -ring -linarith [wantBurst_canonical, foldl_canonical]

theorem finishTransfer_canonical {t : Transfer} {r : Fore} {s : State} (h : s.host.canonical = true) :
    (finishTransfer t r s).host.canonical = true := by
  unfold finishTransfer
  grind -ring -linarith [berthWrites_canonical, removeRecord_canonical, State.bump_host, dropTransfer_canonical,
    State.withFlow_host, handOn_canonical, foldl_canonical]

theorem refuseTransfer_canonical {t : Transfer} {s : State} (h : s.host.canonical = true) :
    (refuseTransfer t s).host.canonical = true := by
  unfold refuseTransfer
  grind -ring -linarith [restage_canonical, dropTransfer_canonical, modLine_canonical, raise_canonical,
    answerHeld_canonical]

theorem execTransferAck_canonical {p : Pipe} {slot : BitVec 24} {s : State} {t : State}
    (e : execTransferAck p slot s = .next t)
    (h : s.host.canonical = true) : t.host.canonical = true := by
  unfold execTransferAck at e; grind -ring -linarith [finishTransfer_canonical, refuseTransfer_canonical]

/-! ### The operations of Machine/Rehome -/

theorem evict_canonical {p slot : Nat} {s : State} (h : s.host.canonical = true) :
    (evict p slot s).host.canonical = true := by
  unfold evict; grind -ring -linarith [reclaim_canonical, raise_canonical]

theorem readFore_canonical {rr : Requester} {p slot : Nat} {s : State} (h : s.host.canonical = true) :
    (readFore rr p slot s).host.canonical = true := by
  unfold readFore; grind -ring -linarith [wantBurst_canonical]

theorem scanEvict_canonical {p ms target : Nat} {s : State} (h : s.host.canonical = true) :
    (scanEvict p ms target s).host.canonical = true := by
  unfold scanEvict; grind -ring -linarith [readFore_canonical, evict_canonical, wantBurst_canonical, foldl_canonical]

theorem readPiers_canonical {p a b : Nat} {s : State} (h : s.host.canonical = true) :
    (readPiers p a b s).host.canonical = true := by
  unfold readPiers; grind -ring -linarith [readFore_canonical, wantBurst_canonical, foldl_canonical]

theorem pierEvict_canonical {p a b ms : Nat} {s : State} (h : s.host.canonical = true) :
    (pierEvict p a b ms s).host.canonical = true := by
  unfold pierEvict; grind -ring -linarith [readPiers_canonical, evict_canonical]

theorem execEviction_canonical {p : Pipe} {s : State} {t : State} (e : execEviction p s = .next t)
    (h : s.host.canonical = true) : t.host.canonical = true := by
  unfold execEviction at e; grind -ring -linarith [State.withFlow_host, pierEvict_canonical, scanEvict_canonical]

theorem moveRecord_canonical {p n pier b slot : Nat} {r : Fore} {s : State} (h : s.host.canonical = true) :
    (moveRecord p n pier b slot r s).host.canonical = true := by
  unfold moveRecord
  grind -ring -linarith [loadLine_canonical, State.withFlow_host, wantBurst_canonical, clearPoison_canonical,
    modLine_canonical, setPier_canonical, noteAnchored_canonical, State.bump_host]

theorem directMove_canonical {p n : Nat} {r : Fore} {s t : State} (e : directMove p n r s = some t)
    (h : s.host.canonical = true) : t.host.canonical = true := by
  unfold directMove at e
  split at e
  · cases e
  · obtain ⟨b, -, rfl⟩ := Option.map_eq_some_iff.mp e
    exact moveRecord_canonical h

theorem startFlip_canonical {p g anchor : Nat} {s : State} (h : s.host.canonical = true) :
    (startFlip p g anchor s).host.canonical = true := by
  unfold startFlip
  dsimp only
  rw [State.withFlow_host]
  refine setChoice_canonical ?_
  refine List.foldlRecOn (motive := fun acc : State × List Nat => acc.1.host.canonical = true) _ _
    (setChoice_canonical h) ?_
  rintro ⟨t, new⟩ ht e -
  dsimp only
  split
  · exact modLine_canonical (wantBurst_canonical (setPier_canonical ht))
  · exact ht

theorem relocate_canonical {p : Nat} {e : Nat × Fore} {s : State} (h : s.host.canonical = true) :
    (relocate p e s).host.canonical = true := by
  unfold relocate
  split
  · exact h
  · dsimp only
    split
    · exact directMove_canonical ‹_› (wantBurst_canonical h)
    · grind -ring -linarith [startFlip_canonical, wantBurst_canonical]

theorem execRelocationPass_canonical {p : Pipe} {s : State} {t : State} (e : execRelocationPass p s = .next t)
    (h : s.host.canonical = true) : t.host.canonical = true := by
  unfold execRelocationPass at e; grind -ring -linarith [relocate_canonical, State.withFlow_host, foldl_canonical]

theorem waitCheck_canonical {p slot : Nat} {report : Bool} {s : State} (h : s.host.canonical = true) :
    (waitCheck p slot report s).host.canonical = true := by
  unfold waitCheck; grind -ring -linarith [State.withFlow_host]

theorem reportRecord_canonical {p slot : Nat} {r : Fore} {s : State} (h : s.host.canonical = true) :
    (reportRecord p slot r s).host.canonical = true := by
  unfold reportRecord; grind -ring -linarith [wantBurst_canonical, buildRecord_canonical]

theorem sweepRecord_canonical {p slot : Nat} {report : Bool} {s : State} (h : s.host.canonical = true) :
    (sweepRecord p slot report s).host.canonical = true := by
  unfold sweepRecord
  grind -ring -linarith [readFore_canonical, waitCheck_canonical, reclaim_canonical, reportRecord_canonical]

theorem execFlowSweepPass_canonical {p : Pipe} {s : State} {t : State} (e : execFlowSweepPass p s = .next t)
    (h : s.host.canonical = true) : t.host.canonical = true := by
  unfold execFlowSweepPass at e
  grind -ring -linarith [State.withFlow_host, State.set_host, sweepRecord_canonical, wantBurst_canonical,
    foldl_canonical]

theorem flipBerth_canonical {p k : Nat} {b : Option PierBerth} {s : State} (h : s.host.canonical = true) :
    (flipBerth p k b s).host.canonical = true := by
  unfold flipBerth; grind -ring -linarith [wantBurst_canonical, setPier_canonical]

theorem dropOld_canonical {p g k : Nat} {s : State} (h : s.host.canonical = true) :
    (dropOld p g k s).host.canonical = true := by
  unfold dropOld; grind -ring -linarith [flipBerth_canonical]

theorem settleNew_canonical {p k : Nat} {s : State} (h : s.host.canonical = true) :
    (settleNew p k s).host.canonical = true := by
  unfold settleNew; grind -ring -linarith [modLine_canonical, flipBerth_canonical]

theorem finishFlip_canonical {p : Nat} {x : Flip} {s : State} (h : s.host.canonical = true) :
    (finishFlip p x s).host.canonical = true := by
  unfold finishFlip
  grind -ring -linarith [settleNew_canonical, dropOld_canonical, State.withFlow_host, State.bump_host,
    sweepRecord_canonical, foldl_canonical]

theorem execGroupFlipFinish_canonical {p : Pipe} {s : State} {t : State} (e : execGroupFlipFinish p s = .next t)
    (h : s.host.canonical = true) : t.host.canonical = true := by
  obtain rfl := Host.Outcome.next.inj e
  split
  · exact h
  · split
    · exact h
    · rename_i x _ _
      have finished := finishFlip_canonical (p := p.val) (x := x) h
      extract_lets u
      split
      · rename_i r _
        cases moved : directMove p.val x.anchor r u with
        | none => exact finished
        | some v => exact directMove_canonical moved finished
      · exact finished

theorem applyHomeEntry_canonical {old : State} {e : Nat} {s : State} (h : s.host.canonical = true) :
    (applyHomeEntry old e s).host.canonical = true := by
  unfold applyHomeEntry; grind -ring -linarith [State.set_host, State.withFlow_host]

theorem applyHome_canonical {old : State} {s : State} (h : s.host.canonical = true) :
    (applyHome old s).host.canonical = true := by
  unfold applyHome; grind -ring -linarith [applyHomeEntry_canonical, foldl_canonical]

theorem walkRecord_canonical {p : Nat} {slot : Nat} {s : State} (h : s.host.canonical = true) :
    (walkRecord p slot s).host.canonical = true := by
  unfold walkRecord; grind -ring -linarith [raise_canonical, startTransfer_canonical]

theorem settleEntry_canonical {p e : Nat} {s : State} (h : s.host.canonical = true) :
    (settleEntry p e s).host.canonical = true := by
  unfold settleEntry; grind -ring -linarith [State.withFlow_host, State.set_host, raise_canonical]

theorem setWalk_canonical {p : Nat} {w : Walk} {s : State} (h : s.host.canonical = true) :
    (setWalk p w s).host.canonical = true := by
  unfold setWalk; grind -ring -linarith [State.withFlow_host]

theorem endWalk_canonical {p : Nat} {s : State} (h : s.host.canonical = true) :
    (endWalk p s).host.canonical = true := by
  unfold endWalk; grind -ring -linarith [State.withFlow_host, settleEntry_canonical, State.set_host, foldl_canonical]

theorem settleWalk_canonical {p : Nat} {s : State} (h : s.host.canonical = true) :
    (settleWalk p s).host.canonical = true := by
  unfold settleWalk; grind -ring -linarith [setWalk_canonical]

theorem walkOne_canonical {p slot : Nat} {s : State} (h : s.host.canonical = true) :
    (walkOne p slot s).host.canonical = true := by
  unfold walkOne; grind -ring -linarith [walkRecord_canonical, setWalk_canonical]

theorem walkPier_canonical {p : Nat} {e : Nat × Nat} {s : State} (h : s.host.canonical = true) :
    (walkPier p e s).host.canonical = true := by
  unfold walkPier; grind -ring -linarith [walkOne_canonical]

theorem walkOn_canonical {p : Nat} {s : State} (h : s.host.canonical = true) :
    (walkOn p s).host.canonical = true := by
  unfold walkOn
  grind -ring -linarith [walkPier_canonical, wantBurst_canonical, setWalk_canonical, State.set_host,
    walkOne_canonical, foldl_canonical]

theorem startWalk_canonical {p : Nat} {s : State} (h : s.host.canonical = true) :
    (startWalk p s).host.canonical = true := by
  unfold startWalk
  split
  · exact h
  · exact setWalk_canonical h

theorem execMigrationWalk_canonical {p : Pipe} {s : State} {t : State} (e : execMigrationWalk p s = .next t)
    (h : s.host.canonical = true) : t.host.canonical = true := by
  unfold execMigrationWalk at e; grind -ring -linarith [startWalk_canonical, endWalk_canonical, walkOn_canonical]

theorem loseFlowTable_canonical {p : Nat} {s : State} (h : s.host.canonical = true) :
    (loseFlowTable p s).host.canonical = true := by
  unfold loseFlowTable; grind -ring -linarith [State.withFlow_host, State.set_host]

theorem loseEntry_canonical {d : Nat} {before : State} {e : Nat} {s : State} (h : s.host.canonical = true) :
    (loseEntry d before e s).host.canonical = true := by
  unfold loseEntry; grind -ring -linarith [raise_canonical, State.withFlow_host, State.set_host]

theorem loseTransfer_canonical {d : Nat} {t : Transfer} {s : State} (h : s.host.canonical = true) :
    (loseTransfer d t s).host.canonical = true := by
  unfold loseTransfer
  grind -ring -linarith [dropTransfer_canonical, answerNone_canonical, finishTransfer_canonical, restage_canonical,
    modLine_canonical]

theorem loseFlows_canonical {d : Nat} {s : State} (h : s.host.canonical = true) :
    (loseFlows d s).host.canonical = true :=
  foldl_canonical (fun _ _ ht => loseEntry_canonical ht) (loseFlowTable_canonical (loseFlowTable_canonical
    (foldl_canonical (fun _ _ ht => loseTransfer_canonical ht) h)))

/-! ### The operations of Machine/Sleep -/

theorem setPlls_canonical {was new : Nat} {s : State} (h : s.host.canonical = true) :
    (setPlls was new s).host.canonical = true := by
  unfold setPlls; grind -ring -linarith [State.set_host, foldl_canonical]

theorem loseRef_canonical {bit : Nat} {s : State} (h : s.host.canonical = true) :
    (loseRef bit s).host.canonical = true := by
  unfold loseRef; grind -ring -linarith [setPlls_canonical, loseLink_canonical, beginFault_canonical, foldl_canonical]

theorem execRefclkLost_canonical {bit : Fin 10} {returned : Bool} {s : State} {t : State}
    (e : execRefclkLost bit returned s = .next t)
    (h : s.host.canonical = true) : t.host.canonical = true := by
  unfold execRefclkLost at e
  grind -ring -linarith [State.set_host, raise_canonical, setPlls_canonical, loseRef_canonical]

theorem noteIdle_canonical {s : State} (h : s.host.canonical = true) :
    (noteIdle s).host.canonical = true := by
  unfold noteIdle; grind -ring -linarith [State.withSleep_host]

theorem setGw_canonical {g : Nat} {x : Gw} {s : State} (h : s.host.canonical = true) :
    (setGw g x s).host.canonical = true := by
  unfold setGw; grind -ring -linarith [State.withSleep_host, State.set_host]

theorem startCrossing_canonical {g : Nat} {s : State} (h : s.host.canonical = true) :
    (startCrossing g s).host.canonical = true := by
  unfold startCrossing; grind -ring -linarith [setGw_canonical]

theorem park_canonical {s : State} {g : Nat} (h : s.host.canonical = true) :
    (park s g).host.canonical = true := by
  unfold park; grind -ring -linarith [State.set_host]

theorem unpark_canonical {s : State} {g : Nat} (h : s.host.canonical = true) :
    (unpark s g).host.canonical = true := by
  unfold unpark; grind -ring -linarith [startCrossing_canonical, State.set_host]

theorem execGangwayEventAck_canonical {g : Gangway} {s : State} {t : State} (e : execGangwayEventAck g s = .next t)
    (h : s.host.canonical = true) : t.host.canonical = true := by
  unfold execGangwayEventAck at e; grind -ring -linarith [startCrossing_canonical, setGw_canonical]

theorem execDozeEnter_canonical {s : State} {t : State} (e : execDozeEnter s = .next t)
    (h : s.host.canonical = true) : t.host.canonical = true := by
  unfold execDozeEnter at e
  grind -ring -linarith [park_canonical, State.set_host, State.bump_host, raise_canonical, State.withSleep_host,
    foldl_canonical]

theorem leaveDoze_canonical {s : State} (h : s.host.canonical = true) :
    (leaveDoze s).host.canonical = true := by
  unfold leaveDoze; grind -ring -linarith [State.add_host]

theorem execMoorEnter_canonical {s : State} {t : State} (e : execMoorEnter s = .next t)
    (h : s.host.canonical = true) : t.host.canonical = true := by
  unfold execMoorEnter at e; grind -ring -linarith [leaveDoze_canonical, State.set_host, State.withSleep_host]

theorem closeExports_canonical {s : State} (h : s.host.canonical = true) :
    (closeExports s).host.canonical = true := by
  unfold closeExports; grind -ring -linarith [closeMessage_canonical, foldl_canonical]

theorem saveFlow_canonical {s : State} (h : s.host.canonical = true) :
    (saveFlow s).host.canonical = true := by
  unfold saveFlow; grind -ring -linarith [writeBack_canonical, State.withFlow_host, foldl_canonical]

theorem clearStreams_canonical {s : State} (h : s.host.canonical = true) :
    (clearStreams s).host.canonical = true := by
  unfold clearStreams; grind -ring -linarith [State.withCross_host]

theorem startWatch_canonical {s : State} (h : s.host.canonical = true) :
    (startWatch s).host.canonical = true := by
  unfold startWatch; grind -ring -linarith [State.withTime_host, setTimeState_canonical]

theorem loseCaches_canonical {s : State} (h : s.host.canonical = true) :
    (loseCaches s).host.canonical = true := by
  unfold loseCaches; grind -ring -linarith [State.withFlow_host]

theorem enterMoor_canonical {s : State} (h : s.host.canonical = true) :
    (enterMoor s).host.canonical = true := by
  unfold enterMoor
  grind -ring -linarith [setPlls_canonical, loseCaches_canonical, State.set_host, State.withSleep_host,
    raise_canonical, State.bump_host]

theorem entryEffect_canonical {step : Nat} {s : State} (h : s.host.canonical = true) :
    (entryEffect step s).host.canonical = true := by
  unfold entryEffect
  grind -ring -linarith [closeExports_canonical, saveFlow_canonical, clearStreams_canonical, park_canonical,
    State.withEvents_host, enterSelfRefresh_canonical, State.withSleep_host, startWatch_canonical,
    enterMoor_canonical, foldl_canonical]

theorem execMoorEntryStepDone_canonical {s : State} {t : State} (e : execMoorEntryStepDone s = .next t)
    (h : s.host.canonical = true) : t.host.canonical = true := by
  unfold execMoorEntryStepDone at e; grind -ring -linarith [entryEffect_canonical, State.withSleep_host]

theorem startWake_canonical {step code : Nat} {s : State} (h : s.host.canonical = true) :
    (startWake step code s).host.canonical = true := by
  unfold startWake; grind -ring -linarith [State.set_host, State.withSleep_host]

theorem abandonMoor_canonical {code : Nat} {s : State} (h : s.host.canonical = true) :
    (abandonMoor code s).host.canonical = true := by
  unfold abandonMoor
  grind -ring -linarith [setPlls_canonical, loseCaches_canonical, raise_canonical, startWake_canonical,
    State.bump_host]

theorem execWake_canonical {cause : WakeCause} {s : State} {t : State} (e : execWake cause s = .next t)
    (h : s.host.canonical = true) : t.host.canonical = true := by
  unfold execWake at e
  grind -ring -linarith [startWake_canonical, leaveDoze_canonical, State.add_host, abandonMoor_canonical]

theorem leaveSelfRefresh_canonical {s : State} (h : s.host.canonical = true) :
    (leaveSelfRefresh s).host.canonical = true := by
  unfold leaveSelfRefresh
  dsimp only
  apply drainStores_canonical
  split
  · exact exitSelfRefresh_canonical h
  · exact h

theorem restartSlots_canonical {s : State} (h : s.host.canonical = true) :
    (restartSlots s).host.canonical = true := by
  unfold restartSlots; grind -ring -linarith [State.setDir_host, State.withSleep_host, foldl_canonical]

theorem endWatch_canonical {s : State} (h : s.host.canonical = true) :
    (endWatch s).host.canonical = true := by
  unfold endWatch
  grind -ring -linarith [unpark_canonical, State.withTime_host, setTimeState_canonical, foldl_canonical]

theorem restoreFlow_canonical {s : State} (h : s.host.canonical = true) :
    (restoreFlow s).host.canonical = true := by
  unfold restoreFlow; grind -ring -linarith [State.withFlow_host, State.set_host, foldl_canonical]

theorem shiftEngines_canonical {s : State} (h : s.host.canonical = true) :
    (shiftEngines s).host.canonical = true := by
  unfold shiftEngines; grind -ring -linarith [State.withFlow_host]

theorem finishWake_canonical {s : State} (h : s.host.canonical = true) :
    (finishWake s).host.canonical = true := by
  unfold finishWake
  grind -ring -linarith [shiftEngines_canonical, State.set_host, State.withSleep_host, raise_canonical,
    leaveLanding_canonical, foldl_canonical]

theorem wakeEffect_canonical {step : Nat} {s : State} (h : s.host.canonical = true) :
    (wakeEffect step s).host.canonical = true := by
  unfold wakeEffect
  grind -ring -linarith [setPlls_canonical, leaveSelfRefresh_canonical, restartSlots_canonical, endWatch_canonical,
    restoreFlow_canonical, finishWake_canonical, unpark_canonical, foldl_canonical]

theorem execWakeStepDone_canonical {s : State} {t : State} (e : execWakeStepDone s = .next t)
    (h : s.host.canonical = true) : t.host.canonical = true := by
  unfold execWakeStepDone at e; grind -ring -linarith [wakeEffect_canonical, State.withSleep_host]

theorem execLandingPfcRefresh_canonical {d : Deck} {s : State} {t : State} (e : execLandingPfcRefresh d s = .next t)
    (h : s.host.canonical = true) : t.host.canonical = true := by
  unfold execLandingPfcRefresh at e; grind -ring -linarith [landingPfc_canonical, State.withSleep_host]

/-! ### The operations of Machine/Decks -/

theorem loseFrame_canonical {d : Nat} {f : FrameId} {s : State} (h : s.host.canonical = true) :
    (loseFrame d f s).host.canonical = true := by
  unfold loseFrame
  grind -ring -linarith [State.modFrame_canonical, State.freeFrame_host, finishFrame_canonical, discardAt_canonical,
    State.bump_host]

theorem losePorts_canonical {d : Nat} {s : State} (h : s.host.canonical = true) :
    (losePorts d s).host.canonical = true := by
  unfold losePorts
  grind -ring -linarith [State.set_host, queueCells_canonical, State.withCross_host, linkLost_canonical,
    foldl_canonical]

theorem loseRings_canonical {d : Nat} {s : State} (h : s.host.canonical = true) :
    (loseRings d s).host.canonical = true := by
  unfold loseRings; grind -ring -linarith [State.set_host, State.setRing_canonical, foldl_canonical]

theorem losePipes_canonical {d : Nat} {s : State} (h : s.host.canonical = true) :
    (losePipes d s).host.canonical = true := by
  unfold losePipes; grind -ring -linarith [State.withParse_host, State.withFlow_host]

theorem loseStack_canonical {d : Nat} {s : State} (h : s.host.canonical = true) :
    (loseStack d s).host.canonical = true := by
  unfold loseStack; grind -ring -linarith [State.withHbm_host, State.withAvail_host]

theorem loseDeck_canonical {d cause : Nat} {s : State} (h : s.host.canonical = true) :
    (loseDeck d cause s).host.canonical = true := by
  unfold loseDeck
  split
  · exact h
  · extract_lets before stopped links frames streams stack x host pilot y out
    have hlinks : links.host.canonical = true := foldl_canonical (fun _ _ ht => by simpa using ht) h
    have hstack : stack.host.canonical = true :=
      loseStack_canonical (losePipes_canonical (loseRings_canonical (loseFlows_canonical (loseStreams_canonical
        (losePorts_canonical (foldl_canonical (fun _ _ ht => loseFrame_canonical ht) hlinks))))))
    clear_value stack
    have hhost : host.host.canonical = true := by
      by_cases hd : d = 0
      · rw [show host = (endpointReset stack).withHost { (endpointReset stack).host with linkUp := false } from
        if_pos hd,
          State.withHost_host]
        exact HostIf.canonical_linkDown (endpointReset_canonical hstack)
      · rw [show host = stack from if_neg hd]
        exact hstack
    exact updateStep_canonical (raise_canonical (pilotGone_canonical (before := before) hhost))

theorem retireDeck_canonical {d v : Nat} {s : State} (h : s.host.canonical = true) :
    (retireDeck d v s).2.host.canonical = true := by
  unfold retireDeck; grind -ring -linarith [loseDeck_canonical]

theorem stopDirection_canonical {d cause : Nat} {s : State} (h : s.host.canonical = true) :
    (stopDirection d cause s).host.canonical = true := by
  unfold stopDirection; grind -ring -linarith [deliver_canonical, State.setDir_host, State.set_host]

theorem execDirectionRetrain_canonical {d : Direction} {s : State} {t : State}
    (e : execDirectionRetrain d s = .next t)
    (h : s.host.canonical = true) : t.host.canonical = true := by
  unfold execDirectionRetrain at e; grind -ring -linarith [stopDirection_canonical]

theorem discardWaiting_canonical {d : Nat} {s : State} (h : s.host.canonical = true) :
    (discardWaiting d s).host.canonical = true := by
  unfold discardWaiting; grind -ring -linarith [discardAt_canonical, State.bump_host, foldl_canonical]

theorem failDirection_canonical {d cause tries : Nat} {s : State} (h : s.host.canonical = true) :
    (failDirection d cause tries s).host.canonical = true := by
  unfold failDirection
  grind -ring -linarith [State.setDir_host, State.set_host, raise_canonical, loseDeck_canonical,
    discardWaiting_canonical]

theorem directionUp_canonical {d : Nat} {s : State} (h : s.host.canonical = true) :
    (directionUp d s).host.canonical = true := by
  unfold directionUp; grind -ring -linarith [State.withAvail_host, State.setDir_host, State.set_host, raise_canonical]

theorem execDirectionRetrainDone_canonical {d : Direction} {ok : Bool} {s : State} {t : State}
    (e : execDirectionRetrainDone d ok s = .next t)
    (h : s.host.canonical = true) : t.host.canonical = true := by
  unfold execDirectionRetrainDone at e
  grind -ring -linarith [directionUp_canonical, State.setDir_host, failDirection_canonical]

theorem execDirectionRetry_canonical {d : Direction} {s : State} {t : State} (e : execDirectionRetry d s = .next t)
    (h : s.host.canonical = true) : t.host.canonical = true := by
  unfold execDirectionRetry at e; grind -ring -linarith [State.setDir_host]

theorem execPllUnlock_canonical {d : Deck} {pll : Pll} {s : State} {t : State} (e : execPllUnlock d pll s = .next t)
    (h : s.host.canonical = true) : t.host.canonical = true := by
  unfold execPllUnlock at e; grind -ring -linarith [State.withAvail_host, State.set_host, raise_canonical]

theorem relockPll_canonical {d : Nat} {pll : Pll} {s : State} (h : s.host.canonical = true) :
    (relockPll d pll s).host.canonical = true := by
  unfold relockPll; grind -ring -linarith [State.withAvail_host, State.set_host]

theorem execPllRelocked_canonical {d : Deck} {pll : Pll} {s : State} {t : State}
    (e : execPllRelocked d pll s = .next t)
    (h : s.host.canonical = true) : t.host.canonical = true := by
  unfold execPllRelocked at e; grind -ring -linarith [relockPll_canonical]

theorem execPllRelockTimeout_canonical {d : Deck} {pll : Pll} {s : State} {t : State}
    (e : execPllRelockTimeout d pll s = .next t)
    (h : s.host.canonical = true) : t.host.canonical = true := by
  unfold execPllRelockTimeout at e; grind -ring -linarith [loseDeck_canonical]

/-! ### The operations of Machine/Gangways -/

theorem transmitLost_canonical {p : Nat} {s : State} (h : s.host.canonical = true) :
    (transmitLost p s).host.canonical = true := by
  unfold transmitLost; grind -ring -linarith [restartTraining_canonical, declareDown_canonical]

theorem isolated_canonical {g : Nat} {s : State} (h : s.host.canonical = true) :
    (isolated g s).host.canonical = true := by
  unfold isolated
  grind -ring -linarith [beginFault_canonical, transmitLost_canonical, State.draw_canonical, startSpare_canonical,
    loseDeck_canonical, loseLink_canonical]

theorem execGangwayTimeout_canonical {g : Gangway} {destinationSilent : Bool} {handshake : Fin 3} {s : State}
    {t : State} (e : execGangwayTimeout g destinationSilent handshake s = .next t)
    (h : s.host.canonical = true) : t.host.canonical = true := by
  unfold execGangwayTimeout at e
  grind -ring -linarith [State.set_host, State.bump_host, isolated_canonical, raise_canonical]

theorem execGangwaySideReset_canonical {g : Gangway} {destination : Bool} {s : State} {t : State}
    (e : execGangwaySideReset g destination s = .next t)
    (h : s.host.canonical = true) : t.host.canonical = true := by
  unfold execGangwaySideReset at e; grind -ring -linarith [setGw_canonical, State.set_host, State.add_host]

theorem execGangwayResync_canonical {g : Gangway} {s : State} {t : State} (e : execGangwayResync g s = .next t)
    (h : s.host.canonical = true) : t.host.canonical = true := by
  unfold execGangwayResync at e
  grind -ring -linarith [setGw_canonical, State.set_host, State.bump_host, raise_canonical]

/-! ### The operations of Machine/Repair -/

theorem dropRecord_canonical {p slot : Nat} {s : State} (h : s.host.canonical = true) :
    (dropRecord p slot s).host.canonical = true := by
  unfold dropRecord; grind -ring -linarith [releaseBindings_canonical, removeRecord_canonical]

theorem loseDescriptor_canonical {f : FrameId} {s : State} (h : s.host.canonical = true) :
    (loseDescriptor f s).host.canonical = true := by
  unfold loseDescriptor; grind -ring -linarith [State.setQueue_canonical, finishFrame_canonical, foldl_canonical]

theorem clearSpread_canonical {i e : Nat} {s : State} (h : s.host.canonical = true) :
    (clearSpread i e s).host.canonical = true := by
  unfold clearSpread; grind -ring -linarith [State.setDom_host]

theorem sramLost_canonical {p : Nat} {a : SramArray} {s : State} (h : s.host.canonical = true) :
    (sramLost p a s).host.canonical = true := by
  unfold sramLost
  grind -ring -linarith [State.modFrame_canonical, dropRecord_canonical, macRemove_canonical, clearSpread_canonical,
    setCtl_canonical, loseDescriptor_canonical]

theorem sramFound_canonical {p : Nat} {a : SramArray} {s : State} (h : s.host.canonical = true) :
    (sramFound p a s).host.canonical = true := by
  unfold sramFound; grind -ring -linarith [setCtl_canonical]

theorem execSramScrub_canonical {p : Pipe} {a : SramArray} {ecc : EccResult} {s : State} {t : State}
    (e : execSramScrub p a ecc s = .next t)
    (h : s.host.canonical = true) : t.host.canonical = true := by
  unfold execSramScrub at e
  grind -ring -linarith [State.draw_canonical, sramFound_canonical, raise_canonical, State.bump_host,
    sramLost_canonical]

theorem repairPier_canonical {p n : Nat} {s : State} (h : s.host.canonical = true) :
    (repairPier p n s).host.canonical = true := by
  unfold repairPier; grind -ring -linarith [setPier_canonical, foldl_canonical]

theorem repairSlot_canonical {p slot : Nat} {s : State} (h : s.host.canonical = true) :
    (repairSlot p slot s).host.canonical = true := by
  unfold repairSlot; grind -ring -linarith [removeRecord_canonical, clearRange_canonical, setAft_canonical]

theorem repairRow_canonical {q c r : Nat} {s : State} (h : s.host.canonical = true) :
    (repairRow q c r s).host.canonical = true := by
  unfold repairRow; grind -ring -linarith [setCursor_canonical, setNat_canonical]

theorem repairColumn_canonical {p off : Nat} {s : State} (h : s.host.canonical = true) :
    (repairColumn p off s).2.host.canonical = true := by
  unfold repairColumn; grind -ring -linarith [clearPoison_canonical, repairRow_canonical, foldl_canonical]

theorem repairSlots_canonical {p off : Nat} {s : State} (h : s.host.canonical = true) :
    (repairSlots p off s).host.canonical = true := by
  unfold repairSlots; grind -ring -linarith [State.withFlow_host, clearPoison_canonical]

theorem repairCopy_canonical {d : Nat} {s : State} (h : s.host.canonical = true) :
    (repairCopy d s).host.canonical = true := by
  unfold repairCopy; grind -ring -linarith [State.draw_canonical, State.withAvail_host]

theorem repairBurst_canonical {d half off : Nat} {s : State} (h : s.host.canonical = true) :
    (repairBurst d half off s).2.host.canonical = true := by
  unfold repairBurst
  dsimp only
  repeat' split
  · exact repairPier_canonical h
  · exact repairSlot_canonical h
  · exact repairColumn_canonical h
  · exact repairSlots_canonical h
  · exact foldl_canonical (fun _ _ ht => rebuildGolden_canonical ht) h
  · exact repairCopy_canonical h

theorem execPoisonRepair_canonical {d : Deck} {s : State} {t : State} (e : execPoisonRepair d s = .next t)
    (h : s.host.canonical = true) : t.host.canonical = true := by
  unfold execPoisonRepair at e
  grind -ring -linarith [State.draw_canonical, repairBurst_canonical, wantBurst_canonical, raise_canonical]

/-! ### The operations of Machine/Groups -/

theorem noteStaged_canonical {g inst session : Nat} {s : State} (h : s.host.canonical = true) :
    (noteStaged g inst session s).host.canonical = true := by
  unfold noteStaged; grind -ring -linarith [State.setGroup_host]

theorem dropStaged_canonical {g inst : Nat} {s : State} (h : s.host.canonical = true) :
    (dropStaged g inst s).host.canonical = true := by
  unfold dropStaged; grind -ring -linarith [State.withDict_host]

theorem cleanGroup_canonical {g inst : Nat} {s : State} (h : s.host.canonical = true) :
    (cleanGroup g inst s).host.canonical = true := by
  unfold cleanGroup; grind -ring -linarith [dropStaged_canonical, State.setGroup_host]

/-! ### The operations of Machine/HostRings -/

theorem drainExports_canonical {s : State} (h : s.host.canonical = true) : (drainExports s).host.canonical = true :=
  foldl_canonical (fun _ _ ht => drainStaging_canonical ht) h

theorem giveBollards_canonical {v : Nat} {s : State} (h : s.host.canonical = true) :
    (giveBollards v s).host.canonical = true := by
  unfold giveBollards
  grind -ring -linarith [drainExports_canonical, ringsResume_canonical, State.setBollard_canonical, foldl_canonical]

theorem execBollardGive_canonical {value : Word32} {s : State} {t : State} (e : execBollardGive value s = .next t)
    (h : s.host.canonical = true) : t.host.canonical = true := by
  unfold execBollardGive at e; grind -ring -linarith [giveBollards_canonical]

theorem bollardFault_canonical {page what : Nat} {s : State} (h : s.host.canonical = true) :
    (bollardFault page what s).host.canonical = true := by
  unfold bollardFault; grind -ring -linarith [raise_canonical, State.bump_host]

theorem State.withRead_canonical {s : State} {v : Nat} {poisoned : Bool} (h : s.host.canonical = true) :
    (s.withRead v poisoned).host.canonical = true := h

theorem execHostBar2Read_canonical {offset : BitVec 28} {s : State} {t : State}
    (e : execHostBar2Read offset s = .next t)
    (h : s.host.canonical = true) : t.host.canonical = true := by
  unfold execHostBar2Read at e
  grind -ring -linarith [State.withRead_canonical, bollardFault_canonical, quayAsk_canonical, State.draw_canonical]

theorem execHostBar2Write_canonical {offset : BitVec 28} {data : Word32} {s : State} {t : State}
    (e : execHostBar2Write offset data s = .next t)
    (h : s.host.canonical = true) : t.host.canonical = true := by
  unfold execHostBar2Write at e
  grind -ring -linarith [bollardFault_canonical, quayAsk_canonical, State.quayWrite_canonical]

theorem execRingFlush_canonical {r : Ring} {s : State} {t : State} (e : execRingFlush r s = .next t)
    (h : s.host.canonical = true) : t.host.canonical = true := by
  unfold execRingFlush at e; grind -ring -linarith [ringPassPartial_canonical]

theorem returnPages_canonical {r n : Nat} {s : State} (h : s.host.canonical = true) :
    (returnPages r n s).host.canonical = true := by
  unfold returnPages; grind -ring -linarith [passPage_canonical, foldl_canonical]

theorem ringPagesWritten_canonical {r v : Nat} {s : State} (h : s.host.canonical = true) :
    (ringPagesWritten r v s).host.canonical = true := by
  unfold ringPagesWritten
  grind -ring -linarith [ringPassPartial_canonical, endStall_canonical, returnPages_canonical, State.set_host,
    State.setRing_canonical, emptyExport_canonical, queueTemplate_canonical, State.withEvents_host,
    ringSpaceReturned_canonical]

theorem ringConsume_canonical {r off' : Nat} {s : State} (h : s.host.canonical = true) :
    (ringConsume r off' s).host.canonical = true := by
  unfold ringConsume; grind -ring -linarith [passPage_canonical, State.setRing_canonical, foldl_canonical]

theorem consumeRecord_canonical {r n : Nat} {s : State} (h : s.host.canonical = true) :
    (consumeRecord r n s).host.canonical = true := by
  unfold consumeRecord; grind -ring -linarith [ringConsume_canonical]

theorem skipInvalid_canonical {r : Nat} {s : State} (h : s.host.canonical = true) :
    (skipInvalid r s).host.canonical = true := by
  unfold skipInvalid; grind -ring -linarith [raise_canonical, State.bump_host, ringConsume_canonical]

theorem skipPads_canonical {r type fuel : Nat} {s : State} (h : s.host.canonical = true) :
    (skipPads r type fuel s).host.canonical = true := by
  induction fuel generalizing s with
  | zero => exact h
  | succ fuel ih => unfold skipPads; grind -ring -linarith [consumeRecord_canonical]

theorem injectFrame_canonical {rec : List Byte} {s : State} (h : s.host.canonical = true) :
    (injectFrame rec s).host.canonical = true := by
  unfold injectFrame
  grind -ring -linarith [State.setFrame_host, State.bump_host, State.add_host, enterIngress_canonical,
    admitFirst_canonical, endFrame_canonical, stampOrWait_canonical]

theorem injectOne_canonical {r : Nat} {rec : List Byte} {s : State} (h : s.host.canonical = true) :
    (injectOne r rec s).host.canonical = true := by
  unfold injectOne; grind -ring -linarith [State.bump_host, injectFrame_canonical]

theorem execInjectRecord_canonical {k : Fin 4} {s : State} {t : State} (e : execInjectRecord k s = .next t)
    (h : s.host.canonical = true) : t.host.canonical = true := by
  unfold execInjectRecord at e
  grind -ring -linarith [skipPads_canonical, injectOne_canonical, consumeRecord_canonical, skipInvalid_canonical]

/-! ### The operations of Machine/TableDma -/

theorem writeMac_canonical {p i : Nat} {w : List Byte} {s : State} (h : s.host.canonical = true) :
    (writeMac p i w s).2.host.canonical = true := by
  unfold writeMac
  grind -ring -linarith [macRemove_canonical, learnCount_canonical, State.setMac_canonical, learnReached_canonical]

theorem writeRoute_canonical {six : Bool} {i : Nat} {w : List Byte} {s : State} (h : s.host.canonical = true) :
    (writeRoute six i w s).2.host.canonical = true := by
  unfold writeRoute; grind -ring -linarith [State.set_host]

theorem setLock_canonical {t inst i : Nat} {l : Option TableLock} {s : State} (h : s.host.canonical = true) :
    (setLock t inst i l s).host.canonical = true := h

theorem reclaimWritten_canonical {p slot : Nat} {r : Fore} {s : State} (h : s.host.canonical = true) :
    (reclaimWritten p slot r s).host.canonical = true := by
  unfold reclaimWritten; grind -ring -linarith [setLock_canonical, reclaimNow_canonical, State.bump_host]

theorem awaitReclaim_canonical {p slot : Nat} {s : State} (h : s.host.canonical = true) :
    (awaitReclaim p slot s).host.canonical = true := by
  unfold awaitReclaim; grind -ring -linarith [State.withFlow_host]

theorem dueReclaims_canonical {s : State} (h : s.host.canonical = true) :
    (dueReclaims s).host.canonical = true := by
  unfold dueReclaims
  grind -ring -linarith [awaitReclaim_canonical, reclaimWritten_canonical, State.withFlow_host, foldl_canonical]

theorem writeSlot_canonical {p slot : Nat} {w : List Byte} {s : State} (h : s.host.canonical = true) :
    (writeSlot p slot w s).2.host.canonical = true := by
  unfold writeSlot
  grind -ring -linarith [awaitReclaim_canonical, reclaimWritten_canonical, setAft_canonical, updateFore_canonical]

theorem writeNat_canonical {q i : Nat} {w : List Byte} {s : State} (h : s.host.canonical = true) :
    (writeNat q i w s).2.host.canonical = true := by
  unfold writeNat; grind -ring -linarith [setNat_canonical]

theorem writeBalance_canonical {v i ring : Nat} {w : List Byte} {s : State} (h : s.host.canonical = true) :
    (writeBalance v i ring w s).2.host.canonical = true := by
  unfold writeBalance; grind -ring -linarith [State.withFlow_host, noteStaged_canonical]

theorem dmaPart_canonical {write : Bool} {p off : Nat} {s : State} (h : s.host.canonical = true) :
    (dmaPart write p off s).host.canonical = true := by
  unfold dmaPart; grind -ring -linarith [askBurst_host]

theorem entryBursts_canonical {write : Bool} {t inst i : Nat} {s : State} (h : s.host.canonical = true) :
    (entryBursts write t inst i s).host.canonical = true := by
  unfold entryBursts; grind -ring -linarith [wantBurst_canonical, dmaPart_canonical]

theorem writeEntry_canonical {t inst i ring : Nat} {w : List Byte} {s : State} (h : s.host.canonical = true) :
    (writeEntry t inst i ring w s).2.host.canonical = true := by
  unfold writeEntry
  grind -ring -linarith [writeMac_canonical, writeRoute_canonical, State.set_host, writeSlot_canonical,
    writeNat_canonical, writeBalance_canonical]

theorem pinRecord_canonical {p slot ring : Nat} {s : State} (h : s.host.canonical = true) :
    (pinRecord p slot ring s).host.canonical = true := by
  unfold pinRecord
  grind -ring -linarith [loadLine_canonical, writeBack_canonical, modLine_canonical, setLock_canonical]

theorem lockEntry_canonical {t inst i ring : Nat} {s : State} (h : s.host.canonical = true) :
    (lockEntry t inst i ring s).2.host.canonical = true := by
  unfold lockEntry; grind -ring -linarith [setLock_canonical, pinRecord_canonical]

theorem unlockEntry_canonical {t inst i : Nat} {s : State} (h : s.host.canonical = true) :
    (unlockEntry t inst i s).host.canonical = true := by
  unfold unlockEntry; grind -ring -linarith [setLock_canonical, modLine_canonical, dueReclaims_canonical]

theorem execLockBroken_canonical {table : BitVec 8} {inst : BitVec 16} {index : Word32} {s : State} {t : State}
    (e : execLockBroken table inst index s = .next t)
    (h : s.host.canonical = true) : t.host.canonical = true := by
  unfold execLockBroken at e; grind -ring -linarith [raise_canonical, unlockEntry_canonical, State.bump_host]

theorem tryEntry_canonical {q : DmaRequest} {ring i : Nat} {w : List Byte} {s : State} (h : s.host.canonical = true) :
    (tryEntry q ring i w s).2.host.canonical = true := by
  unfold tryEntry
  grind -ring -linarith [lockEntry_canonical, unlockEntry_canonical, entryBursts_canonical, writeEntry_canonical]

theorem accessEntry_canonical {q : DmaRequest} {ring i : Nat} {w : List Byte} {s : State}
    (h : s.host.canonical = true) :
    (accessEntry q ring i w s).2.host.canonical = true := by
  unfold accessEntry; grind -ring -linarith [tryEntry_canonical]

theorem accessEntries_canonical {q : DmaRequest} {ring size fuel k : Nat} {out : List Byte} {s : State}
    (h : s.host.canonical = true) : (accessEntries q ring size fuel k out s).2.host.canonical = true := by
  induction fuel generalizing k out s with
  | zero => exact h
  | succ fuel ih => unfold accessEntries; grind -ring -linarith [accessEntry_canonical]

theorem runDma_canonical {q : DmaRequest} {ring : Nat} {s : State} (h : s.host.canonical = true) :
    (runDma q ring s).2.host.canonical = true := by
  unfold runDma
  dsimp only
  repeat' split
  any_goals exact h
  exact accessEntries_canonical h

theorem stallCompletion_canonical {r n : Nat} {s : State} (h : s.host.canonical = true) :
    (stallCompletion r n s).host.canonical = true := by
  unfold stallCompletion; grind -ring -linarith [ringStall_canonical, raise_canonical]

theorem serveRequest_canonical {k : Nat} {rec : List Byte} {s : State} (h : s.host.canonical = true) :
    (serveRequest k rec s).host.canonical = true := by
  unfold serveRequest
  dsimp only
  split
  · exact stallCompletion_canonical h
  · exact skipPads_canonical (produce_canonical (runDma_canonical (consumeRecord_canonical (quayAsk_canonical h))))

theorem execTableRequest_canonical {k : Fin 4} {s : State} {t : State} (e : execTableRequest k s = .next t)
    (h : s.host.canonical = true) : t.host.canonical = true := by
  unfold execTableRequest at e
  grind -ring -linarith [skipPads_canonical, serveRequest_canonical, skipInvalid_canonical]

/-! ### The operations of Machine/Commit -/

theorem applyGroup_canonical {g inst tc : Nat} {old s : State} (h : s.host.canonical = true) :
    (applyGroup g inst tc old s).host.canonical = true := by
  unfold applyGroup
  grind -ring -linarith [applyPortConfig_canonical, applyLaneMap_canonical, applyParseBank_canonical,
    applyPunt_canonical, applyFdb_canonical, applyHome_canonical, applyService_canonical, applyToll_canonical,
    applyExport_canonical, applySlotTable_canonical, applyMcastGroup_canonical, applyTmPort_canonical,
    applyGateList_canonical, applyHbmMap_canonical, applyTime_canonical, applyFabric_canonical, applyKeys_canonical]

theorem takeStaged_canonical {g inst : Nat} {s : State} (h : s.host.canonical = true) :
    (takeStaged g inst s).host.canonical = true := by
  unfold takeStaged; grind -ring -linarith [State.setS_host, State.setDom_host, foldl_canonical]

theorem beginCommit_canonical {p : Path} {tag : BitVec 16} {g inst v : Nat} {s : State}
    (h : s.host.canonical = true) :
    (beginCommit p tag g inst v s).2.host.canonical = true := by
  unfold beginCommit; grind -ring -linarith [State.setGroup_host]

theorem refuseCommit_canonical {g inst status fail : Nat} {v : Validation} {s : State} (h : s.host.canonical = true) :
    (refuseCommit g inst status fail v s).host.canonical = true := by
  unfold refuseCommit
  grind -ring -linarith [State.setGroup_host, raise_canonical, cleanGroup_canonical, answerOpt_canonical]

theorem armCommit_canonical {g inst : Nat} {v : Validation} {s : State} (h : s.host.canonical = true) :
    (armCommit g inst v s).host.canonical = true := by
  unfold armCommit; grind -ring -linarith [answerOpt_canonical, State.setGroup_host]

theorem execCommitValidated_canonical {g : BitVec 8} {inst : BitVec 16} {s : State} {t : State}
    (e : execCommitValidated g inst s = .next t)
    (h : s.host.canonical = true) : t.host.canonical = true := by
  unfold execCommitValidated at e; grind -ring -linarith [refuseCommit_canonical, armCommit_canonical]

theorem switchOver_canonical {g inst : Nat} {s : State} (h : s.host.canonical = true) :
    (switchOver g inst s).host.canonical = true := by
  unfold switchOver
  grind -ring -linarith [takeStaged_canonical, State.setGroup_host, raise_canonical, dropStaged_canonical,
    applyGroup_canonical, answer_canonical]

theorem switchIfDue_canonical {g inst : Nat} {s : State} (h : s.host.canonical = true) :
    (switchIfDue g inst s).host.canonical = true := by
  unfold switchIfDue; grind -ring -linarith [switchOver_canonical]

theorem execCommitSwitchover_canonical {g : BitVec 8} {inst : BitVec 16} {s : State} {t : State}
    (e : execCommitSwitchover g inst s = .next t)
    (h : s.host.canonical = true) : t.host.canonical = true := by
  unfold execCommitSwitchover at e; grind -ring -linarith [switchIfDue_canonical]

theorem switchDue_canonical {s : State} (h : s.host.canonical = true) :
    (switchDue s).host.canonical = true := by
  unfold switchDue; grind -ring -linarith [switchIfDue_canonical, foldl_canonical]

theorem abortGroup_canonical {g inst v : Nat} {s : State} (h : s.host.canonical = true) :
    (abortGroup g inst v s).2.host.canonical = true := by
  unfold abortGroup; grind -ring -linarith [cleanGroup_canonical, answer_canonical]

theorem execStageExpired_canonical {g : BitVec 8} {inst : BitVec 16} {s : State} {t : State}
    (e : execStageExpired g inst s = .next t)
    (h : s.host.canonical = true) : t.host.canonical = true := by
  unfold execStageExpired at e; grind -ring -linarith [raise_canonical, cleanGroup_canonical]

theorem reportSuppressed_canonical {s : State} {m : NMap Nat} (h : s.host.canonical = true) :
    (reportSuppressed s m).host.canonical = true := by
  unfold reportSuppressed; grind -ring -linarith [raise_canonical, foldl_canonical]

theorem execEventsSuppressed_canonical {s : State} {t : State} (e : execEventsSuppressed s = .next t)
    (h : s.host.canonical = true) : t.host.canonical = true := by
  unfold execEventsSuppressed at e
  grind -ring -linarith [reportSuppressed_canonical, State.withEvents_host, foldl_canonical]

/-! ### The operations of Machine/Count -/

theorem snapshotCopies_canonical {s : State} (h : s.host.canonical = true) :
    (snapshotCopies s).host.canonical = true := by
  unfold snapshotCopies; grind -ring -linarith [State.withDict_host, State.setS_host, foldl_canonical]

theorem writeSnapshot_canonical {s : State} (h : s.host.canonical = true) :
    (writeSnapshot s).host.canonical = true := by
  unfold writeSnapshot; grind -ring -linarith [snapshotCopies_canonical, State.set_host, State.bump_host]

theorem writeChain_canonical {sub code v : Nat} {s : State} (h : s.host.canonical = true) :
    (writeChain sub code v s).host.canonical = true := by
  unfold writeChain; grind -ring -linarith [State.setS_host]

theorem setRates_canonical {port tx : Nat} {r : Nat × Nat} {s : State} (h : s.host.canonical = true) :
    (setRates port tx r s).host.canonical = true := by
  unfold setRates; grind -ring -linarith [State.set_host]

theorem freshWindows_canonical {s : State} (h : s.host.canonical = true) :
    (freshWindows s).host.canonical = true := by
  unfold freshWindows; grind -ring -linarith [State.withCount_host, setRates_canonical, foldl_canonical]

theorem endWindow_canonical {s : State} (h : s.host.canonical = true) :
    (endWindow s).host.canonical = true := by
  unfold endWindow; grind -ring -linarith [State.withCount_host, setRates_canonical, foldl_canonical]

theorem execBwWindowEnd_canonical {s : State} {t : State} (e : execBwWindowEnd s = .next t)
    (h : s.host.canonical = true) : t.host.canonical = true := by
  unfold execBwWindowEnd at e
  grind -ring -linarith [State.withCount_host, freshWindows_canonical, endWindow_canonical]

theorem lockTest_canonical {cause : Nat} {s : State} (h : s.host.canonical = true) :
    (lockTest cause s).host.canonical = true := by
  unfold lockTest; grind -ring -linarith [State.set_host, State.withCount_host, raise_canonical, foldl_canonical]

theorem drawChallenge_canonical {session : Nat} {s : State} (h : s.host.canonical = true) :
    (drawChallenge session s).2.host.canonical = true := by
  unfold drawChallenge; grind -ring -linarith [State.draw_canonical, State.withCount_host, State.set_host]

theorem writeUnlock_canonical {session v : Nat} {s : State} (h : s.host.canonical = true) :
    (writeUnlock session v s).2.host.canonical = true := by
  unfold writeUnlock
  grind -ring -linarith [lockTest_canonical, State.withCount_host, raise_canonical, State.set_host,
    State.draw_canonical]

theorem execTestLocked_canonical {s : State} {t : State} (e : execTestLocked s = .next t)
    (h : s.host.canonical = true) : t.host.canonical = true := by
  unfold execTestLocked at e; grind -ring -linarith [lockTest_canonical]

/-! ### The operations of Machine/Power -/

theorem powerOff_canonical {s : State} (h : s.host.canonical = true) :
    (powerOff s).host.canonical = true := by
  unfold powerOff; grind -ring -linarith [resetDevice_canonical, State.withPower_host]

theorem execPowerLoss_canonical {cause : PowerCause} {s : State} {t : State} (e : execPowerLoss cause s = .next t)
    (h : s.host.canonical = true) : t.host.canonical = true := by
  unfold execPowerLoss at e; grind -ring -linarith [powerOff_canonical]

theorem loseVddio_canonical {s : State} (h : s.host.canonical = true) :
    (loseVddio s).host.canonical = true := by
  unfold loseVddio; grind -ring -linarith [State.withFe_canonical, State.withPower_host]

theorem beginExcursion_canonical {rail mv : Nat} {s : State} (h : s.host.canonical = true) :
    (beginExcursion rail mv s).host.canonical = true := by
  unfold beginExcursion
  grind -ring -linarith [State.withPower_host, raise_canonical, setPinCause_canonical, State.bump_host]

theorem execSupplyOutOfRange_canonical {rail : Fin 6} {millivolt : Nat} {s : State} {t : State}
    (e : execSupplyOutOfRange rail millivolt s = .next t)
    (h : s.host.canonical = true) : t.host.canonical = true := by
  unfold execSupplyOutOfRange at e
  grind -ring -linarith [State.set_host, State.withPower_host, beginExcursion_canonical, loseVddio_canonical]

theorem thermalStep_canonical {sensor : Nat} {mc : Int} {s : State} (h : s.host.canonical = true) :
    (thermalStep sensor mc s).host.canonical = true := by
  unfold thermalStep
  grind -ring -linarith [State.set_host, State.withPower_host, raise_canonical, setPinCause_canonical]

theorem execJunctionTempRead_canonical {milliC : List Int} {s : State} {t : State}
    (e : execJunctionTempRead milliC s = .next t)
    (h : s.host.canonical = true) : t.host.canonical = true := by
  unfold execJunctionTempRead at e; grind -ring -linarith [State.set_host, thermalStep_canonical, foldl_canonical]

theorem execThermalShutdown_canonical {s : State} {t : State} (e : execThermalShutdown s = .next t)
    (h : s.host.canonical = true) : t.host.canonical = true := by
  unfold execThermalShutdown at e; grind -ring -linarith [powerOff_canonical, State.withPower_host]

theorem releasePins_canonical {s : State} (h : s.host.canonical = true) :
    (releasePins s).host.canonical = true := by
  unfold releasePins; grind -ring -linarith

theorem holdPins_canonical {lanes : List Nat} {s : State} (h : s.host.canonical = true) :
    (holdPins lanes s).host.canonical = true := by
  unfold holdPins; grind -ring -linarith [beginFault_canonical, State.setLink_host, foldl_canonical]

theorem tapInstruction_canonical {code : Nat} {lanes : List Nat} {data : Nat} {s : State}
    (h : s.host.canonical = true) :
    (tapInstruction code lanes data s).host.canonical = true := by
  unfold tapInstruction; grind -ring -linarith [State.withPower_host, holdPins_canonical, releasePins_canonical]

theorem execBypass_canonical {s : State} {t : State} (e : execBypass s = .next t)
    (h : s.host.canonical = true) : t.host.canonical = true := by
  unfold execBypass at e; grind -ring -linarith [tapInstruction_canonical]

theorem execIdcode_canonical {s : State} {t : State} (e : execIdcode s = .next t)
    (h : s.host.canonical = true) : t.host.canonical = true := by
  unfold execIdcode at e; grind -ring -linarith [tapInstruction_canonical]

theorem execSamplePreload_canonical {s : State} {t : State} (e : execSamplePreload s = .next t)
    (h : s.host.canonical = true) : t.host.canonical = true := by
  unfold execSamplePreload at e; grind -ring -linarith [State.draw_canonical, tapInstruction_canonical]

theorem execExtest_canonical {lanes : List (Fin 128)} {s : State} {t : State} (e : execExtest lanes s = .next t)
    (h : s.host.canonical = true) : t.host.canonical = true := by
  unfold execExtest at e; grind -ring -linarith [tapInstruction_canonical]

theorem execExtestPulse_canonical {lanes : List (Fin 128)} {s : State} {t : State}
    (e : execExtestPulse lanes s = .next t)
    (h : s.host.canonical = true) : t.host.canonical = true := by
  unfold execExtestPulse at e; grind -ring -linarith [tapInstruction_canonical]

theorem execExtestTrain_canonical {lanes : List (Fin 128)} {s : State} {t : State}
    (e : execExtestTrain lanes s = .next t)
    (h : s.host.canonical = true) : t.host.canonical = true := by
  unfold execExtestTrain at e; grind -ring -linarith [tapInstruction_canonical]

theorem execClamp_canonical {lanes : List (Fin 128)} {s : State} {t : State} (e : execClamp lanes s = .next t)
    (h : s.host.canonical = true) : t.host.canonical = true := by
  unfold execClamp at e; grind -ring -linarith [tapInstruction_canonical]

theorem execHighz_canonical {lanes : List (Fin 128)} {s : State} {t : State} (e : execHighz lanes s = .next t)
    (h : s.host.canonical = true) : t.host.canonical = true := by
  unfold execHighz at e; grind -ring -linarith [tapInstruction_canonical]

/-! ### The operations of Machine/Dictionary -/

theorem readAside_canonical {p : Path} {index sub inst : Nat} {s : State} {x : Nat × State}
    (e : readAside p index sub inst s = some x) (h : s.host.canonical = true) : x.2.host.canonical = true := by
  unfold readAside at e
  split at e
  · obtain rfl := Option.some.inj e
    exact readCapture_canonical h
  · cases e
  · obtain rfl := Option.some.inj e
    exact h
  · obtain rfl := Option.some.inj e
    exact h
  · obtain rfl := Option.some.inj e
    exact drawChallenge_canonical h
  · cases e

theorem readValue_canonical {p : Path} {q : Request} {o : ObjRow} {s : State} (h : s.host.canonical = true) :
    (readValue p q o s).2.host.canonical = true := by
  unfold readValue
  dsimp only
  split
  · exact readAside_canonical ‹_› h
  · split
    · exact h
    · exact h

theorem writeFence_canonical {cl v : Nat} {s : State} (h : s.host.canonical = true) :
    (writeFence cl v s).2.host.canonical = true := by
  unfold writeFence; grind -ring -linarith [unfenceCluster_canonical, State.set_host, fenceCluster_canonical]

theorem writeControl_canonical {p : Path} {tag : BitVec 16} {g sub inst v : Nat} {s : State}
    (h : s.host.canonical = true) :
    (writeControl p tag g sub inst v s).2.host.canonical = true := by
  unfold writeControl; grind -ring -linarith [beginCommit_canonical, State.setGroup_host, abortGroup_canonical]

theorem writeEffect_canonical {p : Path} {tag : BitVec 16} {o : ObjRow} {sub inst v : Nat} {s : State}
    (h : s.host.canonical = true) :
    (writeEffect p tag o sub inst v s).2.host.canonical = true := by
  unfold writeEffect
  grind -ring -linarith [writeControl_canonical, writeKeel_canonical, State.withDict_host, holdWritten_canonical,
    State.set_host, writeTimeStep_canonical, writeForcedStep_canonical, writeTimeSet_canonical,
    writeFence_canonical, ucodeLoad_canonical, settleCeiling_canonical, settleWalk_canonical, setRng_canonical,
    startSpare_canonical, settleCopies_canonical, ringPagesWritten_canonical, State.setS_host,
    restartPilot_canonical, fwLoad_canonical, fwAbort_canonical, retireDeck_canonical, writeChain_canonical,
    writeSnapshot_canonical, writeRollback_canonical, writeUnlock_canonical]

theorem stageValue_canonical {p : Path} {o : ObjRow} {sub inst v : Nat} {s : State} (h : s.host.canonical = true) :
    (stageValue p o sub inst v s).host.canonical = true := by
  unfold stageValue; grind -ring -linarith [noteStaged_canonical, State.withDict_host]

theorem writeObject_canonical {p : Path} {q : Request} {o : ObjRow} {s : State} (h : s.host.canonical = true) :
    (writeObject p q o s).2.host.canonical = true := by
  unfold writeObject; grind -ring -linarith [stageValue_canonical, writeEffect_canonical]

theorem takeDomain_canonical {p : Path} {o : ObjRow} {inst : Nat} {d : List Byte} {s : State}
    (h : s.host.canonical = true) :
    (takeDomain p o inst d s).2.host.canonical = true := by
  unfold takeDomain; grind -ring -linarith [State.withDict_host, writeProxy_canonical]

theorem writeSegment_canonical {p : Path} {q : Request} {o : ObjRow} {s : State} (h : s.host.canonical = true) :
    (writeSegment p q o s).2.host.canonical = true := by
  unfold writeSegment
  grind -ring -linarith [State.drop_host, State.withDict_host, noteStaged_canonical, takeDomain_canonical]

theorem serveObject_canonical {p : Path} {q : Request} {o : ObjRow} {s : State} (h : s.host.canonical = true) :
    (serveObject p q o s).2.host.canonical = true := by
  unfold serveObject
  grind -ring -linarith [raise_canonical, readValue_canonical, writeObject_canonical, writeSegment_canonical]

theorem serveDict_canonical {p : Path} {q : Request} {s : State} (h : s.host.canonical = true) :
    (serveDict p q s).2.host.canonical = true := by
  unfold serveDict; grind -ring -linarith [serveObject_canonical]

theorem carryOut_canonical {p : Path} {q : Request} {s : State} (h : s.host.canonical = true) :
    (carryOut p q s).host.canonical = true := by
  unfold carryOut; grind -ring -linarith [serveDict_canonical, answer_canonical]

theorem serveNow_canonical {p : Path} {q : Request} {s : State} (h : s.host.canonical = true) :
    (serveNow p q s).host.canonical = true := by
  unfold serveNow; grind -ring -linarith [answer_canonical, carryOut_canonical]

theorem serveOrphan_canonical {k : Fin 16} {q : Request} {s : State} (h : s.host.canonical = true) :
    (serveOrphan k q s).host.canonical = true := by
  unfold serveOrphan
  dsimp only
  split
  · exact h
  · exact dropReplies_canonical (serveDict_canonical h)

theorem mbRequest_canonical {k : Nat} {q : Request} {s : State} (h : s.host.canonical = true) :
    (mbRequest k q s).host.canonical = true := by
  unfold mbRequest; grind -ring -linarith [mbSubmit_canonical, mbWriteArea_canonical]

theorem serveMailbox_canonical {k : Fin 16} {q : Request} {s : State} (h : s.host.canonical = true) :
    (serveMailbox k q s).host.canonical = true := by
  unfold serveMailbox
  grind -ring -linarith [serveOrphan_canonical, mbRequest_canonical, serveNow_canonical, State.setSlot_canonical]

theorem serveTwoWire_canonical {q : Request} {s : State} (h : s.host.canonical = true) :
    (serveTwoWire q s).host.canonical = true := by
  unfold serveTwoWire
  grind -ring -linarith [twAccept_canonical, answer_canonical, serveNow_canonical, State.withTw_host,
    carryOut_canonical]

theorem serveAcp_canonical {d : BitVec 16} {k : Fin 256} {n : Word32} {q : Request} {s : State}
    (h : s.host.canonical = true) :
    (serveAcp d k n q s).host.canonical = true := by
  unfold serveAcp; grind -ring -linarith [serveNow_canonical, State.withFabric_host]

theorem serveBoot_canonical {s : State} (h : s.host.canonical = true) :
    (serveBoot s).host.canonical = true := by
  unfold serveBoot; grind -ring -linarith [answer_canonical, carryOut_canonical]

theorem serveBy_canonical {p : Path} {q : Request} {s : State} (h : s.host.canonical = true) :
    (serveBy p q s).host.canonical = true := by
  unfold serveBy
  grind -ring -linarith [serveMailbox_canonical, serveTwoWire_canonical, serveAcp_canonical, serveBoot_canonical]

/-! ### The operations of Machine/Boot -/

theorem bootFrom_canonical {straps : Nat} {s : State} (h : s.host.canonical = true) :
    (bootFrom straps s).host.canonical = true := by
  unfold bootFrom; grind -ring -linarith [State.draw_canonical, State.set_host, State.withBoot_host, foldl_canonical]

theorem execBootStart_canonical {straps : Byte} {s : State} {t : State} (e : execBootStart straps s = .next t)
    (h : s.host.canonical = true) : t.host.canonical = true := by
  unfold execBootStart at e; grind -ring -linarith [bootFrom_canonical]

theorem execSysReset_canonical {lowNs : Nat} {s : State} {t : State} (e : execSysReset lowNs s = .next t)
    (h : s.host.canonical = true) : t.host.canonical = true := by
  unfold execSysReset at e; grind -ring -linarith [resetDevice_canonical]

theorem stageDone_canonical {n : Nat} {s : State} (h : s.host.canonical = true) :
    (stageDone n s).host.canonical = true := by
  unfold stageDone; grind -ring -linarith [State.set_host, State.withBoot_host]

theorem drawNonZero_canonical {s : State} (h : s.host.canonical = true) :
    (drawNonZero s).2.host.canonical = true := by
  unfold drawNonZero; grind -ring -linarith [State.draw_canonical]

theorem stageRom_canonical {s : State} (h : s.host.canonical = true) :
    (stageRom s).host.canonical = true := by
  unfold stageRom
  grind -ring -linarith [State.draw_canonical, State.withFlow_host, drawNonZero_canonical, setRng_canonical,
    State.set_host, stageDone_canonical, linkMayReturn_canonical, foldl_canonical]

theorem enterRecovery_canonical {s : State} (h : s.host.canonical = true) :
    (enterRecovery s).host.canonical = true := by
  unfold enterRecovery; grind -ring -linarith [State.set_host, State.withBoot_host]

theorem takeImage_canonical {slot : Nat} {b : List Byte} {s : State} (h : s.host.canonical = true) :
    (takeImage slot b s).host.canonical = true := by
  unfold takeImage; grind -ring -linarith [State.withBoot_host, State.set_host, takeKeys_canonical]

theorem stageImage_canonical {s : State} (h : s.host.canonical = true) :
    (stageImage s).host.canonical = true := by
  unfold stageImage
  grind -ring -linarith [enterRecovery_canonical, slotsFailed_canonical, State.set_host, stageDone_canonical,
    takeImage_canonical]

theorem stagePilots_canonical {bad : List Nat} {s : State} (h : s.host.canonical = true) :
    (stagePilots bad s).host.canonical = true := by
  unfold stagePilots
  extract_lets now b u v w l x
  have hu : u.host.canonical = true := by
    refine foldl_canonical (fun t d ht => ?_) h
    split
    · exact ht
    · exact ht
  clear_value u
  have hv : v.host.canonical = true := by
    refine foldl_canonical (fun t d ht => ?_) hu
    split
    · exact ht
    · split <;> exact ht
  clear_value v
  have hw : w.host.canonical = true := changeCopies_canonical hv
  clear_value w
  have hx : x.host.canonical = true := noteChange_canonical (s := (w.set Obj.leader 0 l).set Obj.leaderTerm 0 1) hw
  exact stageDone_canonical (raise_canonical hx)

theorem placeSpare_canonical {c : Nat} {s : State} (h : s.host.canonical = true) :
    (placeSpare c s).host.canonical = true := by
  unfold placeSpare; grind -ring -linarith [loseDeck_canonical, State.set_host, raise_canonical]

theorem stageMicrocode_canonical {bad : List Nat} {s : State} (h : s.host.canonical = true) :
    (stageMicrocode bad s).host.canonical = true := by
  unfold stageMicrocode
  grind -ring -linarith [writeBank_canonical, State.set_host, fenceCluster_canonical, stageDone_canonical,
    foldl_canonical]

theorem loadConfig_canonical {b : List Byte} {s : State} (h : s.host.canonical = true) :
    (loadConfig b s).host.canonical = true := by
  unfold loadConfig; grind -ring -linarith [State.withBoot_host, answer_canonical, State.bump_host]

theorem endConfig_canonical {s : State} (h : s.host.canonical = true) :
    (endConfig s).host.canonical = true := by
  unfold endConfig; grind -ring -linarith [cleanGroup_canonical, foldl_canonical]

theorem stageLast_canonical {s : State} (h : s.host.canonical = true) :
    (stageLast s).host.canonical = true := by
  unfold stageLast
  grind -ring -linarith [stageDone_canonical, State.set_host, raise_canonical, State.withEvents_host]

theorem bootStage_canonical {f : BootFinding} {s : State} (h : s.host.canonical = true) :
    (bootStage f s).host.canonical = true := by
  unfold bootStage
  grind -ring -linarith [stageRom_canonical, stageImage_canonical, stagePilots_canonical, stageDone_canonical,
    corruptKeel_canonical, placeSpare_canonical, failDirection_canonical, stageMicrocode_canonical,
    loadConfig_canonical, endConfig_canonical, stageLast_canonical, foldl_canonical]

theorem execBootStageDone_canonical {found : BootFinding} {s : State} {t : State}
    (e : execBootStageDone found s = .next t)
    (h : s.host.canonical = true) : t.host.canonical = true := by
  unfold execBootStageDone at e; grind -ring -linarith [bootStage_canonical]

theorem execConfigRecord_canonical {s : State} {t : State} (e : execConfigRecord s = .next t)
    (h : s.host.canonical = true) : t.host.canonical = true := by
  unfold execConfigRecord at e; grind -ring -linarith [serveBoot_canonical, endConfig_canonical]

theorem stopPilots_canonical {s : State} (h : s.host.canonical = true) :
    (stopPilots s).host.canonical = true := by
  unfold stopPilots; grind -ring -linarith [setPilot_host, State.set_host, pilotGone_canonical, foldl_canonical]

theorem bootFlash_canonical {s : State} (h : s.host.canonical = true) :
    (bootFlash s).1.host.canonical = true := by
  unfold bootFlash; grind -ring -linarith [slotsFailed_canonical, newCopies_canonical, setPilot_host, foldl_canonical]

theorem rebuildFirmware_canonical {s : State} (h : s.host.canonical = true) :
    (rebuildFirmware s).host.canonical = true := by
  unfold rebuildFirmware
  grind -ring -linarith [State.withFabric_host, State.set_host, setTimeState_canonical, foldl_canonical]

theorem restartPilots_canonical {s : State} (h : s.host.canonical = true) :
    (restartPilots s).1.host.canonical = true := by
  unfold restartPilots
  grind -ring -linarith [rawClose_canonical, State.withBoot_host, bootFlash_canonical, stopPilots_canonical,
    rebuildFirmware_canonical]

theorem restart_canonical {f : State → State} {s : State} (hf : (f s).host.canonical = true)
    (h : s.host.canonical = true) :
    (restart f s).host.canonical = true := by
  unfold restart
  split
  · exact h
  · exact hf

theorem restartWarm_canonical {s : State} (h : s.host.canonical = true) :
    (restartWarm s).host.canonical = true := by
  unfold restartWarm; grind -ring -linarith [restart_canonical, restartPilots_canonical]

theorem execRestartWarm_canonical {s : State} {t : State} (e : execRestartWarm s = .next t)
    (h : s.host.canonical = true) : t.host.canonical = true := by
  unfold execRestartWarm at e; grind -ring -linarith [restartWarm_canonical]

theorem coldDefaults_canonical {s : State} (h : s.host.canonical = true) :
    (coldDefaults s).host.canonical = true := by
  unfold coldDefaults
  grind -ring -linarith [ringPagesWritten_canonical, unfenceCluster_canonical, writeChain_canonical,
    State.withDict_host, State.set_host, State.withCount_host, applyGroup_canonical, State.withAvail_host,
    foldl_canonical]

theorem restartCold_canonical {s : State} (h : s.host.canonical = true) :
    (restartCold s).host.canonical = true := by
  unfold restartCold; grind -ring -linarith [restart_canonical, restartPilots_canonical, coldDefaults_canonical]

theorem execRestartCold_canonical {s : State} {t : State} (e : execRestartCold s = .next t)
    (h : s.host.canonical = true) : t.host.canonical = true := by
  unfold execRestartCold at e; grind -ring -linarith [restartCold_canonical]

theorem restartColdConfig_canonical {s : State} (h : s.host.canonical = true) :
    (restartColdConfig s).host.canonical = true := by
  unfold restartColdConfig
  grind -ring -linarith [restart_canonical, restartPilots_canonical, loadConfig_canonical, coldDefaults_canonical]

theorem execRestartColdConfig_canonical {s : State} {t : State} (e : execRestartColdConfig s = .next t)
    (h : s.host.canonical = true) : t.host.canonical = true := by
  unfold execRestartColdConfig at e; grind -ring -linarith [restartColdConfig_canonical]

theorem execLostDeckRehome_canonical {s : State} {t : State} (e : execLostDeckRehome s = .next t)
    (h : s.host.canonical = true) : t.host.canonical = true := by
  unfold execLostDeckRehome at e
  grind -ring -linarith [abortGroup_canonical, State.withAvail_host, State.set_host, State.setGroup_host,
    raise_canonical, foldl_canonical]

/-! ### The operations of Machine/Bar0 -/

theorem rawControl_canonical {v : Nat} {s : State} (h : s.host.canonical = true) :
    (rawControl v s).host.canonical = true := by
  unfold rawControl
  grind -ring -linarith [rawSelect_canonical, rawOpen_canonical, rawClose_canonical, restartWarm_canonical,
    restartCold_canonical, restartColdConfig_canonical]

theorem msixWrite_canonical {v i w : Nat} {s : State} (h : s.host.canonical = true) :
    (msixWrite v i w s).host.canonical = true := by
  unfold msixWrite
  split
  · exact maskVector_canonical h
  · exact h

theorem bar0Write_canonical {off w : Nat} {s : State} (h : s.host.canonical = true) :
    (bar0Write off w s).host.canonical = true := by
  unfold bar0Write
  dsimp only
  repeat' split
  · exact giveBollards_canonical h
  · exact rawControl_canonical h
  · exact mbWriteArea_canonical h
  · exact h
  · exact mbDoorbell_canonical h
  · exact mbRelease_canonical h
  · exact clearCauses_canonical h
  · exact msixWrite_canonical h
  · exact rawWrite_canonical h
  · exact h
  · exact h

theorem configWrite_canonical {r : ConfigReg} {w : Nat} {s : State} (h : s.host.canonical = true) :
    (configWrite r w s).host.canonical = true := by
  unfold configWrite; grind -ring -linarith [controlMsix_canonical]

theorem hostWrite_canonical {place : HostPlace} {w : Nat} {s : State} (h : s.host.canonical = true) :
    (hostWrite place w s).host.canonical = true := by
  unfold hostWrite; grind -ring -linarith [bar0Write_canonical, configWrite_canonical]

theorem execRawWindowAccess_canonical {place : HostPlace} {data : Option Word32} {s : State} {t : State}
    (e : execRawWindowAccess place data s = .next t)
    (h : s.host.canonical = true) : t.host.canonical = true := by
  obtain rfl := Host.Outcome.next.inj e
  split
  · exact hostWrite_canonical h
  · exact h

/-! ### The operations of Machine/Requests -/

theorem execRead_canonical {p : Path} {q : Request} {s : State} {t : State} (e : execRead p q s = .next t)
    (h : s.host.canonical = true) : t.host.canonical = true := by
  unfold execRead at e; grind -ring -linarith [serveBy_canonical]

theorem execWrite_canonical {p : Path} {q : Request} {s : State} {t : State} (e : execWrite p q s = .next t)
    (h : s.host.canonical = true) : t.host.canonical = true := by
  unfold execWrite at e; grind -ring -linarith [serveBy_canonical]

theorem execReadSeg_canonical {p : Path} {q : Request} {s : State} {t : State} (e : execReadSeg p q s = .next t)
    (h : s.host.canonical = true) : t.host.canonical = true := by
  unfold execReadSeg at e; grind -ring -linarith [serveBy_canonical]

theorem execWriteSeg_canonical {p : Path} {q : Request} {s : State} {t : State} (e : execWriteSeg p q s = .next t)
    (h : s.host.canonical = true) : t.host.canonical = true := by
  unfold execWriteSeg at e; grind -ring -linarith [serveBy_canonical]

theorem execDescribe_canonical {p : Path} {q : Request} {s : State} {t : State} (e : execDescribe p q s = .next t)
    (h : s.host.canonical = true) : t.host.canonical = true := by
  unfold execDescribe at e; grind -ring -linarith [serveBy_canonical]

theorem execNop_canonical {p : Path} {q : Request} {s : State} {t : State} (e : execNop p q s = .next t)
    (h : s.host.canonical = true) : t.host.canonical = true := by
  unfold execNop at e; grind -ring -linarith [serveBy_canonical]

theorem clientWrite_canonical {c : Client} {index sub inst : Nat} {value : List Byte} {s : State}
    (h : s.host.canonical = true) :
    (clientWrite c index sub inst value s).host.canonical = true := by
  unfold clientWrite; grind -ring -linarith [serveBy_canonical]

theorem execCommitNow_canonical {c : Client} {g : BitVec 8} {inst : BitVec 16} {s : State} {t : State}
    (e : execCommitNow c g inst s = .next t)
    (h : s.host.canonical = true) : t.host.canonical = true := by
  unfold execCommitNow at e; grind -ring -linarith [clientWrite_canonical]

theorem execCommitAtSchedTime_canonical {c : Client} {g : BitVec 8} {inst : BitVec 16} {s : State} {t : State}
    (e : execCommitAtSchedTime c g inst s = .next t)
    (h : s.host.canonical = true) : t.host.canonical = true := by
  unfold execCommitAtSchedTime at e; grind -ring -linarith [clientWrite_canonical]

theorem execAbort_canonical {c : Client} {g : BitVec 8} {inst : BitVec 16} {value : Byte} {s : State} {t : State}
    (e : execAbort c g inst value s = .next t)
    (h : s.host.canonical = true) : t.host.canonical = true := by
  unfold execAbort at e; grind -ring -linarith [clientWrite_canonical]

theorem execVendorUnlock_canonical {c : Client} {token : List Byte} {s : State} {t : State}
    (e : execVendorUnlock c token s = .next t)
    (h : s.host.canonical = true) : t.host.canonical = true := by
  unfold execVendorUnlock at e; grind -ring -linarith [serveBy_canonical]

theorem execVendorLock_canonical {c : Client} {value : Byte} {s : State} {t : State}
    (e : execVendorLock c value s = .next t)
    (h : s.host.canonical = true) : t.host.canonical = true := by
  unfold execVendorLock at e; grind -ring -linarith [clientWrite_canonical]

theorem execRingDisable_canonical {c : Client} {r : Ring} {s : State} {t : State}
    (e : execRingDisable c r s = .next t)
    (h : s.host.canonical = true) : t.host.canonical = true := by
  unfold execRingDisable at e; grind -ring -linarith [clientWrite_canonical]

theorem execLinkHoldNsWrite_canonical {c : Client} {port : FrontPort} {value : Word64} {s : State} {t : State}
    (e : execLinkHoldNsWrite c port value s = .next t)
    (h : s.host.canonical = true) : t.host.canonical = true := by
  unfold execLinkHoldNsWrite at e; grind -ring -linarith [clientWrite_canonical]

theorem execUcodeLoad_canonical {c : Client} {p : Pipe} {range : Word64} {s : State} {t : State}
    (e : execUcodeLoad c p range s = .next t)
    (h : s.host.canonical = true) : t.host.canonical = true := by
  unfold execUcodeLoad at e; grind -ring -linarith [clientWrite_canonical]

theorem execClusterFence_canonical {c : Option Client} {cl : ClusterId} {s : State} {t : State}
    (e : execClusterFence c cl s = .next t)
    (h : s.host.canonical = true) : t.host.canonical = true := by
  unfold execClusterFence at e; grind -ring -linarith [clientWrite_canonical, fenceCluster_canonical]

theorem execClusterUnfence_canonical {c : Client} {cl : ClusterId} {s : State} {t : State}
    (e : execClusterUnfence c cl s = .next t)
    (h : s.host.canonical = true) : t.host.canonical = true := by
  unfold execClusterUnfence at e; grind -ring -linarith [clientWrite_canonical]

theorem execReqPriorityWrite_canonical {c : Client} {limit : Bool} {rr : BitVec 8} {d : Deck} {value : Byte}
    {s : State} {t : State} (e : execReqPriorityWrite c limit rr d value s = .next t)
    (h : s.host.canonical = true) : t.host.canonical = true := by
  unfold execReqPriorityWrite at e; grind -ring -linarith [clientWrite_canonical]

theorem execSpareRequest_canonical {c : Client} {pc : Pc} {s : State} {t : State}
    (e : execSpareRequest c pc s = .next t)
    (h : s.host.canonical = true) : t.host.canonical = true := by
  unfold execSpareRequest at e; grind -ring -linarith [clientWrite_canonical]

theorem execTimeIncrementWrite_canonical {c : Client} {value : Word64} {s : State} {t : State}
    (e : execTimeIncrementWrite c value s = .next t)
    (h : s.host.canonical = true) : t.host.canonical = true := by
  unfold execTimeIncrementWrite at e; grind -ring -linarith [clientWrite_canonical]

theorem execTimeStep_canonical {c : Client} {value : Word64} {s : State} {t : State}
    (e : execTimeStep c value s = .next t)
    (h : s.host.canonical = true) : t.host.canonical = true := by
  unfold execTimeStep at e; grind -ring -linarith [clientWrite_canonical]

theorem execTimeForcedStep_canonical {c : Client} {value : Word64} {s : State} {t : State}
    (e : execTimeForcedStep c value s = .next t)
    (h : s.host.canonical = true) : t.host.canonical = true := by
  unfold execTimeForcedStep at e; grind -ring -linarith [clientWrite_canonical]

theorem execTimeSet_canonical {c : Client} {value : BitVec 80} {s : State} {t : State}
    (e : execTimeSet c value s = .next t)
    (h : s.host.canonical = true) : t.host.canonical = true := by
  unfold execTimeSet at e; grind -ring -linarith [clientWrite_canonical]

theorem execCaptureRead_canonical {c : Client} {n : Fin 4} {s : State} {t : State}
    (e : execCaptureRead c n s = .next t)
    (h : s.host.canonical = true) : t.host.canonical = true := by
  unfold execCaptureRead at e; grind -ring -linarith [serveBy_canonical]

theorem execAcpProxyRequest_canonical {c : Client} {j : Fin 64} {value : List Byte} {s : State} {t : State}
    (e : execAcpProxyRequest c j value s = .next t)
    (h : s.host.canonical = true) : t.host.canonical = true := by
  unfold execAcpProxyRequest at e; grind -ring -linarith [serveBy_canonical]

theorem execRollbackAdvance_canonical {c : Client} {value : Byte} {s : State} {t : State}
    (e : execRollbackAdvance c value s = .next t)
    (h : s.host.canonical = true) : t.host.canonical = true := by
  unfold execRollbackAdvance at e; grind -ring -linarith [clientWrite_canonical]

theorem execKeelWrite_canonical {c : Client} {index inst : BitVec 16} {value : Word32} {s : State} {t : State}
    (e : execKeelWrite c index inst value s = .next t)
    (h : s.host.canonical = true) : t.host.canonical = true := by
  unfold execKeelWrite at e; grind -ring -linarith [clientWrite_canonical]

theorem execPilotRestart_canonical {c : Client} {d : Deck} {value : Byte} {s : State} {t : State}
    (e : execPilotRestart c d value s = .next t)
    (h : s.host.canonical = true) : t.host.canonical = true := by
  unfold execPilotRestart at e; grind -ring -linarith [clientWrite_canonical]

theorem execFwLoad_canonical {c : Client} {range : Word64} {s : State} {t : State}
    (e : execFwLoad c range s = .next t)
    (h : s.host.canonical = true) : t.host.canonical = true := by
  unfold execFwLoad at e; grind -ring -linarith [clientWrite_canonical]

theorem execFwUpdateAbort_canonical {c : Client} {value : Byte} {s : State} {t : State}
    (e : execFwUpdateAbort c value s = .next t)
    (h : s.host.canonical = true) : t.host.canonical = true := by
  unfold execFwUpdateAbort at e; grind -ring -linarith [clientWrite_canonical]

theorem execDeckRetire_canonical {c : Client} {d : Deck} {value : Byte} {s : State} {t : State}
    (e : execDeckRetire c d value s = .next t)
    (h : s.host.canonical = true) : t.host.canonical = true := by
  unfold execDeckRetire at e; grind -ring -linarith [clientWrite_canonical]

theorem execSnapshot_canonical {c : Client} {value : Word32} {s : State} {t : State}
    (e : execSnapshot c value s = .next t)
    (h : s.host.canonical = true) : t.host.canonical = true := by
  unfold execSnapshot at e; grind -ring -linarith [clientWrite_canonical]

theorem execChain_canonical {c : Client} {d : Deck} {code : BitVec 16} {value : Byte} {s : State} {t : State}
    (e : execChain c d code value s = .next t)
    (h : s.host.canonical = true) : t.host.canonical = true := by
  unfold execChain at e; grind -ring -linarith [clientWrite_canonical]

theorem execTestChallenge_canonical {c : Client} {s : State} {t : State} (e : execTestChallenge c s = .next t)
    (h : s.host.canonical = true) : t.host.canonical = true := by
  unfold execTestChallenge at e; grind -ring -linarith [serveBy_canonical]

theorem execTestUnlock_canonical {c : Client} {value : Word32} {s : State} {t : State}
    (e : execTestUnlock c value s = .next t)
    (h : s.host.canonical = true) : t.host.canonical = true := by
  unfold execTestUnlock at e; grind -ring -linarith [clientWrite_canonical]

theorem execIntPinCauseClear_canonical {c : Client} {value : Byte} {s : State} {t : State}
    (e : execIntPinCauseClear c value s = .next t)
    (h : s.host.canonical = true) : t.host.canonical = true := by
  unfold execIntPinCauseClear at e; grind -ring -linarith [clientWrite_canonical]

/-! ### The operations of Machine/Tick -/

theorem countIdle_canonical {s : State} {p : Nat} (h : s.host.canonical = true) :
    (countIdle s p).host.canonical = true := by
  unfold countIdle; grind -ring -linarith [State.add_host]

theorem tick_canonical {s : State} (h : s.host.canonical = true) :
    (tick s).host.canonical = true := by
  unfold tick
  grind -ring -linarith [noteIdle_canonical, switchDue_canonical, timeTick_canonical, noteOverruns_canonical,
    hbmTick_canonical, countIdle_canonical, foldl_canonical]

/-! ### The operations of Machine/Step -/

theorem State.withFetchWord_canonical {s : State} {nbits w : Nat} (h : s.host.canonical = true) :
    (State.withFetchWord s nbits w).host.canonical = true := by
  unfold State.withFetchWord; grind -ring -linarith

/-! ### The step -/

/-- A command that completes keeps the byte memories canonical. -/
theorem exec_canonical {i : Instr} {s t : State} (e : exec i s = .next t) (h : s.host.canonical = true) :
    t.host.canonical = true := by
  cases i with
  | read p q => exact execRead_canonical e h
  | write p q => exact execWrite_canonical e h
  | readSeg p q => exact execReadSeg_canonical e h
  | writeSeg p q => exact execWriteSeg_canonical e h
  | describe p q => exact execDescribe_canonical e h
  | nop p q => exact execNop_canonical e h
  | commitNow c g inst => exact execCommitNow_canonical e h
  | commitAtSchedTime c g inst => exact execCommitAtSchedTime_canonical e h
  | commitValidated g inst => exact execCommitValidated_canonical e h
  | commitSwitchover g inst => exact execCommitSwitchover_canonical e h
  | abort c g inst value => exact execAbort_canonical e h
  | stageExpired g inst => exact execStageExpired_canonical e h
  | vendorUnlock c token => exact execVendorUnlock_canonical e h
  | vendorLock c value => exact execVendorLock_canonical e h
  | eventsSuppressed => exact execEventsSuppressed_canonical e h
  | mbDoorbell value area => exact execMbDoorbell_canonical e h
  | mbRelease value => exact execMbRelease_canonical e h
  | mbResponseReady slot => exact execMbResponseReady_canonical e h
  | mailboxUnserved slot => exact execMailboxUnserved_canonical e h
  | twoWireRequest bytes => exact execTwoWireRequest_canonical e h
  | twoWireResponse => exact execTwoWireResponse_canonical e h
  | twoWireUnserved => exact execTwoWireUnserved_canonical e h
  | sclStuckTimeout => exact execSclStuckTimeout_canonical e h
  | alertResponseRead => exact execAlertResponseRead_canonical e h
  | bollardGive value => exact execBollardGive_canonical e h
  | hostBar2Read offset => exact execHostBar2Read_canonical e h
  | hostBar2Write offset data => exact execHostBar2Write_canonical e h
  | pcieReset kind => exact execPcieReset_canonical e h
  | pcieLinkDown => exact execPcieLinkDown_canonical e h
  | pciePerst high => exact execPciePerst_canonical e h
  | vectorCauseClear upper value => exact execVectorCauseClear_canonical e h
  | msixUnmask v => exact execMsixUnmask_canonical e h
  | ringFlush r => exact execRingFlush_canonical e h
  | ringDisable c r => exact execRingDisable_canonical e h
  | injectRecord k => exact execInjectRecord_canonical e h
  | tableRequest k => exact execTableRequest_canonical e h
  | lockBroken table inst index => exact execLockBroken_canonical e h
  | rawWindowOpen value => exact execRawWindowOpen_canonical e h
  | rawWindowClose => exact execRawWindowClose_canonical e h
  | restartWarm => exact execRestartWarm_canonical e h
  | restartCold => exact execRestartCold_canonical e h
  | restartColdConfig => exact execRestartColdConfig_canonical e h
  | rawWindowAccess place data => exact execRawWindowAccess_canonical e h
  | feErase => exact execFeErase_canonical e h
  | feProgram => exact execFeProgram_canonical e h
  | feDone ok => exact execFeDone_canonical e h
  | rxFaultBegin port cause => exact execRxFaultBegin_canonical e h
  | alignmentAcquired port => exact execAlignmentAcquired_canonical e h
  | trainingFailed port => exact execTrainingFailed_canonical e h
  | linkDown port => exact execLinkDown_canonical e h
  | linkUp port => exact execLinkUp_canonical e h
  | holdExpired port => exact execHoldExpired_canonical e h
  | linkHoldNsWrite c port value => exact execLinkHoldNsWrite_canonical e h
  | fecUncorrected port corrected uncorrected => exact execFecUncorrected_canonical e h
  | frameFirstCell port data => exact execFrameFirstCell_canonical e h
  | frameCell f data => exact execFrameCell_canonical e h
  | frameTailRx f fcs => exact execFrameTailRx_canonical e h
  | macControlRx port data => exact execMacControlRx_canonical e h
  | pfcPauseExpired port priority => exact execPfcPauseExpired_canonical e h
  | lpiEnter port => exact execLpiEnter_canonical e h
  | lpiWakeDone port => exact execLpiWakeDone_canonical e h
  | parseDispatch f e => exact execParseDispatch_canonical e h
  | microNop e => exact execMicroNop_canonical e h
  | extract e => exact execExtract_canonical e h
  | movi e => exact execMovi_canonical e h
  | movhi e => exact execMovhi_canonical e h
  | add e => exact execAdd_canonical e h
  | addi e => exact execAddi_canonical e h
  | sub e => exact execSub_canonical e h
  | and e => exact execAnd_canonical e h
  | or e => exact execOr_canonical e h
  | xor e => exact execXor_canonical e h
  | andi e => exact execAndi_canonical e h
  | ori e => exact execOri_canonical e h
  | shl e => exact execShl_canonical e h
  | shr e => exact execShr_canonical e h
  | cmp e => exact execCmp_canonical e h
  | cmpi e => exact execCmpi_canonical e h
  | lookup e => exact execLookup_canonical e h
  | hashadd e => exact execHashadd_canonical e h
  | keyL3 e => exact execKeyL3_canonical e h
  | keyL4 e => exact execKeyL4_canonical e h
  | setres e => exact execSetres_canonical e h
  | mark e => exact execMark_canonical e h
  | rewrite e => exact execRewrite_canonical e h
  | push e => exact execPush_canonical e h
  | pop e => exact execPop_canonical e h
  | csum4 e => exact execCsum4_canonical e h
  | curset e => exact execCurset_canonical e h
  | xwin e => exact execXwin_canonical e h
  | rdsave e => exact execRdsave_canonical e h
  | wrsave e => exact execWrsave_canonical e h
  | punt e => exact execPunt_canonical e h
  | drop e => exact execDrop_canonical e h
  | branch e => exact execBranch_canonical e h
  | call e => exact execCall_canonical e h
  | ret e => exact execRet_canonical e h
  | end_ e => exact execEnd_canonical e h
  | trapReturn e => exact execTrapReturn_canonical e h
  | restart e => exact execRestart_canonical e h
  | lookupResult e first => exact execLookupResult_canonical e h
  | lookupTimeout e first => exact execLookupTimeout_canonical e h
  | trapEntry e => exact execTrapEntry_canonical e h
  | cycleLimit e => exact execCycleLimit_canonical e h
  | controlStoreRepair cl aft addr => exact execControlStoreRepair_canonical e h
  | scrubPass p => exact execScrubPass_canonical e h
  | ucodeLoad c p range => exact execUcodeLoad_canonical e h
  | ucodeLoaded p readBackFails => exact execUcodeLoaded_canonical e h
  | clusterFence c cl => exact execClusterFence_canonical e h
  | clusterUnfence c cl => exact execClusterUnfence_canonical e h
  | clusterRestored cl => exact execClusterRestored_canonical e h
  | homeLearn p => exact execHomeLearn_canonical e h
  | fdbSweep p => exact execFdbSweep_canonical e h
  | rehashPass p => exact execRehashPass_canonical e h
  | homeStageFrame p f => exact execHomeStageFrame_canonical e h
  | homeLookupData p f => exact execHomeLookupData_canonical e h
  | steeredResolve p f => exact execSteeredResolve_canonical e h
  | frameTailHome p f => exact execFrameTailHome_canonical e h
  | natColumnOperation op => exact execNatColumnOperation_canonical e h
  | eviction p => exact execEviction_canonical e h
  | relocationPass p => exact execRelocationPass_canonical e h
  | groupFlipFinish p => exact execGroupFlipFinish_canonical e h
  | flowSweepPass p => exact execFlowSweepPass_canonical e h
  | consultRequest p f => exact execConsultRequest_canonical e h
  | recordTransfer p slot => exact execRecordTransfer_canonical e h
  | transferAck p slot => exact execTransferAck_canonical e h
  | migrationWalk p => exact execMigrationWalk_canonical e h
  | exportFlush p => exact execExportFlush_canonical e h
  | exportTemplate p => exact execExportTemplate_canonical e h
  | slotSend d => exact execSlotSend_canonical e h
  | slotRetry d => exact execSlotRetry_canonical e h
  | cellLand src dst f => exact execCellLand_canonical e h
  | freeCountReport => exact execFreeCountReport_canonical e h
  | reseqHead f => exact execReseqHead_canonical e h
  | holeNotice port index => exact execHoleNotice_canonical e h
  | reseqTimeout port redirect stampPipe cls => exact execReseqTimeout_canonical e h
  | creditSend port redirect stampPipe cls n => exact execCreditSend_canonical e h
  | credit p index => exact execCredit_canonical e h
  | mcastCopyArrive f d => exact execMcastCopyArrive_canonical e h
  | residueServe d index => exact execResidueServe_canonical e h
  | residueAged d index => exact execResidueAged_canonical e h
  | enqueue f => exact execEnqueue_canonical e h
  | selection port => exact execSelection_canonical e h
  | txStartBoundary port => exact execTxStartBoundary_canonical e h
  | txEnd port => exact execTxEnd_canonical e h
  | gateEntryChange port => exact execGateEntryChange_canonical e h
  | gateConfigChanged port => exact execGateConfigChanged_canonical e h
  | pfcRefresh port => exact execPfcRefresh_canonical e h
  | hbmRequest pc r write burst => exact execHbmRequest_canonical e h
  | burstComplete pc ecc => exact execBurstComplete_canonical e h
  | writeDrainTimeout pc => exact execWriteDrainTimeout_canonical e h
  | refreshDue pc => exact execRefreshDue_canonical e h
  | hbmTempRead d celsius => exact execHbmTempRead_canonical e h
  | reqPriorityWrite c limit rr d value => exact execReqPriorityWrite_canonical e h
  | patrolScrub d ecc => exact execPatrolScrub_canonical e h
  | spareRequest c pc => exact execSpareRequest_canonical e h
  | spareDone pc => exact execSpareDone_canonical e h
  | retrainStep pc failedLane redundantLeft => exact execRetrainStep_canonical e h
  | timeIncrementWrite c value => exact execTimeIncrementWrite_canonical e h
  | timeStep c value => exact execTimeStep_canonical e h
  | timeHoldEnd => exact execTimeHoldEnd_canonical e h
  | timeForcedStep c value => exact execTimeForcedStep_canonical e h
  | timeSet c value => exact execTimeSet_canonical e h
  | ptpMessageRx port m => exact execPtpMessageRx_canonical e h
  | ptpMessageTx port => exact execPtpMessageTx_canonical e h
  | timeSourceResumed port => exact execTimeSourceResumed_canonical e h
  | triggerEdge n => exact execTriggerEdge_canonical e h
  | triggerPulseEnd n => exact execTriggerPulseEnd_canonical e h
  | captureEdge n falling => exact execCaptureEdge_canonical e h
  | captureRead c n => exact execCaptureRead_canonical e h
  | helloTx port => exact execHelloTx_canonical e h
  | helloRx port frame => exact execHelloRx_canonical e h
  | adjDead port => exact execAdjDead_canonical e h
  | claimRx port frame => exact execClaimRx_canonical e h
  | defendRx port frame => exact execDefendRx_canonical e h
  | claimWaitEnd => exact execClaimWaitEnd_canonical e h
  | lsaRx port frame => exact execLsaRx_canonical e h
  | lsaOriginate => exact execLsaOriginate_canonical e h
  | lsaAgeOut origin => exact execLsaAgeOut_canonical e h
  | routeCompute => exact execRouteCompute_canonical e h
  | acpRequest port frame => exact execAcpRequest_canonical e h
  | acpResponse port frame => exact execAcpResponse_canonical e h
  | acpProxyRequest c j value => exact execAcpProxyRequest_canonical e h
  | acpProxyTimeout j => exact execAcpProxyTimeout_canonical e h
  | acpKeyGraceEnd slot => exact execAcpKeyGraceEnd_canonical e h
  | refclkLost bit returned => exact execRefclkLost_canonical e h
  | dozeEnter => exact execDozeEnter_canonical e h
  | moorEnter => exact execMoorEnter_canonical e h
  | moorEntryStepDone => exact execMoorEntryStepDone_canonical e h
  | wake cause => exact execWake_canonical e h
  | wakeStepDone => exact execWakeStepDone_canonical e h
  | landingPfcRefresh d => exact execLandingPfcRefresh_canonical e h
  | gangwayEventAck g => exact execGangwayEventAck_canonical e h
  | gangwayTimeout g destinationSilent handshake => exact execGangwayTimeout_canonical e h
  | gangwaySideReset g destination => exact execGangwaySideReset_canonical e h
  | gangwayResync g => exact execGangwayResync_canonical e h
  | bootStart straps => exact execBootStart_canonical e h
  | sysReset lowNs => exact execSysReset_canonical e h
  | bootStageDone found => exact execBootStageDone_canonical e h
  | configRecord => exact execConfigRecord_canonical e h
  | rollbackAdvance c value => exact execRollbackAdvance_canonical e h
  | keelWrite c index inst value => exact execKeelWrite_canonical e h
  | keelWritten => exact execKeelWritten_canonical e h
  | heartbeat d => exact execHeartbeat_canonical e h
  | pilotFailed d cause => exact execPilotFailed_canonical e h
  | deckAdopt d => exact execDeckAdopt_canonical e h
  | pilotRelease d => exact execPilotRelease_canonical e h
  | pilotRestarted d => exact execPilotRestarted_canonical e h
  | pilotRestart c d value => exact execPilotRestart_canonical e h
  | allPilotsDown => exact execAllPilotsDown_canonical e h
  | fwLoad c range => exact execFwLoad_canonical e h
  | fwCheckDone => exact execFwCheckDone_canonical e h
  | fwFlashDone => exact execFwFlashDone_canonical e h
  | fwUpdateAbort c value => exact execFwUpdateAbort_canonical e h
  | sramScrub p a ecc => exact execSramScrub_canonical e h
  | poisonRepair d => exact execPoisonRepair_canonical e h
  | directionRetrain d => exact execDirectionRetrain_canonical e h
  | directionRetrainDone d ok => exact execDirectionRetrainDone_canonical e h
  | directionRetry d => exact execDirectionRetry_canonical e h
  | pllUnlock d pll => exact execPllUnlock_canonical e h
  | pllRelockTimeout d pll => exact execPllRelockTimeout_canonical e h
  | deckRetire c d value => exact execDeckRetire_canonical e h
  | lostDeckRehome => exact execLostDeckRehome_canonical e h
  | snapshot c value => exact execSnapshot_canonical e h
  | chain c d code value => exact execChain_canonical e h
  | bwWindowEnd => exact execBwWindowEnd_canonical e h
  | testChallenge c => exact execTestChallenge_canonical e h
  | testUnlock c value => exact execTestUnlock_canonical e h
  | testLocked => exact execTestLocked_canonical e h
  | powerLoss cause => exact execPowerLoss_canonical e h
  | supplyOutOfRange rail millivolt => exact execSupplyOutOfRange_canonical e h
  | junctionTempRead milliC => exact execJunctionTempRead_canonical e h
  | thermalShutdown => exact execThermalShutdown_canonical e h
  | intPinCauseClear c value => exact execIntPinCauseClear_canonical e h
  | bypass => exact execBypass_canonical e h
  | idcode => exact execIdcode_canonical e h
  | samplePreload => exact execSamplePreload_canonical e h
  | extest lanes => exact execExtest_canonical e h
  | extestPulse lanes => exact execExtestPulse_canonical e h
  | extestTrain lanes => exact execExtestTrain_canonical e h
  | clamp lanes => exact execClamp_canonical e h
  | highz lanes => exact execHighz_canonical e h
  | acpUnserved index => exact execAcpUnserved_canonical e h
  | fwRestartTimeout d => exact execFwRestartTimeout_canonical e h
  | pllRelocked d pll => exact execPllRelocked_canonical e h
  | twoWireResponseReady => exact execTwoWireResponseReady_canonical e h
  | rollbackAdvanced => exact execRollbackAdvanced_canonical e h
  | vddioReturned => exact execVddioReturned_canonical e h

/-- Settles O57: each command keeps the canonical form, as does a tick; the rest of the queue is no memory. -/
theorem stepsKeepTheMemoriesCanonical : Obligations.StepsKeepTheMemoriesCanonical := by
  intro s t h e
  unfold step at e
  split at e
  · obtain rfl := Host.Outcome.next.inj e
    exact tick_canonical h
  · exact exec_canonical e h

end Sys2Proof.Machine
end
section
/-! SUPPORT. The step, the reset state and the completion of every command. -/

namespace Sys2Proof.Machine

/-- Settles O1: the two cases of the queue are the two arms of the step. -/
theorem stepRunsFrontCommand : Obligations.StepRunsFrontCommand := by
  intro s
  constructor
  · intro c rest h
    simp only [step, h]
  · intro h
    simp only [step, h]

/-- Settles O2: the reset state lists nothing, so every read falls to its default. -/
theorem resetHoldsDefaults : Obligations.ResetHoldsDefaults :=
  ⟨⟨rfl, rfl, fun _ _ _ => rfl, fun _ _ => rfl, fun _ _ => rfl, rfl, rfl, rfl⟩, rfl, rfl, rfl, rfl, rfl⟩

/-- Settles O56: each command's meaning is a next state, whatever the state. -/
theorem everyCommandCompletes : Obligations.EveryCommandCompletes := by
  intro i s
  cases i <;> exact ⟨_, rfl⟩

end Sys2Proof.Machine
end
section
/-! SUPPORT. Reading objects after writes: an object of another number keeps its value, and the updates of the state
that are no write of an object keep every value. -/

namespace Sys2Proof.Machine

/-- Two objects of the dictionary with different numbers. -/
def ObjRow.apart (o o' : ObjRow) : Bool :=
  decide (o.sub < 256) && decide (o'.sub < 256) && (o.index != o'.index || o.sub != o'.sub)

theorem ObjRow.apart_addrKey {o o' : ObjRow} (h : o'.apart o = true) {n n' : Nat} (hn : n < 65536) (hn' : n' < 65536) :
    addrKey o'.index o'.sub n' ≠ addrKey o.index o.sub n := by
  simp only [ObjRow.apart, Bool.and_eq_true, Bool.or_eq_true, decide_eq_true_eq, bne_iff_ne] at h
  obtain ⟨⟨hb', hb⟩, h⟩ := h
  intro e
  obtain ⟨hi, hs, -⟩ := addrKey_inj hb' hb hn' hn e
  exact h.elim (· hi) (· hs)

/-- A write of an object leaves an object of another number alone. -/
theorem State.get_set_apart (s : State) {o o' : ObjRow} (h : o'.apart o = true) {n n' : Nat} (v : Nat) (hn : n < 65536)
    (hn' : n' < 65536) : (s.set o n v).get o' n' = s.get o' n' :=
  State.get_set _ _ _ _ _ _ (ObjRow.apart_addrKey h hn hn')

/-- A write at one subindex leaves the objects of every other index alone. -/
theorem State.getS_setS_index (s : State) {o o' : ObjRow} (h : o'.index ≠ o.index) {b b' n n' : Nat} (v : Nat)
    (hb : b < 256) (hn : n < 65536) (hb' : b' < 256) (hn' : n' < 65536) :
    (s.setS o b n v).getS o' b' n' = s.getS o' b' n' :=
  State.getS_setS _ _ _ _ _ _ _ _ fun e => h (addrKey_inj hb' hb hn' hn e).1

/-- A write of one element of an object leaves the other elements alone. -/
theorem State.get_set_inst (s : State) (o : ObjRow) {n n' : Nat} (v : Nat) (h : n' ≠ n) :
    (s.set o n v).get o n' = s.get o n' :=
  State.get_set _ _ _ _ _ _ fun e => h (by unfold addrKey at e; omega)

theorem State.get_bump_apart (s : State) {o o' : ObjRow} (h : o'.apart o = true) {n n' : Nat} (hn : n < 65536)
    (hn' : n' < 65536) : (s.bump o n).get o' n' = s.get o' n' := State.get_set_apart s h _ hn hn'

section
variable (s : State) (o : ObjRow) (n : Nat)

@[simp] theorem State.withEvents_get (x : Events) : (s.withEvents x).get o n = s.get o n := rfl
@[simp] theorem State.withHost_get (x : HostIf) : (s.withHost x).get o n = s.get o n := rfl
@[simp] theorem State.withTw_get (x : TwoWire) : (s.withTw x).get o n = s.get o n := rfl
@[simp] theorem State.withTime_get (x : Time) : (s.withTime x).get o n = s.get o n := rfl
@[simp] theorem State.withParse_get (x : Parse) : (s.withParse x).get o n = s.get o n := rfl
@[simp] theorem State.withFlow_get (x : Flow) : (s.withFlow x).get o n = s.get o n := rfl
@[simp] theorem State.withCross_get (x : Crossing) : (s.withCross x).get o n = s.get o n := rfl
@[simp] theorem State.withHbm_get (x : Hbm) : (s.withHbm x).get o n = s.get o n := rfl
@[simp] theorem State.withFabric_get (x : Fabric) : (s.withFabric x).get o n = s.get o n := rfl
@[simp] theorem State.withSleep_get (x : Sleep) : (s.withSleep x).get o n = s.get o n := rfl
@[simp] theorem State.withBoot_get (x : Boot) : (s.withBoot x).get o n = s.get o n := rfl
@[simp] theorem State.withAvail_get (x : Avail) : (s.withAvail x).get o n = s.get o n := rfl
@[simp] theorem State.withCount_get (x : Count) : (s.withCount x).get o n = s.get o n := rfl
@[simp] theorem State.withPower_get (x : Power) : (s.withPower x).get o n = s.get o n := rfl
@[simp] theorem State.setLink_get (p : Nat) (x : PortLink) : (s.setLink p x).get o n = s.get o n := rfl
@[simp] theorem State.setFrame_get (f : FrameId) (x : Frame) : (s.setFrame f x).get o n = s.get o n := rfl
@[simp] theorem State.freeFrame_get (f : FrameId) : (s.freeFrame f).get o n = s.get o n := rfl
@[simp] theorem State.setBollard_get (page v : Nat) : (s.setBollard page v).get o n = s.get o n := rfl
@[simp] theorem State.setGroup_get (g i : Nat) (x : GroupInst) : (s.setGroup g i x).get o n = s.get o n := rfl
@[simp] theorem State.setSlot_get (k : Nat) (x : MbSlot) : (s.setSlot k x).get o n = s.get o n := rfl

end

/-- Setting a cause of INT_N leaves every other object alone. -/
theorem setPinCause_get (s : State) (i : Nat) {o : ObjRow} {n : Nat} (h : o.apart Obj.intPinCause = true)
    (hn : n < 65536) : (setPinCause i s).get o n = s.get o n := State.get_set_apart s h _ (by decide) hn

/-- Marking a request as taken changes no object. -/
@[simp] theorem State.takenBy_get (s : State) (p : Path) (o : ObjRow) (n : Nat) : (s.takenBy p).get o n = s.get o n :=
  State.get_congr (congrArg Dict.active (State.takenBy_dict ..)) o n

end Sys2Proof.Machine
end

section
/-! SUPPORT. A client's write in its turn (R51, R62): the checks that depend on the object's row alone, once for every
object that a client writes directly, so that a command's proof has only its effect left. -/

namespace Sys2Proof.Machine

/-- A write of the object passes the checks that its row decides: it may be written outside a group, and no lock, no
keel store, no group and no lost deck guards it. -/
def ObjRow.plain (o : ObjRow) : Bool :=
  decide (o.right ≠ .ro) && decide (o.right ≠ .rwg) && !o.ty.isDomain && (keelRow o.index).isNone &&
  !perturbIndex o.index && !controlIndex o.index && o.index != 0x9012 && o.index != 0x6870 &&
  !(decide (0x8800 ≤ o.index) && decide (o.index ≤ 0x8803)) && decide (o.ty.size < 65536)

/-- The value is one that the object can take (R45, R48, R51); a load checks its value itself. -/
def State.takes (s : State) (o : ObjRow) (sub inst v : Nat) : Prop :=
  loadIndex o.index = true ∨ (o.ty.inRange v = true ∧ o.ok v = true ∧ o.resv v = true ∧
    o.ty.reservedZero v = true ∧ s.disagrees o sub inst v = false)

/-- A client's write in its turn, of a value that its object takes, does what the object's rule says. -/
theorem clientWrite_plain {c : Client} {sub inst : Nat} {value : List Byte} {s : State} (o : ObjRow)
    (h : ClientMay c o.index sub inst value o.level s) (hrow : rowOf o.index sub = some o) (hp : o.plain = true)
    (hi : o.index < 65536) (hb : sub < 256) (hn : inst < 65536) (hk : o.kind.has inst = true)
    (hv : value.length = o.ty.size) (ht : (s.takenBy c.path).takes o sub inst (leNat value)) :
    clientWrite c o.index sub inst value s =
      (match writeEffect c.path c.tag o sub inst (leNat value) (s.takenBy c.path) with
       | (some st, t) => answer c.path (respond (writeReq c.tag o.index sub inst value) st) t
       | (none, t) => t) := by
  have ⟨_, _, booted⟩ := h
  simp only [ObjRow.plain, Bool.and_eq_true, Bool.not_eq_true', decide_eq_true_eq, bne_iff_ne, Option.isNone_iff_eq_none]
    at hp
  obtain ⟨⟨⟨⟨⟨⟨⟨⟨⟨hro, hrwg⟩, hdom⟩, hkeel⟩, hpert⟩, hctl⟩, h9012⟩, h6870⟩, hlost⟩, hsize⟩ := hp
  refine clientWrite_effect h o hrow rfl hi hb hn hv (hv ▸ hsize) hk ?_ hro hrwg hdom ?_
  · simp only [State.counterLost, Bool.decide_and, hlost, Bool.false_and]
  · exact writeCheck_plain hkeel hpert (busyFor_started booted h9012 h6870) hrwg hctl ht

/-- A client's write whose rule answers OK with an effect. -/
theorem clientWrites_plain {i : Instr} {c : Client} {sub inst : Nat} {value : List Byte} {s : State}
    {effect : State → State} (o : ObjRow) (hexec : exec i s = .next (clientWrite c o.index sub inst value s))
    (h : ClientMay c o.index sub inst value o.level s) (hrow : rowOf o.index sub = some o) (hp : o.plain = true)
    (hi : o.index < 65536) (hb : sub < 256) (hn : inst < 65536) (hk : o.kind.has inst = true)
    (hv : value.length = o.ty.size) (ht : (s.takenBy c.path).takes o sub inst (leNat value))
    (he : writeEffect c.path c.tag o sub inst (leNat value) (s.takenBy c.path) =
      (some St.ok, effect (s.takenBy c.path))) :
    ClientWrites i c o.index sub inst value s effect := by
  unfold ClientWrites
  rw [hexec, clientWrite_plain o h hrow hp hi hb hn hk hv ht, he]

/-- Every value of the width of an object is read back from its bytes. -/
theorem leNat_leBytes_of_lt {n v : Nat} (h : v < 256 ^ n) : leNat (leBytes n v) = v := by
  rw [leNat_leBytes, Nat.mod_eq_of_lt h]

theorem leNat_singleton (b : Byte) : leNat [b] = b.toNat := by simp [leNat]

end Sys2Proof.Machine
end

section
/-! SUPPORT. The junction sensors (R568, R569): the hottest of some readings, and the four passages of THERMAL_STATE. -/

namespace Sys2Proof.Machine

/-! ### The hottest reading -/

theorem hottest_mem {l : List (Nat × Int)} (h : l ≠ []) : hottest l ∈ l := by
  induction l with
  | nil => exact absurd rfl h
  | cons x l ih =>
    cases l with
    | nil => simp [hottest]
    | cons y l =>
      simp only [hottest]
      split
      · exact List.mem_cons_self
      · exact List.mem_cons_of_mem _ (ih (by simp))

theorem le_hottest {l : List (Nat × Int)} {x : Nat × Int} (h : x ∈ l) : x.2 ≤ (hottest l).2 := by
  induction l with
  | nil => cases h
  | cons y l ih =>
    cases l with
    | nil => simp_all [hottest]
    | cons z l =>
      simp only [hottest]
      split <;> rcases List.mem_cons.mp h with rfl | h
      · exact Int.le_refl _
      · exact Int.le_trans (ih h) ‹_›
      · omega
      · exact ih h

/-- A reading that no other exceeds is the hottest. -/
theorem hottest_eq {l : List (Nat × Int)} {top : Int} (hle : ∀ x ∈ l, x.2 ≤ top) (hmem : ∃ x ∈ l, x.2 = top) :
    (hottest l).2 = top := by
  obtain ⟨x, hx, rfl⟩ := hmem
  exact Int.le_antisymm (hle _ (hottest_mem (List.ne_nil_of_mem hx))) (le_hottest hx)

/-! ### Storing the readings -/

/-- The first `n` sensors' readings are stored. -/
def sensorsStored (f : Nat → Int) (n : Nat) (s : State) : State :=
  ((List.range n).map fun k => (k, f k)).foldl
    (fun s (e : Nat × Int) => s.set Obj.junctionTempMc e.1 (ofSigned 32 e.2)) s

theorem sensorsStored_succ (f : Nat → Int) (n : Nat) (s : State) :
    sensorsStored f (n + 1) s = (sensorsStored f n s).set Obj.junctionTempMc n (ofSigned 32 (f n)) := by
  simp [sensorsStored, List.range_succ]

theorem sensorsStored_reading (f : Nat → Int) (s : State) {k n : Nat} (h : k < n) :
    (sensorsStored f n s).get Obj.junctionTempMc k = ofSigned 32 (f k) := by
  induction n with
  | zero => omega
  | succ n ih =>
    rw [sensorsStored_succ]
    by_cases e : k = n
    · rw [e, State.get_set_same]
    · rw [State.get_set_inst _ _ _ e, ih (by omega)]

theorem sensorsStored_get (f : Nat → Int) (s : State) {n : Nat} (hn : n ≤ 65536) {o : ObjRow}
    (h : o.apart Obj.junctionTempMc = true) : (sensorsStored f n s).get o 0 = s.get o 0 := by
  induction n with
  | zero => rfl
  | succ n ih => rw [sensorsStored_succ, State.get_set_apart _ h _ (by omega) (by omega), ih (by omega)]

theorem sensorsStored_rest (f : Nat → Int) (n : Nat) (s : State) :
    sensorsStored f n s = s.withDict (sensorsStored f n s).dict := by
  induction n with
  | zero => rfl
  | succ n ih => rw [sensorsStored_succ, ih]; rfl

/-- Storing the readings and the hottest writes objects alone. -/
theorem sensorsStored_set_rest (f : Nat → Int) (n : Nat) (s : State) (o : ObjRow) (v : Nat) :
    (sensorsStored f n s).set o 0 v = s.withDict ((sensorsStored f n s).set o 0 v).dict := by
  rw [sensorsStored_rest]; rfl

/-! ### The passages of THERMAL_STATE -/

/-- The hottest sensor has reached THERMAL_WARN_C. -/
def warned (sensor : Nat) (mc : Int) (s : State) : State :=
  let s := (s.set Obj.thermalState 0 1).withPower { s.power with hotSince := s.time.ticks }
  raise Ev.thermalWarning sensor (ofSigned 32 mc) (ofSigned 64 (toSigned 32 (s.get Obj.thermalWarnC))) (setPinCause 2 s)

/-- The hottest sensor has reached THERMAL_TRIP_C. -/
def tripped (sensor : Nat) (mc : Int) (s : State) : State :=
  let s := (s.set Obj.thermalState 0 2).withPower { s.power with thermTrip := true }
  raise Ev.thermalTrip sensor (ofSigned 32 mc) (ofSigned 64 (toSigned 32 (s.get Obj.thermalTripC))) (setPinCause 3 s)

/-- The hottest sensor is below the warning with its hysteresis. -/
def cooled (mc : Int) (s : State) : State :=
  raise Ev.thermalNormal 0 (ofSigned 32 mc) (s.sinceNs s.power.hotSince) (s.set Obj.thermalState 0 0)

/-- The hottest sensor is below the trip with its hysteresis. -/
def untripped (s : State) : State :=
  (s.set Obj.thermalState 0 1).withPower { s.power with thermTrip := false }

section
variable (sensor : Nat) (mc : Int) (s : State)

/-- What a passage of THERMAL_STATE leaves: the new state and THERM_TRIP, and every object but it and the log's. -/
structure ThermalPassage (state : Nat) (trip : Bool) (s t : State) : Prop where
  state : t.get Obj.thermalState = state
  trip : t.power.thermTrip = trip
  frames : t.frames = s.frames
  objects : ∀ o n, o.apart Obj.thermalState = true → o.apart Obj.intPinCause = true → n < 65536 →
    loggingObject o.index o.sub n = false → t.get o n = s.get o n

theorem warned_passage : ThermalPassage 1 s.power.thermTrip s (warned sensor mc s) := by
  have hc : Ev.thermalWarning < 65536 := by decide
  refine ⟨?_, ?_, ?_, fun o n h h' hn hl => ?_⟩ <;> unfold warned
  · rw [raise_get _ _ _ _ _ hc _ _ (by decide) (by decide) rfl, setPinCause_get _ _ (by decide) (by decide)]
    simp
  · rw [raise_power _ _ _ _ _ hc]; rfl
  · rw [raise_frames _ _ _ _ _ hc]; rfl
  · rw [raise_get _ _ _ _ _ hc _ _ (by simp_all [ObjRow.apart]) hn hl, setPinCause_get _ _ h' hn, State.withPower_get,
      State.get_set_apart _ h _ (by decide) hn]

theorem tripped_passage : ThermalPassage 2 true s (tripped sensor mc s) := by
  have hc : Ev.thermalTrip < 65536 := by decide
  refine ⟨?_, ?_, ?_, fun o n h h' hn hl => ?_⟩ <;> unfold tripped
  · rw [raise_get _ _ _ _ _ hc _ _ (by decide) (by decide) rfl, setPinCause_get _ _ (by decide) (by decide)]
    simp
  · rw [raise_power _ _ _ _ _ hc]; rfl
  · rw [raise_frames _ _ _ _ _ hc]; rfl
  · rw [raise_get _ _ _ _ _ hc _ _ (by simp_all [ObjRow.apart]) hn hl, setPinCause_get _ _ h' hn, State.withPower_get,
      State.get_set_apart _ h _ (by decide) hn]

theorem cooled_passage : ThermalPassage 0 s.power.thermTrip s (cooled mc s) := by
  have hc : Ev.thermalNormal < 65536 := by decide
  refine ⟨?_, ?_, ?_, fun o n h h' hn hl => ?_⟩ <;> unfold cooled
  · rw [raise_get _ _ _ _ _ hc _ _ (by decide) (by decide) rfl, State.get_set_same]
  · rw [raise_power _ _ _ _ _ hc]; rfl
  · rw [raise_frames _ _ _ _ _ hc]; rfl
  · rw [raise_get _ _ _ _ _ hc _ _ (by simp_all [ObjRow.apart]) hn hl, State.get_set_apart _ h _ (by decide) hn]

theorem untripped_passage : ThermalPassage 1 false s (untripped s) :=
  ⟨State.get_set_same .., rfl, rfl, fun _ _ h _ hn _ => State.get_set_apart s h _ (by decide) hn⟩

theorem ThermalPassage.refl : ThermalPassage (s.get Obj.thermalState) s.power.thermTrip s s :=
  ⟨rfl, rfl, rfl, fun _ _ _ _ _ _ => rfl⟩

theorem ThermalPassage.trans {s t u : State} {m n : Nat} {a b : Bool} (h : ThermalPassage m a s t)
    (k : ThermalPassage n b t u) : ThermalPassage n b s u :=
  ⟨k.state, k.trip, k.frames.trans h.frames,
    fun o i ho hp hi hl => (k.objects o i ho hp hi hl).trans (h.objects o i ho hp hi hl)⟩

/-- The step of THERMAL_STATE by its passages (R569). -/
theorem thermalStep_eq (warn trip hyst : Int) (hw : warn = toSigned 32 (s.get Obj.thermalWarnC) * 1000)
    (ht : trip = toSigned 32 (s.get Obj.thermalTripC) * 1000) (hh : hyst = s.get Obj.thermalHystC * 1000) :
    thermalStep sensor mc s =
      (match s.get Obj.thermalState with
      | 0 => if trip ≤ mc then tripped sensor mc (warned sensor mc s) else if warn ≤ mc then warned sensor mc s else s
      | 1 => if trip ≤ mc then tripped sensor mc s else if mc < warn - hyst then cooled mc s else s
      | _ => if trip - hyst ≤ mc then s else if mc < warn - hyst then cooled mc (untripped s) else untripped s) := by
  subst hw ht hh
  rfl

/-- The state and THERM_TRIP after a step of THERMAL_STATE (R569). -/
theorem thermalStep_passage {warn trip hyst : Int} (hw : warn = toSigned 32 (s.get Obj.thermalWarnC) * 1000)
    (ht : trip = toSigned 32 (s.get Obj.thermalTripC) * 1000) (hh : hyst = s.get Obj.thermalHystC * 1000) :
    ThermalPassage
      (match s.get Obj.thermalState with
        | 0 => if trip ≤ mc then 2 else if warn ≤ mc then 1 else 0
        | 1 => if trip ≤ mc then 2 else if mc < warn - hyst then 0 else 1
        | n => if trip - hyst ≤ mc then n else if mc < warn - hyst then 0 else 1)
      (match s.get Obj.thermalState with
        | 0 => s.power.thermTrip || decide (trip ≤ mc)
        | 1 => s.power.thermTrip || decide (trip ≤ mc)
        | _ => s.power.thermTrip && decide (trip - hyst ≤ mc)) s (thermalStep sensor mc s) := by
  rw [thermalStep_eq sensor mc s warn trip hyst hw ht hh]
  have stay := ThermalPassage.refl s
  rcases e : s.get Obj.thermalState with _ | _ | n <;> rw [e] at stay
  · by_cases h1 : trip ≤ mc
    · simpa [h1] using (warned_passage sensor mc s).trans (tripped_passage sensor mc _)
    · by_cases h2 : warn ≤ mc
      · simpa [h1, h2] using warned_passage sensor mc s
      · simpa [h1, h2] using stay
  · by_cases h1 : trip ≤ mc
    · simpa [h1] using tripped_passage sensor mc s
    · by_cases h2 : mc < warn - hyst
      · simpa [h1, h2] using cooled_passage mc s
      · simpa [h1, h2] using stay
  · by_cases h1 : trip - hyst ≤ mc
    · simpa [h1] using stay
    · by_cases h2 : mc < warn - hyst
      · simpa [h1, h2, (untripped_passage s).trip] using (untripped_passage s).trans (cooled_passage mc _)
      · simpa [h1, h2] using untripped_passage s

end

/-- Settles O53: the readings are stored, then THERMAL_STATE makes the passage of the hottest one. -/
theorem thermalStateFollowsTheHottestSensor : Obligations.ThermalStateFollowsTheHottestSensor := by
  intro s milliC warn trip hyst top hw ht hh _ _ hle hmem
  let reading := fun k => s.sensorReading k (milliC.getD k 0)
  let readings := (List.range 16).map fun k => (k, reading k)
  have below : ∀ x ∈ readings, x.2 ≤ top := by
    intro x hx
    obtain ⟨k, hk, rfl⟩ := List.mem_map.mp hx
    exact hle k (List.mem_range.mp hk)
  have reached : ∃ x ∈ readings, x.2 = top := by
    obtain ⟨k, hk, value⟩ := hmem
    exact ⟨(k, reading k), List.mem_map.mpr ⟨k, List.mem_range.mpr hk, rfl⟩, value⟩
  have htop : (hottest readings).2 = top := hottest_eq below reached
  obtain ⟨stored, hstored⟩ : ∃ t, t = (sensorsStored reading 16 s).set Obj.maxJunctionTempMc 0 (ofSigned 32 top) :=
    ⟨_, rfl⟩
  have kept : ∀ o : ObjRow, o.apart Obj.junctionTempMc = true → o.apart Obj.maxJunctionTempMc = true →
      stored.get o = s.get o := fun o h h' => by
    rw [hstored, State.get_set_apart _ h' _ (by decide) (by decide), sensorsStored_get _ _ (by decide) h]
  have rest : stored = s.withDict stored.dict := hstored ▸ sensorsStored_set_rest ..
  have passage := thermalStep_passage (hottest readings).1 top stored (warn := warn) (trip := trip) (hyst := hyst)
    (by rw [hw, kept _ (by decide) (by decide)]) (by rw [ht, kept _ (by decide) (by decide)])
    (by rw [hh, kept _ (by decide) (by decide)])
  have power : stored.power = s.power := by rw [rest, State.withDict_power]
  rw [kept Obj.thermalState (by decide) (by decide), power] at passage
  refine ⟨thermalStep (hottest readings).1 top stored, ?run, fun k hk => ?sensors, ?hottest, passage.state, passage.trip,
    ?frames⟩
  case run => rw [hstored, ← htop]; rfl
  case sensors =>
    rw [passage.objects _ _ (by decide) (by decide) (by omega) (by simp [loggingObject, Obj.junctionTempMc]), hstored,
      State.get_set_apart _ (by decide) _ (by decide) (by omega), sensorsStored_reading _ _ hk]
  case hottest =>
    rw [passage.objects _ _ (by decide) (by decide) (by decide) (by decide), hstored, State.get_set_same]
  case frames => rw [passage.frames, rest, State.withDict_frames]

end Sys2Proof.Machine
end

section
/-! SUPPORT. The test port (R560): which links its instructions hold in fault, and which they let go. -/

namespace Sys2Proof.Machine

/-! ### Pins let go and pins held -/

theorem NMap.mem_of_find {α : Type} {m : NMap α} {k : Nat} {v : α} (h : m.find k = some v) : (k, v) ∈ m := by
  induction m with
  | nil => cases h
  | cons e m ih =>
    rw [NMap.find] at h
    split at h
    · cases h; subst_vars; exact List.mem_cons_self
    · exact List.mem_cons_of_mem _ (ih h)

theorem releasePins_jtag (s : State) (p : Nat) : ((releasePins s).link p).jtag = false := by
  unfold State.link NMap.getD
  rcases h : NMap.find (releasePins s).links p with _ | x
  · rfl
  · have mem := NMap.mem_of_find h
    simp only [releasePins, List.mem_filter, List.mem_map] at mem
    obtain ⟨⟨e, -, he⟩, -⟩ := mem
    cases he
    rfl

/-- The link of a port is in fault on pins that the TAP holds. -/
def pinHeld (s : State) (p : Nat) : State := beginFault p 1 (s.setLink p { s.link p with jtag := true })

theorem pinHeld_link_other (s : State) {p q : Nat} (h : q ≠ p) : (pinHeld s p).link q = s.link q := by
  unfold pinHeld beginFault
  rw [State.link_setLink_other _ _ h, State.link_setLink_other _ _ h]

theorem pinHeld_jtag (s : State) (p : Nat) : ((pinHeld s p).link p).jtag = true := by
  unfold pinHeld beginFault
  simp

theorem pinHeld_fault (s : State) (p : Nat) : ((pinHeld s p).link p).fault.map Prod.fst = some 1 := by
  unfold pinHeld beginFault
  simp

theorem pinHeld_rest (s : State) (p : Nat) : pinHeld s p = { s with links := (pinHeld s p).links } := rfl

theorem foldl_pinHeld_link_other (l : List Nat) (s : State) {q : Nat} (h : q ∉ l) :
    (l.foldl pinHeld s).link q = s.link q := by
  induction l generalizing s with
  | nil => rfl
  | cons p l ih =>
    rw [List.foldl_cons, ih _ (fun m => h (List.mem_cons_of_mem _ m)),
      pinHeld_link_other s fun e => h (by simp [e])]

/-- What holding its pins does to a port's link, it is after all ports' pins are held. -/
theorem foldl_pinHeld_link_mem {P : PortLink → Prop} {q : Nat} (hq : ∀ t, P ((pinHeld t q).link q)) {l : List Nat}
    (h : q ∈ l) (s : State) : P ((l.foldl pinHeld s).link q) := by
  induction l generalizing s with
  | nil => cases h
  | cons p l ih =>
    rw [List.foldl_cons]
    by_cases hl : q ∈ l
    · exact ih hl _
    · rw [foldl_pinHeld_link_other l _ hl]
      rcases List.mem_cons.mp h with rfl | h
      · exact hq s
      · exact absurd h hl

theorem foldl_pinHeld_rest (l : List Nat) (s : State) :
    l.foldl pinHeld s = { s with links := (l.foldl pinHeld s).links } := by
  induction l generalizing s with
  | nil => rfl
  | cons p l ih => rw [List.foldl_cons, ih, pinHeld_rest]

/-! ### The instructions of the TAP -/

/-- The ports on some physical lanes. -/
def State.portsHeld (s : State) (lanes : List Nat) : List Nat :=
  ((lanes.filterMap s.logicalLane).filterMap s.portOfLane).eraseDups

theorem State.mem_portsHeld (s : State) (lanes : List (Fin 128)) (p : Nat) :
    p ∈ s.portsHeld (lanes.map (·.val)) ↔ ∃ l ∈ lanes, ∃ m, s.logicalLane l.val = some m ∧ s.portOfLane m = some p := by
  simp only [State.portsHeld, List.mem_eraseDups, List.mem_filterMap, List.mem_map]
  constructor
  · rintro ⟨m, ⟨_, ⟨l, hl, rfl⟩, hm⟩, hp⟩
    exact ⟨l, hl, m, hm, hp⟩
  · rintro ⟨l, hl, m, hm, hp⟩
    exact ⟨m, ⟨_, ⟨l, hl, rfl⟩, hm⟩, hp⟩

/-- With VDDIO there, the TAP lets its pins go and holds those of the instruction. -/
theorem tapInstruction_powered {s : State} (h : s.power.vddio = true) (code : Nat) (lanes : List Nat) (data : Nat) :
    tapInstruction code lanes data s = (s.portsHeld lanes).foldl pinHeld (releasePins (s.withPower
      { s.power with jtag := code, jtagLanes := lanes, jtagData := BitVec.ofNat 32 data })) := by
  rw [tapInstruction, h]
  rfl

/-- An instruction of the TAP changes its own state and the links alone. -/
theorem tapInstruction_rest {s : State} (h : s.power.vddio = true) (code : Nat) (lanes : List Nat) (data : Nat) :
    tapInstruction code lanes data s = { s with
      power := { s.power with jtag := code, jtagLanes := lanes, jtagData := BitVec.ofNat 32 data },
      links := (tapInstruction code lanes data s).links } := by
  rw [tapInstruction_powered h, foldl_pinHeld_rest]
  rfl

theorem tapInstruction_jtag {s : State} (h : s.power.vddio = true) (code : Nat) (lanes : List Nat) (data p : Nat) :
    ((tapInstruction code lanes data s).link p).jtag = true ↔ p ∈ s.portsHeld lanes := by
  rw [tapInstruction_powered h]
  by_cases hp : p ∈ s.portsHeld lanes
  · simp only [hp, iff_true]
    exact foldl_pinHeld_link_mem (P := fun x => x.jtag = true) (fun t => pinHeld_jtag t p) hp _
  · rw [foldl_pinHeld_link_other _ _ hp, releasePins_jtag]
    simp [hp]

theorem tapInstruction_fault {s : State} (h : s.power.vddio = true) (code : Nat) {lanes : List Nat} (data : Nat) {p : Nat}
    (hp : p ∈ s.portsHeld lanes) : ((tapInstruction code lanes data s).link p).fault.map Prod.fst = some 1 := by
  rw [tapInstruction_powered h]
  exact foldl_pinHeld_link_mem (P := fun x => x.fault.map Prod.fst = some 1) (fun t => pinHeld_fault t p) hp _

/-- An instruction that holds no pins. -/
theorem tapInstruction_free {s : State} (h : s.power.vddio = true) (code data : Nat) {t : State}
    (ht : t = tapInstruction code [] data s) :
    t.power = { s.power with jtag := code, jtagLanes := [], jtagData := BitVec.ofNat 32 data } ∧
      (∀ p, (t.link p).jtag = false) ∧ t = { s with power := t.power, links := t.links } := by
  subst ht
  refine ⟨?_, fun p => ?_, ?_⟩
  · rw [tapInstruction_rest h]
  · rw [Bool.eq_false_iff]
    intro hj
    simpa [State.portsHeld] using (tapInstruction_jtag h code [] data p).mp hj
  · rw [tapInstruction_rest h]

/-- An instruction that holds the pins of some lanes. -/
theorem tapInstruction_held {s : State} (h : s.power.vddio = true) (code : Nat) (lanes : List (Fin 128)) {t : State}
    (ht : t = tapInstruction code (lanes.map (·.val)) 0 s) :
    t.power = { s.power with jtag := code, jtagLanes := lanes.map (·.val), jtagData := 0 } ∧
      (∀ p, (t.link p).jtag = true ↔ ∃ l ∈ lanes, ∃ m, s.logicalLane l.val = some m ∧ s.portOfLane m = some p) ∧
      (∀ l ∈ lanes, ∀ m p, s.logicalLane l.val = some m → s.portOfLane m = some p →
        (t.link p).fault.map Prod.fst = some 1) ∧
      t = { s with power := t.power, links := t.links } := by
  subst ht
  refine ⟨?_, fun p => ?_, fun l hl m p hm hp => ?_, ?_⟩
  · rw [tapInstruction_rest h]; rfl
  · rw [tapInstruction_jtag h, State.mem_portsHeld]
  · exact tapInstruction_fault h code 0 ((State.mem_portsHeld s lanes p).mpr ⟨l, hl, m, hm, hp⟩)
  · rw [tapInstruction_rest h]

set_option maxRecDepth 4000 in
theorem rowOf_intPinCause : rowOf 0x7A20 0 = some Obj.intPinCause := rfl

/-- Settles O54: INT_PIN_CAUSE is a W1C object without a rule of its own; the TAP's instructions differ in their code,
their lanes and their data alone. -/
theorem pinsAndTestPortFollowTheirCommands : Obligations.PinsAndTestPortFollowTheirCommands := by
  intro s
  refine ⟨fun c v may => ?cause, fun hv => ⟨fun i code data n hi => ?free, fun i code lanes hi => ?held⟩⟩
  case cause =>
    refine clientWrites_plain Obj.intPinCause rfl may rowOf_intPinCause rfl (by decide) (by decide) (by decide) rfl rfl
      (.inr ⟨rfl, rfl, rfl, ?_, rfl⟩) ?_
    · rw [leNat_singleton]
      exact decide_eq_true v.isLt
    · rw [leNat_singleton]
      rfl
  case free =>
    rcases hi with ⟨rfl, rfl, rfl, rfl⟩ | ⟨rfl, rfl, rfl, rfl⟩ | ⟨rfl, rfl, rfl, rfl⟩
    · exact ⟨_, rfl, tapInstruction_free hv 0 0 rfl⟩
    · exact ⟨tapInstruction 1 [] 0x16480A1B s, rfl, tapInstruction_free hv 1 _ rfl⟩
    · exact ⟨_, rfl, tapInstruction_free (s := s.draw.2) hv 2 s.draw.1 rfl⟩
  case held =>
    rcases hi with ⟨rfl, rfl⟩ | ⟨rfl, rfl⟩ | ⟨rfl, rfl⟩ | ⟨rfl, rfl⟩ | ⟨rfl, rfl⟩ <;>
      exact ⟨_, rfl, tapInstruction_held hv _ lanes rfl⟩

end Sys2Proof.Machine
end

section
/-! SUPPORT. The device as consumer of a ring (R101 to R105): what passing a page and moving a position change, and the
records of the inject and the table request rings. -/

namespace Sys2Proof.Machine

/-! ### Passing pages to the host -/

/-- A page passed to the host changes bollards and interrupt causes alone. -/
theorem passPage_rest (r page : Nat) (s : State) :
    passPage r page s = s.withHost { s.host with
      bollards := (passPage r page s).host.bollards, vectorCause := (passPage r page s).host.vectorCause,
      pba := (passPage r page s).host.pba, messages := (passPage r page s).host.messages } := by
  unfold passPage
  rw [signalVector_rest]
  rfl

theorem passPage_owned (r page : Nat) (s : State) (n : Nat) :
    (passPage r page s).owned n = if n = page then false else s.owned n := by
  have h : (passPage r page s).owned n = (s.setBollard page 0).owned n := by
    unfold passPage
    rw [signalVector_rest]
    rfl
  rw [h, State.owned_setBollard]
  rfl

@[simp] theorem passPage_get (r page : Nat) (s : State) (o : ObjRow) (n : Nat) :
    (passPage r page s).get o n = s.get o n := by
  rw [passPage_rest, State.withHost_get]

/-- The pages [first, first + n) of a ring pass to the host, one after the other. -/
def passPages (r first n : Nat) (s : State) : State :=
  (List.range n).foldl (fun s i => passPage r (s.ringFirst r + first + i) s) s

theorem passPages_succ (r first n : Nat) (s : State) :
    passPages r first (n + 1) s =
      passPage r ((passPages r first n s).ringFirst r + first + n) (passPages r first n s) := by
  simp [passPages, List.range_succ]

theorem passPages_rest (r first n : Nat) (s : State) :
    passPages r first n s = s.withHost { s.host with
      bollards := (passPages r first n s).host.bollards, vectorCause := (passPages r first n s).host.vectorCause,
      pba := (passPages r first n s).host.pba, messages := (passPages r first n s).host.messages } := by
  induction n with
  | zero => rfl
  | succ n ih => rw [passPages_succ, passPage_rest, ih]; rfl

@[simp] theorem passPages_get (r first n : Nat) (s : State) (o : ObjRow) (i : Nat) :
    (passPages r first n s).get o i = s.get o i := by
  rw [passPages_rest, State.withHost_get]

theorem passPages_owned (r first n : Nat) (s : State) (p : Nat) :
    (passPages r first n s).owned p =
      if s.ringFirst r + first ≤ p ∧ p < s.ringFirst r + first + n then false else s.owned p := by
  induction n with
  | zero => rw [if_neg (by omega)]; rfl
  | succ n ih =>
    have hf : (passPages r first n s).ringFirst r = s.ringFirst r := passPages_get ..
    rw [passPages_succ, passPage_owned, ih, hf]
    by_cases e : p = s.ringFirst r + first + n
    · rw [if_pos e, if_pos (by omega)]
    · rw [if_neg e]
      simp only [show (s.ringFirst r + first ≤ p ∧ p < s.ringFirst r + first + (n + 1)) ↔
        (s.ringFirst r + first ≤ p ∧ p < s.ringFirst r + first + n) by omega]

/-! ### Moving a consumer's position -/

@[simp] theorem State.setRing_owned (s : State) (r : Nat) (x : RingPos) (n : Nat) :
    (s.setRing r x).owned n = s.owned n := rfl

theorem State.ringPos_setRing_other (s : State) {q r : Nat} (x : RingPos) (h : q ≠ r) :
    (s.setRing r x).ringPos q = s.ringPos q := NMap.getD_set_other _ _ _ h

/-- The pages that end before the new position pass to the host; the position is the new one, or the start. -/
theorem ringConsume_eq (r off' : Nat) (s : State) :
    ringConsume r off' s =
      (passPages r (s.ringPos r).page (off' / pageSize - (s.ringPos r).page) s).setRing r
        (if s.ringPages r * pageSize ≤ off' then {} else { page := off' / pageSize, byte := off' % pageSize }) := by
  have hp : ∀ n, (passPages r (s.ringPos r).page n s).ringPages r = s.ringPages r := fun n => passPages_get ..
  unfold ringConsume
  change State.setRing (passPages r (s.ringPos r).page (off' / pageSize - (s.ringPos r).page) s) r _ = _
  congr 1
  change (let w := if (passPages r _ _ s).ringPages r * pageSize ≤ off' then 0 else off'
    ({ page := w / pageSize, byte := w % pageSize } : RingPos)) = _
  rw [hp]
  by_cases h : s.ringPages r * pageSize ≤ off'
  · simp only [h, if_true]; rfl
  · simp only [h, if_false]

theorem ringConsume_ringPos (r off' : Nat) (s : State) :
    (ringConsume r off' s).ringPos r =
      if s.ringPages r * pageSize ≤ off' then {} else { page := off' / pageSize, byte := off' % pageSize } := by
  rw [ringConsume_eq, State.ringPos_setRing_same]

theorem ringConsume_ringPos_other (r off' : Nat) (s : State) {q : Nat} (h : q ≠ r) :
    (ringConsume r off' s).ringPos q = s.ringPos q := by
  rw [ringConsume_eq, State.ringPos_setRing_other _ _ h, passPages_rest]
  rfl

theorem ringConsume_owned (r off' : Nat) (s : State) (p : Nat) :
    (ringConsume r off' s).owned p =
      if s.ringFirst r + (s.ringPos r).page ≤ p ∧ p < s.ringFirst r + (s.ringPos r).page +
        (off' / pageSize - (s.ringPos r).page) then false else s.owned p := by
  rw [ringConsume_eq, State.setRing_owned, passPages_owned]

theorem ringConsume_quay (r off' : Nat) (s : State) : (ringConsume r off' s).host.quay = s.host.quay := by
  rw [ringConsume_eq, passPages_rest]
  rfl

/-! ### The records of a ring -/

/-- Where no PAD stands next, none is skipped. -/
theorem skipPads_of_not_pad {r type : Nat} {s : State} (h : ∀ n, s.nextRecord r type ≠ .pad n) (fuel : Nat) :
    skipPads r type fuel s = s := by
  cases fuel with
  | zero => rfl
  | succ fuel =>
    rw [skipPads]
    split
    · exact absurd ‹_› (h _)
    · rfl

section
variable {k : Fin 4} {s : State} (awake : s.awake = true)
include awake

/-- The next record of an inject ring is consumed and injected (R107, R108). -/
theorem exec_injectRecord_record {rec : List Byte} (hd : s.deckUp 0 = true)
    (hg : s.get Obj.landingGuardCells 0 ≤ s.freeCells 0) (hr : s.nextRecord (8 + k.val) 2 = .record rec) :
    exec (.injectRecord k) s = .next (skipPads (8 + k.val) 2 (padFuel s (8 + k.val))
      (injectOne (8 + k.val) rec (consumeRecord (8 + k.val) rec.length s))) := by
  change execInjectRecord k s = _
  have hn : ¬(((!s.awake) = true ∨ (!s.deckUp 0) = true) ∨ s.freeCells 0 < s.get Obj.landingGuardCells 0) := by
    simp [awake, hd, hg]
  simp only [execInjectRecord, skipPads_of_not_pad (r := 8 + k.val) (type := 2) (s := s) (by simp [hr]), hr]
  rw [if_neg (by simpa [or_assoc] using hn)]

theorem exec_injectRecord_invalid (hd : s.deckUp 0 = true)
    (hg : s.get Obj.landingGuardCells 0 ≤ s.freeCells 0) (hr : s.nextRecord (8 + k.val) 2 = .invalid) :
    exec (.injectRecord k) s = .next (skipInvalid (8 + k.val) s) := by
  change execInjectRecord k s = _
  have hn : ¬(((!s.awake) = true ∨ (!s.deckUp 0) = true) ∨ s.freeCells 0 < s.get Obj.landingGuardCells 0) := by
    simp [awake, hd, hg]
  simp only [execInjectRecord, skipPads_of_not_pad (r := 8 + k.val) (type := 2) (s := s) (by simp [hr]), hr]
  rw [if_neg (by simpa [or_assoc] using hn)]

/-- The next record of a table request ring is served (R111). -/
theorem exec_tableRequest_record {rec : List Byte} (hr : s.nextRecord (21 + k.val) 5 = .record rec) :
    exec (.tableRequest k) s = .next (serveRequest k.val rec s) := by
  change execTableRequest k s = _
  simp only [execTableRequest, awake, skipPads_of_not_pad (r := 21 + k.val) (type := 5) (s := s) (by simp [hr]), hr]
  rfl

theorem exec_tableRequest_invalid (hr : s.nextRecord (21 + k.val) 5 = .invalid) :
    exec (.tableRequest k) s = .next (skipInvalid (21 + k.val) s) := by
  change execTableRequest k s = _
  simp only [execTableRequest, awake, skipPads_of_not_pad (r := 21 + k.val) (type := 5) (s := s) (by simp [hr]), hr]
  rfl

end

/-- Rounding up to a multiple of 64 reaches it by less than 64, and does not pass a multiple that is not passed. -/
theorem le_roundUp_64 {a b : Nat} (h : a ≤ b * 4096) : roundUp a 64 ≤ b * 4096 ∧ a ≤ roundUp a 64 := by
  unfold roundUp ceilDiv
  omega

/-- Settles O55: a record that stands next is consumed at once; consuming moves the position past it and passes the
pages before it. -/
theorem recordsOfRingsAreConsumed : Obligations.RecordsOfRingsAreConsumed := by
  refine ⟨fun k s awake => ⟨?inject, exec_injectRecord_invalid awake, ?request, exec_tableRequest_invalid awake⟩, ?pages⟩
  case inject =>
    intro rec u hd hg hr hu
    rw [exec_injectRecord_record awake hd hg hr, ← hu, injectOne]
    simp only [Bool.and_eq_true, Bool.not_eq_true']
  case request =>
    intro rec q u st done data v hr hq hroom hu hv
    subst hq
    rw [exec_tableRequest_record awake hr, serveRequest]
    simp only [hroom, Bool.not_true, Bool.false_eq_true, if_false]
    rw [show (4096 : Nat) = pageSize from rfl] at hu
    rw [← hu, hv]
  case pages =>
    intro s r n x hr hx hb hn hfit off hoff
    subst hx
    have hc : consumeRecord r n s = ringConsume r off s := by rw [hoff]; rfl
    obtain ⟨hle, hge⟩ := le_roundUp_64 hfit
    rw [← hoff] at hle hge
    have hpage : (s.ringPos r).page ≤ off / pageSize := by simp only [pageSize]; omega
    rw [hc]
    refine ⟨fun i h1 h2 => ?_, fun i h => ?_, fun i h => ?_, ?_, fun q hq => ringConsume_ringPos_other r off s hq,
      ringConsume_quay ..⟩
    · rw [ringConsume_owned, if_pos (by simp only [pageSize] at *; omega)]
    · rw [ringConsume_owned, h, ite_self]
    · rw [ringConsume_owned, if_neg (by simp only [pageSize] at *; omega)]
    · rw [ringConsume_ringPos]
      simp only [pageSize, show s.ringPages r * 4096 ≤ off ↔ off = s.ringPages r * 4096 by omega]

end Sys2Proof.Machine
end

section
/-! SUPPORT. Snapshots of the counters (R538, R540), chained pairs (R536) and the rates of a completed window (R542). -/

namespace Sys2Proof.Machine

/-! ### Entries of a map with rising keys -/

theorem NMap.lt_of_mem_risingFrom {α : Type} {m : NMap α} {lo : Nat} (h : NMap.risingFrom lo m = true) {e : Nat × α}
    (he : e ∈ m) : lo < e.1 := by
  induction m generalizing lo with
  | nil => cases he
  | cons x m ih =>
    simp only [NMap.risingFrom, Bool.and_eq_true, decide_eq_true_eq] at h
    rcases List.mem_cons.mp he with rfl | he
    · exact h.1
    · exact Nat.lt_trans h.1 (ih h.2 he)

/-- With rising keys, every listed entry is the one that is found. -/
theorem NMap.find_of_mem {α : Type} {m : NMap α} (h : m.wf = true) {k : Nat} {v : α} (he : (k, v) ∈ m) :
    m.find k = some v := by
  induction m with
  | nil => cases he
  | cons x m ih =>
    obtain ⟨j, w⟩ := x
    rcases List.mem_cons.mp he with e | he
    · cases e; simp [NMap.find]
    · have := NMap.lt_of_mem_risingFrom (show NMap.risingFrom j m = true from h) he
      rw [NMap.find, if_neg (by simp only at this; omega), ih (NMap.wf_of_risingFrom h) he]

theorem NMap.find_mem {α : Type} {m : NMap α} {k : Nat} {v : α} (h : m.find k = some v) : (k, v) ∈ m := by
  induction m with
  | nil => cases h
  | cons e m ih =>
    rw [NMap.find] at h
    split at h
    · cases h; subst_vars; exact List.mem_cons_self
    · exact List.mem_cons_of_mem _ (ih h)

/-! ### The copies of the event counters -/

/-- Writes of an object at many addresses, whose value is a function of the address. -/
theorem foldl_setS_getS (o : ObjRow) (f : Nat → Nat → Nat) (l : List (Nat × Nat × Nat))
    (hl : ∀ e ∈ l, e.1 < 256 ∧ e.2.1 < 65536 ∧ e.2.2 = f e.1 e.2.1) (s : State) {b n : Nat} (hb : b < 256)
    (hn : n < 65536) :
    (l.foldl (fun s (e : Nat × Nat × Nat) => s.setS o e.1 e.2.1 e.2.2) s).getS o b n =
      if (b, n, f b n) ∈ l then f b n else s.getS o b n := by
  induction l generalizing s with
  | nil => simp
  | cons e l ih =>
    obtain ⟨b', n', v⟩ := e
    obtain ⟨hb', hn', hv⟩ := hl _ List.mem_cons_self
    simp only at hb' hn' hv
    subst hv
    rw [List.foldl_cons, ih (fun e he => hl e (List.mem_cons_of_mem _ he))]
    by_cases hm : (b, n, f b n) ∈ l
    · simp [hm]
    · rw [if_neg hm]
      by_cases he : b = b' ∧ n = n'
      · obtain ⟨rfl, rfl⟩ := he
        simp
      · rw [State.getS_setS _ _ _ _ _ _ _ _ fun k => he (addrKey_inj hb hb' hn hn' k).2, if_neg]
        simp only [List.mem_cons, Prod.mk.injEq, hm, or_false]
        exact fun k => he ⟨k.1, k.2.1⟩

theorem foldl_setS_getS_index {o o' : ObjRow} (h : o'.index ≠ o.index) (l : List (Nat × Nat × Nat))
    (hl : ∀ e ∈ l, e.1 < 256 ∧ e.2.1 < 65536) (s : State) {b n : Nat} (hb : b < 256) (hn : n < 65536) :
    (l.foldl (fun s (e : Nat × Nat × Nat) => s.setS o e.1 e.2.1 e.2.2) s).getS o' b n = s.getS o' b n := by
  induction l generalizing s with
  | nil => rfl
  | cons e l ih =>
    obtain ⟨h1, h2⟩ := hl _ List.mem_cons_self
    rw [List.foldl_cons, ih (fun e he => hl e (List.mem_cons_of_mem _ he)), State.getS_setS_index _ h _ h1 h2 hb hn]

theorem foldl_setS_frames (o : ObjRow) (l : List (Nat × Nat × Nat)) (s : State) :
    (l.foldl (fun s (e : Nat × Nat × Nat) => s.setS o e.1 e.2.1 e.2.2) s).frames = s.frames :=
  List.foldlRecOn (motive := fun t : State => t.frames = s.frames) l _ rfl fun _ ht _ _ => ht

/-- The listed event counters of the decks, by deck subindex, code and value. -/
def State.countEntries (s : State) : List (Nat × Nat × Nat) :=
  (List.range 4).flatMap fun d =>
    (s.dict.active.inRange (addrKey Obj.eventCount.index (d + 1) 0) 65536).map fun e => (d + 1, e.1 % 65536, e.2)

theorem State.mem_countEntries {s : State} (hs : s.dict.active.wf = true) {b n v : Nat} :
    (b, n, v) ∈ s.countEntries ↔
      1 ≤ b ∧ b ≤ 4 ∧ n < 65536 ∧ s.dict.active.find (addrKey Obj.eventCount.index b n) = some v := by
  simp only [State.countEntries, List.mem_flatMap, List.mem_range, List.mem_map, Prod.mk.injEq, NMap.inRange,
    List.mem_filter, Bool.and_eq_true, decide_eq_true_eq]
  constructor
  · rintro ⟨d, hd, ⟨k, w⟩, ⟨hm, hlo, hhi⟩, rfl, rfl, rfl⟩
    refine ⟨by omega, by omega, Nat.mod_lt _ (by decide), NMap.find_of_mem hs ?_⟩
    have hk : addrKey Obj.eventCount.index (d + 1) (k % 65536) = k := by
      simp only [addrKey] at hlo hhi ⊢; omega
    rwa [hk]
  · rintro ⟨h1, h4, hn, hf⟩
    refine ⟨b - 1, by omega, (addrKey Obj.eventCount.index b n, v), ⟨NMap.find_mem hf, ?_, ?_⟩, by omega, ?_, rfl⟩
    all_goals
      generalize Obj.eventCount.index = i
      simp only [addrKey]
      omega

/-- The old copies of the event counters are dropped. -/
def State.copiesDropped (s : State) : State :=
  s.withDict { s.dict with active := s.dict.active.delRange (addrKey Obj.snapCount.index 0 0) (2 ^ 24) }

theorem State.copiesDropped_getS (s : State) {o : ObjRow} {b n : Nat} (hb : b < 256) (hn : n < 65536) :
    s.copiesDropped.getS o b n = if o.index = Obj.snapCount.index then o.dflt b n else s.getS o b n := by
  have hr : addrKey Obj.snapCount.index 0 0 ≤ addrKey o.index b n ∧
      addrKey o.index b n < addrKey Obj.snapCount.index 0 0 + 2 ^ 24 ↔ o.index = Obj.snapCount.index := by
    simp only [addrKey]; omega
  simp only [State.getS, State.copiesDropped, State.withDict_dict, NMap.getD_delRange, hr]

/-- The event counters of the decks are copied. -/
def State.countsCopied (s : State) : State :=
  s.countEntries.foldl (fun s (e : Nat × Nat × Nat) => s.setS Obj.snapCount e.1 e.2.1 e.2.2) s.copiesDropped

theorem State.countsCopied_count {s : State} (hs : s.dict.active.wf = true) {d code : Nat} (hd : d < 4)
    (hc : code < 65536) : s.countsCopied.getS Obj.snapCount (d + 1) code = s.getS Obj.eventCount (d + 1) code := by
  rw [State.countsCopied, foldl_setS_getS Obj.snapCount (fun b n => s.getS Obj.eventCount b n) _ _ _ (by omega) hc,
    State.copiesDropped_getS _ (by omega) hc, if_pos rfl]
  · split
    · rfl
    · rcases hf : s.dict.active.find (addrKey Obj.eventCount.index (d + 1) code) with _ | v
      · simp only [State.getS, NMap.getD, hf]; rfl
      · have hg : s.getS Obj.eventCount (d + 1) code = v := by simp only [State.getS, NMap.getD, hf]; rfl
        have := (State.mem_countEntries hs).mpr ⟨show 1 ≤ d + 1 by omega, by omega, hc, hf⟩
        simp_all
  · rintro ⟨b, n, v⟩ he
    obtain ⟨_, hb, hn, hf⟩ := (State.mem_countEntries hs).mp he
    refine ⟨by simp only; omega, hn, ?_⟩
    simp only [State.getS, NMap.getD, hf]
    rfl

theorem State.countsCopied_getS {s : State} (hs : s.dict.active.wf = true) {o : ObjRow}
    (ho : o.index ≠ Obj.snapCount.index) {b n : Nat} (hb : b < 256) (hn : n < 65536) :
    s.countsCopied.getS o b n = s.getS o b n := by
  rw [State.countsCopied, foldl_setS_getS_index ho _ _ _ hb hn, State.copiesDropped_getS _ hb hn, if_neg ho]
  rintro ⟨b, n, v⟩ he
  obtain ⟨_, hb, hn, _⟩ := (State.mem_countEntries hs).mp he
  exact ⟨by simp only; omega, hn⟩

/-! ### The copies of the slot counters -/

/-- The first `m` slot counters of a pipe are copied. -/
def slotsCopied (p m : Nat) (s : State) : State :=
  (List.range m).foldl (fun s i => s.setS Obj.snapSlots (i + 1) p ((s.slotCounters p).getD i 0)) s

theorem slotsCopied_succ (p m : Nat) (s : State) :
    slotsCopied p (m + 1) s =
      (slotsCopied p m s).setS Obj.snapSlots (m + 1) p (((slotsCopied p m s).slotCounters p).getD m 0) := by
  simp [slotsCopied, List.range_succ]

section
variable {p m : Nat} (hp : p < 8) (hm : m ≤ 5) (s : State)
include hp hm

theorem slotsCopied_getS {o : ObjRow} (ho : o.index ≠ Obj.snapSlots.index) {b n : Nat} (hb : b < 256) (hn : n < 65536) :
    (slotsCopied p m s).getS o b n = s.getS o b n := by
  induction m with
  | zero => rfl
  | succ m ih =>
    rw [slotsCopied_succ, State.getS_setS_index _ ho _ (by omega) (by omega) hb hn, ih (by omega)]

theorem slotsCopied_slotCounters {q : Nat} (hq : q < 8) : (slotsCopied p m s).slotCounters q = s.slotCounters q := by
  simp only [State.slotCounters, State.get]
  rw [slotsCopied_getS hp hm s (by decide) (by decide) (by omega), slotsCopied_getS hp hm s (by decide) (by decide) (by omega),
    slotsCopied_getS hp hm s (by decide) (by decide) (by omega), slotsCopied_getS hp hm s (by decide) (by decide) (by omega),
    slotsCopied_getS hp hm s (by decide) (by decide) (by omega)]

theorem slotsCopied_copy {q i : Nat} (hq : q < 8) (hi : i < 5) :
    (slotsCopied p m s).getS Obj.snapSlots (i + 1) q =
      if q = p ∧ i < m then (s.slotCounters p).getD i 0 else s.getS Obj.snapSlots (i + 1) q := by
  induction m with
  | zero => simp [slotsCopied]
  | succ m ih =>
    rw [slotsCopied_succ, slotsCopied_slotCounters hp (by omega) s hp]
    by_cases e : q = p ∧ i = m
    · obtain ⟨rfl, rfl⟩ := e
      simp
    · rw [State.getS_setS _ _ _ _ _ _ _ _ fun k => e ?_, ih (by omega)]
      · simp only [show q = p ∧ i < m + 1 ↔ q = p ∧ i < m by omega]
      · have := addrKey_inj (show i + 1 < 256 by omega) (show m + 1 < 256 by omega) (show q < 65536 by omega)
          (show p < 65536 by omega) k
        omega

end

/-- The slot counters of the first `n` pipes are copied. -/
def allSlotsCopied (n : Nat) (s : State) : State := (List.range n).foldl (fun s p => slotsCopied p 5 s) s

theorem allSlotsCopied_succ (n : Nat) (s : State) :
    allSlotsCopied (n + 1) s = slotsCopied n 5 (allSlotsCopied n s) := by
  simp [allSlotsCopied, List.range_succ]

theorem allSlotsCopied_getS {n : Nat} (hn : n ≤ 8) (s : State) {o : ObjRow} (ho : o.index ≠ Obj.snapSlots.index)
    {b i : Nat} (hb : b < 256) (hi : i < 65536) : (allSlotsCopied n s).getS o b i = s.getS o b i := by
  induction n with
  | zero => rfl
  | succ n ih => rw [allSlotsCopied_succ, slotsCopied_getS (by omega) (by decide) _ ho hb hi, ih (by omega)]

theorem allSlotsCopied_slotCounters {n : Nat} (hn : n ≤ 8) (s : State) {q : Nat} (hq : q < 8) :
    (allSlotsCopied n s).slotCounters q = s.slotCounters q := by
  induction n with
  | zero => rfl
  | succ n ih => rw [allSlotsCopied_succ, slotsCopied_slotCounters (by omega) (by decide) _ hq, ih (by omega)]

theorem allSlotsCopied_copy {n : Nat} (hn : n ≤ 8) (s : State) {q i : Nat} (hq : q < n) (hi : i < 5) :
    (allSlotsCopied n s).getS Obj.snapSlots (i + 1) q = (s.slotCounters q).getD i 0 := by
  induction n with
  | zero => omega
  | succ n ih =>
    rw [allSlotsCopied_succ, slotsCopied_copy (by omega) (by decide) _ (by omega) hi]
    by_cases e : q = n
    · rw [if_pos ⟨e, hi⟩, allSlotsCopied_slotCounters (by omega) _ (by omega), e]
    · rw [if_neg (by omega), ih (by omega) (by omega)]

/-! ### SNAPSHOT -/

theorem snapshotCopies_eq (s : State) : snapshotCopies s = allSlotsCopied 8 s.countsCopied := rfl

/-- A snapshot leaves every object but its copies, its time and its generation. -/
theorem writeSnapshot_getS (s : State) {o : ObjRow} {b n : Nat} (hb : b < 256) (hn : n < 65536)
    (ht : o.index ≠ Obj.snapshotTime.index) (hg : o.index ≠ Obj.snapshotGeneration.index) :
    (writeSnapshot s).getS o b n = (snapshotCopies s).getS o b n := by
  change ((State.setS _ Obj.snapshotTime 0 0 _).setS Obj.snapshotGeneration 0 0 _).getS o b n = _
  rw [State.getS_setS_index _ hg _ (by decide) (by decide) hb hn, State.getS_setS_index _ ht _ (by decide) (by decide) hb hn]

theorem writeSnapshot_frames (s : State) : (writeSnapshot s).frames = s.frames := by
  unfold writeSnapshot
  have row : ∀ p t, (slotsCopied p 5 t).frames = t.frames := fun p t =>
    List.foldlRecOn (motive := fun u : State => u.frames = t.frames) _ _ rfl fun _ hu _ _ => hu
  rw [State.bump_frames, State.set_frames, snapshotCopies_eq]
  refine (List.foldlRecOn (motive := fun u : State => u.frames = s.countsCopied.frames) _ _ rfl
    fun u hu p _ => (row p u).trans hu).trans ?_
  exact foldl_setS_frames ..

section
variable {s : State} (hs : s.dict.active.wf = true)
include hs

theorem writeSnapshot_count {d code : Nat} (hd : d < 4) (hc : code < 65536) :
    (writeSnapshot s).getS Obj.snapCount (d + 1) code = s.getS Obj.eventCount (d + 1) code := by
  rw [writeSnapshot_getS _ (by omega) hc (by decide) (by decide), snapshotCopies_eq,
    allSlotsCopied_getS (by decide) _ (by decide) (by omega) hc, State.countsCopied_count hs hd hc]

theorem State.countsCopied_slotCounters {p : Nat} (hp : p < 8) : s.countsCopied.slotCounters p = s.slotCounters p := by
  simp only [State.slotCounters, State.get]
  rw [State.countsCopied_getS hs (by decide) (by decide) (by omega), State.countsCopied_getS hs (by decide) (by decide) (by omega),
    State.countsCopied_getS hs (by decide) (by decide) (by omega), State.countsCopied_getS hs (by decide) (by decide) (by omega),
    State.countsCopied_getS hs (by decide) (by decide) (by omega)]

theorem writeSnapshot_slots {i p : Nat} (hi : i < 5) (hp : p < 8) :
    (writeSnapshot s).getS Obj.snapSlots (i + 1) p = (s.slotCounters p).getD i 0 := by
  rw [writeSnapshot_getS _ (by omega) (by omega) (by decide) (by decide), snapshotCopies_eq,
    allSlotsCopied_copy (by decide) _ hp hi, State.countsCopied_slotCounters hs hp]

theorem writeSnapshot_generation :
    (writeSnapshot s).get Obj.snapshotGeneration =
      (s.get Obj.snapshotGeneration + 1) % 2 ^ (8 * Obj.snapshotGeneration.ty.size) := by
  unfold writeSnapshot
  rw [State.get_bump_same, State.get_set_apart _ (by decide) _ (by decide) (by decide), snapshotCopies_eq]
  simp only [State.get]
  rw [allSlotsCopied_getS (by decide) _ (by decide) (by decide) (by decide),
    State.countsCopied_getS hs (by decide) (by decide) (by decide)]

end

/-! ### The rates of the ports -/

/-- The rates of the first `n` directions are set; direction 2p receives, 2p + 1 transmits. -/
def ratesSet (f : Nat → Nat × Nat) (n : Nat) (s : State) : State :=
  (List.range n).foldl (fun s k => setRates (k / 2) (k % 2) (f k) s) s

theorem ratesSet_succ (f : Nat → Nat × Nat) (n : Nat) (s : State) :
    ratesSet f (n + 1) s = setRates (n / 2) (n % 2) (f n) (ratesSet f n s) := by
  simp [ratesSet, List.range_succ]

theorem setRates_rest (port tx : Nat) (r : Nat × Nat) (s : State) :
    setRates port tx r s = s.withDict { s.dict with active := (setRates port tx r s).dict.active } := by
  unfold setRates
  split <;> rfl

theorem ratesSet_rest (f : Nat → Nat × Nat) (n : Nat) (s : State) :
    ratesSet f n s = s.withDict { s.dict with active := (ratesSet f n s).dict.active } := by
  induction n with
  | zero => rfl
  | succ n ih => rw [ratesSet_succ, setRates_rest, ih]; rfl

/-- The rates of the directions that a port's two counts stand for. -/
def State.ratesOf (s : State) (port tx : Nat) : Nat × Nat :=
  if tx = 0 then (s.get Obj.rxMeanBps port, s.get Obj.rxPeakBps port)
  else (s.get Obj.txMeanBps port, s.get Obj.txPeakBps port)

theorem setRates_ratesOf (port tx : Nat) (r : Nat × Nat) (s : State) (htx : tx < 2) (hp : port < 128) {p t : Nat}
    (ht : t < 2) (hq : p < 128) :
    (setRates port tx r s).ratesOf p t = if p = port ∧ t = tx then r else s.ratesOf p t := by
  have hp' : port < 65536 := by omega
  have hq' : p < 65536 := by omega
  obtain rfl | rfl : t = 0 ∨ t = 1 := by omega
  all_goals obtain rfl | rfl : tx = 0 ∨ tx = 1 := by omega
  all_goals simp only [State.ratesOf, setRates, if_true, if_false, Nat.one_ne_zero, and_true, Nat.zero_ne_one, and_false]
  · by_cases e : p = port
    · subst e
      simp [State.get_set_apart _ (show Obj.rxMeanBps.apart Obj.rxPeakBps = true by decide) _ hp' hp']
    · rw [if_neg e, State.get_set_apart _ (by decide) _ hp' hq', State.get_set_inst _ _ _ e, State.get_set_inst _ _ _ e,
        State.get_set_apart _ (by decide) _ hp' hq']
  · rw [State.get_set_apart _ (by decide) _ hp' hq', State.get_set_apart _ (by decide) _ hp' hq',
      State.get_set_apart _ (by decide) _ hp' hq', State.get_set_apart _ (by decide) _ hp' hq']
  · rw [State.get_set_apart _ (by decide) _ hp' hq', State.get_set_apart _ (by decide) _ hp' hq',
      State.get_set_apart _ (by decide) _ hp' hq', State.get_set_apart _ (by decide) _ hp' hq']
  · by_cases e : p = port
    · subst e
      simp [State.get_set_apart _ (show Obj.txMeanBps.apart Obj.txPeakBps = true by decide) _ hp' hp']
    · rw [if_neg e, State.get_set_apart _ (by decide) _ hp' hq', State.get_set_inst _ _ _ e, State.get_set_inst _ _ _ e,
        State.get_set_apart _ (by decide) _ hp' hq']

theorem ratesSet_ratesOf (f : Nat → Nat × Nat) {n : Nat} (hn : n ≤ 256) (s : State) {p t : Nat} (ht : t < 2)
    (hk : 2 * p + t < n) : (ratesSet f n s).ratesOf p t = f (2 * p + t) := by
  induction n with
  | zero => omega
  | succ n ih =>
    rw [ratesSet_succ, setRates_ratesOf _ _ _ _ (by omega) (by omega) ht (by omega)]
    by_cases e : 2 * p + t = n
    · rw [if_pos (by omega), e]
    · rw [if_neg (by omega), ih (by omega) (by omega)]

/-! ### The end of a window -/

/-- A map that lists the entries of a function but for those of zeros. -/
theorem NMap.find_filterMap (f : Nat → List Nat) (l : List Nat) (k : Nat) :
    NMap.find (l.filterMap fun k => if (f k).all (· == 0) then none else some (k, f k)) k =
      if k ∈ l ∧ (f k).all (· == 0) = false then some (f k) else none := by
  induction l with
  | nil => simp
  | cons j l ih =>
    rw [List.filterMap_cons]
    by_cases hz : (f j).all (· == 0) = true
    · simp only [hz, if_true, ih, List.mem_cons]
      by_cases e : k = j
      · subst e; simp only [hz, Bool.true_eq_false, and_false]
      · simp only [e, false_or]
    · simp only [hz, if_false, NMap.find, List.mem_cons, Bool.false_eq_true]
      by_cases e : j = k
      · subst e; simp only [hz, if_true, true_or, and_self]
      · simp only [e, Ne.symm e, if_false, ih, false_or]

theorem foldl_add_zeros {l : List Nat} (h : l.all (· == 0) = true) : l.foldl (· + ·) 0 = 0 := by
  induction l with
  | nil => rfl
  | cons x l ih => simp_all

theorem foldl_max_zeros {l : List Nat} (h : l.all (· == 0) = true) : l.foldl Nat.max 0 = 0 := by
  induction l with
  | nil => rfl
  | cons x l ih => simp_all

/-- Windows in which nothing passed need no entry: their rates are those of no windows. -/
theorem windowRates_zeros {l : List Nat} (h : l.all (· == 0) = true) (n w : Nat) :
    windowRates l n w = windowRates [] n w := by
  simp only [windowRates, foldl_add_zeros h, foldl_max_zeros h, List.foldl_nil]

/-- The bytes of a direction in the windows that count, when the running one has ended. -/
def Count.windowsOf (c : Count) (k : Nat) : List Nat :=
  (c.bytes.getD k 0 :: c.history.getD k []).take (Nat.min (c.completed + 1) c.windows)

/-- The history after the running window has ended. -/
def Count.historyAfter (c : Count) : NMap (List Nat) :=
  (List.range 256).filterMap fun k => if (c.windowsOf k).all (· == 0) then none else some (k, c.windowsOf k)

theorem Count.windowRates_historyAfter (c : Count) {k : Nat} (hk : k < 256) (n w : Nat) :
    windowRates (c.historyAfter.getD k []) n w = windowRates (c.windowsOf k) n w := by
  unfold Count.historyAfter NMap.getD
  rw [NMap.find_filterMap]
  by_cases hz : (c.windowsOf k).all (· == 0) = true
  · rw [if_neg (by simp [hz]), windowRates_zeros hz]; rfl
  · rw [if_pos ⟨by simpa using hk, by simpa using hz⟩]; rfl

/-- The end of a window under unchanged lengths (R542). -/
theorem endWindow_eq (s : State) :
    endWindow s = ratesSet (fun k => windowRates (s.count.historyAfter.getD k [])
        (Nat.min (s.count.completed + 1) s.count.windows) s.count.windowNs) 256
      (s.withCount { s.count with history := s.count.historyAfter,
                                  completed := Nat.min (s.count.completed + 1) s.count.windows, bytes := [] }) := by
  have hn : (if s.count.completed + 1 < s.count.windows then s.count.completed + 1 else s.count.windows) =
      Nat.min (s.count.completed + 1) s.count.windows := by
    rw [show Nat.min (s.count.completed + 1) s.count.windows = min (s.count.completed + 1) s.count.windows from rfl]
    split <;> omega
  unfold endWindow
  simp only [hn]
  rfl

theorem ratesSet_withCount_rest {f : Nat → Nat × Nat} {n : Nat} {s t : State} {c : Count}
    (h : t = ratesSet f n (s.withCount c)) :
    t = { s with count := c, dict := { s.dict with active := t.dict.active } } := by
  subst h
  rw [ratesSet_rest]
  rfl

/-- The end of a window changes the windows and the rates alone. -/
theorem endWindow_rest (s : State) :
    endWindow s = { s with
      count := { s.count with history := s.count.historyAfter,
                              completed := Nat.min (s.count.completed + 1) s.count.windows, bytes := [] }
      dict := { s.dict with active := (endWindow s).dict.active } } := ratesSet_withCount_rest (endWindow_eq s)

/-- Changes of the counts one after the other are one change of the counts. -/
theorem State.count_rest {s t : State} {c c' : Count}
    (h : t = { s.withCount c with count := c', dict := { (s.withCount c).dict with active := t.dict.active } }) :
    t = { s with count := t.count, dict := { s.dict with active := t.dict.active } } := by
  have hc : t.count = c' := congrArg State.count h
  rw [hc]
  exact h

theorem endWindow_ratesOf (s : State) {p t : Nat} (hp : p < 128) (ht : t < 2) :
    (endWindow s).ratesOf p t = windowRates (s.count.windowsOf (2 * p + t))
      (Nat.min (s.count.completed + 1) s.count.windows) s.count.windowNs := by
  rw [endWindow_eq, ratesSet_ratesOf _ (by decide) _ ht (by omega), Count.windowRates_historyAfter _ (by omega)]

theorem exec_bwWindowEnd {s : State} (he : s.elapsed s.count.windowAt s.count.windowNs = true)
    (hw : s.get Obj.bwWindowNs = s.count.windowNs) (hm : s.get Obj.bwMeanWindows = s.count.windows) :
    exec .bwWindowEnd s = .next (endWindow
      (s.withCount { s.count with windowAt := s.count.windowAt + ticksOfNs s.count.windowNs })) := by
  change execBwWindowEnd s = _
  unfold execBwWindowEnd
  simp only [he, if_true]
  rw [if_neg (by simp [hw, hm])]

/-! ### CHAIN -/

set_option maxRecDepth 4000 in
theorem rowOf_snapshot : rowOf 0x8804 0 = some Obj.snapshot := rfl

set_option maxRecDepth 4000 in
theorem rowOf_chain (d : Deck) : rowOf 0x8802 (d.val + 1) = some Obj.chain := by
  match d with
  | 0 => rfl
  | 1 => rfl
  | 2 => rfl
  | 3 => rfl

/-- Settles O51: a snapshot copies entry by entry, CHAIN is a write with a rule of its own, and the end of a window
sets the rates of every direction from its windows. -/
theorem snapshotsChainsAndRates : Obligations.SnapshotsChainsAndRates := by
  refine ⟨fun c s => ⟨?snapshot, fun hs => ⟨fun d code hd hc => writeSnapshot_count hs hd hc,
    fun i p hi hp => writeSnapshot_slots hs hi hp, writeSnapshot_generation hs, writeSnapshot_frames s⟩, ?chain⟩, ?window⟩
  case snapshot =>
    intro may
    exact clientWrites_plain Obj.snapshot rfl may rowOf_snapshot rfl (by decide) (by decide) (by decide) rfl rfl
      (.inr ⟨rfl, rfl, rfl, rfl, rfl⟩) rfl
  case chain =>
    intro d code v hv hk hup may
    have ⟨_, _, booted⟩ := may
    have hb : d.val + 1 < 256 := by omega
    have checked : (s.takenBy c.path).writeCheck c.path Obj.chain (d.val + 1) code.toNat (leNat [v]) = St.ok :=
      writeCheck_plain rfl rfl (busyFor_started booted (by decide) (by decide)) nofun rfl
        (.inr ⟨by rw [leNat_singleton]; exact decide_eq_true hv, rfl, rfl, rfl, rfl⟩)
    have lost : (s.takenBy c.path).counterLost 0x8802 (d.val + 1) = false := by
      simp [State.counterLost, hup]
    unfold ClientWrites
    change Host.Outcome.next (clientWrite c 0x8802 (d.val + 1) code.toNat [v] s) = _
    rw [clientWrite_effect may Obj.chain (rowOf_chain d) rfl (by decide) hb code.isLt rfl (by simp) hk lost nofun nofun
      rfl checked, leNat_singleton]
    rfl
  case window =>
    intro s c n hc he hw hm hn
    subst hc hn
    refine ⟨_, exec_bwWindowEnd he hw hm, ?_, ?_, ?_, fun p hp l m hl hm' => ?_, ?_⟩
    · exact congrArg (fun t : State => t.count.completed) (endWindow_rest _)
    · exact congrArg (fun t : State => t.count.bytes) (endWindow_rest _)
    · exact congrArg (fun t : State => t.count.windowAt) (endWindow_rest _)
    · have rx := endWindow_ratesOf
        (s.withCount { s.count with windowAt := s.count.windowAt + ticksOfNs s.count.windowNs }) hp (t := 0) (by decide)
      have tx := endWindow_ratesOf
        (s.withCount { s.count with windowAt := s.count.windowAt + ticksOfNs s.count.windowNs }) hp (t := 1) (by decide)
      simp only [State.ratesOf, if_true, Nat.one_ne_zero, if_false, Count.windowsOf, windowRates, bitRate, Nat.one_mul,
        State.withCount_count, Prod.mk.injEq, Nat.add_zero] at rx tx
      subst hl hm'
      exact ⟨rx.1, rx.2, tx.1, tx.2⟩
    · exact State.count_rest (endWindow_rest _)

end Sys2Proof.Machine
end

section
/-! SUPPORT. Pilots (R510 to R513): what the end of a Pilot's work leaves of the other objects, and the steps of its
replacement and return. -/

namespace Sys2Proof.Machine

/-! ### Pilots read after writes -/

@[simp] theorem State.pilot_setPilot_same (s : State) (d : Nat) (x : Pilot) : (setPilot d x s).pilot d = x :=
  NMap.getD_set_same ..

theorem State.pilot_setPilot_other (s : State) {d k : Nat} (x : Pilot) (h : k ≠ d) :
    (setPilot d x s).pilot k = s.pilot k := NMap.getD_set_other _ _ _ h

@[simp] theorem setPilot_get (s : State) (d : Nat) (x : Pilot) (o : ObjRow) (n : Nat) :
    (setPilot d x s).get o n = s.get o n := rfl

theorem setPilot_rest (s : State) (d : Nat) (x : Pilot) :
    setPilot d x s = { s with avail := { s.avail with pilots := (setPilot d x s).avail.pilots } } := rfl

/-! ### What the end of a Pilot's work leaves -/

theorem flood_dict (kind : Nat) (body : List Byte) (except : Option Nat) (s : State) :
    (flood kind body except s).dict = s.dict := by
  refine List.foldlRecOn (motive := fun t : State => t.dict = s.dict) _ _ rfl fun t ht p _ => ?_
  rw [← ht]
  unfold sendFabric noteBytes
  split <;> rfl

/-- PILOT_STATE and PILOT_RESTARTS are none of the objects that a change of leadership writes. -/
def leaderKeeps (o : ObjRow) : Bool :=
  o.apart Obj.leader && o.apart Obj.leaderTerm && o.apart Obj.timeState && o.apart Obj.fabricState &&
  !loggingObject o.index o.sub 0 && o.index != 0x7010

theorem loggingObject_of_leaderKeeps {o : ObjRow} (h : leaderKeeps o = true) (n : Nat) :
    loggingObject o.index o.sub n = false := by
  simp only [leaderKeeps, loggingObject, Bool.and_eq_true, Bool.not_eq_true', Bool.or_eq_false_iff, bne_iff_ne,
    Bool.and_eq_false_iff, beq_eq_false_iff_ne] at h ⊢
  obtain ⟨⟨-, ⟨h1, h2⟩, h3⟩, h4⟩ := h
  grind

section
variable {o : ObjRow} (h : leaderKeeps o = true) {n : Nat} (hn : n < 65536)
include h hn

theorem raise_get_leaderKeeps (code inst arg0 arg1 : Nat) (s : State) (hc : code < 65536) :
    (raise code inst arg0 arg1 s).get o n = s.get o n := by
  have hs : o.sub < 256 := by simp_all [leaderKeeps, ObjRow.apart]
  exact raise_get code inst arg0 arg1 s hc o n hs hn (loggingObject_of_leaderKeeps h n)

theorem setTimeState_get (new : Nat) (s : State) : (setTimeState new s).get o n = s.get o n := by
  unfold setTimeState
  simp only
  split
  · rfl
  · have ha : o.apart Obj.timeState = true := by simp_all [leaderKeeps]
    rw [raise_get_leaderKeeps h hn _ _ _ _ _ (by decide)]
    exact State.get_set_apart s ha _ (by decide) hn

theorem claimCandidate_get (id rejected : Nat) (s : State) : (claimCandidate id rejected s).get o n = s.get o n := by
  have ha : o.apart Obj.fabricState = true := by simp_all [leaderKeeps]
  unfold claimCandidate
  rw [State.get_congr (congrArg Dict.active (flood_dict ..)), State.get_set_apart _ ha _ (by decide) hn,
    State.withFabric_get]

/-- A change of leadership leaves the objects that it does not name. -/
theorem electLeader_get (s : State) : (electLeader s).get o n = s.get o n := by
  have hl : o.apart Obj.leader = true := by simp_all [leaderKeeps]
  have ht : o.apart Obj.leaderTerm = true := by simp_all [leaderKeeps]
  unfold electLeader
  split
  · exact State.get_set_apart s hl _ (by decide) hn
  · rename_i d _ _
    have elected : ∀ v, (noteChange (raise Ev.leaderElected 0 d v ((s.set Obj.leader 0 d).bump Obj.leaderTerm))).get o n =
        s.get o n := fun v => by
      unfold noteChange
      rw [State.withFabric_get, raise_get_leaderKeeps h hn _ _ _ _ _ (by decide),
        State.get_bump_apart _ ht (by decide) hn, State.get_set_apart _ hl _ (by decide) hn]
    dsimp only
    split <;> split <;>
      simp only [claimCandidate_get h hn, setTimeState_get h hn, elected]

end

/-- Requests that end with their Pilot are no objects, and no load and no proxy slot. -/
theorem dropTaken_keeps (d : Nat) (s : State) :
    (∀ o n, (dropTaken d s).get o n = s.get o n) ∧ (dropTaken d s).parse = s.parse ∧
      (dropTaken d s).fabric.proxies = s.fabric.proxies := by
  unfold dropTaken
  dsimp only
  generalize (List.filter (fun e : Nat × MbSlot => e.2.state == 1 && e.2.taken == some d && e.2.answer.isNone)
    s.host.slots).map (·.1) = slots
  have answered : ∀ (l : List Nat) (t : State), t.dict.active = s.dict.active ∧ t.parse = s.parse ∧ t.fabric = s.fabric →
      (l.foldl (fun s k => mbFinish k (busyFor (s.slot k).area) s) t).dict.active = s.dict.active ∧
      (l.foldl (fun s k => mbFinish k (busyFor (s.slot k).area) s) t).parse = s.parse ∧
      (l.foldl (fun s k => mbFinish k (busyFor (s.slot k).area) s) t).fabric = s.fabric := by
    intro l
    induction l with
    | nil => exact fun t ht => ht
    | cons k l ih =>
      intro t ht
      refine ih _ ?_
      dsimp only
      rw [mbFinish_rest]
      exact ht
  obtain ⟨ha, hp, hf⟩ := answered slots _ (show (dropReplies _ s).dict.active = _ ∧ _ from ⟨rfl, rfl, rfl⟩)
  split <;>
    exact ⟨fun o n => State.get_congr ha o n, hp, (congrArg Fabric.proxies hf :)⟩

theorem dropWork_get {s : State} (hj : s.parse.jobs = []) (hp : s.fabric.proxies = []) (o : ObjRow) (n : Nat) :
    (dropWork s).get o n = s.get o n := by
  unfold dropWork
  simp only [State.withDict_fabric, hp, List.foldl_nil, State.withDict_parse, hj]
  rfl

/-- With no load and no proxy request to end, the end of a Pilot leaves the objects that a change of leadership does
not name. -/
theorem pilotGone_get {s : State} (hj : s.parse.jobs = []) (hp : s.fabric.proxies = []) (d : Nat) (before : State)
    {o : ObjRow} (h : leaderKeeps o = true) {n : Nat} (hn : n < 65536) :
    (pilotGone d before s).get o n = s.get o n := by
  obtain ⟨taken, parse, proxies⟩ := dropTaken_keeps d s
  have work := dropWork_get (s := dropTaken d s) (parse ▸ hj) (proxies ▸ hp) o n
  unfold pilotGone
  dsimp only
  have vendor : ∀ (t : State) (v : List (Nat × Nat)), (t.withDict { t.dict with vendor := v }).get o n = t.get o n :=
    fun _ _ => rfl
  split <;> split <;> simp only [electLeader_get h hn, vendor, work, taken]

/-! ### Declaration and adoption -/

theorem holdPilot_get {s : State} (hj : s.parse.jobs = []) (hp : s.fabric.proxies = []) (d : Nat) (onPurpose : Bool)
    {o : ObjRow} (h : leaderKeeps o = true) {n : Nat} (hn : n < 65536) :
    (holdPilot d onPurpose s).get o n = (s.set Obj.pilotState d 1).get o n := by
  unfold holdPilot
  dsimp only
  rw [pilotGone_get (by exact hj) (by exact hp) d s h hn, setPilot_get]

/-- A declared Pilot is RESTARTING, and counted (R512, R513). -/
theorem declarePilot_counts {s : State} (hj : s.parse.jobs = []) (hp : s.fabric.proxies = []) (d : Deck) (cause : Nat) :
    (declarePilot d.val cause s).get Obj.pilotState d.val = 1 ∧
      (declarePilot d.val cause s).get Obj.pilotRestarts d.val = (s.get Obj.pilotRestarts d.val + 1) % 2 ^ 64 := by
  have hd : d.val < 65536 := by omega
  unfold declarePilot
  dsimp only
  constructor
  · rw [raise_get_leaderKeeps (by decide) hd _ _ _ _ _ (by decide), setPilot_get, State.get_bump_apart _ (by decide) hd hd,
      holdPilot_get hj hp _ _ (by decide) hd, State.get_set_same]
  · rw [raise_get_leaderKeeps (by decide) hd _ _ _ _ _ (by decide), setPilot_get, State.get_bump_same,
      holdPilot_get hj hp _ _ (by decide) hd, State.get_set_apart _ (by decide) _ hd hd]
    rfl

/-- The decks below `n` that Pilot `d` served pass to `a`. -/
def decksAdopted (d a n : Nat) (s : State) : State :=
  (List.range n).foldl (fun s k => if s.get Obj.servingPilot k = d then s.set Obj.servingPilot k a else s) s

theorem decksAdopted_succ (d a n : Nat) (s : State) :
    decksAdopted d a (n + 1) s =
      if (decksAdopted d a n s).get Obj.servingPilot n = d then (decksAdopted d a n s).set Obj.servingPilot n a
      else decksAdopted d a n s := by
  rw [decksAdopted, List.range_succ, List.foldl_append]
  rfl

theorem decksAdopted_servingPilot (d a n : Nat) (s : State) (k : Nat) :
    (decksAdopted d a n s).get Obj.servingPilot k =
      if k < n ∧ s.get Obj.servingPilot k = d then a else s.get Obj.servingPilot k := by
  induction n generalizing k with
  | zero => simp [decksAdopted]
  | succ n ih =>
    rw [decksAdopted_succ]
    by_cases e : k = n
    · subst e
      have hk := ih k
      rw [if_neg (by omega)] at hk
      by_cases hd : s.get Obj.servingPilot k = d
      · rw [if_pos (hk.trans hd), State.get_set_same, if_pos ⟨by omega, hd⟩]
      · rw [if_neg (fun h => hd (hk.symm.trans h)), if_neg (by simp [hd]), hk]
    · have hk := ih k
      simp only [show k < n + 1 ↔ k < n by omega]
      split
      · rw [State.get_set_inst _ _ _ e, hk]
      · exact hk

theorem decksAdopted_rest (d a n : Nat) (s : State) :
    decksAdopted d a n s = { s with dict := { s.dict with active := (decksAdopted d a n s).dict.active } } := by
  induction n with
  | zero => rfl
  | succ n ih =>
    rw [decksAdopted_succ]
    split
    · rw [ih]; rfl
    · exact ih

theorem exec_deckAdopt {d : Deck} {s : State} {a : Nat} (hd : s.pilotUp d.val = false) (ha : s.adopter d.val = some a) :
    exec (.deckAdopt d) s = .next (decksAdopted d.val a 4 s) := by
  change execDeckAdopt d s = _
  simp only [execDeckAdopt, hd, ha, Bool.false_eq_true, if_false, decksAdopted]

/-! ### Release and return -/

theorem exec_pilotRelease {d : Deck} {s : State} (hs : s.get Obj.pilotState d.val = 1)
    (hb : (s.pilot d.val).booting = none) (he : s.elapsed (s.pilot d.val).declaredAt 10000 = true) :
    exec (.pilotRelease d) s = .next (if s.overLimit d.val then
      raise Ev.pilotHeldDown d.val (s.recent (s.pilot d.val).declared).length 0 (s.set Obj.pilotState d.val 2)
    else bootPilot d.val s) := by
  change execPilotRelease d s = _
  simp only [execPilotRelease, hs, hb, he, Option.isSome_none, ne_eq, not_true, Bool.not_true, Bool.false_eq_true,
    or_self, if_false]

/-- A Pilot boots its stack's current copy where that passes its checks (R513). -/
theorem bootPilot_copy {d : Nat} {s : State} {b : List Byte} {previous : Option Image}
    (hc : s.copies d = (some { bytes := b }, previous)) (hi : imageCheck false s.rollback b = 0) :
    bootPilot d s = setPilot d { s.pilot d with booting := some (imageVersion b, true) } s := by
  simp only [bootPilot, State.usableCopy, hc, hi, Bool.true_and, beq_self_eq_true, if_true]

theorem exec_heartbeat {d : Deck} {s : State} (h : s.pilotUp d.val = true) :
    exec (.heartbeat d) s =
      .next (setPilot d.val { s.pilot d.val with heartbeatAt := s.time.ticks, kickedAt := s.time.ticks } s) := by
  change execHeartbeat d s = _
  simp only [execHeartbeat, h, if_true]

theorem exec_pilotFailed {d : Deck} {cause : PilotFailCause} {s : State} (hu : s.pilotUp d.val = true)
    (hf : s.failMet d.val cause = true) :
    exec (.pilotFailed d cause) s = .next
      (if (s.get Obj.fwUpdateState == 2 && (s.pilot d.val).current && !s.elapsed (s.pilot d.val).upAt 10000000000) = true
        then reverseUpdate 8 d.val (declarePilot d.val (failCode cause) s)
        else updateStep (declarePilot d.val (failCode cause) s)) := by
  change execPilotFailed d cause s = _
  simp only [execPilotFailed, hu, hf, Bool.not_true, Bool.false_eq_true, or_self, if_false]

theorem exec_pilotRestarted {d : Deck} {s : State} (h : s.get Obj.pilotState d.val = 1) :
    exec (.pilotRestarted d) s = .next (pilotRuns d.val s) := by
  change execPilotRestarted d s = _
  simp only [execPilotRestarted, h, if_true]

theorem exec_allPilotsDown {s : State} (hp : s.anyPilot = false) (hd : s.avail.allDownSaid = false)
    (hs : 3 < s.boot.stage) :
    exec .allPilotsDown s = .next (signalVector 63 (raise Ev.allPilotsDown 0 0 0
      (setPinCause 1 (s.withAvail { s.avail with allDownSaid := true })))) := by
  change execAllPilotsDown s = _
  simp only [execAllPilotsDown, hp, hd, Bool.false_eq_true, Nat.not_le.mpr hs, or_self, if_false]

/-- Settles O47: each command's guard is met, and what ends with a Pilot touches neither its state nor its count. -/
theorem failedPilotsAreReplacedAndRestarted : Obligations.FailedPilotsAreReplacedAndRestarted := by
  intro d x s hx
  subst hx
  refine ⟨?heartbeat, ?failed, ?adopt, fun h1 hb he => ⟨?heldDown, ?release⟩, ?restarted, exec_allPilotsDown⟩
  case heartbeat =>
    intro hu
    exact ⟨_, exec_heartbeat hu, State.pilot_setPilot_same .., fun k hk => State.pilot_setPilot_other s _ hk,
      setPilot_rest ..⟩
  case failed =>
    intro cause early u hu hf he hdecl
    subst he hdecl
    exact ⟨fun hj hp => declarePilot_counts hj hp d _, exec_pilotFailed hu hf⟩
  case adopt =>
    intro a hd ha
    refine ⟨_, exec_deckAdopt hd ha, fun k hk => ?_, decksAdopted_rest ..⟩
    rw [decksAdopted_servingPilot]
    simp only [hk, true_and]
  case heldDown =>
    intro ho
    rw [exec_pilotRelease h1 hb he, if_pos ho]
  case release =>
    intro b previous ho hc
    refine ⟨_, exec_pilotRelease h1 hb he, fun hi => ?_⟩
    rw [if_neg (by simp [ho]), bootPilot_copy hc hi]
    exact ⟨State.pilot_setPilot_same .., fun k hk => State.pilot_setPilot_other s _ hk, setPilot_rest ..⟩
  case restarted =>
    intro version current y u h1 hb hy hu
    subst hy hu
    rw [exec_pilotRestarted h1, pilotRuns]
    simp only [hb]

end Sys2Proof.Machine
end

section
/-! SUPPORT. Reset and boot start (R489 to R491), and the rails (R561, R565): what a reset keeps, and what a reading out
of its limits does. -/

namespace Sys2Proof.Machine

/-! ### Reset -/

theorem storeKeel_keeps (j : KeelJob) (s : State) :
    (storeKeel j s).host = s.host ∧ (storeKeel j s).pending = s.pending := by
  unfold storeKeel
  dsimp only
  split
  · exact ⟨rfl, rfl⟩
  · split <;> exact ⟨rfl, rfl⟩

theorem cutKeel_keeps (s : State) : (cutKeel s).host = s.host ∧ (cutKeel s).pending = s.pending := by
  unfold cutKeel
  split
  · exact ⟨rfl, rfl⟩
  · dsimp only [State.draw]
    split
    · exact ⟨rfl, rfl⟩
    · exact storeKeel_keeps _ _

theorem cutRollback_keeps (s : State) : (cutRollback s).host = s.host ∧ (cutRollback s).pending = s.pending := by
  unfold cutRollback
  split
  · exact ⟨rfl, rfl⟩
  · dsimp only [State.draw]
    split <;> exact ⟨rfl, rfl⟩

/-- A reset leaves the queue and the flash. -/
theorem resetDevice_keeps (s : State) :
    (resetDevice s).host.flash = s.host.flash ∧ (resetDevice s).pending = s.pending := by
  obtain ⟨h1, p1⟩ := cutKeel_keeps s
  obtain ⟨h2, p2⟩ := cutRollback_keeps (cutKeel s)
  exact ⟨(congrArg HostIf.flash (h2.trans h1) :), p2.trans p1⟩

/-- After a reset every object that it does not keep has its default. -/
theorem resetDevice_getS (s : State) {o : ObjRow} {sub inst : Nat} (h : keptObject (addrKey o.index sub inst) = false) :
    (resetDevice s).getS o sub inst = o.dflt sub inst := by
  unfold State.getS NMap.getD
  rw [show (resetDevice s).dict.active =
    (cutRollback (cutKeel s)).dict.active.filter fun e => keptObject e.1 from rfl, NMap.find_filter_drop _ _ _ h]
  rfl

theorem exec_sysReset {lowNs : Nat} {s : State} (hl : 10000 ≤ lowNs) (hp : s.power.on = true) :
    exec (.sysReset lowNs) s = .next (resetDevice s) := by
  change execSysReset lowNs s = _
  rw [execSysReset, if_pos ⟨hl, hp⟩]

theorem exec_powerLoss {cause : PowerCause} {s : State} (h : lossMet cause = true) :
    exec (.powerLoss cause) s = .next (powerOff s) := by
  change execPowerLoss cause s = _
  rw [execPowerLoss, if_pos h]

/-! ### Boot start -/

/-- The straps and the VDDIO level are sampled. -/
def strapsSampled (straps : Nat) (s : State) : State :=
  (s.draw.2.set Obj.straps 0 straps).set Obj.vddioLevel 0 (s.draw.1 % 2)

theorem exec_bootStart {straps : Byte} {s : State} (h : s.boot.held = true) :
    exec (.bootStart straps) s = .next (bootFrom straps.toNat s) := by
  change execBootStart straps s = _
  rw [execBootStart, if_pos h]

theorem bootFrom_test {straps : Nat} (h : 64 ≤ straps) (s : State) : bootFrom straps s = strapsSampled straps s := by
  unfold bootFrom
  exact if_pos (by omega)

/-- The cores of the first `n` Pilots wait. -/
def pilotsWait (n : Nat) (s : State) : State := (List.range n).foldl (fun s d => s.set Obj.pilotState d 1) s

theorem pilotsWait_succ (n : Nat) (s : State) :
    pilotsWait (n + 1) s = (pilotsWait n s).set Obj.pilotState n 1 := by
  simp [pilotsWait, List.range_succ]

theorem pilotsWait_state (s : State) {n d : Nat} (h : d < n) : (pilotsWait n s).get Obj.pilotState d = 1 := by
  induction n with
  | zero => omega
  | succ n ih =>
    rw [pilotsWait_succ]
    by_cases e : d = n
    · rw [e, State.get_set_same]
    · rw [State.get_set_inst _ _ _ e, ih (by omega)]

theorem pilotsWait_get (s : State) {n : Nat} (hn : n ≤ 65536) {o : ObjRow} (h : o.apart Obj.pilotState = true) {i : Nat}
    (hi : i < 65536) : (pilotsWait n s).get o i = s.get o i := by
  induction n with
  | zero => rfl
  | succ n ih => rw [pilotsWait_succ, State.get_set_apart _ h _ (by omega) hi, ih (by omega)]

theorem pilotsWait_rest (n : Nat) (s : State) : pilotsWait n s = s.withDict (pilotsWait n s).dict := by
  induction n with
  | zero => rfl
  | succ n ih => rw [pilotsWait_succ, ih]; rfl

/-- A device that is not strapped for test leaves reset (R491). -/
theorem bootFrom_start {straps : Nat} (h : straps < 64) {s t : State} (ht : t = pilotsWait 4 (strapsSampled straps s)) :
    bootFrom straps s = { t with
      time := {}, power := { t.power with on := true, thermTrip := false, shutdown := false },
      boot := { held := false } } := by
  subst ht
  unfold bootFrom
  exact if_neg (by omega)

theorem strapsSampled_straps (straps : Nat) (s : State) : (strapsSampled straps s).get Obj.straps = straps := by
  unfold strapsSampled
  rw [State.get_set_apart _ (by decide) _ (by decide) (by decide), State.get_set_same]

/-! ### Rails -/

section
variable {r : Fin 6} {mv : Nat} {s : State} (hr : r ≠ 0) (hm : mv < 65536)
include hr hm

/-- A reading of a rail other than VIN_CORE's hard limits, by its limits (R561, R565). -/
theorem exec_supplyOutOfRange :
    exec (.supplyOutOfRange r mv) s = .next (
      let u := s.set (railObj r.val) 0 mv
      if (s.railLimits r.val).1 ≤ mv ∧ mv ≤ (s.railLimits r.val).2 then
        u.withPower { u.power with excursion := u.power.excursion.filter (· != r.val) }
      else if r.val = 1 ∧ (mv < 1700 ∨ 1900 < mv) then u
      else
        let v := if u.power.excursion.contains r.val then u else beginExcursion r.val mv u
        if r.val = 5 ∧ mv < (s.railLimits r.val).1 then loseVddio v else v) := by
  have hz : ¬r.val = 0 := fun h => hr (Fin.ext h)
  have hc : capAt 65535 mv = mv := if_pos (by omega)
  change execSupplyOutOfRange r mv s = _
  unfold execSupplyOutOfRange
  rw [hc]
  dsimp only
  rw [if_neg hz]

theorem exec_supplyOutOfRange_within (h1 : (s.railLimits r.val).1 ≤ mv) (h2 : mv ≤ (s.railLimits r.val).2) :
    exec (.supplyOutOfRange r mv) s = .next ((s.set (railObj r.val) 0 mv).withPower
      { s.power with excursion := s.power.excursion.filter (· != r.val) }) := by
  rw [exec_supplyOutOfRange hr hm]
  dsimp only
  rw [if_pos ⟨h1, h2⟩, State.set_power]

theorem exec_supplyOutOfRange_loss (h1 : r.val = 1) (h2 : mv < 1700 ∨ 1900 < mv) :
    exec (.supplyOutOfRange r mv) s = .next (s.set (railObj r.val) 0 mv) := by
  have hl : s.railLimits r.val = (1746, 1854) := by rw [h1]; rfl
  rw [exec_supplyOutOfRange hr hm, hl]
  dsimp only
  rw [if_neg (by omega), if_pos ⟨h1, h2⟩]

/-- A rail out of its limits begins an excursion; VDDIO below its limits is removed (R565, R577). -/
theorem exec_supplyOutOfRange_begins (h1 : mv < (s.railLimits r.val).1 ∨ (s.railLimits r.val).2 < mv)
    (h2 : r.val = 1 → 1700 ≤ mv ∧ mv ≤ 1900) (h3 : s.power.excursion.contains r.val = false) :
    exec (.supplyOutOfRange r mv) s = .next (if r.val = 5 ∧ mv < (s.railLimits r.val).1
      then loseVddio (beginExcursion r.val mv (s.set (railObj r.val) 0 mv))
      else beginExcursion r.val mv (s.set (railObj r.val) 0 mv)) := by
  rw [exec_supplyOutOfRange hr hm]
  dsimp only
  rw [if_neg (by omega), if_neg (by omega), State.set_power, h3]
  rfl

end

/-- Settles O44: a reset is what it keeps, and each command meets its guard. -/
theorem deviceResetsStartsAndShutsDown : Obligations.DeviceResetsStartsAndShutsDown := by
  refine ⟨fun s => ⟨?start, ?test, ?reset⟩, fun s => ⟨?loss, ?shutdown, fun r mv u hr hm hu => ?rail⟩⟩
  case start =>
    intro straps hh hs
    have rest := pilotsWait_rest 4 (strapsSampled straps.toNat s)
    refine ⟨_, exec_bootStart hh, ?_⟩
    rw [bootFrom_start hs rfl]
    refine ⟨?_, rfl, rfl, rfl, fun d => ?_, ?_⟩
    · exact (pilotsWait_get _ (by decide) (by decide) (by decide)).trans (strapsSampled_straps ..)
    · exact pilotsWait_state _ d.isLt
    · exact (congrArg State.frames rest :)
  case test =>
    intro straps hh hs
    refine ⟨s.draw.1 % 2, Nat.mod_lt _ (by decide), ?_⟩
    rw [exec_bootStart hh, bootFrom_test hs]
    rfl
  case reset =>
    intro lowNs hl hp
    exact ⟨_, exec_sysReset hl hp, rfl, (resetDevice_keeps s).1, rfl, (resetDevice_keeps s).2, rfl,
      fun o sub inst _ _ _ hk => resetDevice_getS s hk⟩
  case loss =>
    intro cause hc
    exact ⟨_, exec_powerLoss hc, rfl, rfl, (resetDevice_keeps s).1, rfl, rfl, (resetDevice_keeps s).2,
      fun o sub inst _ _ _ hk => resetDevice_getS s hk⟩
  case shutdown =>
    exact ⟨_, rfl, rfl, rfl, rfl, rfl, (resetDevice_keeps s).1, rfl, (resetDevice_keeps s).2⟩
  case rail =>
    subst hu
    refine ⟨exec_supplyOutOfRange_within hr hm, exec_supplyOutOfRange_loss hr hm, fun h1 h2 h3 => ⟨_, rfl, ?_⟩⟩
    rw [exec_supplyOutOfRange_begins hr hm h1 h2 h3]
    by_cases h5 : r.val = 5
    · simp only [h5]; rfl
    · simp only [h5, false_and, if_false]; rfl

end Sys2Proof.Machine
end

section
/-! SUPPORT. The emergency window, the words of BAR0 and the flash engine (R93, R516, R517): what each access reads and
changes. -/

namespace Sys2Proof.Machine

/-! ### Opening the window -/

theorem State.rawMayOpen_iff (s : State) : s.rawMayOpen = true ↔ s.anyPilot = false ∨ s.get Obj.bootSlot = 2 := by
  simp [State.rawMayOpen]

theorem rawOpen_eq {value target page : Nat} {s u : State} (ht : target = value / 2 ^ 24 % 16)
    (hp : page = if target = 4 then value / 2 ^ 20 % 16 else 0)
    (hu : u = s.withHost { s.host with
      rawTarget := target, rawPage := page, rawStatus := if s.anyPilot = false ∨ s.get Obj.bootSlot = 2 then 1 else 3 }) :
    rawOpen value s = if s.anyPilot = false ∨ s.get Obj.bootSlot = 2 then raise Ev.rawWindowOpened 0 target page u else u := by
  have opened : (rawSelect value s).withHost { (rawSelect value s).host with
      rawStatus := if (rawSelect value s).rawMayOpen then 1 else 3 } = u := by
    have hm : (rawSelect value s).rawMayOpen = s.rawMayOpen := rfl
    rw [hu, hm, hp, ht]
    simp only [State.rawMayOpen_iff]
    rfl
  unfold rawOpen
  dsimp only
  rw [opened]
  subst hu
  by_cases h : s.anyPilot = false ∨ s.get Obj.bootSlot = 2
  · simp [h]
  · simp [h]

/-! ### Words of BAR0 -/

theorem inBlock_iff {off base size : Nat} : inBlock off base size = true ↔ base ≤ off ∧ off < base + size := by
  simp [inBlock]

theorem inBlock_eq_false {off base size : Nat} (h : off < base ∨ base + size ≤ off) : inBlock off base size = false := by
  rw [Bool.eq_false_iff, ne_eq, inBlock_iff]
  omega

theorem exec_bar0Read {offset : BitVec 23} (h : offset.toNat % 4 = 0) (s : State) :
    exec (.rawWindowAccess (.bar0 offset 4) none) s =
      .next (s.withHost { s.host with readData := BitVec.ofNat 32 (s.bar0Read offset.toNat) }) := by
  change execRawWindowAccess (.bar0 offset 4) none s = _
  simp only [execRawWindowAccess, State.hostWord, h, and_self, if_true]

theorem exec_bar0Write {offset : BitVec 23} (h : offset.toNat % 4 = 0) (v : Word32) (s : State) :
    exec (.rawWindowAccess (.bar0 offset 4) (some v)) s = .next (bar0Write offset.toNat v.toNat s) := by
  change execRawWindowAccess (.bar0 offset 4) (some v) s = _
  simp only [execRawWindowAccess, hostWrite, h, and_self, if_true]

theorem exec_bar0_unaligned {offset : BitVec 23} {bytes : Nat} (h : bytes ≠ 4 ∨ offset.toNat % 4 ≠ 0) (v : Word32)
    (s : State) :
    exec (.rawWindowAccess (.bar0 offset bytes) none) s = .next (s.withHost { s.host with readData := 0xFFFFFFFF }) ∧
      exec (.rawWindowAccess (.bar0 offset bytes) (some v)) s = .next s := by
  have hn : ¬(bytes = 4 ∧ offset.toNat % 4 = 0) := by omega
  constructor
  · change execRawWindowAccess (.bar0 offset bytes) none s = _
    simp only [execRawWindowAccess, State.hostWord, hn, if_false]
    rfl
  · change execRawWindowAccess (.bar0 offset bytes) (some v) s = _
    simp only [execRawWindowAccess, hostWrite, hn, if_false]

theorem State.bar0Read_ignored (s : State) : s.bar0Read 0x3008 = s.host.ignored := rfl

/-- The window beyond 4 MiB reads through the raw window where that is open (R516). -/
theorem State.bar0Read_raw (s : State) (a : Nat) :
    s.bar0Read (0x400000 + a) = if s.host.rawStatus = 1 then s.rawRead a else 0xFFFFFFFF := by
  unfold State.bar0Read
  simp only [inBlock_eq_false (off := 0x400000 + a) (base := 0x1000) (size := 0x2000) (by omega),
    inBlock_eq_false (off := 0x400000 + a) (base := 0x3100) (size := 64) (by omega),
    inBlock_eq_false (off := 0x400000 + a) (base := 0x4000) (size := 8) (by omega),
    inBlock_eq_false (off := 0x400000 + a) (base := 0x6000) (size := 0x2000) (by omega),
    inBlock_eq_false (off := 0x400000 + a) (base := 0x8000) (size := 0x400) (by omega),
    inBlock_eq_false (off := 0x400000 + a) (base := 0x9000) (size := 8) (by omega), Bool.false_eq_true, if_false]
  rw [if_neg (by omega), if_neg (by omega), if_neg (by omega), if_pos (by omega), Nat.add_sub_cancel_left]

theorem bar0Write_raw (a w : Nat) (s : State) :
    bar0Write (0x400000 + a) w s = if s.host.rawStatus = 1 then rawWrite a w s else s := by
  unfold bar0Write
  simp only [inBlock_eq_false (off := 0x400000 + a) (base := 0x1000) (size := 0x2000) (by omega),
    inBlock_eq_false (off := 0x400000 + a) (base := 0x4000) (size := 8) (by omega),
    inBlock_eq_false (off := 0x400000 + a) (base := 0x8000) (size := 0x400) (by omega), Bool.false_eq_true, if_false]
  rw [if_neg (by omega), if_neg (by omega), if_neg (by omega), if_neg (by omega), if_pos (by omega),
    Nat.add_sub_cancel_left]

/-- A word of a slot's request area (R93). -/
theorem bar0Write_area {k i : Nat} (hk : k < 16) (hi : i < 64) (w : Nat) (s : State) :
    bar0Write (0x1000 + 0x200 * k + 4 * i) w s = mbWriteArea k (4 * i) (leBytes 4 w) s := by
  have hb : inBlock (0x1000 + 0x200 * k + 4 * i) 0x1000 0x2000 = true := inBlock_iff.mpr (by omega)
  unfold bar0Write
  rw [if_neg (by omega), if_neg (by omega), if_pos hb]
  dsimp only
  rw [show (0x1000 + 0x200 * k + 4 * i - 0x1000) % 0x200 = 4 * i by omega,
    show (0x1000 + 0x200 * k + 4 * i - 0x1000) / 0x200 = k by omega, if_pos (by omega)]

/-- A little-endian word put into a memory of zeros is read back, and every other byte is as it was. -/
theorem putBytes_word (m : NMap Byte) (a v : Nat) :
    (∀ j, j < 4 → (putBytes 0 m a (leBytes 4 v)).getD (a + j) 0 = BitVec.ofNat 8 (v / 256 ^ j)) ∧
      ∀ b, b < a ∨ a + 4 ≤ b → (putBytes 0 m a (leBytes 4 v)).getD b 0 = m.getD b 0 := by
  constructor
  · intro j hj
    rw [getD_putBytes, length_leBytes, if_pos (by omega), Nat.add_sub_cancel_left, getD_leBytes hj]
  · intro b hb
    rw [getD_putBytes, length_leBytes, if_neg (by omega)]

theorem State.rawRead_pilotMem {s : State} (h : s.host.rawTarget < 4) (a : Nat) :
    s.rawRead a = leNat ((List.range 4).map fun i => s.host.pilotMem.getD (s.host.rawTarget * 4194304 + a + i) 0) :=
  if_pos h

theorem rawWrite_pilotMem {s : State} (h : s.host.rawTarget < 4) (hd : s.get Obj.pilotState s.host.rawTarget = 2)
    (a v : Nat) : rawWrite a v s = s.withHost
      { s.host with pilotMem := putBytes 0 s.host.pilotMem (s.host.rawTarget * 4194304 + a) (leBytes 4 v) } := by
  unfold rawWrite
  dsimp only
  rw [if_pos h, if_pos hd]

/-! ### The flash engine -/

theorem State.feOpen_iff (s : State) : s.feOpen = true ↔ s.host.rawStatus = 1 ∧ s.host.rawTarget = 5 := by
  simp [State.feOpen]

theorem exec_feErase {s : State} (h : s.feOpen = true) : exec .feErase s = .next (feCommand 1 s) := by
  change execFeErase s = _
  rw [execFeErase, if_pos h]

theorem exec_feProgram {s : State} (h : s.feOpen = true) : exec .feProgram s = .next (feCommand 2 s) := by
  change execFeProgram s = _
  rw [execFeProgram, if_pos h]

theorem feCommand_starts {cmd : Nat} {s : State} (hs : s.host.fe.status ≠ 1)
    (ha : s.host.fe.addr % (if cmd = 1 then 65536 else 256) = 0) :
    feCommand cmd s = s.withFe { s.host.fe with status := 1, cmd := cmd, waiting := !s.power.vddio } := by
  unfold feCommand
  dsimp only
  rw [if_neg hs, if_neg (not_not_intro ha)]

theorem feCommand_unaligned {cmd : Nat} {s : State} (hs : s.host.fe.status ≠ 1)
    (ha : s.host.fe.addr % (if cmd = 1 then 65536 else 256) ≠ 0) :
    feCommand cmd s = s.withFe { s.host.fe with status := 3 } := by
  unfold feCommand
  dsimp only
  rw [if_neg hs, if_pos ha]

theorem exec_feDone {s : State} (ok : Bool) (hs : s.host.fe.status = 1) (hw : s.host.fe.waiting = false) :
    exec (.feDone ok) s = .next (if ok = true then
      s.withHost { s.host with flash := flashAfter s, fe := { s.host.fe with status := 2 } }
      else s.withFe { s.host.fe with status := 3 }) := by
  change execFeDone ok s = _
  unfold execFeDone
  dsimp only
  rw [if_pos ⟨hs, hw⟩]

theorem flashAfter_erase {s : State} (hc : s.host.fe.cmd = 1) (a : Nat) :
    (flashAfter s).getD a 0xFF =
      if s.host.fe.addr ≤ a ∧ a < s.host.fe.addr + 65536 then 0xFF else s.host.flash.getD a 0xFF := by
  unfold flashAfter
  dsimp only
  rw [if_pos hc, NMap.getD_delRange]

/-- The first `n` bytes of a page are programmed: each keeps the bits that its new value has too. -/
def programmed (addr : Nat) (data : NMap Byte) (n : Nat) (m : NMap Byte) : NMap Byte :=
  (List.range n).foldl (fun m i => NMap.set 0xFF m (addr + i) (m.getD (addr + i) 0xFF &&& data.getD i 0)) m

theorem programmed_succ (addr : Nat) (data : NMap Byte) (n : Nat) (m : NMap Byte) :
    programmed addr data (n + 1) m = NMap.set 0xFF (programmed addr data n m) (addr + n)
      ((programmed addr data n m).getD (addr + n) 0xFF &&& data.getD n 0) := by
  simp [programmed, List.range_succ]

theorem programmed_getD (addr : Nat) (data : NMap Byte) (n : Nat) (m : NMap Byte) (a : Nat) :
    (programmed addr data n m).getD a 0xFF =
      if addr ≤ a ∧ a < addr + n then m.getD a 0xFF &&& data.getD (a - addr) 0 else m.getD a 0xFF := by
  induction n with
  | zero => rw [if_neg (by omega)]; rfl
  | succ n ih =>
    rw [programmed_succ, NMap.getD_set]
    by_cases e : a = addr + n
    · subst e
      rw [if_pos rfl, ih, if_neg (by omega), if_pos (by omega), Nat.add_sub_cancel_left]
    · rw [if_neg e, ih]
      simp only [show addr ≤ a ∧ a < addr + (n + 1) ↔ addr ≤ a ∧ a < addr + n by omega]

theorem flashAfter_program {s : State} (hc : s.host.fe.cmd = 2) (a : Nat) :
    (flashAfter s).getD a 0xFF = if s.host.fe.addr ≤ a ∧ a < s.host.fe.addr + 256
      then s.host.flash.getD a 0xFF &&& s.host.fe.data.getD (a - s.host.fe.addr) 0 else s.host.flash.getD a 0xFF := by
  unfold flashAfter
  dsimp only
  rw [if_neg (by omega)]
  exact programmed_getD ..

/-- Settles O43: an access turns on its offset in BAR0 and on the window's status and target; the flash engine's
operations change the bytes of their sector or page alone. -/
theorem rawWindowAndFlashEngine : Obligations.RawWindowAndFlashEngine := by
  refine ⟨fun s => ⟨?open_, rfl, fun offset bytes v h => exec_bar0_unaligned h v s, exec_bar0Read rfl s,
    exec_bar0Read rfl s, ?area, ?window⟩, fun s f hf => ⟨?command, ?done, ?returned⟩⟩
  case open_ =>
    intro value target page u ht hp hu
    exact congrArg Host.Outcome.next (rawOpen_eq ht hp hu)
  case area =>
    intro k offset v i hi ho
    have written : exec (.rawWindowAccess (.bar0 offset 4) (some v)) s =
        .next (mbWriteArea k.val (4 * i) (leBytes 4 v.toNat) s) := by
      rw [exec_bar0Write (by omega), ho, bar0Write_area k.isLt hi]
    refine ⟨fun hs => by rw [written, mbWriteArea_not_free hs], fun hs => ⟨_, written, ?_⟩⟩
    rw [mbWriteArea_free hs]
    exact ⟨(putBytes_word ..).1, (putBytes_word ..).2, rfl⟩
  case window =>
    intro offset v a ho ha
    have read := exec_bar0Read (offset := offset) (by omega) s
    have written := exec_bar0Write (offset := offset) (by omega) v s
    rw [ho, State.bar0Read_raw] at read
    rw [ho, bar0Write_raw] at written
    refine ⟨fun hs => ⟨?_, ?_⟩, fun hs ht => ⟨fun w hw => ?_, fun hd => ⟨_, written, ?_⟩⟩⟩
    · rw [read, if_neg hs]
      rfl
    · rw [written, if_neg hs]
    · rw [read, if_pos hs, State.rawRead_pilotMem ht, ← hw]
    · rw [if_pos hs, rawWrite_pilotMem ht hd]
      exact ⟨(putBytes_word ..).1, (putBytes_word ..).2, rfl⟩
  case command =>
    subst hf
    intro hs ht hb
    have opened := (State.feOpen_iff s).mpr ⟨hs, ht⟩
    rw [exec_feErase opened, exec_feProgram opened]
    refine ⟨fun h => ?_, fun h => ?_, fun h => ⟨?_, ?_⟩⟩
    · rw [feCommand_starts hb (by simpa using h)]
    · rw [feCommand_starts hb (by simpa using h)]
    · rw [feCommand_unaligned hb (by rw [if_pos rfl]; omega)]
    · rw [feCommand_unaligned hb (by simpa using h)]
  case done =>
    subst hf
    intro hs hw
    refine ⟨exec_feDone false hs hw, fun hc => ⟨_, exec_feDone true hs hw, rfl, flashAfter_erase hc⟩,
      fun hc => ⟨_, exec_feDone true hs hw, rfl, flashAfter_program hc⟩⟩
  case returned =>
    subst hf
    rfl

end Sys2Proof.Machine
end

section
/-! SUPPORT. Doze, Moor and the wake (R468 to R473): parked gangways, and the guard of each step. -/

namespace Sys2Proof.Machine

/-! ### Parked gangways -/

theorem park_rest (s : State) (g : Nat) :
    park s g = s.withDict { s.dict with active := (park s g).dict.active } := by
  unfold park
  split <;> rfl

theorem foldl_park_rest (l : List Nat) (s : State) :
    l.foldl park s = s.withDict { s.dict with active := (l.foldl park s).dict.active } := by
  induction l generalizing s with
  | nil => rfl
  | cons g l ih => rw [List.foldl_cons, ih, park_rest]; rfl

theorem park_get {o : ObjRow} (h : o.apart Obj.gangwayState = true) {n g : Nat} (hn : n < 65536) (hg : g < 65536)
    (s : State) : (park s g).get o n = s.get o n := by
  unfold park
  split
  · exact State.get_set_apart s h _ hg hn
  · rfl

theorem foldl_park_get {o : ObjRow} (h : o.apart Obj.gangwayState = true) {n : Nat} (hn : n < 65536) {l : List Nat}
    (hl : ∀ g ∈ l, g < 65536) (s : State) : (l.foldl park s).get o n = s.get o n := by
  induction l generalizing s with
  | nil => rfl
  | cons g l ih =>
    rw [List.foldl_cons, ih (fun x hx => hl x (List.mem_cons_of_mem _ hx)),
      park_get h hn (hl g List.mem_cons_self)]

theorem park_state (s : State) (g k : Nat) :
    (park s g).get Obj.gangwayState k =
      if k = g ∧ s.get Obj.gangwayState k = 0 then 1 else s.get Obj.gangwayState k := by
  unfold park
  by_cases e : k = g
  · subst e
    by_cases h : s.get Obj.gangwayState k = 0
    · simp [h]
    · simp [h]
  · have hn : ¬(k = g ∧ s.get Obj.gangwayState k = 0) := fun h => e h.1
    rw [if_neg hn]
    split
    · exact State.get_set_inst _ _ _ e
    · rfl

/-- A gangway of the list that ran is parked. -/
theorem foldl_park_state {l : List Nat} {g : Nat} (hg : g ∈ l) {s : State}
    (h : s.get Obj.gangwayState g = 0) : (l.foldl park s).get Obj.gangwayState g = 1 := by
  have parked : ∀ (l : List Nat) (t : State), t.get Obj.gangwayState g = 1 →
      (l.foldl park t).get Obj.gangwayState g = 1 := by
    intro l
    induction l with
    | nil => exact fun _ h => h
    | cons k l ih =>
      intro t ht
      refine ih _ ?_
      rw [park_state, if_neg (by omega), ht]
  induction l generalizing s with
  | nil => cases hg
  | cons k l ih =>
    rw [List.foldl_cons]
    by_cases e : g = k
    · exact parked _ _ (by rw [park_state, if_pos ⟨e, h⟩])
    · refine ih ((List.mem_cons.mp hg).resolve_left e) ?_
      rw [park_state, if_neg (fun x => e x.1), h]

theorem lt_of_mem_gangwaysBelow {n g : Nat} (hn : n ≤ 128) (h : g ∈ gangwaysBelow n) : g < 512 := by
  simp only [gangwaysBelow, List.mem_flatMap, List.mem_map, List.mem_range] at h
  omega

/-! ### Entering Doze and Moor -/

/-- The device after it has entered Doze. -/
def dozing (s : State) : State :=
  let t := (((gangwaysBelow 64).foldl park s).set Obj.sleepState 0 1).bump Obj.dozeEntries
  t.withSleep { t.sleep with since := t.time.ticks, asleepAt := t.time.ticks }

theorem State.idleFor_of {s : State} {ns : Nat} (h : s.idleNow = true) (he : s.elapsed s.sleep.idleFrom ns = true) :
    s.idleFor_ ns = true := by simp [State.idleFor_, h, he]

theorem exec_dozeEnter {s : State} (ha : s.awake = true) (hd : s.get Obj.dozeEnable = 1) (hi : s.idleNow = true)
    (he : s.elapsed s.sleep.idleFrom (s.get Obj.dozeIdleNs) = true) :
    exec .dozeEnter s = .next (raise Ev.sleepEntered 0 1 0 (dozing s)) := by
  change execDozeEnter s = _
  unfold execDozeEnter
  rw [if_pos (by simp [ha, hd, State.idleFor_of hi he])]
  rfl

theorem dozing_sleep (s : State) :
    (dozing s).sleep = { s.sleep with since := s.time.ticks, asleepAt := s.time.ticks } := by
  unfold dozing
  generalize gangwaysBelow 64 = l
  rw [foldl_park_rest]
  rfl

theorem dozing_frames (s : State) : (dozing s).frames = s.frames := by
  unfold dozing
  generalize gangwaysBelow 64 = l
  rw [foldl_park_rest]
  rfl

theorem dozing_sleepState (s : State) : (dozing s).get Obj.sleepState = 1 := by
  unfold dozing
  rw [State.withSleep_get, State.get_bump_apart _ (by decide) (by decide) (by decide), State.get_set_same]

theorem dozing_entries (s : State) :
    (dozing s).get Obj.dozeEntries = (s.get Obj.dozeEntries + 1) % 2 ^ 64 := by
  unfold dozing
  rw [State.withSleep_get, State.get_bump_same, State.get_set_apart _ (by decide) _ (by decide) (by decide),
    foldl_park_get (by decide) (by decide) fun g hg => by have := lt_of_mem_gangwaysBelow (by decide) hg; omega]
  rfl

theorem dozing_gangwayState {s : State} {g : Nat} (hg : g ∈ gangwaysBelow 64) (h : s.get Obj.gangwayState g = 0) :
    (dozing s).get Obj.gangwayState g = 1 := by
  have hlt := lt_of_mem_gangwaysBelow (by decide) hg
  unfold dozing
  rw [State.withSleep_get, State.get_bump_apart _ (by decide) (by decide) (by omega),
    State.get_set_apart _ (by decide) _ (by decide) (by omega), foldl_park_state hg h]

theorem leaveDoze_awake {s : State} (h : s.get Obj.sleepState ≠ 1) : leaveDoze s = s := if_neg h

theorem leaveDoze_dozing {s : State} (h : s.get Obj.sleepState = 1) :
    leaveDoze s = s.add Obj.dozeNs 0 (s.sinceNs s.sleep.since) := if_pos h

theorem exec_moorEnter {s : State} (hs : s.get Obj.sleepState = 0) (hm : s.get Obj.moorEnable = 1)
    (hi : s.idleNow = true) (hd : s.moorDefer = 0) (he : s.elapsed s.sleep.idleFrom (s.get Obj.moorIdleNs) = true) :
    exec .moorEnter s = .next ((s.set Obj.sleepState 0 3).withSleep
      { s.sleep with entryStep := 1, entryAt := s.time.ticks, asleepAt := s.time.ticks }) := by
  have awake : s.awake = true := by simp [State.awake, hs]
  change execMoorEnter s = _
  unfold execMoorEnter
  rw [if_pos (by simp [hs, hm, hd, State.idleFor_of hi he]), leaveDoze_awake (by omega), if_pos awake]
  rfl

theorem exec_moorEntryStepDone {s : State} {k : Nat} (hs : s.get Obj.sleepState = 3) (hk : s.sleep.entryStep = k)
    (h1 : 1 ≤ k) (h5 : k = 5 → s.fifosEmpty = true) :
    exec .moorEntryStepDone s = .next (if k = 8 then enterMoor s
      else (entryEffect k s).withSleep { (entryEffect k s).sleep with entryStep := k + 1 }) := by
  change execMoorEntryStepDone s = _
  unfold execMoorEntryStepDone
  rw [hk]
  dsimp only
  rw [if_neg (by simp only [hs, Bool.not_eq_true']; grind)]
  by_cases h8 : k = 8
  · subst h8; rfl
  · rw [if_neg h8, if_neg h8]

/-! ### The wake -/

theorem exec_wake {s : State} {cause : WakeCause} (h : cause ≠ .policy) :
    exec (.wake cause) s = .next (if s.get Obj.sleepState = 1 then startWake 8 (wakeCode cause) (leaveDoze s)
      else if s.get Obj.sleepState = 2 then
        startWake 1 (wakeCode cause) (s.add Obj.moorNs 0 (s.sinceNs s.sleep.since))
      else if s.get Obj.sleepState = 3 then abandonMoor (wakeCode cause) s else s) := by
  change execWake cause s = _
  unfold execWake
  dsimp only
  rw [if_neg (fun x => h x.1)]

theorem exec_wakeStepDone {s : State} {k : Nat} (hs : s.get Obj.sleepState = 4) (hk : s.sleep.wakeStep = k)
    (h1 : 1 ≤ k) :
    exec .wakeStepDone s = .next (if k = 7 then finishWake s
      else if k = 9 then finishWake ((gangwaysBelow 64).foldl unpark s)
      else (wakeEffect k s).withSleep { (wakeEffect k s).sleep with wakeStep := k + 1 }) := by
  change execWakeStepDone s = _
  unfold execWakeStepDone
  rw [hk]
  dsimp only
  rw [if_neg (by omega)]
  by_cases h7 : k = 7
  · subst h7; rfl
  · by_cases h9 : k = 9
    · subst h9; rfl
    · rw [if_neg (by omega), if_neg h7, if_neg h9]

/-- The device as its wake ends, before that is reported. -/
def woken (s : State) : State :=
  let t := ((shiftEngines s).set Obj.sleepState 0 0).set Obj.lastWakeNs 0 (capAt 0xFFFFFFFF (s.sinceNs s.sleep.wakeAt))
  t.withSleep { t.sleep with wakeStep := 0, idleFrom := t.time.ticks }

theorem finishWake_eq (s : State) :
    finishWake s = s.landedFrames.foldl (fun t f => leaveLanding f t)
      (raise Ev.woke 0 (s.get Obj.lastWakeCause) (s.sinceNs s.sleep.wakeAt) (woken s)) := by
  have cause : (woken s).get Obj.lastWakeCause = s.get Obj.lastWakeCause := by
    unfold woken
    rw [State.withSleep_get, State.get_set_apart _ (by decide) _ (by decide) (by decide),
      State.get_set_apart _ (by decide) _ (by decide) (by decide)]
    rfl
  have landed : ∀ v, (raise Ev.woke 0 v (s.sinceNs s.sleep.wakeAt) (woken s)).landedFrames = s.landedFrames := by
    intro v
    unfold State.landedFrames
    rw [raise_frames _ _ _ _ _ (by decide)]
    rfl
  have unfolded : finishWake s =
      (raise Ev.woke 0 ((woken s).get Obj.lastWakeCause) (s.sinceNs s.sleep.wakeAt) (woken s)).landedFrames.foldl
        (fun t f => leaveLanding f t)
        (raise Ev.woke 0 ((woken s).get Obj.lastWakeCause) (s.sinceNs s.sleep.wakeAt) (woken s)) := rfl
  rw [unfolded, landed, cause]

/-- Settles O41: each step meets its guard; Doze parks the gangways of the pipe domain one by one. -/
theorem sleepStatesFollowTheirSteps : Obligations.SleepStatesFollowTheirSteps := by
  refine ⟨fun s => ⟨?doze, exec_moorEnter, fun k hs hk h1 _ h5 => exec_moorEntryStepDone hs hk h1 h5, ?wake,
    fun k hs hk h1 _ => exec_wakeStepDone hs hk h1⟩, fun s => ?finish⟩
  case doze =>
    intro ha hd hi he
    exact ⟨_, exec_dozeEnter ha hd hi he, dozing_sleepState s, dozing_entries s,
      fun g hg h => dozing_gangwayState hg h, dozing_sleep s, dozing_frames s⟩
  case wake =>
    intro cause hc
    rw [exec_wake hc]
    refine ⟨fun h => ?_, fun h => ?_, fun h => ?_⟩
    · rw [if_neg (by omega), if_pos h]
    · rw [if_pos h, leaveDoze_dozing h]
    · rw [if_neg (by omega), if_neg (by omega), if_pos h]
  case finish =>
    refine ⟨woken s, finishWake_eq s, ?_, ?_, rfl, rfl⟩
    · unfold woken
      rw [State.withSleep_get, State.get_set_apart _ (by decide) _ (by decide) (by decide), State.get_set_same]
    · unfold woken
      rw [State.withSleep_get, State.get_set_same]

end Sys2Proof.Machine
end

section
/-! SUPPORT. The time objects (R408, R411 to R413): what each accepted write puts into the time state, and a tick with
nothing that waits. -/

namespace Sys2Proof.Machine

theorem rowOf_timeIncrement : rowOf 0x1802 0 = some Obj.timeIncrement := rfl
theorem rowOf_timeStepNs : rowOf 0x1804 0 = some Obj.timeStepNs := rfl
theorem rowOf_timeForcedStep : rowOf 0x1805 0 = some Obj.timeForcedStepNs := rfl
theorem rowOf_timeSet : rowOf 0x1806 0 = some Obj.timeSet := rfl

theorem toInt_ne_zero {w : Nat} {v : BitVec w} (h : v ≠ 0) : v.toInt ≠ 0 := by
  intro e
  exact h (BitVec.eq_of_toInt_eq (by simpa using e))

/-- A step within the limit joins the waiting steps (R411). -/
theorem writeTimeStep_waits {session : Nat} {v : Word64} {s : State} (hv : v ≠ 0)
    (hl : s.get Obj.stepLimitNs = 0 ∨ v.toInt.natAbs ≤ s.get Obj.stepLimitNs) :
    writeTimeStep session v.toNat s =
      (St.ok, s.withTime { s.time with waiting := s.time.waiting ++ [v.toInt] }) := by
  unfold writeTimeStep
  dsimp only
  rw [toSigned_toNat, if_neg (by omega), if_neg (toInt_ne_zero hv)]

/-- A forced step that does not pass before zero joins the changes of the next tick (R413). -/
theorem writeForcedStep_joins {v : Word64} {s : State} (h : 0 ≤ s.nextTime + v.toInt * 2 ^ 32) :
    writeForcedStep v.toNat s = (St.ok, s.withTime { s.time with jumps := s.time.jumps ++ [(2, v.toInt)] }) := by
  unfold writeForcedStep
  dsimp only
  rw [toSigned_toNat, if_neg (by simpa [nsUnit] using h)]
  rfl

/-- A set joins the changes of the next tick (R413). -/
theorem writeTimeSet_joins {v : Nat} (h : v % 2 ^ 32 < 1000000000) (s : State) :
    writeTimeSet v s =
      (St.ok, s.withTime { s.time with jumps := s.time.jumps ++ [(3, (nsOfTime80 v : Int))] }) := by
  unfold writeTimeSet
  rw [if_neg (by omega)]
  rfl

/-- A tick with nothing forced, waiting or held back (R407, R408). -/
theorem timeTick_plain {s : State} (hj : s.time.jumps = []) (hw : s.time.waiting = []) (hh : s.time.holding = false)
    (h0 : s.time.hold = 0) (hn : s.nightWatch = false) :
    timeTick s = s.withTime { s.time with
      ticks := s.time.ticks + 1, now := s.time.now + s.tickAmount, watch := 0 } := by
  have held : (if s.tickAmount ≤ 0 then s.tickAmount else 0) = 0 := by split <;> omega
  unfold timeTick
  simp only [State.withTime_time, hj, hw, hh, h0, hn, ne_eq, not_true, if_false, Bool.false_eq_true, applySteps, held,
    Nat.sub_zero, State.withTime_withTime_again]

/-- Settles O36: each write passes its checks and its own rule; a tick without changes is one update of the time. -/
theorem timeIsChangedAndAdvances : Obligations.TimeIsChangedAndAdvances := by
  refine ⟨fun c s => ⟨?increment, ?step, ?forced, ?set, ?hold⟩, fun s hj hw hh h0 hn => ?tick⟩
  case increment =>
    intro v may h1 h2
    have value : leNat (leBytes 8 v.toNat) = v.toNat := leNat_leBytes_of_lt v.isLt
    refine clientWrites_plain Obj.timeIncrement rfl may rowOf_timeIncrement rfl (by decide) (by decide) (by decide) rfl
      (by simp; rfl) (.inr ⟨rfl, ?_, rfl, rfl, rfl⟩) ?_
    · rw [value]
      simp [Obj.timeIncrement, h1, h2]
    · rw [value]; rfl
  case step =>
    intro v may hv hl
    have value : leNat (leBytes 8 v.toNat) = v.toNat := leNat_leBytes_of_lt v.isLt
    refine clientWrites_plain Obj.timeStepNs rfl may rowOf_timeStepNs rfl (by decide) (by decide) (by decide) rfl
      (by simp; rfl) (.inr ⟨rfl, rfl, rfl, rfl, rfl⟩) ?_
    rw [value]
    change (some (writeTimeStep _ v.toNat _).1, (writeTimeStep _ v.toNat _).2) = _
    rw [writeTimeStep_waits hv hl]
  case forced =>
    intro v may h
    have value : leNat (leBytes 8 v.toNat) = v.toNat := leNat_leBytes_of_lt v.isLt
    refine clientWrites_plain Obj.timeForcedStepNs rfl may rowOf_timeForcedStep rfl (by decide) (by decide) (by decide) rfl
      (by simp; rfl) (.inr ⟨rfl, rfl, rfl, rfl, rfl⟩) ?_
    rw [value]
    change (some (writeForcedStep v.toNat _).1, (writeForcedStep v.toNat _).2) = _
    rw [writeForcedStep_joins h]
  case set =>
    intro v may h
    have value : leNat (leBytes 10 v.toNat) = v.toNat := leNat_leBytes_of_lt v.isLt
    refine clientWrites_plain Obj.timeSet rfl may rowOf_timeSet rfl (by decide) (by decide) (by decide) rfl
      (by simp; rfl) (.inr ⟨?_, rfl, rfl, rfl, rfl⟩) ?_
    · rw [value]
      exact decide_eq_true h
    · rw [value]
      change (some (writeTimeSet v.toNat _).1, (writeTimeSet v.toNat _).2) = _
      rw [writeTimeSet_joins h]
  case hold =>
    intro hh h0
    change execTimeHoldEnd s = _
    rw [execTimeHoldEnd, if_pos ⟨hh, h0⟩]
  case tick =>
    rw [timeTick_plain hj hw hh h0 hn]
    exact ⟨rfl, rfl, rfl⟩

end Sys2Proof.Machine
end

section
/-! SUPPORT. The HBM controllers (R386 to R395): a request alone in its queue is the one served, and what queueing,
panic accounting and refreshing leave of the other pseudo-channels and objects. -/

namespace Sys2Proof.Machine

/-! ### Pseudo-channels read after writes -/

@[simp] theorem State.pc_setPc_same (s : State) (c : Nat) (x : PcCtl) : (setPc c x s).pc c = x := NMap.getD_set_same ..

theorem State.pc_setPc_other (s : State) {c k : Nat} (x : PcCtl) (h : k ≠ c) : (setPc c x s).pc k = s.pc k :=
  NMap.getD_set_other _ _ _ h

@[simp] theorem setPc_get (s : State) (c : Nat) (x : PcCtl) (o : ObjRow) (n : Nat) :
    (setPc c x s).get o n = s.get o n := rfl

theorem State.pc_congr {s t : State} (h : t.hbm.pcs = s.hbm.pcs) (c : Nat) : t.pc c = s.pc c := by
  simp [State.pc, h]

@[simp] theorem State.set_pc (s : State) (o : ObjRow) (n v c : Nat) : (s.set o n v).pc c = s.pc c := rfl
@[simp] theorem State.bump_pc (s : State) (o : ObjRow) (n c : Nat) : (s.bump o n).pc c = s.pc c := rfl

theorem settleDrain_eq (x : PcCtl) : x.settleDrain = { x with draining := x.settleDrain.draining } := rfl

theorem settleOrder_eq (x : PcCtl) : x.settleOrder = { x with inOrder := x.settleOrder.inOrder } := rfl

theorem pc_lt (pc : Pc) : pc.val < 65536 := by omega

/-! ### Serving the only request of a queue -/

theorem mem_requesters (r : Requester) : r ∈ requesters := by cases r <;> decide

theorem filter_requesters_single (r : Requester) {f : Requester → Bool} (h : ∀ k, f k = true ↔ k = r) :
    requesters.filter f = [r] := by
  have hf : f = fun k => decide (k = r) := funext fun k => by rw [Bool.eq_iff_iff]; simp [h]
  subst hf
  cases r <;> rfl

/-- The one requester that waits has the highest priority, and is granted (R389). -/
theorem State.grantNext_single (s : State) (c : Nat) (x : PcCtl) (r : Requester) :
    ∃ limit, s.grantNext c x [r] = some (r, limit) := by
  unfold State.grantNext
  dsimp only
  have alone : s.highest c x.lastGrant [r] = some r := rfl
  split
  · rename_i k hk
    have hkr : k = r := by
      split at hk
      · rw [List.filter_cons] at hk
        split at hk
        · exact (Option.some.inj hk).symm
        · cases hk
      · cases hk
    exact ⟨_, by rw [hkr]⟩
  · exact ⟨_, by rw [alone]; rfl⟩

section
variable {s : State} {x : PcCtl} {q : HbmReq}

theorem State.servables_single (hq : x.queue = [q]) (h : s.servable x [] q = true) : s.servables x 0 [] x.queue = [(0, q)] := by
  rw [hq]
  simp [State.servables, h]

/-- The only request of a queue passes nobody. -/
theorem PcCtl.mine_single (r : Requester) : x.mine [(0, q)] r = if q.rr = r then [(0, q)] else [] := by
  have first : ((x.mustGo r).elim true fun k => decide (0 ≤ k)) = true := by cases x.mustGo r <;> simp
  unfold PcCtl.mine
  simp only [List.filter_cons, List.filter_nil, first, Bool.or_true, Bool.and_true, beq_iff_eq]

theorem pickOf_single : pickOf x [(0, q)] = some (0, q) := by
  unfold pickOf
  simp only [List.find?_cons, List.find?_nil, List.head?_cons]
  rcases q.write with _ | _ <;> rcases (x.rows.find q.bank == some q.row) with _ | _ <;> rfl

/-- The only request of an idle pseudo-channel without a grant is issued (R386, R389). -/
theorem serve_single (hq : x.queue = [q]) {c : Nat} (hx : s.pc c = x) (hi : x.issued = []) (hg : x.grant = none) (hb : s.mayBurst c = true)
    (hs : s.servable x [] q = true) : ∃ limit, serve c s = issueBurst c 0 q q.rr 0 limit s := by
  have waiting : requesters.filter (fun r => x.mine [(0, q)] r != []) = [q.rr] := by
    apply filter_requesters_single
    intro k
    rw [PcCtl.mine_single]
    by_cases e : q.rr = k <;> simp [e]
    exact fun h => e h.symm
  obtain ⟨limit, hl⟩ := s.grantNext_single c x q.rr
  refine ⟨limit, ?_⟩
  unfold serve
  dsimp only
  rw [hx, if_neg (by simp [hi, hb]), State.servables_single hq hs]
  simp only [hg]
  rw [waiting, hl]
  simp only
  rw [PcCtl.mine_single, if_pos rfl, pickOf_single]

end

/-- The open row that a burst meets is counted (R385). -/
def rowCounted (c : Nat) (q : HbmReq) (s : State) : State :=
  match (s.pc c).rows.find q.bank with
  | some r => if r = q.row then s.bump Obj.rowHits c else s.bump Obj.rowConflicts c
  | none => s

theorem rowCounted_rest (c : Nat) (q : HbmReq) (s : State) :
    rowCounted c q s = s.withDict { s.dict with active := (rowCounted c q s).dict.active } := by
  unfold rowCounted
  split
  · split <;> rfl
  · rfl

/-- The request as it is issued: a read does not complete before its pad (R545). -/
def issuedForm (c : Nat) (q : HbmReq) (s : State) : HbmReq :=
  if q.write then q else { q with due := s.time.ticks + ticksOfNs (s.get Obj.perturbHbmPadNs c) }

theorem issuedForm_keeps (c : Nat) (q : HbmReq) (s : State) :
    (issuedForm c q s).rr = q.rr ∧ (issuedForm c q s).write = q.write ∧ (issuedForm c q s).burst = q.burst ∧
      (issuedForm c q s).bank = q.bank ∧ (issuedForm c q s).row = q.row := by
  unfold issuedForm
  split <;> exact ⟨rfl, rfl, rfl, rfl, rfl⟩

/-- What issuing the only request of a queue leaves (R385, R386). -/
theorem issueBurst_single (c : Nat) (q : HbmReq) (owner : Requester) (n limit : Nat) {s : State}
    (hq : (s.pc c).queue = [q]) : ∃ y, issueBurst c 0 q owner n limit s = setPc c y (rowCounted c q s) ∧
      y.issued = [issuedForm c q (rowCounted c q s)] ∧ y.queue = [] ∧ y.rows.find q.bank = some q.row := by
  obtain ⟨-, -, -, hbank, hrow⟩ := issuedForm_keeps c q (rowCounted c q s)
  refine ⟨_, rfl, ?_, ?_, ?_⟩
  · rw [settleDrain_eq, settleOrder_eq]
    rfl
  · rw [settleDrain_eq, settleOrder_eq]
    change (List.take 0 (s.pc c).queue).map _ ++ List.drop (0 + 1) (s.pc c).queue = []
    rw [hq]
    rfl
  · rw [settleDrain_eq, settleOrder_eq]
    change (NMap.put (s.pc c).rows (issuedForm c q (rowCounted c q s)).bank
      (issuedForm c q (rowCounted c q s)).row).find q.bank = some q.row
    rw [hbank, hrow, NMap.find_put_same]

/-- Serving the only request of an idle pseudo-channel issues it and leaves the others (R386, R389). -/
theorem serve_only {s : State} {q : HbmReq} {c : Nat} (hq : (s.pc c).queue = [q]) (hi : (s.pc c).issued = [])
    (hg : (s.pc c).grant = none) (hb : s.mayBurst c = true) (hs : s.servable (s.pc c) [] q = true) :
    ∃ y, serve c s = setPc c y (rowCounted c q s) ∧
      y.issued = [issuedForm c q (rowCounted c q s)] ∧ y.queue = [] ∧ y.rows.find q.bank = some q.row := by
  obtain ⟨limit, hserve⟩ := serve_single hq rfl hi hg hb hs
  rw [hserve]
  exact issueBurst_single c q q.rr 0 limit hq

/-- A busy pseudo-channel serves nothing more. -/
theorem serve_busy {s : State} {c : Nat} (hi : (s.pc c).issued ≠ []) : serve c s = s := by
  unfold serve
  dsimp only
  rw [if_pos (.inl hi)]

theorem rowCounted_pc (c : Nat) (q : HbmReq) (s : State) (k : Nat) : (rowCounted c q s).pc k = s.pc k := by
  rw [rowCounted_rest]
  rfl

/-! ### Queueing -/

theorem enterOrder_empty {s : State} {c : Nat} {q : HbmReq} (hq : (s.pc c).queue = []) : enterOrder c q s = s := by
  unfold enterOrder
  dsimp only
  rw [hq]
  rfl

/-- A request joins its queue; nothing that is issued changes, nor any other pseudo-channel. -/
theorem queueBurst_eq (c : Nat) (q : HbmReq) (s : State) :
    ∃ y, queueBurst c q s = setPc c y (enterOrder c q s) ∧ y.queue = (s.pc c).queue ++ [q] ∧
      y.issued = (s.pc c).issued := by
  have ordered : ((enterOrder c q s).pc c).queue = (s.pc c).queue ∧ ((enterOrder c q s).pc c).issued = (s.pc c).issued := by
    unfold enterOrder
    dsimp only
    split
    · exact ⟨rfl, rfl⟩
    · rw [State.pc_setPc_same]
      exact ⟨rfl, rfl⟩
  refine ⟨_, rfl, ?_, ?_⟩
  · rw [settleDrain_eq, ← ordered.1]
  · rw [settleDrain_eq, ← ordered.2]

theorem enterOrder_pc_other (s : State) {c k : Nat} (q : HbmReq) (h : k ≠ c) : (enterOrder c q s).pc k = s.pc k := by
  unfold enterOrder
  dsimp only
  split
  · rfl
  · rw [State.pc_setPc_other _ _ h, State.bump_pc]

theorem enterOrder_get (s : State) {c : Nat} (hc : c < 65536) (q : HbmReq) {o : ObjRow}
    (ho : o.apart Obj.inOrderEntries = true) {n : Nat} (hn : n < 65536) : (enterOrder c q s).get o n = s.get o n := by
  unfold enterOrder
  dsimp only
  split
  · rfl
  · rw [setPc_get, State.get_bump_apart s ho hc hn]

/-- A read that alone is queued. -/
theorem queueBurst_empty {s : State} {c : Nat} {q : HbmReq} (hq : (s.pc c).queue = []) :
    queueBurst c q s = setPc c ({ s.pc c with queue := [q] } : PcCtl).settleDrain s := by
  unfold queueBurst
  dsimp only
  rw [enterOrder_empty hq, hq]
  rfl

theorem settleDrain_read {x : PcCtl} {q : HbmReq} (hw : q.write = false) :
    ({ x with queue := [q] } : PcCtl).settleDrain = { x with queue := [q], draining := false } := by
  simp [PcCtl.settleDrain, PcCtl.writes, hw]

/-- Whether a pseudo-channel may issue a burst does not turn on its queue. -/
theorem State.mayBurst_setPc (s : State) (c : Nat) {x : PcCtl} (h : x.stepAt = (s.pc c).stepAt) :
    (setPc c x s).mayBurst c = s.mayBurst c := by
  unfold State.mayBurst State.inStep
  rw [State.pc_setPc_same, h]
  rfl

/-! ### Panic accounting -/

/-- A count of bursts below the panic level raises nothing (R392). -/
theorem setOutstanding_calm {p n : Nat} {s : State} (h : s.get Obj.panicLevel p = 0 ∨ n < s.get Obj.panicLevel p)
    (hp : p < 65536) : setOutstanding p n true s = s.set Obj.lookupOutstanding p n := by
  have level : (s.set Obj.lookupOutstanding p n).get Obj.panicLevel p = s.get Obj.panicLevel p :=
    State.get_set_apart s (by decide) _ hp hp
  unfold setOutstanding
  dsimp only
  split
  · rw [level, if_neg]
    simp only [Bool.true_and, Bool.and_eq_true, bne_iff_ne, decide_eq_true_eq]
    omega
  · rfl

/-! ### The commands -/

section
variable {pc : Pc} {s : State} (hl : s.pcLive pc.val = true)
include hl

theorem exec_hbmRequest_read {r : Requester} {burst : BitVec 28}
    (hy : (s.place (pc.val / 32) burst.toNat).pc = pc.val % 32) :
    exec (.hbmRequest pc r false burst) s = .next (acceptBurst pc.val
      { rr := r, write := false, burst := burst.toNat, bank := (s.place (pc.val / 32) burst.toNat).bank,
        row := (s.place (pc.val / 32) burst.toNat).row, since := s.time.ticks } s) := by
  change execHbmRequest pc r false burst s = _
  unfold execHbmRequest
  dsimp only
  rw [if_neg (by simp [hy, hl]), if_neg (by simp)]

theorem exec_hbmRequest_write {r : Requester} {burst : BitVec 28}
    (hy : (s.place (pc.val / 32) burst.toNat).pc = pc.val % 32)
    (hr : (s.pc pc.val).writeRoom (s.place (pc.val / 32) burst.toNat).bank = true) :
    exec (.hbmRequest pc r true burst) s = .next (acceptBurst pc.val
      { rr := r, write := true, burst := burst.toNat, bank := (s.place (pc.val / 32) burst.toNat).bank,
        row := (s.place (pc.val / 32) burst.toNat).row, since := s.time.ticks } s) := by
  change execHbmRequest pc r true burst s = _
  unfold execHbmRequest
  dsimp only
  rw [if_neg (by simp [hy, hl]), if_neg (by simp [hr])]

theorem exec_refreshDue (hn : (s.pc pc.val).refreshNext ≤ 64 * s.time.ticks) :
    exec (.refreshDue pc) s = .next (dueRefresh pc.val s) := by
  change execRefreshDue pc s = _
  unfold execRefreshDue
  rw [if_neg (by simp [hl]; omega)]

end

theorem exec_burstComplete {pc : Pc} {ecc : EccResult} {s : State} {q : HbmReq} (hi : (s.pc pc.val).issued = [q])
    (hd : q.due ≤ s.time.ticks) :
    exec (.burstComplete pc ecc) s = .next (serve pc.val (payOwed pc.val (forceRefresh pc.val (retryFixes pc.val
      (finishBurst pc.val q ecc (setPc pc.val { s.pc pc.val with issued := [] } s)))))) := by
  change execBurstComplete pc ecc s = _
  unfold execBurstComplete
  simp only [hi]
  rw [if_neg (by omega)]

/-- A patrol-free read that is no LOOKUP ends with its code check (R397). -/
theorem finishBurst_read {c : Nat} {q : HbmReq} {ecc : EccResult} {s : State} (hw : q.write = false)
    (hr : q.rr ≠ .lookup) (hp : q.patrol = none) :
    finishBurst c q ecc s = checkRead c q.rr q.burst ecc (s.bump Obj.burstsRead c) := by
  unfold finishBurst
  dsimp only
  rw [if_neg hr, hp, hw]
  rfl

/-! ### Requests taken over -/

/-- A request that is neither a LOOKUP nor a victim's write-back is queued and served. -/
theorem acceptBurst_background {c : Nat} {q : HbmReq} (h1 : q.rr ≠ .lookup) (h2 : q.rr ≠ .writeback) (s : State) :
    acceptBurst c q s = serve c (queueBurst c q (if q.write then cancelFix c q.burst s else s)) := by
  unfold acceptBurst
  dsimp only
  rw [if_neg (show ¬(q.rr = .writeback ∧ s.panicOn (pipeOfPc c) = true) from fun h => h2 h.1), if_neg h1]

/-- A read at an idle pseudo-channel is issued at once (R386, R389). -/
theorem acceptBurst_idle {c : Nat} {q : HbmReq} {s : State} (hq : (s.pc c).queue = []) (hi : (s.pc c).issued = [])
    (hg : (s.pc c).grant = none) (ho : (s.pc c).inOrder = []) (hb : s.mayBurst c = true)
    (hr : s.bankRefreshing (s.pc c) q.bank = false) (hw : q.write = false) (h1 : q.rr ≠ .lookup)
    (h2 : q.rr ≠ .writeback) :
    ∃ y u, acceptBurst c q s = setPc c y u ∧ y.issued = [issuedForm c q u] ∧ y.queue = [] ∧
      y.rows.find q.bank = some q.row ∧ (∀ k, k ≠ c → u.pc k = s.pc k) ∧
      u = { s with hbm := { s.hbm with pcs := u.hbm.pcs }, dict := { s.dict with active := u.dict.active } } := by
  obtain ⟨x, hx⟩ : ∃ x, x = ({ s.pc c with queue := [q], draining := false } : PcCtl) := ⟨_, rfl⟩
  have queued : queueBurst c q s = setPc c x s := by rw [queueBurst_empty hq, settleDrain_read hw, hx]
  have hpc : (setPc c x s).pc c = x := State.pc_setPc_same ..
  have free : (setPc c x s).servable x [] q = true := by
    have hbank : (setPc c x s).bankRefreshing x q.bank = false := by rw [hx]; exact hr
    have horder : x.inOrder = [] := by rw [hx]; exact ho
    simp [State.servable, hbank, horder, hw]
  have may : (setPc c x s).mayBurst c = true := by
    rw [State.mayBurst_setPc s c (by rw [hx])]
    exact hb
  obtain ⟨y, hserve, h3, h4, h5⟩ := serve_only (s := setPc c x s) (q := q) (c := c) (by rw [hpc, hx]) (by rw [hpc, hx]; exact hi)
    (by rw [hpc, hx]; exact hg) may (by rw [hpc]; exact free)
  refine ⟨y, rowCounted c q (setPc c x s), ?_, h3, h4, h5, fun k hk => ?_, ?_⟩
  · rw [acceptBurst_background h1 h2, if_neg (by simp [hw]), queued, hserve]
  · rw [rowCounted_pc, State.pc_setPc_other _ _ hk]
  · rw [rowCounted_rest]
    rfl

/-- A write at a busy pseudo-channel joins its queue (R386). -/
theorem acceptBurst_busy_write {c : Nat} {q : HbmReq} {s : State} (hq : (s.pc c).queue = [])
    (hi : (s.pc c).issued ≠ []) (hw : q.write = true) (h1 : q.rr ≠ .lookup) (h2 : q.rr ≠ .writeback) :
    ∃ y u, acceptBurst c q s = setPc c y u ∧ y.queue = [q] ∧ y.issued = (s.pc c).issued ∧
      ∀ k, k ≠ c → u.pc k = s.pc k := by
  obtain ⟨x, hx⟩ : ∃ x, x = ({ s.pc c with
      fixes := (s.pc c).fixes.filter (· != q.burst), queue := [] } : PcCtl) := ⟨_, rfl⟩
  have cancelled : cancelFix c q.burst s = setPc c x s := by
    unfold cancelFix
    dsimp only
    rw [hq, hx]
    rfl
  have hpc : (setPc c x s).pc c = x := State.pc_setPc_same ..
  have queued := queueBurst_empty (s := setPc c x s) (c := c) (q := q) (by rw [hpc, hx])
  rw [hpc] at queued
  have hissued : (({ x with queue := [q] } : PcCtl).settleDrain).issued = (s.pc c).issued := by
    rw [settleDrain_eq, hx]
  refine ⟨({ x with queue := [q] } : PcCtl).settleDrain, setPc c x s, ?_, by rw [settleDrain_eq], hissued,
    fun k hk => State.pc_setPc_other _ _ hk⟩
  rw [acceptBurst_background h1 h2, if_pos hw, cancelled, queued, serve_busy]
  rw [State.pc_setPc_same, hissued]
  exact hi

/-- A LOOKUP burst at a busy pseudo-channel is counted and queued (R386, R392). -/
theorem acceptBurst_busy_lookup {c : Nat} {q : HbmReq} {s : State} (hc : c < 65536) (hi : (s.pc c).issued ≠ [])
    (hw : q.write = false) (h1 : q.rr = .lookup)
    (hp : s.get Obj.panicLevel (pipeOfPc c) = 0 ∨
      s.get Obj.lookupOutstanding (pipeOfPc c) + 1 < s.get Obj.panicLevel (pipeOfPc c)) :
    ∃ t, acceptBurst c q s = t ∧ t.get Obj.lookupOutstanding (pipeOfPc c) =
        s.get Obj.lookupOutstanding (pipeOfPc c) + 1 ∧
      (t.pc c).issued = (s.pc c).issued ∧ (t.pc c).queue = (s.pc c).queue ++ [q] := by
  have hpipe : pipeOfPc c < 65536 := by unfold pipeOfPc; omega
  obtain ⟨y, hqueued, hqueue, hissued⟩ := queueBurst_eq c q s
  have objects : ∀ o : ObjRow, o.apart Obj.inOrderEntries = true →
      (queueBurst c q s).get o (pipeOfPc c) = s.get o (pipeOfPc c) := fun o ho => by
    rw [hqueued, setPc_get, enterOrder_get s hc q ho hpipe]
  have accepted : acceptBurst c q s =
      (queueBurst c q s).set Obj.lookupOutstanding (pipeOfPc c) (s.get Obj.lookupOutstanding (pipeOfPc c) + 1) := by
    unfold acceptBurst
    dsimp only
    rw [if_neg (show ¬(q.rr = .writeback ∧ s.panicOn (pipeOfPc c) = true) by simp [h1]), if_pos h1,
      if_neg (by simp [hw]), objects _ (by decide), setOutstanding_calm (by rw [objects _ (by decide)]; exact hp) hpipe,
      serve_busy]
    rw [State.set_pc, hqueued, State.pc_setPc_same, hissued]
    exact hi
  refine ⟨_, accepted, State.get_set_same .., ?_, ?_⟩
  · rw [State.set_pc, hqueued, State.pc_setPc_same, hissued]
  · rw [State.set_pc, hqueued, State.pc_setPc_same, hqueue]

/-! ### Refresh -/

/-- A refresh that is due: the next one is set (R394). -/
def refreshSet (c : Nat) (s : State) : State :=
  setPc c { s.pc c with
    refreshNext := (if (s.pc c).refreshNext = 0 then 64 * s.time.ticks else (s.pc c).refreshNext) +
      s.refreshInterval (c / 32) } s

theorem dueRefresh_eq (c : Nat) (s : State) :
    dueRefresh c s =
      if s.allowance (c / 32) ≤ s.get Obj.refreshOwed c then
        forceRefresh c (setPc c { (refreshSet c s).pc c with forced := (s.pc c).forced + 1 } (refreshSet c s))
      else
        let t := payOwed c ((refreshSet c s).bump Obj.refreshOwed c)
        if s.get Obj.refreshOwed c < t.get Obj.refreshOwed c then t.bump Obj.refreshesPostponed c else t := by
  have hf : ((refreshSet c s).pc c).forced = (s.pc c).forced := by rw [refreshSet, State.pc_setPc_same]
  rw [← hf]
  rfl

/-- Whether a refresh command may be issued does not turn on what is owed. -/
theorem mayCommand_congr {s t : State} {c : Nat} (hp : t.pcLive c = s.pcLive c) (ht : t.time = s.time)
    (h1 : (t.pc c).stepAt = (s.pc c).stepAt) (h2 : (t.pc c).refreshAt = (s.pc c).refreshAt) :
    t.mayCommand c = s.mayCommand c := by
  unfold State.mayCommand State.inStep State.elapsed
  simp only [hp, ht, h1, h2]

theorem pcLive_bump (s : State) {o : ObjRow} {c n : Nat} (ho : Obj.deckState.apart o = true) (hc : c < 65536)
    (hn : n < 65536) : (s.bump o n).pcLive c = s.pcLive c := by
  unfold State.pcLive State.deckUp
  rw [State.get_bump_apart s ho hn (by omega)]
  rfl

theorem pcLive_setPc (s : State) (c k : Nat) (x : PcCtl) : (setPc c x s).pcLive k = s.pcLive k := rfl

theorem mayRefresh_owed {s : State} {c : Nat} (hc : c < 65536) :
    ((refreshSet c s).bump Obj.refreshOwed c).mayRefresh c = s.mayRefresh c := by
  have command : ((refreshSet c s).bump Obj.refreshOwed c).mayCommand c = s.mayCommand c := by
    apply mayCommand_congr
    · rw [pcLive_bump _ (by decide) hc hc]; rfl
    · rfl
    all_goals rw [State.bump_pc, refreshSet, State.pc_setPc_same]
  have hpc : ((refreshSet c s).bump Obj.refreshOwed c).pc c = (refreshSet c s).pc c := State.bump_pc ..
  unfold State.mayRefresh
  rw [command, hpc, refreshSet, State.pc_setPc_same]

/-- A due refresh within the allowance that cannot be paid now is owed (R394). -/
theorem dueRefresh_owed {c : Nat} {s : State} (hc : c < 65536) (ho : s.get Obj.refreshOwed c < s.allowance (c / 32))
    (hm : s.mayRefresh c = false) :
    dueRefresh c s = ((refreshSet c s).bump Obj.refreshOwed c).bump Obj.refreshesPostponed c := by
  have bound : s.get Obj.refreshOwed c < 8 := by
    unfold State.allowance at ho
    split at ho <;> omega
  have owed : ((refreshSet c s).bump Obj.refreshOwed c).get Obj.refreshOwed c = s.get Obj.refreshOwed c + 1 := by
    rw [State.get_bump_same, show (refreshSet c s).get Obj.refreshOwed c = s.get Obj.refreshOwed c from rfl]
    exact Nat.mod_eq_of_lt (show _ < 256 by omega)
  have unpaid : payOwed c ((refreshSet c s).bump Obj.refreshOwed c) = (refreshSet c s).bump Obj.refreshOwed c := by
    unfold payOwed
    rw [if_neg (by simp [mayRefresh_owed hc, hm])]
  rw [dueRefresh_eq, if_neg (by omega), unpaid]
  dsimp only
  rw [owed, if_pos (by omega)]

theorem forceRefresh_busy {c : Nat} {s : State} (h : (s.pc c).issued ≠ []) : forceRefresh c s = s := by
  unfold forceRefresh
  dsimp only
  rw [if_pos (.inl h)]

/-- A forced refresh at an idle pseudo-channel is issued at once (R394). -/
theorem forceRefresh_idle {c : Nat} {s : State} (hi : (s.pc c).issued = []) (hm : s.mayCommand c = true)
    (hp : (s.pc c).payments = 0) (hf : (s.pc c).forced ≠ 0) :
    forceRefresh c s =
      refresh c (setPc c { s.pc c with forced := (s.pc c).forced - 1 } (s.bump Obj.refreshesForced c)) := by
  unfold forceRefresh
  dsimp only
  rw [if_neg (by simp [hi, hm]), if_neg (by simp [hp]), if_pos hf]

/-- A refresh closes its bank's row, passes to the next bank and is counted; it touches no other count. -/
theorem refresh_leaves {c : Nat} (hc : c < 65536) (s : State) :
    (refresh c s).get Obj.refreshes c = (s.get Obj.refreshes c + 1) % 2 ^ 64 ∧
      (∀ o : ObjRow, o.apart Obj.refreshes = true → (refresh c s).get o c = s.get o c) ∧
      ((refresh c s).pc c).rows.find (s.pc c).nextBank = none ∧
      ((refresh c s).pc c).nextBank = ((s.pc c).nextBank + 1) % 32 := by
  unfold refresh
  dsimp only
  refine ⟨?_, fun o ho => ?_, ?_, ?_⟩
  · rw [setPc_get, State.get_bump_same]
    rfl
  · rw [setPc_get, State.get_bump_apart s ho hc hc]
  · rw [State.pc_setPc_same, NMap.find_del_same]
  · rw [State.pc_setPc_same]

/-! ### Temperature -/

theorem exec_hbmTempRead {d : Deck} {celsius : Int} {s u : State} (hm : s.mayReadTemp d.val = true)
    (hu : u = (s.withHbm { s.hbm with tempAt := s.hbm.tempAt.put d.val s.time.ticks
                                      unread := s.hbm.unread.filter (· != d.val) }).set Obj.hbmTempC d.val (ofSigned 32 celsius)) :
    exec (.hbmTempRead d celsius) s = .next (if s.get Obj.refreshMode d.val = 0 then
        if celsius ≤ 85 then u
        else match orderPayments d.val (u.set Obj.refreshMode d.val 1) with
          | (n, v) => raise Ev.refreshHot d.val (ofSigned 32 celsius) n v
      else if 82 ≤ celsius then u
      else raise Ev.refreshNormal d.val (ofSigned 32 celsius) 0 (u.set Obj.refreshMode d.val 0)) := by
  have mode : u.get Obj.refreshMode d.val = s.get Obj.refreshMode d.val := by
    rw [hu, State.get_set_apart _ (by decide) _ (by omega) (by omega), State.withHbm_get]
  change execHbmTempRead d celsius s = _
  unfold execHbmTempRead readTemp
  rw [if_pos hm]
  dsimp only
  rw [← hu, mode]

/-- Settles O34: a request alone is the one served, a busy channel only queues, and a refresh is owed or forced by its
allowance. -/
theorem hbmRequestsAndRefreshes : Obligations.HbmRequestsAndRefreshes := by
  refine ⟨fun pc s x hx hl => ⟨?idle, ?write, ?lookup, ?complete, ?drain⟩, fun s => ⟨?due, ?temp⟩⟩
  case idle =>
    intro r burst y hy hpc hq hb hr hi hg ho h1 h2 hd
    subst hx hy
    obtain ⟨z, u, haccept, hissued, hqueue, hrow, hother, hrest⟩ := acceptBurst_idle
      (q := { rr := r, write := false, burst := burst.toNat, bank := (s.place (pc.val / 32) burst.toNat).bank,
              row := (s.place (pc.val / 32) burst.toNat).row, since := s.time.ticks }) hq hi hg ho hb hr rfl h1 h2
    obtain ⟨k1, k2, k3, k4, k5⟩ := issuedForm_keeps pc.val _ u
    refine ⟨_, (exec_hbmRequest_read hl hpc).trans (congrArg _ haccept), ?_, ?_, ?_, fun c hc => ?_, ?_⟩
    · rw [State.pc_setPc_same]
      exact ⟨_, hissued, k1, k2, k3, k4, k5⟩
    · rw [State.pc_setPc_same, hqueue]
    · rw [State.pc_setPc_same, hrow]
    · rw [State.pc_setPc_other _ _ hc, hother c hc]
    · rw [hrest]
      rfl
  case write =>
    intro r burst q other hpc hi hq h1 h2 hqe
    subst hx
    have room : (s.pc pc.val).writeRoom (s.place (pc.val / 32) burst.toNat).bank = true := by
      simp [PcCtl.writeRoom, PcCtl.writes, hq]
    obtain ⟨z, u, haccept, hqueue, hissued, hother⟩ := acceptBurst_busy_write (q := q) hq (by simp [hi])
      (by rw [hqe]) (by rw [hqe]; exact h1) (by rw [hqe]; exact h2)
    rw [hqe] at haccept
    refine ⟨_, (exec_hbmRequest_write hl hpc room).trans (congrArg _ haccept), ?_, ?_, fun c hc => ?_⟩
    · rw [State.pc_setPc_same, hqueue]
    · rw [State.pc_setPc_same, hissued, hi]
    · rw [State.pc_setPc_other _ _ hc, hother c hc]
  case lookup =>
    intro burst y p hy hpc hp hpanic hi
    subst hx hy hp
    obtain ⟨t, haccept, hcount, hissued, hqueue⟩ := acceptBurst_busy_lookup
      (q := { rr := .lookup, write := false, burst := burst.toNat, bank := (s.place (pc.val / 32) burst.toNat).bank,
              row := (s.place (pc.val / 32) burst.toNat).row, since := s.time.ticks }) (pc_lt pc) hi rfl rfl hpanic
    exact ⟨_, (exec_hbmRequest_read hl hpc).trans (congrArg _ haccept), hcount, hissued, _, hqueue, rfl, rfl, rfl⟩
  case complete =>
    intro q ecc hi hd hw hr hp
    subst hx
    rw [exec_burstComplete hi hd, finishBurst_read hw hr hp]
  case drain =>
    intro q hb hr hi hg ho hq hw he
    subst hx
    have free : s.servable (s.pc pc.val) [] q = true := by simp [State.servable, hr, ho, hw, he]
    obtain ⟨y, hserve, hissued, hqueue, -⟩ := serve_only hq hi hg hb free
    refine ⟨_, congrArg Host.Outcome.next hserve, ?_, ?_⟩
    · rw [State.pc_setPc_same, hissued, issuedForm, if_pos hw]
    · rw [State.pc_setPc_same, hqueue]
  case due =>
    intro pc x u hx hl hn hu
    subst hx
    rw [show (setPc pc.val _ s) = refreshSet pc.val s from rfl] at hu
    subst hu
    refine ⟨fun ho hm => ?_, fun ho hi => ?_, fun ho hi hp hm => ?_⟩
    · rw [exec_refreshDue hl hn, dueRefresh_owed (pc_lt pc) ho hm]
    · rw [exec_refreshDue hl hn, dueRefresh_eq, if_pos ho, forceRefresh_busy]
      rw [State.pc_setPc_same, refreshSet, State.pc_setPc_same]
      exact hi
    · obtain ⟨z, hz⟩ : ∃ z, z = ({ (refreshSet pc.val s).pc pc.val with forced := (s.pc pc.val).forced + 1 } : PcCtl) :=
        ⟨_, rfl⟩
      have fields : z.issued = [] ∧ z.payments = 0 ∧ z.forced = (s.pc pc.val).forced + 1 ∧
          z.nextBank = (s.pc pc.val).nextBank ∧ z.stepAt = (s.pc pc.val).stepAt ∧ z.refreshAt = (s.pc pc.val).refreshAt := by
        rw [hz, refreshSet, State.pc_setPc_same]
        exact ⟨hi, hp, rfl, rfl, rfl, rfl⟩
      obtain ⟨f1, f2, f3, f4, f5, f6⟩ := fields
      have command : (setPc pc.val z (refreshSet pc.val s)).mayCommand pc.val = true := by
        have same : (setPc pc.val z (refreshSet pc.val s)).mayCommand pc.val = s.mayCommand pc.val :=
          mayCommand_congr rfl rfl (by rw [State.pc_setPc_same, f5]) (by rw [State.pc_setPc_same, f6])
        rw [same]
        exact hm
      have forced := forceRefresh_idle (c := pc.val) (s := setPc pc.val z (refreshSet pc.val s))
        (by rw [State.pc_setPc_same, f1]) command (by rw [State.pc_setPc_same, f2])
        (by rw [State.pc_setPc_same, f3]; omega)
      obtain ⟨w, forced, hbank⟩ : ∃ w : PcCtl, forceRefresh pc.val (setPc pc.val z (refreshSet pc.val s)) =
          refresh pc.val (setPc pc.val w ((setPc pc.val z (refreshSet pc.val s)).bump Obj.refreshesForced pc.val)) ∧
          w.nextBank = (s.pc pc.val).nextBank := ⟨_, forced, by rw [State.pc_setPc_same]; exact f4⟩
      have due : dueRefresh pc.val s = forceRefresh pc.val (setPc pc.val z (refreshSet pc.val s)) := by
        rw [dueRefresh_eq, if_pos ho, hz]
      have run := (exec_refreshDue hl hn).trans (congrArg Host.Outcome.next (due.trans forced))
      obtain ⟨r1, r2, r3, r4⟩ := refresh_leaves (pc_lt pc)
        (setPc pc.val w ((setPc pc.val z (refreshSet pc.val s)).bump Obj.refreshesForced pc.val))
      rw [State.pc_setPc_same, hbank] at r3 r4
      refine ⟨_, run, ?_, ?_, ?_, r3, r4⟩
      · rw [r1, setPc_get, State.get_bump_apart _ (by decide) (pc_lt pc) (pc_lt pc)]
        rfl
      · rw [r2 _ (by decide), setPc_get, State.get_bump_same]
        rfl
      · rw [r2 _ (by decide), setPc_get, State.get_bump_apart _ (by decide) (pc_lt pc) (pc_lt pc)]
        rfl
  case temp =>
    intro d celsius u hm hu
    rw [exec_hbmTempRead hm hu]
    refine ⟨fun h0 hc => ?_, fun n v h0 hc hpay => ?_, fun h0 hc => ?_⟩
    · rw [if_pos h0, if_pos hc]
    · rw [if_pos h0, if_neg (by omega), hpay]
    · rw [if_neg h0, if_neg (by omega)]

end Sys2Proof.Machine
end

section
/-! SUPPORT. Raising an event, part by part (R84 to R88, R534 to R536): what the count, the signal and the log each
change; the events that raising one causes leave its own counters alone. -/

namespace Sys2Proof.Machine

/-! ### What the log leaves of counters and signals -/

/-- No cause of an event that was signalled is cleared. -/
structure Signalled (s t : State) : Prop where
  pin : bitOf (s.get Obj.intPinCause) 0 = true → bitOf (t.get Obj.intPinCause) 0 = true
  vector : bitOf s.host.vectorCause 0 = true → bitOf t.host.vectorCause 0 = true

/-- No cause of an event is cleared, and no object changes but those of the given indices and the positions and record
counts of rings. -/
structure LogKeeps (ix : List Nat) (s t : State) : Prop extends Signalled s t where
  objects : ∀ (o : ObjRow) (b n : Nat), b < 256 → n < 65536 → o.index ∉ ix → (o.index = 0x7010 → b ≠ 5 ∧ b ≠ 6) →
    t.getS o b n = s.getS o b n

/-- The objects of the log, and the causes of the interrupt pin. -/
def logIndices : List Nat := [0x0801, 0x7A20]

section
variable {ix : List Nat}

theorem Signalled.refl (s : State) : Signalled s s := ⟨id, id⟩

theorem Signalled.trans {s t u : State} (h : Signalled s t) (k : Signalled t u) : Signalled s u :=
  ⟨k.pin ∘ h.pin, k.vector ∘ h.vector⟩

/-- A change of the state that is no write of an object and clears no cause. -/
theorem LogKeeps.of_active {s t : State} (h : t.dict.active = s.dict.active)
    (hv : bitOf s.host.vectorCause 0 = true → bitOf t.host.vectorCause 0 = true) : LogKeeps ix s t :=
  ⟨⟨fun h' => by rwa [State.get, State.getS_congr h], hv⟩, fun o b n _ _ _ _ => State.getS_congr h o b n⟩

theorem LogKeeps.refl (s : State) : LogKeeps ix s s := .of_active rfl id

theorem LogKeeps.trans {s t u : State} (h : LogKeeps ix s t) (k : LogKeeps ix t u) : LogKeeps ix s u :=
  ⟨h.toSignalled.trans k.toSignalled,
    fun o b n hb hn h1 h2 => (k.objects o b n hb hn h1 h2).trans (h.objects o b n hb hn h1 h2)⟩

theorem Signalled.setS (s : State) {o : ObjRow} {b n : Nat} (v : Nat) (ho : o.index ≠ 0x7A20) (hb : b < 256)
    (hn : n < 65536) : Signalled s (s.setS o b n v) :=
  ⟨fun h => by rwa [State.get, State.getS_setS_index s (o' := Obj.intPinCause) (Ne.symm ho) _ hb hn (by decide) (by decide)],
    id⟩

theorem LogKeeps.set (s : State) {o : ObjRow} {n : Nat} (v : Nat) (ho : o.index ∈ ix) (hp : o.index ≠ 0x7A20)
    (hb : o.sub < 256) (hn : n < 65536) : LogKeeps ix s (s.set o n v) where
  toSignalled := Signalled.setS s v hp hb hn
  objects := fun o' b' n' hb' hn' h1 _ =>
    State.getS_setS_index s (o' := o') (fun e => h1 (by rw [e]; exact ho)) v hb hn hb' hn'

/-- A write of the position or of the record count of a ring. -/
theorem LogKeeps.setRingObject (s : State) {o : ObjRow} {n : Nat} (v : Nat) (ho : o.index = 0x7010)
    (hs : o.sub = 5 ∨ o.sub = 6) (hn : n < 65536) : LogKeeps ix s (s.set o n v) where
  toSignalled := Signalled.setS s v (by omega) (by omega) hn
  objects := fun o' b n' hb' hn' _ h2 => State.getS_setS _ _ _ _ _ _ _ _ fun e => by
    obtain ⟨k1, k2, -⟩ := addrKey_inj hb' (by omega) hn' hn e
    have := h2 (by omega)
    omega

theorem LogKeeps.withEvents (s : State) (e : Events) : LogKeeps ix s (s.withEvents e) := .of_active rfl id

theorem bitOf_zero (v : Nat) : bitOf v 0 = (v % 2 == 1) := by simp [bitOf]

theorem bitOf_setBit_zero {v : Nat} (i : Nat) (h : bitOf v 0 = true) : bitOf (setBit v i) 0 = true := by
  unfold setBit
  split
  · exact h
  · cases i with
    | zero => exact absurd h ‹_›
    | succ i =>
      rw [bitOf_zero, beq_iff_eq] at h ⊢
      omega

theorem LogKeeps.signalVector (v : Nat) (s : State) : LogKeeps ix s (signalVector v s) := by
  unfold Machine.signalVector
  dsimp only
  split
  · exact .refl s
  · split
    · exact .of_active rfl (bitOf_setBit_zero v)
    · split <;> exact .of_active rfl (bitOf_setBit_zero v)

theorem LogKeeps.setPinCause (h : 0x7A20 ∈ ix) (i : Nat) (s : State) : LogKeeps ix s (setPinCause i s) where
  pin := fun h => by
    unfold Machine.setPinCause
    rw [State.get_set_same]
    exact bitOf_setBit_zero i h
  vector := id
  objects := fun o' b' n' hb hn h1 _ =>
    State.getS_setS_index s (o := Obj.intPinCause) (o' := o') (fun e => h1 (by rw [e]; exact h)) _ (by decide)
      (by decide) hb hn

theorem LogKeeps.signalEvent (h : 0x7A20 ∈ ix) (code : Nat) (s : State) : LogKeeps ix s (signalEvent code s) := by
  unfold Machine.signalEvent
  split
  · exact (LogKeeps.setPinCause h 0 s).trans (LogKeeps.signalVector 0 _)
  · exact .refl s

/-! ### What the log leaves when it writes its ring -/

theorem LogKeeps.foldl {α : Type} (f : State → α → State) (h : ∀ t x, LogKeeps ix t (f t x)) (l : List α) (s : State) :
    LogKeeps ix s (l.foldl f s) := by
  induction l generalizing s with
  | nil => exact .refl s
  | cons x l ih => exact (h s x).trans (ih _)

theorem LogKeeps.passPage (r page : Nat) (s : State) : LogKeeps ix s (passPage r page s) :=
  LogKeeps.trans (t := s.setBollard page 0) (.of_active rfl id) (LogKeeps.signalVector _ _)

theorem LogKeeps.setRing (s : State) {r : Nat} (hr : r < 65536) (x : RingPos) : LogKeeps ix s (s.setRing r x) :=
  LogKeeps.trans (t := s.withHost { s.host with rings := NMap.set {} s.host.rings r x })
    (.of_active rfl id) (LogKeeps.setRingObject _ _ rfl (.inl rfl) hr)

theorem LogKeeps.ringAdvance {r : Nat} (hr : r < 65536) (off off' : Nat) (s : State) :
    LogKeeps ix s (ringAdvance r off off' s) :=
  (LogKeeps.foldl _ (fun t p => LogKeeps.passPage r (t.ringFirst r + p) t) _ s).trans (LogKeeps.setRing _ hr _)

theorem LogKeeps.quayAsk (rr : Requester) (write : Bool) (a n : Nat) (s : State) : LogKeeps ix s (quayAsk rr write a n s) := by
  unfold Machine.quayAsk
  split
  · exact .refl s
  · refine LogKeeps.foldl _ (fun t i => ?_) _ s
    exact .of_active rfl id

theorem LogKeeps.quayWrite (s : State) (a : Nat) (bs : List Byte) : LogKeeps ix s (s.quayWrite a bs) := by
  induction bs generalizing s a with
  | nil => exact .refl s
  | cons b bs ih => 
    exact LogKeeps.trans (t := s.withHost { s.host with quay := NMap.set (s.quayDefault a) s.host.quay a b })
      (.of_active rfl id) (ih _ _)

theorem ringWrite_log (off : Nat) (bs : List Byte) (s : State) : ringWrite 20 off bs s =
    quayAsk .exporter true (s.ringFirst 20 * pageSize + off) bs.length (s.quayWrite (s.ringFirst 20 * pageSize + off) bs) :=
  rfl

theorem LogKeeps.ringWrite (off : Nat) (bs : List Byte) (s : State) : LogKeeps ix s (ringWrite 20 off bs s) := by
  rw [ringWrite_log]
  exact (LogKeeps.quayWrite ..).trans (LogKeeps.quayAsk ..)

theorem LogKeeps.ringPassPartial (s : State) : LogKeeps ix s (ringPassPartial 20 s) := by
  unfold Machine.ringPassPartial
  dsimp only
  split
  · exact .refl s
  · exact (LogKeeps.ringWrite ..).trans (LogKeeps.ringAdvance (by decide) ..)

/-- A record placed at a position of the event ring at which it fits. -/
def recordPlaced (rec : List Byte) (s : State) : State :=
  let off := (s.ringPos 20).page * pageSize + (s.ringPos 20).byte
  (ringAdvance 20 off (off + rec.length) (ringWrite 20 off rec s)).bump Obj.ringRecords 20

theorem LogKeeps.recordPlaced (rec : List Byte) (s : State) : LogKeeps ix s (recordPlaced rec s) :=
  ((LogKeeps.ringWrite ..).trans (LogKeeps.ringAdvance (by decide) ..)).trans
    (LogKeeps.setRingObject _ _ rfl (.inr rfl) (by decide))

theorem ringPut_log (rec : List Byte) (s : State) : ringPut 20 rec s =
    let off := (s.ringPos 20).page * pageSize + (s.ringPos 20).byte
    let total := s.ringPages 20 * pageSize
    let s := if off + rec.length ≤ total then s
      else ringAdvance 20 off total (ringWrite 20 off (padRecord (total - off)) s)
    let s := recordPlaced rec s
    if s.get Obj.ringFlushNs 20 = 0 then ringPassPartial 20 s else s := by
  have pad : rec ++ List.replicate (rec.length - rec.length) 0 = rec := by simp
  unfold ringPut
  simp only [if_true, pad]
  rfl

theorem LogKeeps.ringPut (rec : List Byte) (s : State) : LogKeeps ix s (ringPut 20 rec s) := by
  rw [ringPut_log]
  dsimp only
  have start : LogKeeps ix s (if (s.ringPos 20).page * pageSize + (s.ringPos 20).byte + rec.length ≤
      s.ringPages 20 * pageSize then s
      else Machine.ringAdvance 20 ((s.ringPos 20).page * pageSize + (s.ringPos 20).byte) (s.ringPages 20 * pageSize)
        (Machine.ringWrite 20 ((s.ringPos 20).page * pageSize + (s.ringPos 20).byte)
          (padRecord (s.ringPages 20 * pageSize - ((s.ringPos 20).page * pageSize + (s.ringPos 20).byte))) s)) := by
    split
    · exact .refl s
    · exact (LogKeeps.ringWrite ..).trans (LogKeeps.ringAdvance (by decide) ..)
  refine start.trans ((LogKeeps.recordPlaced rec _).trans ?_)
  generalize Machine.recordPlaced rec _ = t
  split
  · exact LogKeeps.ringPassPartial _
  · exact .refl _

theorem LogKeeps.logRecord (r : LogRec) (s : State) : LogKeeps logIndices s (logRecord r s).2 := by
  unfold Machine.logRecord
  split
  · exact (LogKeeps.set s _ (by decide) (by decide) (by decide) (by decide)).trans (LogKeeps.ringPut _ _)
  · have stall : LogKeeps logIndices s (ringStall 20 32 s).2 := by
      unfold ringStall
      dsimp only
      split
      · exact .refl s
      · exact LogKeeps.setRing s (by decide) _
    have drop : ∀ u, LogKeeps logIndices u (logDrop u) := fun u =>
      (LogKeeps.withEvents u _).trans (LogKeeps.set _ _ (by decide) (by decide) (by decide) (by decide))
    have dropped : ∀ u, LogKeeps logIndices u (ringDropped 20 u) := fun u => by
      unfold ringDropped
      dsimp only
      split
      · exact LogKeeps.setRing u (by decide) _
      · exact .refl u
    exact stall.trans ((drop _).trans (dropped _))

theorem LogKeeps.logEvent (code inst arg0 arg1 : Nat) (s : State) : LogKeeps logIndices s (logEvent code inst arg0 arg1 s).2 := by
  unfold Machine.logEvent
  split
  · exact .refl s
  · split
    · exact LogKeeps.withEvents s _
    · refine LogKeeps.trans (t := noteLogged code s) (LogKeeps.withEvents s _) ?_
      dsimp only
      split
      · split
        · exact LogKeeps.withEvents _ _
        · exact LogKeeps.set _ _ (by decide) (by decide) (by decide) (by decide)
      · exact LogKeeps.logRecord _ _

end

/-! ### The parts of a raised event -/

/-- The event that a counter's wrap raises (R535, R536). -/
def wrapRaised (fuel d : Nat) (c : Option (Nat × Bool) × State) : State :=
  match c.1 with
  | some (w, ch) => raiseN fuel Ev.counterWrapped w d (bit01 ch) c.2
  | none => c.2

/-- The event that a full log raises (R87, R104). -/
def stallRaised (fuel : Nat) (l : Bool × State) : State :=
  if l.1 then raiseN fuel Ev.ringStall 20 (l.2.ringPage 20) 0 l.2 else l.2

theorem raiseN_eq (fuel code inst arg0 arg1 : Nat) (s : State) : raiseN (fuel + 1) code inst arg0 arg1 s =
    stallRaised fuel (logEvent code inst arg0 arg1 (signalEvent code
      (wrapRaised fuel (s.eventDeck code inst arg0) (countEvent code (s.eventDeck code inst arg0) s)))) := rfl

theorem countOne_eq (code d : Nat) (s : State) : countOne code d s =
    if s.getS Obj.eventCount (d + 1) code + 1 = 2 ^ 40 then (true, s.setS Obj.eventCount (d + 1) code 0)
    else (false, s.setS Obj.eventCount (d + 1) code (s.getS Obj.eventCount (d + 1) code + 1)) := rfl

theorem countEvent_unchained {code d : Nat} {s : State} (h : s.chained code d = false) : countEvent code d s =
    if s.getS Obj.eventCount (d + 1) code + 1 = 2 ^ 40 then
      (some (code, false), (s.setS Obj.eventCount (d + 1) code 0).setS Obj.countOverflow (d + 1) code 1)
    else (none, s.setS Obj.eventCount (d + 1) code (s.getS Obj.eventCount (d + 1) code + 1)) := by
  unfold countEvent
  rw [if_neg (by simp [h]), countOne_eq]
  by_cases hv : s.getS Obj.eventCount (d + 1) code + 1 = 2 ^ 40
  · rw [if_pos hv, if_pos hv]
  · rw [if_neg hv, if_neg hv]

/-! ### Signals outlast the events that raising an event causes -/

theorem Signalled.countEvent {code d : Nat} (hc : code < 65536) (hd : d < 4) (s : State) :
    Signalled s (countEvent code d s).2 := by
  have count : ∀ c t, c < 65536 → Signalled t (countOne c d t).2 := fun c t hc => by
    rw [countOne_eq]
    split <;> exact Signalled.setS t _ (by decide) (by omega) hc
  have flag : ∀ c t, c < 65536 → Signalled t (t.setS Obj.countOverflow (d + 1) c 1) := fun c t hc =>
    Signalled.setS t _ (by decide) (by omega) hc
  have h1 := count code s hc
  unfold Machine.countEvent
  split
  · split
    · exact .refl s
    · have h2 := fun t => count (code + 1) t (by omega)
      rcases hx : countOne code d s with ⟨b, s1⟩
      rw [hx] at h1
      cases b with
      | false => exact h1
      | true =>
        dsimp only
        have h2 := h2 s1
        rcases hy : countOne (code + 1) d s1 with ⟨b, s2⟩
        rw [hy] at h2
        cases b with
        | false => exact h1.trans h2
        | true => exact (h1.trans h2).trans (flag (code + 1) s2 (by omega))
  · rcases hx : countOne code d s with ⟨b, s1⟩
    rw [hx] at h1
    cases b with
    | false => exact h1
    | true => exact h1.trans (flag code s1 hc)

theorem wrapRaised_signalled {fuel d : Nat} (h : ∀ w ch t, Signalled t (raiseN fuel Ev.counterWrapped w d ch t))
    (c : Option (Nat × Bool) × State) : Signalled c.2 (wrapRaised fuel d c) := by
  unfold wrapRaised
  split
  · exact h _ _ _
  · exact .refl _

theorem stallRaised_signalled {fuel : Nat} (h : ∀ a t, Signalled t (raiseN fuel Ev.ringStall 20 a 0 t))
    (l : Bool × State) : Signalled l.2 (stallRaised fuel l) := by
  unfold stallRaised
  split
  · exact h _ _
  · exact .refl _

theorem Signalled.raiseN {code : Nat} (hc : code < 65536) (fuel inst arg0 arg1 : Nat) (s : State) :
    Signalled s (raiseN fuel code inst arg0 arg1 s) := by
  induction fuel generalizing code inst arg0 arg1 s with
  | zero => exact .refl s
  | succ fuel ih =>
    rw [raiseN_eq]
    exact (((Signalled.countEvent hc (State.eventDeck_lt ..) s).trans
      (wrapRaised_signalled (fun w ch t => ih (by decide) _ _ _ t) _)).trans
      ((LogKeeps.signalEvent (ix := logIndices) (by decide) code _).toSignalled.trans (LogKeeps.logEvent ..).toSignalled)).trans
      (stallRaised_signalled (fun a t => ih (by decide) _ _ _ t) _)

/-! ### The counters of an event stay as they are when another event is raised -/

/-- An unchained code's counter and flag on a deck have the value they had, and it is unchained still. -/
structure Uncounted (code d : Nat) (s t : State) : Prop where
  count : t.getS Obj.eventCount (d + 1) code = s.getS Obj.eventCount (d + 1) code
  flag : t.getS Obj.countOverflow (d + 1) code = s.getS Obj.countOverflow (d + 1) code
  chain : t.chained code d = s.chained code d

theorem Uncounted.refl (code d : Nat) (s : State) : Uncounted code d s s := ⟨rfl, rfl, rfl⟩

theorem Uncounted.trans {code d : Nat} {s t u : State} (h : Uncounted code d s t) (k : Uncounted code d t u) :
    Uncounted code d s u := ⟨k.count.trans h.count, k.flag.trans h.flag, k.chain.trans h.chain⟩

theorem LogKeeps.uncounted {code d : Nat} (hc : code < 65536) (hd : d < 4) {s t : State} (h : LogKeeps logIndices s t) :
    Uncounted code d s t where
  count := h.objects _ _ _ (by omega) hc (by decide) (fun e => absurd e (by decide))
  flag := h.objects _ _ _ (by omega) hc (by decide) (fun e => absurd e (by decide))
  chain := by
    unfold State.chained
    rw [h.objects _ _ _ (by omega) (by omega) (by decide) (fun e => absurd e (by decide))]

/-- A write of a counter or a flag of another code or of another deck. -/
theorem Uncounted.setS {code d c d' : Nat} (hc : code < 65536) (hd : d < 4) (hc' : c < 65536) (hd' : d' < 4)
    (hne : c ≠ code ∨ d' ≠ d) (s : State) (v : Nat) {o : ObjRow} (ho : o = Obj.eventCount ∨ o = Obj.countOverflow) :
    Uncounted code d s (s.setS o (d' + 1) c v) := by
  have keep : ∀ o' : ObjRow, (s.setS o (d' + 1) c v).getS o' (d + 1) code = s.getS o' (d + 1) code := fun o' =>
    State.getS_setS _ _ _ _ _ _ _ _ fun e => by
      obtain ⟨-, h2, h3⟩ := addrKey_inj (show d + 1 < 256 by omega) (by omega) hc hc' e
      omega
  refine ⟨keep _, keep _, ?_⟩
  unfold State.chained
  rw [State.getS_setS_index s (by rcases ho with rfl | rfl <;> decide) v (by omega) hc' (by omega) (by omega)]

theorem Uncounted.countEvent {code d c d' : Nat} {s : State} (hc : code < 65536) (hd : d < 4) (hc' : c < 65535)
    (hd' : d' < 4) (hne : c ≠ code) (hch : s.chained code d = false) : Uncounted code d s (countEvent c d' s).2 := by
  have count : ∀ k t, k < 65536 → k ≠ code ∨ d' ≠ d → Uncounted code d t (countOne k d' t).2 := fun k t hk hn => by
    rw [countOne_eq]
    split <;> exact Uncounted.setS hc hd hk hd' hn t _ (.inl rfl)
  have flag : ∀ k t, k < 65536 → k ≠ code ∨ d' ≠ d → Uncounted code d t (t.setS Obj.countOverflow (d' + 1) k 1) :=
    fun k t hk hn => Uncounted.setS hc hd hk hd' hn t _ (.inr rfl)
  have h1 := count c s (by omega) (.inl hne)
  unfold Machine.countEvent
  split
  case isTrue chained =>
    split
    · exact .refl ..
    · -- the pair that is chained is not the pair of the code
      have other : c + 1 ≠ code ∨ d' ≠ d := by
        by_cases e : c + 1 = code ∧ d' = d
        · obtain ⟨rfl, rfl⟩ := e
          have pair : (c + 1) / 2 = c / 2 := by omega
          rw [State.chained, pair] at hch
          rw [State.chained, hch] at chained
          exact absurd chained (by decide)
        · omega
      rcases hx : countOne c d' s with ⟨b, s1⟩
      rw [hx] at h1
      cases b with
      | false => exact h1
      | true =>
        dsimp only
        have h2 := count (c + 1) s1 (by omega) other
        rcases hy : countOne (c + 1) d' s1 with ⟨b, s2⟩
        rw [hy] at h2
        cases b with
        | false => exact h1.trans h2
        | true => exact (h1.trans h2).trans (flag (c + 1) s2 (by omega) other)
  case isFalse =>
    rcases hx : countOne c d' s with ⟨b, s1⟩
    rw [hx] at h1
    cases b with
    | false => exact h1
    | true => exact h1.trans (flag c s1 (by omega) (.inl hne))

theorem wrapRaised_uncounted {fuel d code d' : Nat} (c : Option (Nat × Bool) × State)
    (h : ∀ w ch, Uncounted code d c.2 (raiseN fuel Ev.counterWrapped w d' ch c.2)) :
    Uncounted code d c.2 (wrapRaised fuel d' c) := by
  unfold wrapRaised
  split
  · exact h _ _
  · exact .refl ..

theorem stallRaised_uncounted {fuel d code : Nat} (l : Bool × State)
    (h : ∀ a, Uncounted code d l.2 (raiseN fuel Ev.ringStall 20 a 0 l.2)) :
    Uncounted code d l.2 (stallRaised fuel l) := by
  unfold stallRaised
  split
  · exact h _
  · exact .refl ..

/-- The events that raising an event causes leave an unchained code's own counter alone. -/
theorem Uncounted.raiseN {code d c : Nat} (hc : code < 65536) (hd : d < 4) (hw : code ≠ Ev.counterWrapped)
    (hr : code ≠ Ev.ringStall) (hc' : c < 65535) (hne : c ≠ code) (fuel inst arg0 arg1 : Nat) {s : State}
    (hch : s.chained code d = false) : Uncounted code d s (raiseN fuel c inst arg0 arg1 s) := by
  induction fuel generalizing c inst arg0 arg1 s with
  | zero => exact .refl ..
  | succ fuel ih =>
    rw [raiseN_eq]
    have h1 := Uncounted.countEvent hc hd hc' (State.eventDeck_lt s c inst arg0) hne hch
    have h2 := h1.trans (wrapRaised_uncounted (Machine.countEvent c (s.eventDeck c inst arg0) s)
      (d' := s.eventDeck c inst arg0)
      fun w ch => ih (by decide) (Ne.symm hw) _ _ _ (h1.chain.trans hch))
    have h3 := h2.trans (((LogKeeps.signalEvent (ix := logIndices) (by decide) c _).trans (LogKeeps.logEvent c inst arg0 arg1 _)).uncounted hc hd)
    exact h3.trans (stallRaised_uncounted _ fun a => ih (by decide) (Ne.symm hr) _ _ _ (h3.chain.trans hch))

/-- What follows on counting an event leaves its unchained counter as it was counted. -/
theorem raise_uncounted {code inst arg0 d : Nat} (arg1 : Nat) {s u : State} (hc : code < 65536)
    (hd : d = s.eventDeck code inst arg0) (hw : code ≠ Ev.counterWrapped) (hr : code ≠ Ev.ringStall)
    (hu : u = (countEvent code d s).2) (hch : u.chained code d = false) :
    Uncounted code d u (raise code inst arg0 arg1 s) := by
  have hd4 : d < 4 := hd ▸ State.eventDeck_lt ..
  unfold raise
  rw [raiseN_eq, ← hd]
  subst hu
  have h2 := wrapRaised_uncounted (countEvent code d s) (fuel := 3) (d' := d) (d := d) (code := code)
    fun w ch => Uncounted.raiseN hc hd4 hw hr (by decide) (Ne.symm hw) _ _ _ _ hch
  have h3 := h2.trans (((LogKeeps.signalEvent (ix := logIndices) (by decide) code _).trans (LogKeeps.logEvent code inst arg0 arg1 _)).uncounted hc hd4)
  exact h3.trans (stallRaised_uncounted _ fun a =>
    Uncounted.raiseN hc hd4 hw hr (by decide) (Ne.symm hr) _ _ _ _ (h3.chain.trans hch))

/-! ### The record of a raised event -/

theorem State.quayByte_quayAsk (rr : Requester) (write : Bool) (a n : Nat) (s : State) (b : Nat) :
    (quayAsk rr write a n s).quayByte b = s.quayByte b := by
  unfold quayAsk
  split
  · rfl
  · generalize List.range _ = l
    induction l generalizing s with
    | nil => rfl
    | cons i l ih => exact (ih _).trans rfl

theorem State.quayByte_passPage (r page : Nat) (s : State) (b : Nat) : (passPage r page s).quayByte b = s.quayByte b := by
  unfold passPage signalVector
  dsimp only
  repeat' split
  all_goals rfl

theorem State.quayByte_ringAdvance (r off off' : Nat) (s : State) (b : Nat) :
    (ringAdvance r off off' s).quayByte b = s.quayByte b := by
  unfold ringAdvance
  dsimp only
  generalize (List.range _).map _ = l
  suffices h : (l.foldl (fun s p => passPage r (s.ringFirst r + p) s) s).quayByte b = s.quayByte b from h
  induction l generalizing s with
  | nil => rfl
  | cons p l ih => exact (ih _).trans (State.quayByte_passPage ..)

theorem State.quayByte_ringWrite (off : Nat) (bs : List Byte) (s : State) (b : Nat) :
    (ringWrite 20 off bs s).quayByte b = (s.quayWrite (s.ringFirst 20 * pageSize + off) bs).quayByte b := by
  rw [ringWrite_log, State.quayByte_quayAsk]

theorem State.quayRead_of_bytes {s : State} {a : Nat} {bs : List Byte}
    (h : ∀ b, a ≤ b → b < a + bs.length → s.quayByte b = bs.getD (b - a) 0) : s.quayRead a bs.length = bs := by
  refine List.ext_getElem (by simp [State.quayRead]) fun i h1 h2 => ?_
  simp only [State.quayRead, List.getElem_map, List.getElem_range]
  rw [h _ (by omega) (by omega), Nat.add_sub_cancel_left, List.getD_eq_getElem?_getD, List.getElem?_eq_getElem h2,
    Option.getD_some]

theorem LogKeeps.ringFirst {ix : List Nat} {s t : State} (h : LogKeeps ix s t) (hx : 0x7010 ∉ ix) (r : Nat)
    (hr : r < 65536) : t.ringFirst r = s.ringFirst r :=
  h.objects Obj.ringFirstPage _ _ (by decide) hr hx (by decide)

theorem LogKeeps.ringPages {ix : List Nat} {s t : State} (h : LogKeeps ix s t) (hx : 0x7010 ∉ ix) (r : Nat)
    (hr : r < 65536) : t.ringPages r = s.ringPages r :=
  h.objects Obj.ringPages _ _ (by decide) hr hx (by decide)

/-- A record that fits at its ring's position stands there; what fills the rest of the page comes after it. -/
theorem ringPut_reads {rec : List Byte} {s : State} {off : Nat}
    (ho : off = (s.ringPos 20).page * pageSize + (s.ringPos 20).byte)
    (fits : off + rec.length ≤ s.ringPages 20 * pageSize) :
    (ringPut 20 rec s).quayRead (s.ringFirst 20 * pageSize + off) rec.length = rec := by
  have placed : ∀ b, (recordPlaced rec s).quayByte b =
      (s.quayWrite (s.ringFirst 20 * pageSize + off) rec).quayByte b := fun b => by
    rw [ho]
    exact (State.quayByte_ringAdvance ..).trans (State.quayByte_ringWrite ..)
  have keeps : LogKeeps [] s (recordPlaced rec s) := LogKeeps.recordPlaced rec s
  obtain ⟨hpos, -⟩ := State.ringPos_ringAdvance 20 off (off + rec.length) (ringWrite 20 off rec s)
  rw [LogKeeps.ringPages (LogKeeps.ringWrite (ix := []) off rec s) (by simp) 20 (by decide)] at hpos
  have position : recordPlaced rec s =
      (ringAdvance 20 off (off + rec.length) (ringWrite 20 off rec s)).bump Obj.ringRecords 20 := by
    unfold recordPlaced
    rw [← ho]
  refine State.quayRead_of_bytes fun b h1 h2 => ?_
  have written : (s.quayWrite (s.ringFirst 20 * pageSize + off) rec).quayByte b =
      rec.getD (b - (s.ringFirst 20 * pageSize + off)) 0 := by
    rw [State.quayByte_quayWrite, if_pos ⟨h1, h2⟩]
  rw [ringPut_log]
  dsimp only
  rw [← ho, if_pos fits]
  split
  case isFalse => rw [placed, written]
  case isTrue =>
    unfold ringPassPartial
    dsimp only
    split
    case isTrue => rw [placed, written]
    case isFalse hb =>
      rw [if_pos rfl, State.quayByte_ringAdvance, State.quayByte_ringWrite, State.quayByte_quayWrite, if_neg, placed,
        written]
      rw [keeps.ringFirst (by simp) 20 (by decide)]
      have pos : (recordPlaced rec s).ringPos 20 = (ringAdvance 20 off (off + rec.length) (ringWrite 20 off rec s)).ringPos 20 := by
        rw [position]
        rfl
      rw [pos] at hb ⊢
      split at hpos <;> omega

/-- A record numbered and written where it fits. -/
theorem logWrite_reads {r : LogRec} {s : State} {q a : Nat} (hq : q = (s.get Obj.lastSequence + 1) % 2 ^ 32)
    (hb : (s.ringPos 20).byte + 32 ≤ 4096) (hp : (s.ringPos 20).page < s.ringPages 20)
    (ha : a = (s.ringFirst 20 + (s.ringPos 20).page) * 4096 + (s.ringPos 20).byte) :
    (logWrite r s).get Obj.lastSequence = q ∧ (logWrite r s).quayRead a 32 = logBytes { r with seq := q } := by
  subst hq
  obtain ⟨u, hu⟩ : ∃ u, u = s.set Obj.lastSequence 0 ((s.get Obj.lastSequence + 1) % 2 ^ 32) := ⟨_, rfl⟩
  obtain ⟨bs, hbs⟩ : ∃ bs, bs = logBytes { r with seq := (s.get Obj.lastSequence + 1) % 2 ^ 32 } := ⟨_, rfl⟩
  have len : bs.length = 32 := by simp [hbs, logBytes, leBytes]
  have first : u.ringFirst 20 = s.ringFirst 20 := by
    rw [hu]
    exact State.get_set_apart s (by decide) _ (by decide) (by decide)
  have pages : u.ringPages 20 = s.ringPages 20 := by
    rw [hu]
    exact State.get_set_apart s (by decide) _ (by decide) (by decide)
  have pos : u.ringPos 20 = s.ringPos 20 := by rw [hu]; rfl
  have write : logWrite r s = ringPut 20 bs u := by rw [hu, hbs]; rfl
  rw [write, ← hbs]
  constructor
  · rw [State.get, (LogKeeps.ringPut (ix := []) bs u).objects _ _ _ (by decide) (by decide) (by simp)
      (fun e => absurd e (by decide)), hu]
    exact State.get_set_same ..
  · have reads := ringPut_reads (rec := bs) (s := u) rfl (by
      rw [pages, pos, len, pageSize]
      omega)
    rw [len, first, pos] at reads
    rwa [ha, Nat.add_mul, Nat.add_assoc]

theorem signalEvent_rest (code : Nat) (s : State) : signalEvent code s = { s with
    dict := { s.dict with active := (signalEvent code s).dict.active }
    host := { s.host with vectorCause := (signalEvent code s).host.vectorCause, pba := (signalEvent code s).host.pba,
                          messages := (signalEvent code s).host.messages } } := by
  unfold signalEvent signalVector
  dsimp only
  repeat' split
  all_goals rfl

theorem signalEvent_signals {code : Nat} {s : State} (h : s.get Obj.irqEnable code = 1) :
    bitOf ((signalEvent code s).get Obj.intPinCause) 0 = true ∧ bitOf (signalEvent code s).host.vectorCause 0 = true := by
  unfold signalEvent
  rw [if_pos h]
  constructor
  · refine (LogKeeps.signalVector (ix := []) 0 _).pin ?_
    unfold setPinCause
    rw [State.get_set_same]
    exact bitOf_setBit_same ..
  · rw [signalVector_vectorCause (by decide)]
    exact bitOf_setBit_same ..

/-- The record of an event that is logged, before it has its number (R84). -/
def eventRecord (code inst arg0 arg1 : Nat) (s : State) : LogRec :=
  { time := s.now80, code := code, inst := inst % 65536, severity := eventSeverity code, seq := 0, arg0 := arg0 % 2 ^ 32,
    arg1 := arg1 % 2 ^ 64 }

/-- An event within its rate is written to a log that has room (R84, R86). -/
theorem logEvent_written {code inst arg0 arg1 : Nat} {s : State} (hl : s.get Obj.logEnable code = 1)
    (hr : s.get Obj.rateLimit code = 0 ∨ s.loggedInSecond code < s.get Obj.rateLimit code)
    (hs : s.events.storing = false) (hd : s.events.stores.getD (s.eventDeck code inst arg0) [] = [])
    (hroom : s.ringRoom 20 32 = true) : logEvent code inst arg0 arg1 s =
      (false, logWrite (eventRecord code inst arg0 arg1 s) (noteLogged code s)) := by
  have room : (noteLogged code s).ringRoom 20 32 = true := hroom
  have idle : ¬((noteLogged code s).events.storing = true ∨
      (noteLogged code s).events.stores.getD (s.eventDeck code inst arg0) [] ≠ []) := by
    rintro (h | h)
    · exact absurd (hs.symm.trans h) (by decide)
    · exact h hd
  unfold logEvent
  rw [if_neg (by simp [hl]), if_neg (by omega)]
  dsimp only
  rw [if_neg idle, logRecord, if_pos room]
  rfl

/-- An event that is counted without a wrap, signalled, and logged with no stall. -/
theorem raise_logged {code inst arg0 arg1 d : Nat} {s u : State} {x : LogRec} {w : State} (hd : d = s.eventDeck code inst arg0)
    (hu : countEvent code d s = (none, u))
    (hlog : logEvent code inst arg0 arg1 (signalEvent code u) = (false, logWrite x w)) :
    raise code inst arg0 arg1 s = logWrite x w := by
  unfold raise
  rw [raiseN_eq, ← hd, hu]
  unfold wrapRaised
  dsimp only
  rw [hlog]
  rfl

/-- A raised event whose IRQ_ENABLE is set has its signals at the end (R88). -/
theorem raise_signals {code inst arg0 arg1 : Nat} {s : State} (hc : code < 65536) (hi : s.get Obj.irqEnable code = 1) :
    bitOf ((raise code inst arg0 arg1 s).get Obj.intPinCause) 0 = true ∧
      bitOf (raise code inst arg0 arg1 s).host.vectorCause 0 = true := by
  unfold raise
  rw [raiseN_eq]
  obtain ⟨u, hu⟩ : ∃ u, u = wrapRaised 3 (s.eventDeck code inst arg0) (countEvent code (s.eventDeck code inst arg0) s) :=
    ⟨_, rfl⟩
  have logs : OnlyLogs s u := by
    have h := OnlyLogs.countEvent code _ s hc (s.eventDeck_lt code inst arg0)
    rw [hu]
    unfold wrapRaised
    split
    · exact h.1.trans (OnlyLogs.raiseN _ _ _ _ _ _ (by decide))
    · exact h.1
  rw [← hu]
  obtain ⟨hpin, hvector⟩ := signalEvent_signals (s := u)
    ((logs.get Obj.irqEnable code (by decide) hc rfl).trans hi)
  have kept := (LogKeeps.logEvent code inst arg0 arg1 (signalEvent code u)).toSignalled.trans
    (stallRaised_signalled (fuel := 3) (fun a t => Signalled.raiseN (by decide) _ _ _ _ t) _)
  exact ⟨kept.pin hpin, kept.vector hvector⟩

/-! ### The record of the log -/

/-- The state in which a counted event is logged: counted, and signalled. -/
def countedSignalled (code d : Nat) (s : State) : State :=
  signalEvent code (s.setS Obj.eventCount (d + 1) code (s.getS Obj.eventCount (d + 1) code + 1))

theorem countedSignalled_getS {code d : Nat} {s : State} (hc : code < 65536) (hd : d < 4) (o : ObjRow) (b n : Nat)
    (hb : b < 256) (hn : n < 65536) (h1 : o.index ≠ 0x7A20) (h2 : o.index ≠ 0x8800)
    (h3 : o.index = 0x7010 → b ≠ 5 ∧ b ≠ 6) : (countedSignalled code d s).getS o b n = s.getS o b n :=
  ((LogKeeps.signalEvent (ix := [0x7A20]) (by simp) code _).objects o b n hb hn (by simp [h1]) h3).trans
    (State.getS_setS_index s h2 _ (by omega) hc hb hn)

theorem countedSignalled_rest (code d : Nat) (s : State) : countedSignalled code d s = { s with
    dict := { s.dict with active := (countedSignalled code d s).dict.active }
    host := { s.host with vectorCause := (countedSignalled code d s).host.vectorCause,
                          pba := (countedSignalled code d s).host.pba,
                          messages := (countedSignalled code d s).host.messages } } :=
  signalEvent_rest ..

theorem State.deckUp_congr {s t : State} (h : ∀ d < 4, t.get Obj.deckState d = s.get Obj.deckState d) (code inst arg0 : Nat) :
    t.eventDeck code inst arg0 = s.eventDeck code inst arg0 := by
  have home : t.homeDeck = s.homeDeck := by
    unfold State.homeDeck State.deckUp
    rw [h 0 (by decide), h 1 (by decide), h 2 (by decide)]
  unfold State.eventDeck
  rw [home]

theorem State.ringRoom_congr {s t : State} (hf : t.ringFirst 20 = s.ringFirst 20) (hp : t.ringPages 20 = s.ringPages 20)
    (hr : t.host.rings = s.host.rings) (hb : t.host.bollards = s.host.bollards) (hl : t.host.linkUp = s.host.linkUp)
    (n : Nat) : t.ringRoom 20 n = s.ringRoom 20 n := by
  have pos : t.ringPos 20 = s.ringPos 20 := by rw [State.ringPos, hr]; rfl
  have owned : ∀ p, t.owned p = s.owned p := fun p => by rw [State.owned, hb]; rfl
  unfold State.ringRoom State.ringOwns
  simp only [pos, owned, hf, hp, hl]

/-- The record of an event whose counter does not wrap (R84, R86). -/
theorem raise_record {code inst arg0 arg1 d q a : Nat} {s : State} (hc : code < 65536)
    (hd : d = s.eventDeck code inst arg0) (hch : s.chained code d = false)
    (hv : s.getS Obj.eventCount (d + 1) code + 1 ≠ 2 ^ 40) (hl : s.get Obj.logEnable code = 1)
    (hr : s.get Obj.rateLimit code = 0 ∨ s.loggedInSecond code < s.get Obj.rateLimit code)
    (hs : s.events.storing = false) (hstore : s.events.stores.getD d [] = []) (hroom : s.ringRoom 20 32 = true)
    (hb : (s.ringPos 20).byte + 32 ≤ 4096) (hp : (s.ringPos 20).page < s.ringPages 20)
    (hq : q = (s.get Obj.lastSequence + 1) % 2 ^ 32)
    (ha : a = (s.ringFirst 20 + (s.ringPos 20).page) * 4096 + (s.ringPos 20).byte) :
    (raise code inst arg0 arg1 s).get Obj.lastSequence = q ∧
      (raise code inst arg0 arg1 s).quayRead a 32 = logBytes { eventRecord code inst arg0 arg1 s with seq := q } := by
  have hd4 : d < 4 := hd ▸ State.eventDeck_lt ..
  have keep := fun o b n hb hn h1 h2 h3 => countedSignalled_getS (s := s) hc hd4 o b n hb hn h1 h2 h3
  have rest := countedSignalled_rest code d s
  obtain ⟨v, hv'⟩ : ∃ v, v = countedSignalled code d s := ⟨_, rfl⟩
  rw [← hv'] at rest keep
  have hevents : v.events = s.events := by rw [rest]
  have htime : v.time = s.time := by rw [rest]
  have hrings : v.host.rings = s.host.rings := by rw [rest]
  have hbollards : v.host.bollards = s.host.bollards := by rw [rest]
  have hlink : v.host.linkUp = s.host.linkUp := by rw [rest]
  have hget : ∀ (o : ObjRow) (n : Nat), o.sub < 256 → n < 65536 → o.index ≠ 0x7A20 → o.index ≠ 0x8800 →
      (o.index = 0x7010 → o.sub ≠ 5 ∧ o.sub ≠ 6) → v.get o n = s.get o n := fun o n => keep o o.sub n
  have hdeck : v.eventDeck code inst arg0 = d := by
    rw [hd]
    exact State.deckUp_congr (fun k hk => hget _ _ (by decide) (by omega) (by decide) (by decide) (by decide)) _ _ _
  have hnow : v.now80 = s.now80 := by rw [State.now80, State.nowNs, htime]; rfl
  have hsecond : v.loggedInSecond code = s.loggedInSecond code := by
    rw [State.loggedInSecond, State.second, hevents, htime]
    rfl
  have hpos : v.ringPos 20 = s.ringPos 20 := by rw [State.ringPos, hrings]; rfl
  have hfirst : v.ringFirst 20 = s.ringFirst 20 :=
    hget Obj.ringFirstPage 20 (by decide) (by decide) (by decide) (by decide) (by decide)
  have hpages : v.ringPages 20 = s.ringPages 20 :=
    hget Obj.ringPages 20 (by decide) (by decide) (by decide) (by decide) (by decide)
  have hlast : v.get Obj.lastSequence = s.get Obj.lastSequence :=
    hget Obj.lastSequence 0 (by decide) (by decide) (by decide) (by decide) (by decide)
  have hlog := logEvent_written (code := code) (inst := inst) (arg0 := arg0) (arg1 := arg1) (s := v)
    (by rw [hget _ _ (by decide) hc (by decide) (by decide) (by decide)]; exact hl)
    (by rw [hget _ _ (by decide) hc (by decide) (by decide) (by decide), hsecond]; exact hr)
    (by rw [hevents]; exact hs) (by rw [hdeck, hevents]; exact hstore)
    (by rw [State.ringRoom_congr hfirst hpages hrings hbollards hlink]; exact hroom)
  rw [raise_logged hd (by rw [countEvent_unchained hch, if_neg hv]) (by rw [← hlog, hv']; rfl)]
  have hrecord : eventRecord code inst arg0 arg1 s = eventRecord code inst arg0 arg1 v := by
    unfold eventRecord
    rw [hnow]
  rw [hrecord]
  refine logWrite_reads (s := noteLogged code v) (hq.trans ?_) ?_ ?_ (ha.trans ?_)
  · rw [← hlast]
    rfl
  · rw [← hpos] at hb
    exact hb
  · rw [← hpos, ← hpages] at hp
    exact hp
  · rw [← hpos, ← hfirst]
    rfl

theorem exec_eventsSuppressed {s : State} {sec code n : Nat} {later : NMap (NMap Nat)}
    (h : s.events.suppressed = (sec, [(code, n)]) :: later) (hc : code ≠ Ev.eventsSuppressed) (hs : sec < s.second)
    (hl : ∀ e ∈ later, s.second ≤ e.1) : exec .eventsSuppressed s =
      .next (raise Ev.eventsSuppressed 0 code n (s.withEvents { s.events with suppressed := later })) := by
  have ended : s.events.suppressed.filter (fun e => decide (e.1 < s.second)) = [(sec, [(code, n)])] := by
    rw [h, List.filter_cons_of_pos (by simpa using hs), List.filter_eq_nil_iff.mpr]
    intro e he
    have := hl e he
    simp only [decide_eq_true_eq]
    omega
  have running : s.events.suppressed.filter (fun e => !decide (e.1 < s.second)) = later := by
    rw [h, List.filter_cons_of_neg (by simpa using hs), List.filter_eq_self.mpr]
    intro e he
    have := hl e he
    simp only [Bool.not_eq_true', decide_eq_false_iff_not]
    omega
  change execEventsSuppressed s = _
  unfold execEventsSuppressed
  dsimp only
  rw [ended, running]
  simp [reportSuppressed, hc]

/-- Settles O9: the events that raising an event causes (a wrap's, a stall's) leave an unchained code's own counter and
flag alone, no signal is taken back, and a record that fits at the log's position stands there. -/
theorem eventsAreCountedSignalledAndLogged : Obligations.EventsAreCountedSignalledAndLogged := by
  unfold Obligations.EventsAreCountedSignalledAndLogged
  constructor
  · intro code inst arg0 arg1 d s t hc hd hw hr hch ht
    have hd4 : d < 4 := hd ▸ State.eventDeck_lt ..
    have count := countEvent_unchained hch
    have later := raise_uncounted arg1 hc hd hw hr rfl
    subst ht
    refine ⟨fun hv => ?_, fun hv => ?_, fun hi => ?_, ?_⟩
    · rw [count, if_neg hv] at later
      have unchained : (s.setS Obj.eventCount (d + 1) code (s.getS Obj.eventCount (d + 1) code + 1)).chained code d =
          false := by
        rw [State.chained, State.getS_setS_index s (by decide) _ (by omega) hc (by omega) (by omega)]
        exact hch
      rw [(later unchained).count, State.getS_setS_same]
    · rw [count, if_pos hv] at later
      have unchained : ((s.setS Obj.eventCount (d + 1) code 0).setS Obj.countOverflow (d + 1) code 1).chained code d =
          false := by
        rw [State.chained, State.getS_setS_index _ (by decide) _ (by omega) hc (by omega) (by omega),
          State.getS_setS_index s (by decide) _ (by omega) hc (by omega) (by omega)]
        exact hch
      obtain ⟨hcount, hflag, -⟩ := later unchained
      rw [hcount, hflag, State.getS_setS_same, State.getS_setS_index _ (by decide) _ (by omega) hc (by omega) hc,
        State.getS_setS_same]
      exact ⟨rfl, rfl⟩
    · exact raise_signals hc hi
    · intro x q a hv hl hrate hs hstore hroom hx hb hp hq ha
      subst hx
      exact raise_record hc hd hch hv hl hrate hs hstore hroom hb hp hq ha
  · intro s sec code n later h hc hs hl
    exact exec_eventsSuppressed h hc hs hl

end Sys2Proof.Machine
end

section
/-! SUPPORT. The flush of a ring (R104) in a state that no run reaches: the statement holds of every `State`, so also of
one whose ring lies beyond the pages of the quay window. -/

namespace Sys2Proof.Machine

/-- A stack number at which the count of poisoned bursts has the address of RING_FIRST_PAGE of ring 0. -/
def strayStack : Nat := addrKey Obj.ringFirstPage.index Obj.ringFirstPage.sub 0 - addrKey Obj.poisoned.index 0 0

/-- The first page of that stack. -/
def strayPage : Nat := strayStack * 16384

/-- Ring 0 of one page, that page, with one record of 64 bytes missing; the burst of that record is poisoned. -/
def strayRing : State :=
  let s := ((((State.reset.set Obj.ringFirstPage 0 strayPage).set Obj.ringPages 0 1).set Obj.ringFlushNs 0 0).setRing 0
    { byte := 4032, firstAt := some 0 }).setBollard strayPage 1
  let place := quayPlace (strayPage * pageSize + 4032)
  s.withHbm { s.hbm with poisoned := [burstKey place.1 place.2] }

set_option maxRecDepth 100000 in
/-- The padding clears the poison; the count that this writes takes the place of RING_FIRST_PAGE, and page 0 is passed. -/
theorem strayRing_keeps_page : (ringPassPartial 0 strayRing).owned strayPage = true := rfl

theorem strayRing_flushes : exec (.ringFlush 0) strayRing = .next (ringPassPartial 0 strayRing) := by
  have first : (strayRing.ringPos 0).firstAt = some 0 := by decide
  have due : deviceProduces 0 = true ∧ strayRing.elapsed 0 (strayRing.get Obj.ringFlushNs 0) = true := by decide
  change execRingFlush 0 strayRing = _
  unfold execRingFlush
  rw [show ((0 : Ring).val) = 0 from rfl, first]
  dsimp only
  rw [if_pos due]

/-- Refutes O14: in `strayRing` the padding of a flush clears a poisoned burst of a stack whose number is so large that
writing POISONED for it overwrites RING_FIRST_PAGE of ring 0; another page is passed, and the flushed one stays the
device's. -/
theorem not_ringsFlushAndStop : ¬ Obligations.RingsFlushAndStop := by
  unfold Obligations.RingsFlushAndStop
  rintro ⟨h, -, -⟩
  obtain ⟨flush, -⟩ := h strayRing 0
  obtain ⟨t, ht, -, -, passed, -⟩ := flush 0 rfl rfl rfl (by decide) (by decide) (by decide)
  have page : strayRing.ringFirst (0 : Ring).val + (strayRing.ringPos (0 : Ring).val).page = strayPage := by decide
  rw [page] at passed
  have kept : t.owned strayPage = true := by
    rw [← Host.Outcome.next.inj (strayRing_flushes.symm.trans ht)]
    exact strayRing_keeps_page
  exact absurd (kept.symm.trans passed) (by decide)

end Sys2Proof.Machine
end

section
/-! SUPPORT. The timers of a port and the MAC control frames it receives (R131, R134, R136, R137, R143). -/

namespace Sys2Proof.Machine

section
variable {s : State} {port : FrontPort}

theorem exec_lpiEnter (h : s.linkState port.val = 2 ∧ s.get Obj.eeeMode port.val ≠ 0 ∧ (s.link port.val).lpiSince = none ∧
      (s.link port.val).wakeAt = none ∧ (s.tmPort port.val).sending = none ∧ s.queuesEmpty port.val = true ∧
      s.elapsed (s.link port.val).emptySince (s.get Obj.eeeIdleNs port.val) = true) :
    exec (.lpiEnter port) s =
      .next (s.setLink port.val { s.link port.val with lpiSince := some s.time.ticks }) := by
  change execLpiEnter port s = _
  unfold execLpiEnter
  dsimp only
  rw [if_pos h]

theorem exec_lpiWakeDone {at_ : Nat} (h : (s.link port.val).wakeAt = some at_) (ha : at_ ≤ s.time.ticks) :
    exec (.lpiWakeDone port) s = .next (s.setLink port.val { s.link port.val with wakeAt := none }) := by
  change execLpiWakeDone port s = _
  unfold execLpiWakeDone
  dsimp only
  rw [h]
  dsimp only
  rw [if_pos ha]

theorem exec_pfcPauseExpired {p : Fin 8} {at_ : Nat} (h : (s.link port.val).paused.find p.val = some at_)
    (ha : at_ ≤ s.time.ticks) : exec (.pfcPauseExpired port p) s =
      .next (s.setLink port.val { s.link port.val with paused := (s.link port.val).paused.del p.val }) := by
  change execPfcPauseExpired port p s = _
  unfold execPfcPauseExpired
  dsimp only
  rw [h]
  dsimp only
  rw [if_pos ha]

theorem exec_fecUncorrected {c n : Nat} {u : State} (hn : 0 < n) (hc : s.codewords port.val = true)
    (hf : (s.link port.val).fecSecond ≠ some s.second)
    (hu : u = ((s.setLink port.val { s.link port.val with fecSecond := some s.second }).add Obj.fecCorrected port.val c).add
      Obj.fecUncorrected port.val n) :
    exec (.fecUncorrected port c n) s =
      .next (raise Ev.fecUncorrected port.val n (u.get Obj.fecUncorrected port.val) u) := by
  subst hu
  change execFecUncorrected port c n s = _
  unfold execFecUncorrected
  dsimp only
  rw [if_neg (by simp [hc, hf]), if_neg (by omega)]

theorem exec_macControlRx (data : List Byte) (h : s.linkState port.val = 2) : exec (.macControlRx port data) s =
    .next (if beAt data 14 2 = 0x0101 then pfcReceive port.val data (noteBytes port.val 0 (data.length + 4) s)
      else (noteBytes port.val 0 (data.length + 4) s).bump Obj.pauseRxIgnored port.val) := by
  change execMacControlRx port data s = _
  unfold execMacControlRx
  dsimp only
  rw [if_neg (by simp [h])]

end

theorem rowOf_linkHoldNs : rowOf 0x1204 0 = some Obj.linkHoldNs := rfl

/-! ### A received PFC frame (R136, R137) -/

/-- What a PFC frame of times `quanta` for the priorities `named` makes of the pauses below priority `n`. -/
def pausesTaken (named : Nat → Bool) (quanta pauseEnd : Nat → Nat) (n : Nat) (m : NMap Nat) : NMap Nat :=
  (List.range n).foldl (fun m p =>
    if named p then (if quanta p = 0 then NMap.del m p else NMap.put m p (pauseEnd (quanta p))) else m) m

theorem pausesTaken_succ (named : Nat → Bool) (quanta pauseEnd : Nat → Nat) (n : Nat) (m : NMap Nat) :
    pausesTaken named quanta pauseEnd (n + 1) m =
      if named n then (if quanta n = 0 then NMap.del (pausesTaken named quanta pauseEnd n m) n
        else NMap.put (pausesTaken named quanta pauseEnd n m) n (pauseEnd (quanta n)))
      else pausesTaken named quanta pauseEnd n m := by
  simp [pausesTaken, List.range_succ]

theorem find_pausesTaken (named : Nat → Bool) (quanta pauseEnd : Nat → Nat) (n : Nat) (m : NMap Nat) (p : Nat) :
    (pausesTaken named quanta pauseEnd n m).find p =
      if p < n ∧ named p = true then (if quanta p = 0 then none else some (pauseEnd (quanta p))) else m.find p := by
  induction n with
  | zero => simp [pausesTaken]
  | succ n ih =>
    have other (hp : p ≠ n) : (p < n + 1 ∧ named p = true) ↔ (p < n ∧ named p = true) :=
      and_congr_left fun _ => by omega
    have last : ¬(n < n ∧ named n = true) := by omega
    rw [pausesTaken_succ]
    by_cases hn : named n = true
    · rw [if_pos hn]
      by_cases hp : p = n
      · subst hp
        rw [if_pos (show p < p + 1 ∧ named p = true from ⟨by omega, hn⟩)]
        split
        · rw [NMap.find_del_same]
        · rw [NMap.find_put_same]
      · simp only [other hp]
        split
        · rw [NMap.find_del, if_neg hp, ih]
        · rw [NMap.find_put_other _ _ hp, ih]
    · rw [if_neg hn, ih]
      by_cases hp : p = n
      · subst hp
        rw [if_neg last, if_neg (by simp [hn])]
      · simp only [other hp]

/-- The pauses of a port after a PFC frame. -/
def pfcPauses (port : Nat) (data : List Byte) (s : State) : NMap Nat :=
  pausesTaken (fun p => bitOf (beAt data 16 2 % 256) p && bitOf (s.get Obj.pfcRxEnable port) p)
    (fun p => beAt data (18 + 2 * p) 2) (s.pauseEnd port) 8 (s.link port).paused

theorem pfcReceive_eq (port : Nat) (data : List Byte) (s : State) :
    ∃ named : Bool, pfcReceive port data s =
      if named then ((s.setLink port { s.link port with paused := pfcPauses port data s }).bump Obj.pfcRxFrames port).bump
          Obj.pauseRxIgnored port
      else (s.setLink port { s.link port with paused := pfcPauses port data s }).bump Obj.pfcRxFrames port :=
  ⟨(List.range 8).any fun p => bitOf (beAt data 16 2 % 256) p && !bitOf (s.get Obj.pfcRxEnable port) p, rfl⟩

/-- Only the port's pauses and its counters change. -/
theorem pfcReceive_effect {port : Nat} (hp : port < 65536) (data : List Byte) (s : State) :
    (pfcReceive port data s).links = (s.setLink port { s.link port with paused := pfcPauses port data s }).links ∧
      (pfcReceive port data s).get Obj.pfcRxFrames port = (s.get Obj.pfcRxFrames port + 1) % 2 ^ 64 := by
  obtain ⟨named, h⟩ := pfcReceive_eq port data s
  rw [h]
  cases named with
  | false => exact ⟨rfl, State.get_bump_same ..⟩
  | true =>
    refine ⟨rfl, ?_⟩
    rw [if_pos rfl, State.get_bump_apart _ (by decide) hp hp, State.get_bump_same]
    rfl

theorem noteBytes_rest (port tx n : Nat) (s : State) :
    noteBytes port tx n s = { s with count := (noteBytes port tx n s).count } := by
  unfold noteBytes
  split <;> rfl

theorem bitOf_eq_false_of_lt {v p : Nat} (h : v < 2 ^ p) : bitOf v p = false := by
  simp [bitOf, Nat.div_eq_of_lt h]

/-- Settles O16: each timer by its command's own test; a PFC frame by induction on the priorities it goes through. -/
theorem portTimersAndMacControl : Obligations.PortTimersAndMacControl := by
  unfold Obligations.PortTimersAndMacControl
  refine ⟨fun s port l hl => ?_, fun s port data vec on hup hpfc hvec hon => ?_⟩
  · subst hl
    refine ⟨fun h1 h2 h3 h4 h5 h6 h7 => exec_lpiEnter ⟨h1, h2, h3, h4, h5, h6, h7⟩, fun at_ => exec_lpiWakeDone,
      fun p at_ => exec_pfcPauseExpired, fun c n hn hc hf => ⟨_, rfl, exec_fecUncorrected hn hc hf rfl⟩,
      fun data hup hno => ?_, fun c v may hv => ?_⟩
    · rw [exec_macControlRx data hup, if_neg hno]
    · have value : leNat (leBytes 8 v.toNat) = v.toNat := leNat_leBytes_of_lt v.isLt
      refine clientWrites_plain Obj.linkHoldNs rfl may rowOf_linkHoldNs rfl (by decide) (by decide) (by omega)
        (decide_eq_true port.isLt) rfl (.inr ⟨?_, ?_, ?_, ?_, ?_⟩) ?_
      all_goals rw [value]
      · rfl
      · exact decide_eq_true hv
      all_goals rfl
  · obtain ⟨u, hu⟩ : ∃ u, u = noteBytes port.val 0 (data.length + 4) s := ⟨_, rfl⟩
    have rest : u = { s with count := u.count } := by rw [hu]; exact noteBytes_rest ..
    obtain ⟨hlinks, hframes⟩ := pfcReceive_effect (port := port.val) (by omega) data u
    have hlink : ∀ q, (pfcReceive port.val data u).link q =
        (u.setLink port.val { u.link port.val with paused := pfcPauses port.val data u }).link q := fun q => by
      rw [State.link, hlinks]
      rfl
    have pauses : ((pfcReceive port.val data u).link port.val).paused = pfcPauses port.val data s := by
      rw [hlink, State.link_setLink_same, rest]
      rfl
    have find := find_pausesTaken (fun p => bitOf (beAt data 16 2 % 256) p && bitOf (s.get Obj.pfcRxEnable port.val) p)
      (fun p => beAt data (18 + 2 * p) 2) (s.pauseEnd port.val) 8 (s.link port.val).paused
    subst hvec hon
    refine ⟨_, (exec_macControlRx data hup).trans (congrArg _ (if_pos hpfc)), ?_⟩
    rw [← hu]
    dsimp only
    rw [pauses]
    refine ⟨fun p hp hv ho hq => ?_, fun p hp hv ho hq => ?_, fun p hno => ?_, ?_, fun q hq => ?_⟩
    · rw [pfcPauses, find, if_pos ⟨hp, by simp [hv, ho]⟩, if_neg hq]
    · rw [pfcPauses, find, if_pos ⟨hp, by simp [hv, ho]⟩, if_pos hq]
    · rw [pfcPauses, find, if_neg]
      rintro ⟨-, h⟩
      rw [Bool.and_eq_true] at h
      obtain ⟨hv, ho⟩ := h
      rcases hno with hno | hno
      · exact absurd (hv.symm.trans hno) (by decide)
      · exact absurd (ho.symm.trans hno) (by decide)
    · rw [hframes, rest]
      rfl
    · rw [hlink, State.link_setLink_other _ _ hq, rest]
      rfl

end Sys2Proof.Machine
end

section
/-! SUPPORT. A parse engine at a word (R146, R151, R154 to R156, R539): what one cycle of it does, whichever operation the
word names. -/

namespace Sys2Proof.Machine

@[simp] theorem State.engine_setEngine_same (s : State) (e : Nat) (x : Engine) : (s.setEngine e x).engine e = some x :=
  NMap.find_put_same ..

theorem State.engine_setEngine_other (s : State) {e k : Nat} (x : Engine) (h : k ≠ e) :
    (s.setEngine e x).engine k = s.engine k := NMap.find_put_other _ _ h

@[simp] theorem State.setEngine_get (s : State) (e : Nat) (x : Engine) (o : ObjRow) (n : Nat) :
    (s.setEngine e x).get o n = s.get o n := rfl

/-! ### What stands before the operation -/

/-- An engine that stands at a word does its operation. -/
theorem openWord_stands {op : Nat} {e : EngineId} {x : Engine} {w : MicroWord} {s : State} (h : StandsAt op e x w s)
    (mine : Nat → Bool) (hm : mine op = true) : openWord mine e.val s = .run x w := by
  obtain ⟨hx, hticks, hword, hop, -, hdone, hlimit, htrap, hswap, hfree⟩ := h
  have swap : ¬((x.swap && !x.inTrap) = true) := by
    rcases hswap with h | h <;> simp [h]
  have free : ¬((sourcesOf w ++ destOf w).any (fun r => x.pending.contains r) = true) := by
    rw [List.any_eq_true]
    rintro ⟨r, hr, hp⟩
    exact hfree r hr (List.contains_iff_mem.mp hp)
  unfold openWord
  rw [hx]
  dsimp only
  rw [hword]
  dsimp only
  rw [hop, if_neg (by simp [hticks, hdone, hlimit, hm]), if_neg (by simp [htrap]), if_neg swap, if_neg (by decide),
    if_neg free]

theorem runWord_stands {op : Nat} {e : EngineId} {x : Engine} {w : MicroWord} {s : State} (h : StandsAt op e x w s)
    (act : State → Engine → MicroWord → Did) : runWord op act e.val s = settle e.val x w (act s x w) s := by
  unfold runWord
  rw [openWord_stands h (· == op) (beq_self_eq_true op)]

/-! ### The cycle that an engine spends -/

/-- The slot counter of a cycle (R539). -/
def slotObject (k : Slot) : ObjRow :=
  match k with
  | .retired => Obj.slotsRetired | .wasted => Obj.slotsWasted | .front => Obj.slotsFront | .back => Obj.slotsBack

theorem countSlot_eq (p : Nat) (k : Slot) (s : State) :
    countSlot p k s = (s.bump (slotObject k) p).bump Obj.slotsTotal p := rfl

theorem slotObject_index (k : Slot) : (slotObject k).index = Obj.slotsTotal.index := by cases k <;> rfl

theorem slotObject_apart (k : Slot) : (slotObject k).apart Obj.slotsTotal = true := by cases k <;> rfl

theorem slotObject_apart' (k : Slot) : Obj.slotsTotal.apart (slotObject k) = true := by cases k <;> rfl

theorem slotObject_size (k : Slot) : (slotObject k).ty.size = 8 := by cases k <;> rfl

theorem slotObject_sub (k : Slot) : (slotObject k).sub < 256 := by cases k <;> decide

/-- Counting a slot changes the slot counters of its pipe alone. -/
theorem countSlot_objects {p : Nat} (hp : p < 65536) (k : Slot) (s : State) :
    ObjectsKept (fun index _ n => index == Obj.slotsTotal.index && n == p) s (countSlot p k s) := by
  intro o b n hb hn ho
  have keep : ∀ (o' : ObjRow) (t : State), o'.index = Obj.slotsTotal.index → o'.sub < 256 → ∀ v,
      (t.set o' p v).getS o b n = t.getS o b n := fun o' t hi hs v =>
    State.getS_setS _ _ _ _ _ _ _ _ fun e => by
      obtain ⟨h1, -, h3⟩ := addrKey_inj hb hs hn hp e
      simp [h1, h3, hi] at ho
  rw [countSlot_eq]
  exact (keep _ _ rfl (by decide) _).trans (keep _ _ (slotObject_index k) (slotObject_sub k) _)

theorem countSlot_total {p : Nat} (hp : p < 65536) (k : Slot) (s : State) :
    (countSlot p k s).get Obj.slotsTotal p = (s.get Obj.slotsTotal p + 1) % 2 ^ 64 := by
  rw [countSlot_eq, State.get_bump_same, State.get_bump_apart _ (slotObject_apart' k) hp hp]
  rfl

theorem countSlot_own {p : Nat} (hp : p < 65536) (k : Slot) (s : State) :
    (countSlot p k s).get (slotObject k) p = (s.get (slotObject k) p + 1) % 2 ^ 64 := by
  rw [countSlot_eq, State.get_bump_apart _ (slotObject_apart k) hp hp, State.get_bump_same, slotObject_size]

theorem spend_eq {e : Nat} {x : Engine} {s : State} (h : s.engine e = some x) (k : Slot) : spend k e s =
    countSlot (e / 128) (if x.inTrap || x.trap.isSome then .wasted else k)
      (s.setEngine e { x with cycles := if k = .front then x.cycles else x.cycles + 1, total := x.total + 1 }) := by
  unfold spend
  rw [h]

/-- A change of one engine, and the count of a slot of its pipe. -/
theorem onlyEngine_of_count (e : EngineId) (x : Engine) (k : Slot) (s : State) :
    OnlyEngine e.val s (countSlot (e.val / 128) k (s.setEngine e.val x)) where
  rest := rfl
  engines := fun _ hk => State.engine_setEngine_other s x hk
  objects := countSlot_objects (by omega) k (s.setEngine e.val x)

/-- An operation that is done spends the cycle of its engine. -/
theorem spends_of_spend {i : Instr} {e : EngineId} {y : Engine} {s : State} (ht : y.trap = none)
    (hi : exec i s = .next (spend .retired e.val (s.setEngine e.val y))) : Spends i e y s := by
  obtain ⟨k, hk⟩ : ∃ k : Slot, k = if y.inTrap then .wasted else .retired := ⟨_, rfl⟩
  obtain ⟨z, hz⟩ : ∃ z : Engine, z = { y with cycles := y.cycles + 1, total := y.total + 1 } := ⟨_, rfl⟩
  have run : spend .retired e.val (s.setEngine e.val y) =
      countSlot (e.val / 128) k ((s.setEngine e.val y).setEngine e.val z) := by
    rw [spend_eq (State.engine_setEngine_same ..), hz, hk, ht]
    simp
  refine ⟨_, hi, ?_⟩
  dsimp only
  rw [run, ← hz]
  refine ⟨⟨rfl, fun j hj => ?_, countSlot_objects (by omega) k _⟩, ?_, countSlot_total (by omega) k _, fun o ho => ?_⟩
  · exact (State.engine_setEngine_other _ _ hj).trans (State.engine_setEngine_other _ _ hj)
  · exact State.engine_setEngine_same ..
  · have own : o = slotObject k := by
      rw [ho, hk]
      split <;> rfl
    rw [own, countSlot_own (by omega)]
    rfl

theorem settle_ok {e : Nat} {x y : Engine} {w : MicroWord} (hw : mwSeq w < 6) (r : Nat) (carry : Bool) (s : State) :
    settle e x w (.ok y r carry) s = spend .retired e
      (s.setEngine e { y with done := some (w, BitVec.ofNat 32 r, carry, advanceOf x w) }) := by
  unfold settle
  dsimp only
  rw [if_neg (by omega)]

/-- A word whose operation comes to a result retires with it. -/
theorem retires_of_did {i : Instr} {op : Nat} {e : EngineId} {x y : Engine} {w : MicroWord} {s : State} {d : Did}
    {r : Word32} {n : Nat} {carry : Bool} (h : StandsAt op e x w s) (hi : exec i s = .next (settle e.val x w d s))
    (hd : d = .ok y n carry) (ht : y.trap = none) (hr : r = BitVec.ofNat 32 n) : Retires i e x y w r carry s := by
  obtain ⟨-, -, -, -, hseq, -⟩ := h
  subst hd hr
  exact spends_of_spend ht (hi.trans (congrArg _ (settle_ok hseq n carry s)))

/-- A word that `runWord` runs. -/
theorem retires_of_run {i : Instr} {op : Nat} {e : EngineId} {x y : Engine} {w : MicroWord} {s : State}
    {act : State → Engine → MicroWord → Did} {r : Word32} {n : Nat} {carry : Bool} (h : StandsAt op e x w s)
    (hi : exec i s = .next (runWord op act e.val s)) (hd : act s x w = .ok y n carry) (ht : y.trap = none)
    (hr : r = BitVec.ofNat 32 n) : Retires i e x y w r carry s :=
  retires_of_did h (hi.trans (congrArg _ (runWord_stands h act))) hd ht hr

theorem StandsAt.trap {op : Nat} {e : EngineId} {x : Engine} {w : MicroWord} {s : State} (h : StandsAt op e x w s) :
    x.trap = none := by
  obtain ⟨-, -, -, -, -, -, -, htrap, -⟩ := h
  exact htrap

/-- An operation that writes DST: the register and the word's result are its value. -/
theorem writesDst_of_run {i : Instr} {op : Nat} {e : EngineId} {x : Engine} {w : MicroWord} {s : State}
    {act : State → Engine → MicroWord → Did} {r : Word32} {n : Nat} {carry : Bool} (h : StandsAt op e x w s)
    (hi : exec i s = .next (runWord op act e.val s)) (hd : act s x w = writeDst x w n carry) (hr : r = BitVec.ofNat 32 n) :
    WritesDst i e x w r carry s := by
  subst hr
  refine retires_of_run h hi hd h.trap ?_
  apply BitVec.eq_of_toNat_eq
  simp

end Sys2Proof.Machine
end

section
/-! SUPPORT. The operations of a micro-word on working registers (R151): the model's numbers as 32-bit words. -/

namespace Sys2Proof.Machine

theorem reg_eq_word (x : Engine) (n : Nat) : x.reg n = (x.word n).toNat := rfl

theorem mwImm_eq (w : MicroWord) : mwImm w = ((w.extractLsb' 94 16).setWidth 32).toNat := by
  have h : w.toNat / 2 ^ 94 % 2 ^ 16 < 2 ^ 32 := Nat.lt_of_lt_of_le (Nat.mod_lt _ (by decide)) (by decide)
  rw [BitVec.toNat_setWidth, BitVec.extractLsb'_toNat, Nat.shiftRight_eq_div_pow, Nat.mod_eq_of_lt h]
  rfl

theorem mwImm_lt (w : MicroWord) : mwImm w < 2 ^ 16 := by
  unfold mwImm fld bitsOf
  exact Nat.mod_lt _ (by decide)

theorem ofNat_sum32 (a b : Word32) :
    a + b = BitVec.ofNat 32 (sum32 a.toNat b.toNat).1 ∧ BitVec.uaddOverflow a b = (sum32 a.toNat b.toNat).2 :=
  ⟨BitVec.eq_of_toNat_eq (by simp [sum32]), rfl⟩

theorem ofNat_diff32 (a b : Word32) :
    a - b = BitVec.ofNat 32 (diff32 a.toNat b.toNat).1 ∧ BitVec.usubOverflow a b = (diff32 a.toNat b.toNat).2 := by
  refine ⟨BitVec.eq_of_toNat_eq ?_, rfl⟩
  have := b.isLt
  simp only [diff32, BitVec.toNat_sub, BitVec.toNat_ofNat, Nat.mod_mod]
  congr 1
  omega

theorem ofNat_shl (a : Word32) (k : Nat) : a <<< k = BitVec.ofNat 32 (a.toNat * 2 ^ k % 2 ^ 32) := by
  apply BitVec.eq_of_toNat_eq
  simp [Nat.shiftLeft_eq]

theorem ofNat_shr (a : Word32) (k : Nat) : a >>> k = BitVec.ofNat 32 (a.toNat / 2 ^ k) := by
  apply BitVec.eq_of_toNat_eq
  have := Nat.lt_of_le_of_lt (Nat.div_le_self a.toNat (2 ^ k)) a.isLt
  rw [BitVec.toNat_ushiftRight, Nat.shiftRight_eq_div_pow, BitVec.toNat_ofNat, Nat.mod_eq_of_lt this]

theorem ofNat_movhi {imm d : Word32} (h : imm.toNat < 2 ^ 16) :
    imm <<< 16 ||| d &&& 0xFFFF = BitVec.ofNat 32 (imm.toNat * 65536 + d.toNat % 65536) := by
  have low : d.toNat &&& 65535 = d.toNat % 65536 := Nat.and_two_pow_sub_one_eq_mod d.toNat 16
  have high : imm.toNat * 65536 % 2 ^ 32 = imm.toNat * 65536 := Nat.mod_eq_of_lt (by omega)
  apply BitVec.eq_of_toNat_eq
  rw [BitVec.toNat_or, BitVec.toNat_and, BitVec.toNat_shiftLeft, Nat.shiftLeft_eq, BitVec.toNat_ofNat,
    show imm.toNat * 2 ^ 16 = imm.toNat * 65536 from rfl, high, show (0xFFFF : Word32).toNat = 65535 from rfl, low,
    Nat.mod_eq_of_lt (a := imm.toNat * 65536 + d.toNat % 65536) (by omega),
    show imm.toNat * 65536 = imm.toNat <<< 16 from (Nat.shiftLeft_eq imm.toNat 16).symm,
    Nat.shiftLeft_add_eq_or_of_lt (Nat.mod_lt _ (by decide))]

/-- An operation on registers alone. -/
theorem writesDst_of_alu {i : Instr} {op : Nat} {e : EngineId} {x : Engine} {w : MicroWord} {s : State}
    {g : Engine → MicroWord → Nat × Bool} {r : Word32} {v : Nat × Bool} (h : StandsAt op e x w s)
    (hi : exec i s = .next (aluWord op g e.val s)) (hg : g x w = v) (hr : r = BitVec.ofNat 32 v.1) :
    WritesDst i e x w r v.2 s :=
  writesDst_of_run h hi (by rw [hg]) hr

/-- Settles O18: every operation by the rule of a word that is run, its value and carry as 32-bit words. -/
theorem registerOperationsGiveTheirValues : Obligations.RegisterOperationsGiveTheirValues := by
  unfold Obligations.RegisterOperationsGiveTheirValues
  intro e x w s a b d imm ha hb hd himm
  have hra : x.reg (mwA w) = a.toNat := ha ▸ rfl
  have hrb : x.reg (mwB w) = b.toNat := hb ▸ rfl
  have hrd : x.reg (mwDst w) = d.toNat := hd ▸ rfl
  have hri : mwImm w = imm.toNat := himm ▸ mwImm_eq w
  have hlt : imm.toNat < 2 ^ 16 := hri ▸ mwImm_lt w
  have value : ∀ v : Word32, v = BitVec.ofNat 32 v.toNat := fun v => (BitVec.ofNat_toNat 32 v).symm ▸ (by simp)
  refine ⟨fun h => ?_, fun h => ?_, fun h => ?_, fun h => ?_, fun h => ?_, fun h => ?_, fun h => ?_, fun h => ?_,
    fun h => ?_, fun h => ?_, fun h => ?_, fun h => ?_, fun h => ?_, fun h => ?_, fun h => ?_⟩
  · have ⟨_, _, _, hop, _⟩ := h
    refine retires_of_did (d := .ok x 0 false) h ?_ rfl h.trap rfl
    change execMicroNop e s = _
    unfold execMicroNop
    rw [openWord_stands h _ rfl]
    dsimp only
    rw [if_neg (by omega)]
  · exact writesDst_of_run h rfl rfl (hri ▸ value imm)
  · exact writesDst_of_run h rfl rfl (by rw [hri, hrd]; exact ofNat_movhi hlt)
  · have ⟨hsum, hcarry⟩ := ofNat_sum32 a b
    rw [hcarry]
    exact writesDst_of_alu h rfl (by rw [hra, hrb]) hsum
  · have ⟨hsum, hcarry⟩ := ofNat_sum32 a imm
    rw [hcarry]
    exact writesDst_of_alu h rfl (by rw [hra, hri]) hsum
  · have ⟨hdiff, hcarry⟩ := ofNat_diff32 a b
    rw [hcarry]
    exact writesDst_of_alu h rfl (by rw [hra, hrb]) hdiff
  · exact writesDst_of_run h rfl rfl (by rw [hra, hrb]; exact value (a &&& b))
  · exact writesDst_of_run h rfl rfl (by rw [hra, hrb]; exact value (a ||| b))
  · exact writesDst_of_run h rfl rfl (by rw [hra, hrb]; exact value (a ^^^ b))
  · exact writesDst_of_run h rfl rfl (by rw [hra, hri]; exact value (a &&& imm))
  · exact writesDst_of_run h rfl rfl (by rw [hra, hri]; exact value (a ||| imm))
  · exact writesDst_of_run h rfl rfl (by rw [hra, hri]; exact ofNat_shl ..)
  · exact writesDst_of_run h rfl rfl (by rw [hra, hri]; exact ofNat_shr ..)
  · have ⟨hdiff, hcarry⟩ := ofNat_diff32 a b
    rw [hcarry]
    exact retires_of_run h rfl (by dsimp only; rw [hra, hrb]) h.trap hdiff
  · have ⟨hdiff, hcarry⟩ := ofNat_diff32 a imm
    rw [hcarry]
    exact retires_of_run h rfl (by dsimp only; rw [hra, hri]) h.trap hdiff

end Sys2Proof.Machine
end

section
/-! SUPPORT. The sequencing of a word, traps and the ends of a parse (R146, R154, R162 to R166, R177 to R179). -/

namespace Sys2Proof.Machine

/-- A sequencing that replaces one engine changes nothing else. -/
theorem onlyEngine_setEngine (e : Nat) (x : Engine) (s : State) : OnlyEngine e s (s.setEngine e x) :=
  ⟨rfl, fun _ hk => State.engine_setEngine_other s x hk, fun _ _ _ _ _ _ => rfl⟩

/-- A sequencing that takes one more cycle, its bubble (R539). -/
theorem completes_bubble {i : Instr} {e : EngineId} {y : Engine} {s : State}
    (hi : exec i s = .next (spend .wasted e.val (s.setEngine e.val y))) :
    Completes i s fun t => OnlyEngine e.val s t ∧
      t.engine e.val = some { y with cycles := y.cycles + 1, total := y.total + 1 } := by
  refine ⟨_, hi, ?_⟩
  dsimp only
  rw [spend_eq (State.engine_setEngine_same ..), if_neg (show ¬(Slot.wasted = Slot.front) by decide)]
  refine ⟨⟨rfl, fun j hj => ?_, countSlot_objects (by omega) _ _⟩, State.engine_setEngine_same ..⟩
  exact (State.engine_setEngine_other _ _ hj).trans (State.engine_setEngine_other _ _ hj)

section
variable {e : EngineId} {x : Engine} {s : State} {w : MicroWord} {r : Word32} {carry : Bool} {adv : Nat}

/-- The engine, the word and the branch value with which a word's sequencing begins. -/
theorem sequencing_of_done {seq : Nat} (hx : s.engine e.val = some x) (hd : x.done = some (w, r, carry, adv))
    (hs : mwSeq w = seq) : s.sequencing seq e.val =
      some ({ x with cursor := capAt 1023 (x.cursor + adv), done := none }, w,
        branchBits ((mwConds w).map (condition x (s.header x) r carry))) := by
  unfold State.sequencing
  rw [hx]
  dsimp only
  rw [hd]
  dsimp only
  rw [if_neg (not_not_intro hs)]

variable {z : Engine} {v : Nat}

theorem exec_branch (h : s.sequencing 0 e.val = some (z, w, v)) : exec (.branch e) s =
    .next (s.setEngine e.val { z with pc := Nat.lor (mwTarget w) v }) := by
  change execBranch e s = _
  rw [execBranch, h]

theorem exec_call (h : s.sequencing 1 e.val = some (z, w, v)) (hroom : z.stack.length < 4) : exec (.call e) s =
    .next (s.setEngine e.val { z with pc := Nat.lor (mwTarget w) v, stack := (z.pc + 1) % 8192 :: z.stack }) := by
  change execCall e s = _
  rw [execCall, h]
  dsimp only
  rw [if_neg (by omega)]

theorem exec_ret {back : Nat} {rest : List Nat} (h : s.sequencing 2 e.val = some (z, w, v)) (hs : z.stack = back :: rest) :
    exec (.ret e) s = .next (spend .wasted e.val (s.setEngine e.val { z with pc := Nat.lor back v, stack := rest })) := by
  change execRet e s = _
  rw [execRet, h]
  dsimp only
  rw [hs]

theorem exec_end (h : s.sequencing 3 e.val = some (z, w, v))
    (hk : z.result.stateless = true ∨ keyKnown (s.header z) z.result = true) :
    exec (.end_ e) s = .next (endParse e.val (s.setEngine e.val z)) := by
  change execEnd e s = _
  rw [execEnd, h]
  dsimp only
  rw [if_neg]
  rcases hk with hk | hk <;> simp [hk]

theorem exec_trapReturn (h : s.sequencing 4 e.val = some (z, w, v)) (ht : z.inTrap = true) : exec (.trapReturn e) s =
    .next (spend .wasted e.val (s.setEngine e.val
      { z with pc := z.saved.pc, regs := z.saved.regs, cursor := z.saved.cursor, inTrap := false })) := by
  change execTrapReturn e s = _
  rw [execTrapReturn, h]
  dsimp only
  rw [if_pos ht]

theorem exec_restart {y : Frame} (h : s.sequencing 5 e.val = some (z, w, v)) (hy : s.frame z.frame = some y) :
    exec (.restart e) s = .next (banksDrain (e.val / 128) (spend .wasted e.val (s.setEngine e.val
      (z.restarted (s.activeAft (e.val / 128)) (s.ferry y.inPort) y.result.vrf)))) := by
  change execRestart e s = _
  rw [execRestart, h]
  dsimp only
  rw [hy]

end

/-! ### Traps and ends -/

section
variable {e : EngineId} {x : Engine} {s : State}

theorem exec_trapEntry {cause detail pc : Nat} (hx : s.engine e.val = some x) (ht : x.trap = some (cause, detail, pc))
    (hl : x.lookups = []) (hc : x.cycles < x.limit) : exec (.trapEntry e) s =
      .next ((s.setEngine e.val { x with trap := none, inTrap := true, pc := cause, saved :=
        { pc := pc, regs := x.regs, cursor := x.cursor, cause := cause, detail := BitVec.ofNat 32 detail } }).bump
          (trapObj cause) (e.val / 128)) := by
  change execTrapEntry e s = _
  rw [execTrapEntry, hx]
  dsimp only
  rw [ht]
  dsimp only
  rw [if_neg (by simp [hl, hc])]

/-- No learning limit was met: what ends the parse handles the frame (R192). -/
theorem orLimitDrop_none (h : x.limited = none) (k : State → State) : orLimitDrop x k s = k s := by
  simp [orLimitDrop, State.limitDrop, h]

theorem failParse_eq {y : Frame} (hx : s.engine e.val = some x) (hy : s.frame x.frame = some y) (hl : x.limited = none)
    (reason : Nat) : failParse reason e.val s = failFrame (e.val / 128) reason x.failDrop x.frame (leaveEngine e.val
      (s.setFrame x.frame { y with result := { y.result with vrf := x.result.vrf } })) := by
  have free : ∀ u : State, u.limitDrop x = none := fun u => by simp [State.limitDrop, hl]
  unfold failParse
  rw [hx]
  dsimp only
  rw [free, State.modFrame, hy]

theorem exec_cycleLimit {y : Frame} (hx : s.engine e.val = some x) (hy : s.frame x.frame = some y)
    (hc : x.limit ≤ x.cycles) (hd : x.done = none) (hl : x.limited = none) : exec (.cycleLimit e) s =
      .next (failFrame (e.val / 128) 1 x.failDrop x.frame (leaveEngine e.val
        (s.setFrame x.frame { y with result := { y.result with vrf := x.result.vrf } }))) := by
  change execCycleLimit e s = _
  rw [execCycleLimit, hx]
  dsimp only
  rw [if_pos ⟨hc, hd⟩, failParse_eq hx hy hl]

theorem endWord_stands {op : Nat} {w : MicroWord} (h : StandsAt op e x w s) (hr : 0x40 ≤ mwImm w % 256)
    (hl : x.limited = none) (count : Nat → State → State) (act : Nat → Engine → State → State) :
    endWord op count act e.val s =
      act (mwImm w % 256) x (count (mwImm w % 256) (leaveEngine e.val (spend .retired e.val s))) := by
  unfold endWord
  rw [openWord_stands h (· == op) (beq_self_eq_true op)]
  dsimp only
  rw [if_neg (by omega), orLimitDrop_none hl]

end

/-- Settles O20: every sequencing and every end by its command's own equation. -/
theorem sequencingTrapsAndEnds : Obligations.SequencingTrapsAndEnds := by
  unfold Obligations.SequencingTrapsAndEnds
  refine ⟨fun e x s w r carry adv v cursor hx hd hv hcursor => ?_, fun e x s hx => ?_⟩
  · subst hv hcursor
    have seq {n : Nat} (hn : mwSeq w = n) := sequencing_of_done hx hd hn
    refine ⟨fun hn => ?_, fun hn hroom => ?_, fun hn _ _ back rest hs => ?_, fun hn hk => ?_, fun hn ht => ?_,
      fun hn y hy => ?_⟩
    · exact ⟨_, exec_branch (seq hn), onlyEngine_setEngine .., State.engine_setEngine_same ..⟩
    · exact ⟨_, exec_call (seq hn) hroom, onlyEngine_setEngine .., State.engine_setEngine_same ..⟩
    · exact completes_bubble (exec_ret (seq hn) hs)
    · exact exec_end (seq hn) hk
    · exact completes_bubble (exec_trapReturn (seq hn) ht)
    · have run := exec_restart (seq hn) (y := y) hy
      exact run
  · refine ⟨fun cause detail pc o ht hl hc ho => ?_, fun y hy hc hd hl => exec_cycleLimit hx hy hc hd hl,
      fun w h hl hr => ?_, fun w h hl hr => ?_⟩
    · subst ho
      exact exec_trapEntry hx ht hl hc
    · exact congrArg Host.Outcome.next (endWord_stands h hr hl _ _)
    · exact congrArg Host.Outcome.next (endWord_stands h hr hl _ _)

end Sys2Proof.Machine
end

section
/-! SUPPORT. The operations of a micro-word on the header, the key, the marks, the result and the edits (R151, R152, R159
to R161, R163, R165). -/

namespace Sys2Proof.Machine

section
variable {x : Engine} {d : List Byte} {w : MicroWord} {s : State}

theorem Reaches.header {last : Nat} (h : Reaches x d last s) : ∃ tail, s.header x = (d, tail) := by
  obtain ⟨hd, -, -⟩ := h
  obtain ⟨y, hy, rfl⟩ := Option.map_eq_some_iff.mp hd
  exact ⟨y.tail.isSome, by rw [State.header, hy]⟩

/-- A field whose bytes are received and in the window is read (R152). -/
theorem onField_reaches (h : Reaches x d (fieldLast x w) s) (k : List Byte → Did) : onField s x w k = k d := by
  obtain ⟨tail, hd⟩ := h.header
  obtain ⟨-, hlen, hwin⟩ := h
  unfold onField
  rw [hd]
  dsimp only
  rw [if_neg (by omega), if_neg (by simp [known, hlen])]

theorem onBytes_window {last : Nat} (h : last < x.window) (k : Did) : onBytes x last k = k := if_neg (by omega)

/-- A header whose first byte is received and that lies in the window is read (R152). -/
theorem onHeader_reaches (h : Reaches x d (x.at_ w) s) {len : Nat → Nat} (hpos : 0 < len (byteAt d (x.at_ w)))
    (hwin : x.at_ w + len (byteAt d (x.at_ w)) ≤ x.window) (k : Did) : onHeader s x w len k = k := by
  obtain ⟨tail, hd⟩ := h.header
  obtain ⟨-, hlen, -⟩ := h
  unfold onHeader
  rw [hd]
  dsimp only
  rw [if_neg (by simp [known, hlen]), if_neg (by omega)]

theorem addEdit_room (h : x.edits.length < 16) (edit : Edit) :
    addEdit x edit = .ok { x with edits := x.edits ++ [edit] } 0 false := if_neg (by omega)

/-- No earlier POP removed bytes around the offset at which a PUSH stands. -/
theorem not_insidePop {o : Nat} (h : ∀ a m, Edit.pop a m ∈ x.edits → ¬(a < o ∧ o < a + m)) :
    (x.edits.any fun d => match d with | .pop a m => decide (a < o) && decide (o < a + m) | _ => false) = false := by
  rw [List.any_eq_false]
  intro d hd
  cases d with
  | pop a m => simpa using h a m hd
  | _ => simp

/-- No header marked for CSUM4 lies in the bytes that a POP removes. -/
theorem not_markedHeader {o n : Nat} (h : ∀ a, Edit.csum4 a ∈ x.edits → ¬(o ≤ a ∧ a < o + n)) :
    (x.edits.any fun d => match d with | .csum4 a => decide (o ≤ a) && decide (a < o + n) | _ => false) = false := by
  rw [List.any_eq_false]
  intro d hd
  cases d with
  | csum4 a => simpa using h a hd
  | _ => simp

theorem xwin_eq (imm : Nat) : (if imm ≤ 512 ∧ x.window < imm then { x with window := imm } else x) =
    { x with window := if imm ≤ 512 then Nat.max x.window imm else x.window } := by
  by_cases h : imm ≤ 512
  · by_cases hw : x.window < imm
    · rw [if_pos ⟨h, hw⟩, if_pos h, show Nat.max x.window imm = imm from Nat.max_eq_right (by omega)]
    · rw [if_neg (fun k => hw k.2), if_pos h, show Nat.max x.window imm = x.window from Nat.max_eq_left (by omega)]
  · rw [if_neg (fun k => h k.1), if_neg h]

end

/-- Settles O19: each operation by the rule of a word that is run, once its bytes are reached. -/
theorem headerAndEditOperations : Obligations.HeaderAndEditOperations := by
  unfold Obligations.HeaderAndEditOperations
  refine ⟨fun e x w s data a ha => ?_, fun e x w s data hroom => ?_⟩
  · subst ha
    refine ⟨fun h hr => ?_, fun h => ?_, fun h n hn hr hw => ?_, fun h mode hm hw => ?_, fun h r hr heg => ?_,
      fun h => ⟨fun hk => ?_, fun hk hw => ?_⟩, fun h => ?_, fun h => ?_, fun h => ?_, fun h => ?_⟩
    · exact writesDst_of_run h rfl (onField_reaches hr _) rfl
    · exact retires_of_run h rfl rfl h.trap rfl
    · subst hn
      refine retires_of_run h rfl (onHeader_reaches hr ?_ hw _) h.trap rfl
      split <;> decide
    · subst hm
      exact retires_of_run h rfl (onBytes_window hw _) h.trap rfl
    · refine retires_of_run h rfl (n := 0) ?_ h.trap rfl
      dsimp only
      rw [reg_eq_word, hr]
      dsimp only
      rw [if_neg]
      rintro ⟨h1, h2⟩
      simp [heg h1] at h2
    · exact retires_of_run h rfl (if_pos hk) h.trap rfl
    · exact retires_of_run h rfl ((if_neg hk).trans (onBytes_window hw _)) h.trap rfl
    · exact retires_of_run h rfl rfl h.trap rfl
    · exact retires_of_run h rfl (congrArg (Did.ok · 0 false) (xwin_eq _)) h.trap rfl
    · exact writesDst_of_run h rfl rfl (by split <;> rfl)
    · refine retires_of_run h rfl rfl ?_ rfl
      split <;> exact h.trap
  · refine ⟨fun h hr hp => ?_, fun h n hn hw hpush hpop => ?_, fun h n hn hw hcsum => ?_, fun h hr hw hp => ?_⟩
    · refine retires_of_run h rfl ((onField_reaches hr _).trans ?_) h.trap rfl
      rw [if_neg (by simp [hp]), addEdit_room hroom]
      rfl
    · subst hn
      refine retires_of_run h rfl ((onBytes_window hw _).trans ?_) h.trap rfl
      refine (if_neg fun hk => ?_).trans (addEdit_room hroom _)
      rcases (Bool.or_eq_true _ _).mp hk with hk | hk
      · exact Bool.false_ne_true ((not_insidePop hpop).symm.trans hk)
      · exact absurd (of_decide_eq_true hk) (by omega)
    · subst hn
      refine retires_of_run h rfl ((onBytes_window (by omega) _).trans ?_) h.trap rfl
      exact (if_neg fun hk => Bool.false_ne_true ((not_markedHeader hcsum).symm.trans hk)).trans (addEdit_room hroom _)
    · refine retires_of_run h rfl ((onHeader_reaches hr ?_ hw _).trans ?_) h.trap rfl
      · exact Nat.lt_of_lt_of_le (by decide) (Nat.le_max_left 20 _)
      · rw [if_neg (by simp [hp]), addEdit_room hroom]

end Sys2Proof.Machine
end

section
/-! SUPPORT. The dispatch of a frame to an engine (R144, R145, R148) and an engine's lookups (R157, R158, R164). -/

namespace Sys2Proof.Machine

theorem NMap.put_put {α : Type} (m : NMap α) (k : Nat) (v w : α) : (m.put k v).put k w = m.put k w := by
  induction m with
  | nil => simp [NMap.put]
  | cons e m ih =>
    obtain ⟨j, u⟩ := e
    by_cases h1 : k < j
    · simp [NMap.put, h1]
    · by_cases h2 : k = j
      · simp [NMap.put, h2]
      · simp [NMap.put, h1, h2, ih]

theorem State.setEngine_setEngine (s : State) (e : Nat) (x y : Engine) :
    (s.setEngine e x).setEngine e y = s.setEngine e y := by
  simp only [State.setEngine, State.withParse, NMap.put_put]

/-! ### Dispatch -/

/-- The engine that takes up a frame (R148). -/
def dispatchedEngine (f : FrameId) (x : Frame) (s : State) : Engine :=
  let p := pipeOfPort x.inPort
  let n := freshEngine f (s.activeAft p) (s.ferry x.inPort) (s.get Obj.parseEntry x.inPort)
    (s.get Obj.parseWindowBytes p) (s.cycleLimit p) (s.get Obj.lookupTimeoutCycles p) (s.get Obj.parseFailAction p == 1)
  { n with result := { n.result with vrf := x.result.vrf } }

theorem exec_parseDispatch {f : FrameId} {e : EngineId} {x : Frame} {s : State} (hf : s.frame f = some x)
    (hd : s.dispatchable f x = true) (he : s.engineFree (pipeOfPort x.inPort) e.val = true) :
    exec (.parseDispatch f e) s = .next (((s.withParse { s.parse with waited := s.parse.waited.erase f }).setEngine e.val
      (dispatchedEngine f x s)).setFrame f { x with stage := .parsing e.val }) := by
  change execParseDispatch f e s = _
  unfold execParseDispatch
  rw [hf]
  dsimp only
  rw [if_neg (by simp [hd]), if_pos he]
  rfl

/-- The working registers at dispatch: zero but for the flags (R148). -/
theorem dispatchedEngine_words (f : FrameId) (x : Frame) (s : State) :
    (∀ i < 15, (dispatchedEngine f x s).word i = 0) ∧
      (dispatchedEngine f x s).word 15 = if s.ferry x.inPort = true then 0x10000 else 0 := by
  constructor
  · intro i hi
    have regs : (dispatchedEngine f x s).regs = List.replicate 15 0 ++ [flagsAtDispatch (s.ferry x.inPort)] := rfl
    rw [Engine.word, regs, Nat.mod_eq_of_lt (by omega), List.getD_eq_getElem?_getD,
      List.getElem?_append_left (by rw [List.length_replicate]; exact hi), List.getElem?_replicate, if_pos hi,
      Option.getD_some]
  · change flagsAtDispatch (s.ferry x.inPort) = _
    cases s.ferry x.inPort <;> rfl

/-! ### Lookups -/

/-- A lookup that learns nothing leaves the state, and of the engine changes the steering result alone (R157). -/
theorem doLookup_reads {p code : Nat} {k : Nat × Nat} (x : Engine) (w : MicroWord) (s : State)
    (hk : lookupShape code = some k) (hc : code < 7) :
    ∃ r y, doLookup p code x w s = (r, y, s) ∧ y = { x with steer := y.steer } ∧ r.length = k.2 := by
  have cases : code = 1 ∨ code = 2 ∨ code = 3 ∨ code = 4 ∨ code = 5 ∨ code = 6 := by
    rcases Nat.eq_zero_or_pos code with rfl | h
    · simp [lookupShape] at hk
    · omega
  rcases cases with rfl | rfl | rfl | rfl | rfl | rfl <;> obtain rfl := Option.some.inj hk
  case inr.inr.inr.inr.inr =>
    refine ⟨_, _, rfl, ?_, rfl⟩
    split <;> rfl
  all_goals exact ⟨_, _, rfl, rfl, rfl⟩

/-- A lookup whose registers no other lookup waits for leaves the others waiting. -/
theorem lookups_kept {x : Engine} {first n : Nat} {r : List Word32} {t : Nat}
    (h : ∀ l ∈ x.lookups, ∀ i ∈ l.regs, ∀ j < n, i ≠ (first + j) % 16) :
    x.lookups.filter (fun o => !o.regs.any fun i =>
      (Lookup.regs { first := first, count := n, result := r, issued := t }).contains i) = x.lookups := by
  rw [List.filter_eq_self]
  intro l hl
  rw [Bool.not_eq_true', List.any_eq_false]
  intro i hi hc
  obtain ⟨j, hj, e⟩ := List.mem_map.mp (List.contains_iff_mem.mp hc)
  exact h l hl i hi j (List.mem_range.mp hj) e.symm

section
variable {e : EngineId} {x : Engine} {s : State}

theorem exec_lookup {w : MicroWord} {k : Nat × Nat} {r : List Word32} {y : Engine} (h : StandsAt 0x10 e x w s)
    (hk : lookupShape (mwImm w % 256) = some k) (h5 : mwImm w % 256 = 5 → mwImm w / 256 < 16)
    (hroom : x.lookups.length < 4) (hr : doLookup (e.val / 128) (mwImm w % 256) x w s = (r, y, s))
    (hfree : ∀ l ∈ x.lookups, ∀ i ∈ l.regs, ∀ j < k.2, i ≠ (mwDst w + j) % 16) :
    exec (.lookup e) s = .next (settle e.val x w (.ok { y with lookups := x.lookups ++
      [{ first := mwDst w, count := k.2, result := r, issued := x.total }] } 0 false) s) := by
  change execLookup e s = _
  unfold execLookup
  rw [openWord_stands h (· == 0x10) rfl]
  dsimp only
  rw [hk]
  dsimp only
  rw [if_neg (by omega), if_neg (by omega), hr]
  dsimp only
  rw [lookups_kept hfree]

/-- Writing results to registers changes the registers alone. -/
theorem Engine.setRegs_eq (x : Engine) (n : Nat) (vs : List Word32) :
    x.setRegs n vs = { x with regs := (x.setRegs n vs).regs } := by
  induction vs generalizing x n with
  | nil => rfl
  | cons v vs ih =>
    rw [Engine.setRegs, ih]
    rfl

variable {first : Fin 16} {l : Lookup}

theorem exec_lookupResult (hx : s.engine e.val = some x) (hl : x.lookups = [l]) (hf : l.first = first.val)
    (ht : x.total - l.issued ≤ x.timeout) : exec (.lookupResult e first) s =
      .next (s.setEngine e.val { x.setRegs l.first l.result with lookups := [] }) := by
  change execLookupResult e first s = _
  unfold execLookupResult
  rw [hx]
  dsimp only
  rw [hl, List.find?_cons_of_pos (by simp [hf])]
  dsimp only
  rw [if_neg (by omega), List.erase_cons_head]

theorem exec_lookupTimeout (hx : s.engine e.val = some x) (hl : x.lookups = [l]) (hf : l.first = first.val)
    (ht : x.timeout ≤ x.total - l.issued) (hd : x.done = none) (htrap : x.trap = none) (hin : x.inTrap = false) :
    exec (.lookupTimeout e first) s = .next (s.setEngine e.val { x.setRegs l.first (List.replicate l.count 0) with
      lookups := [], trap := some (3, l.first, x.pc) }) := by
  have regs := x.setRegs_eq l.first (List.replicate l.count 0)
  obtain ⟨z, hz⟩ : ∃ z, z = x.setRegs l.first (List.replicate l.count 0) := ⟨_, rfl⟩
  rw [← hz] at regs ⊢
  have htrap' : z.trap = none := by rw [regs]; exact htrap
  have hin' : z.inTrap = false := by rw [regs]; exact hin
  have hpc : z.pc = x.pc := by rw [regs]
  change execLookupTimeout e first s = _
  unfold execLookupTimeout
  rw [hx]
  dsimp only
  rw [hl, List.find?_cons_of_pos (by simp [hf])]
  dsimp only
  rw [if_neg (by simp [hd]; omega), List.erase_cons_head, ← hz, htrap', hin', if_neg (by decide), if_neg (by decide),
    State.setEngine_setEngine, hpc]

end

/-- Settles O21: the dispatch by the engine it makes; a lookup by the rule of a word that is run. -/
theorem enginesAreDispatchedAndLookUp : Obligations.EnginesAreDispatchedAndLookUp := by
  unfold Obligations.EnginesAreDispatchedAndLookUp
  refine ⟨fun f e x s hf hd he => ?_, fun e x s => ⟨fun w n k h hk hc h5 hroom hn hfree => ?_,
    fun first l hx hl hfirst => ⟨exec_lookupResult hx hl hfirst, exec_lookupTimeout hx hl hfirst⟩⟩⟩
  · obtain ⟨hzero, hflags⟩ := dispatchedEngine_words f x s
    refine ⟨_, exec_parseDispatch hf hd he, ?_, fun g hg => ?_, fun k hk => ?_, ⟨dispatchedEngine f x s, ?_, rfl, rfl, rfl,
      rfl, rfl, rfl, rfl, rfl, rfl, rfl, rfl, rfl, rfl, rfl, rfl, rfl, hzero, hflags⟩, rfl⟩
    · exact State.frame_setFrame_same ..
    · exact State.frame_setFrame_other _ _ hg
    · exact State.engine_setEngine_other _ _ hk
    · exact State.engine_setEngine_same ..
  · subst hn
    obtain ⟨r, y, hr, hy, hlen⟩ := doLookup_reads x w s hk hc (p := e.val / 128)
    refine ⟨r, y, hr, hy, hlen, ?_⟩
    refine retires_of_did h (exec_lookup h hk h5 hroom hr hfree) rfl ?_ rfl
    rw [hy]
    exact h.trap

end Sys2Proof.Machine
end

section
/-! SUPPORT. Bursts of HBM leave the frames alone: what completes, corrects, poisons or spares them changes controllers,
counters and the golden copies only (R397 to R401). -/

namespace Sys2Proof.Machine

theorem foldl_frames {α : Type} {f : State → α → State} (h : ∀ s x, (f s x).frames = s.frames) (l : List α) (s : State) :
    (l.foldl f s).frames = s.frames := by
  induction l generalizing s with
  | nil => rfl
  | cons x l ih => exact (ih _).trans (h s x)

theorem ite_frames {c : Prop} [Decidable c] {a b s : State} (ha : a.frames = s.frames) (hb : b.frames = s.frames) :
    (if c then a else b).frames = s.frames := by
  split
  · exact ha
  · exact hb

@[simp] theorem setGolden_frames (k : Nat) (w : CtlWord) (s : State) : (setGolden k w s).frames = s.frames := rfl
@[simp] theorem wantBurst_frames (rr : Requester) (write : Bool) (p off : Nat) (s : State) (n : Nat) :
    (wantBurst rr write p off s n).frames = s.frames := rfl

@[simp] theorem clearBurst_frames (k : Nat) (s : State) : (clearBurst k s).frames = s.frames := by
  unfold clearBurst
  dsimp only
  split <;> rfl

@[simp] theorem clearPoison_frames (p off : Nat) (s : State) : (clearPoison p off s).frames = s.frames :=
  clearBurst_frames _ s

theorem enterOrder_frames (c : Nat) (q : HbmReq) (s : State) : (enterOrder c q s).frames = s.frames := by
  unfold enterOrder
  dsimp only
  split <;> rfl

theorem queueBurst_frames (c : Nat) (q : HbmReq) (s : State) : (queueBurst c q s).frames = s.frames :=
  enterOrder_frames c q s

theorem writeFix_frames (c burst : Nat) (s : State) : (writeFix c burst s).frames = s.frames := by
  unfold writeFix
  dsimp only
  split
  · rfl
  · split
    · exact queueBurst_frames ..
    · rfl

theorem startSpare_frames (c cause : Nat) (s : State) : (startSpare c cause s).frames = s.frames := by
  unfold startSpare
  dsimp only
  split
  · rfl
  · split
    · exact raise_frames _ _ _ _ _ (by decide)
    · exact raise_frames _ _ _ _ _ (by decide)

theorem correctedRead_frames (c : Nat) (r : Requester) (burst : Nat) (s : State) :
    (correctedRead c r burst s).frames = s.frames := by
  have raised := raise_frames Ev.hbmCorrected c (rrCode r) (burst * 64) (s.bump Obj.eccCorrected c) (by decide)
  unfold correctedRead
  generalize raise Ev.hbmCorrected c (rrCode r) (burst * 64) (s.bump Obj.eccCorrected c) = u at raised ⊢
  exact ite_frames ((startSpare_frames ..).trans ((writeFix_frames ..).trans raised)) ((writeFix_frames ..).trans raised)

theorem poisonBurst_frames (k : Nat) (s : State) : (poisonBurst k s).frames = s.frames := by
  unfold poisonBurst
  dsimp only
  split
  · rfl
  · split <;> split <;> first | rfl | exact raise_frames _ _ _ _ _ (by decide)

theorem rebuildGolden_frames (p : Nat) (aft : Bool) (addr : Nat) (s : State) :
    (rebuildGolden p aft addr s).frames = s.frames := by
  unfold rebuildGolden
  dsimp only
  split
  · refine (raise_frames _ _ _ _ _ (by decide)).trans ?_
    simp
  · exact raise_frames _ _ _ _ _ (by decide)

theorem poisonGolden_frames (p off : Nat) (scrub : Bool) (s : State) : (poisonGolden p off scrub s).frames = s.frames := by
  unfold poisonGolden
  split
  · rfl
  · refine foldl_frames (fun s i => ?_) _ s
    dsimp only
    split
    · exact rebuildGolden_frames ..
    · rfl

theorem poisonedRead_frames (c : Nat) (r : Requester) (burst : Nat) (s : State) :
    (poisonedRead c r burst s).frames = s.frames := by
  have marked := (poisonGolden_frames (c / 32 * 2 + burst / 2 ^ 27) (burst % 2 ^ 27 * 64) (r == .scrub)
    (poisonBurst (c / 32 * 2 ^ 28 + burst) (raise Ev.hbmUncorrected c (rrCode r) (burst * 64)
      (s.bump Obj.eccUncorrected c)))).trans ((poisonBurst_frames ..).trans (raise_frames _ _ _ _ _ (by decide)))
  unfold poisonedRead
  exact ite_frames ((startSpare_frames ..).trans marked) marked

theorem setOutstanding_frames (p n : Nat) (up : Bool) (s : State) : (setOutstanding p n up s).frames = s.frames := by
  unfold setOutstanding
  dsimp only
  split
  · split
    · exact raise_frames _ _ _ _ _ (by decide)
    · rfl
  · split
    · exact raise_frames _ _ _ _ _ (by decide)
    · rfl

theorem checkRead_frames (c : Nat) (r : Requester) (burst : Nat) (ecc : EccResult) (s : State) :
    (checkRead c r burst ecc s).frames = s.frames := by
  unfold checkRead
  cases ecc with
  | clean => rfl
  | corrected => exact correctedRead_frames c r burst s
  | uncorrectable => exact poisonedRead_frames c r burst s

theorem finishBurst_frames (c : Nat) (q : HbmReq) (ecc : EccResult) (s : State) :
    (finishBurst c q ecc s).frames = s.frames := by
  obtain ⟨u, hu, hf⟩ : ∃ u, u = (if q.write then (if q.part then s.bump Obj.burstsWritten c
      else clearBurst (c / 32 * 2 ^ 28 + q.burst) (s.bump Obj.burstsWritten c))
      else checkRead c q.rr q.burst (q.patrol.getD ecc) (s.bump Obj.burstsRead c)) ∧ u.frames = s.frames := by
    refine ⟨_, rfl, ?_⟩
    split
    · split
      · rfl
      · exact clearBurst_frames ..
    · exact checkRead_frames ..
  have done : finishBurst c q ecc s = if q.rr = .lookup then
      setOutstanding (pipeOfPc c) (u.get Obj.lookupOutstanding (pipeOfPc c) - 1) false u else u := by
    rw [hu]
    rfl
  rw [done]
  split
  · exact (setOutstanding_frames ..).trans hf
  · exact hf

theorem finishWhere_frames (c : Nat) (pick : HbmReq → Bool) (s : State) : (finishWhere c pick s).frames = s.frames := by
  unfold finishWhere
  dsimp only
  split
  · rfl
  · exact (foldl_frames (fun s q => finishBurst_frames ..) _ _).trans rfl

theorem finishAsk_frames (b : BurstAsk) (s : State) : (finishAsk b s).frames = s.frames := by
  unfold finishAsk
  split
  · rfl
  · refine foldl_frames (fun s i => ?_) _ s
    dsimp only
    split
    · exact clearBurst_frames ..
    · rfl

/-- The reads of a lookup that return leave every frame where it is. -/
theorem returnReads_frames (p : Nat) (f : FrameId) (s : State) : (returnReads p f s).frames = s.frames := by
  unfold returnReads
  exact (foldl_frames (fun s i => finishWhere_frames ..) _ _).trans
    ((foldl_frames (fun s b => finishAsk_frames b s) _ _).trans rfl)

end Sys2Proof.Machine
end

section
/-! SUPPORT. The stores of the flow table (R212, R223, R226): what clearing a burst, taking a way and writing a line back
leave as they were. -/

namespace Sys2Proof.Machine

/-! ### A burst that is cleared -/

@[simp] theorem clearBurst_flow (k : Nat) (s : State) : (clearBurst k s).flow = s.flow := by
  unfold clearBurst
  dsimp only
  split <;> rfl

@[simp] theorem clearPoison_flow (p off : Nat) (s : State) : (clearPoison p off s).flow = s.flow := clearBurst_flow _ s

@[simp] theorem clearBurst_time (k : Nat) (s : State) : (clearBurst k s).time = s.time := by
  unfold clearBurst
  dsimp only
  split <;> rfl

@[simp] theorem clearPoison_time (p off : Nat) (s : State) : (clearPoison p off s).time = s.time := clearBurst_time _ s

/-- Clearing a burst of a stack that exists changes POISONED alone. -/
theorem clearPoison_get {p off : Nat} (hk : burstKey p off / 2 ^ 28 < 65536) {o : ObjRow} (ho : o.apart Obj.poisoned = true)
    {n : Nat} (hn : n < 65536) (s : State) : (clearPoison p off s).get o n = s.get o n := by
  unfold clearPoison clearBurst
  dsimp only
  split
  · rfl
  · exact State.get_set_apart _ ho _ hk hn

theorem slotBurst_lt {p slot : Nat} (hp : p < 8) (hs : slot < 2 ^ 24) : burstKey p (slotOffset slot) / 2 ^ 28 < 65536 := by
  unfold burstKey slotOffset
  omega

theorem aftBurst_lt {p slot : Nat} (hp : p < 8) (hs : slot < 2 ^ 24) : burstKey p (aftOffset slot) / 2 ^ 28 < 65536 := by
  unfold burstKey aftOffset slotOffset
  omega

theorem pierBurst_lt {p pier : Nat} (hp : p < 8) (hs : pier < 2 ^ 24) : burstKey p (pierOffset pier) / 2 ^ 28 < 65536 := by
  unfold burstKey pierOffset
  omega

@[simp] theorem wantBurst_flow (rr : Requester) (write : Bool) (p off : Nat) (s : State) (n : Nat) :
    (wantBurst rr write p off s n).flow = s.flow := rfl
@[simp] theorem wantBurst_time (rr : Requester) (write : Bool) (p off : Nat) (s : State) (n : Nat) :
    (wantBurst rr write p off s n).time = s.time := rfl
@[simp] theorem wantBurst_get (rr : Requester) (write : Bool) (p off : Nat) (s : State) (n : Nat) (o : ObjRow) (i : Nat) :
    (wantBurst rr write p off s n).get o i = s.get o i := rfl
@[simp] theorem setLine_get (p slot : Nat) (l : Line) (s : State) (o : ObjRow) (n : Nat) :
    (setLine p slot l s).get o n = s.get o n := rfl

/-! ### Taking a way of a set -/

/-- What writing lines back to their places leaves: frames, PENDING lines, operation slots, and every object but
POISONED and WRITE_BACKS. -/
structure LinesOnly (s t : State) : Prop where
  frames : t.frames = s.frames
  pendings : t.flow.pendings = s.flow.pendings
  ops : t.flow.ops = s.flow.ops
  objects : ∀ (o : ObjRow) (n : Nat), o.apart Obj.poisoned = true → o.apart Obj.writeBacks = true → n < 65536 →
    t.get o n = s.get o n

theorem LinesOnly.refl (s : State) : LinesOnly s s := ⟨rfl, rfl, rfl, fun _ _ _ _ _ => rfl⟩

theorem LinesOnly.trans {s t u : State} (h : LinesOnly s t) (k : LinesOnly t u) : LinesOnly s u :=
  ⟨k.frames.trans h.frames, k.pendings.trans h.pendings, k.ops.trans h.ops,
    fun o n h1 h2 h3 => (k.objects o n h1 h2 h3).trans (h.objects o n h1 h2 h3)⟩

theorem LinesOnly.clearPoison {p off : Nat} (hk : burstKey p off / 2 ^ 28 < 65536) (s : State) :
    LinesOnly s (clearPoison p off s) :=
  ⟨clearPoison_frames .., by rw [clearPoison_flow], by rw [clearPoison_flow],
    fun _ _ ho _ hn => clearPoison_get hk ho hn s⟩

theorem LinesOnly.writeFore {p slot : Nat} (hp : p < 8) (hs : slot < 2 ^ 24) (r : Fore) (s : State) :
    LinesOnly s (writeFore p slot r s) := by
  unfold Machine.writeFore
  split
  · exact ⟨rfl, rfl, rfl, fun _ _ _ _ _ => rfl⟩
  · exact LinesOnly.trans (t := s.withFlow { s.flow with slots := s.flow.slots.put (recKey p slot) r })
      ⟨rfl, rfl, rfl, fun _ _ _ _ _ => rfl⟩ (LinesOnly.clearPoison (slotBurst_lt hp hs) _)

theorem LinesOnly.writeBack {p slot : Nat} (hp : p < 8) (hs : slot < 2 ^ 24) (s : State) :
    LinesOnly s (writeBack p slot s) := by
  have counted : ∀ l t, LinesOnly t ((setLine p slot l t).bump Obj.writeBacks p) := fun l t =>
    ⟨rfl, rfl, rfl, fun o n _ ho hn => State.get_bump_apart _ ho (by omega) hn⟩
  have wanted : LinesOnly s (if (s.berthOf p slot).isNone then wantBurst .writeback true p (slotOffset slot) s else s) := by
    split
    · exact ⟨rfl, rfl, rfl, fun _ _ _ _ _ => rfl⟩
    · exact .refl s
  unfold Machine.writeBack
  split
  · exact .refl s
  · exact (wanted.trans (LinesOnly.writeFore hp hs _ _)).trans (counted _ _)

/-- A fold that keeps what it has or takes the element at hand ends with one of the elements. -/
theorem mem_of_foldl_picks {α : Type} {g : Option α → α → Option α} (hg : ∀ m a, g m a = m ∨ g m a = some a) (l : List α)
    (m : Option α) {e : α} (h : l.foldl g m = some e) : m = some e ∨ e ∈ l := by
  induction l generalizing m with
  | nil => exact .inl h
  | cons a l ih =>
    rcases ih _ h with hm | hm
    · rcases hg m a with k | k
      · exact .inl (k ▸ hm)
      · exact .inr (Option.some.inj (k.symm.trans hm) ▸ List.mem_cons_self)
    · exact .inr (List.mem_cons_of_mem _ hm)

/-- The line that a fill replaces is one of the set's. -/
theorem State.mem_of_victim {s : State} {p : Nat} {l : List (Nat × Line)} {e : Nat × Line} (h : s.victim p l = some e) :
    e ∈ l := by
  refine (mem_of_foldl_picks (fun m a => ?_) l none h).resolve_left (by simp)
  split
  · exact .inl rfl
  · split
    · exact .inr rfl
    · split
      · exact .inr rfl
      · exact .inl rfl

theorem State.setLines_lt {s : State} {p set : Nat} {e : Nat × Line} (h : e ∈ s.setLines p set) : e.1 < 2 ^ 24 := by
  simp only [State.setLines, NMap.inRange, List.mem_filter, List.mem_map, Bool.and_eq_true, decide_eq_true_eq] at h
  obtain ⟨⟨a, ⟨-, h1, h2⟩, rfl⟩, -⟩ := h
  dsimp only
  omega

/-- Taking a way of a set writes back one line at most. -/
theorem takeWay_linesOnly {p : Nat} (hp : p < 8) (set : Nat) (s : State) : LinesOnly s (takeWay p set s).2 := by
  unfold takeWay
  dsimp only
  split
  · exact .refl s
  · split
    · exact .refl s
    case _ slot l hv =>
      have hs := State.setLines_lt (State.mem_of_victim hv)
      have gone : ∀ u : State, LinesOnly u (u.withFlow { u.flow with lines := u.flow.lines.del (recKey p slot) }) :=
        fun u => ⟨rfl, rfl, rfl, fun _ _ _ _ _ => rfl⟩
      refine LinesOnly.trans ?_ (gone _)
      split
      · exact LinesOnly.writeBack hp hs s
      · exact .refl s

end Sys2Proof.Machine
end

section
/-! SUPPORT. A frame at its home stage (R222, R224, R225): admission, the record found on-die, and the PENDING line of a
lookup that finds nothing. -/

namespace Sys2Proof.Machine

section
variable {p : Pipe} {f : FrameId} {x : Frame} {s : State}

theorem State.frame_noteAdmitted (p : Nat) (s : State) (g : FrameId) : (noteAdmitted p s).frame g = s.frame g := rfl

theorem homeLearning_none (h : x.home.learn = none) : homeLearning p.val f x s = s := by
  unfold homeLearning
  rw [h]

theorem replicates_false (hg : x.group = none) (hd : x.ferryDst = none) : x.replicates = false := by
  simp [Frame.replicates, hg, hd]

/-- A frame that one port is to have, and that is ready, is admitted. -/
theorem exec_homeStageFrame (hf : s.frame f = some x) (hs : x.stage = .home p.val) (hm : s.mayAdmit p.val = true)
    (hr : s.ready f x = true) : exec (.homeStageFrame p f) s = .next (admitFrame p.val f x (noteAdmitted p.val s)) := by
  change execHomeStageFrame p f s = _
  unfold execHomeStageFrame
  rw [hf]
  dsimp only
  rw [if_neg (by simp [hs, hm, hr])]

theorem admitFrame_stateless (hf : s.frame f = some x) (hl : x.home.learn = none) (hg : x.group = none)
    (hd : x.ferryDst = none) (hst : x.result.stateless = true) : admitFrame p.val f x s =
      toEgress f (s.setFrame f { x with home := { x.home with ioam := bitOf x.result.telemetry 4 } }) := by
  unfold admitFrame
  dsimp only
  rw [homeLearning_none hl, hf, Option.getD_some, if_neg (by simp [replicates_false hg hd]), if_pos hst]

theorem admitFrame_flow {k : RawKey} (hf : s.frame f = some x) (hl : x.home.learn = none) (hg : x.group = none)
    (hd : x.ferryDst = none) (hst : x.result.stateless = false) (hk : x.home.key = some k) :
    admitFrame p.val f x s = tagOps p.val f s.hbm.due.length (homeFlow p.val f x k s) := by
  unfold admitFrame
  dsimp only
  rw [homeLearning_none hl, hf, Option.getD_some, if_neg (by simp [replicates_false hg hd]), if_neg (by simp [hst]), hk]
  rfl

/-- Counting an object other than IDLE_TIMEOUT_MS leaves every record as idle as it was. -/
theorem State.idle_bump {o : ObjRow} (ho : o.index ≠ Obj.idleTimeoutMs.index) (hb : o.sub < 256) {n : Nat} (hn : n < 65536)
    (q slot : Nat) (hsub : ∀ r, (s.fore q slot) = some r → r.timeoutSub < 256) :
    (s.bump o n).idle q slot = s.idle q slot := by
  have timeout : (s.bump o n).timeoutOf q slot = s.timeoutOf q slot := by
    have fore : (s.bump o n).fore q slot = s.fore q slot := rfl
    unfold State.timeoutOf
    rw [fore]
    cases hr : s.fore q slot with
    | none => rfl
    | some r => exact State.getS_setS_index s (Ne.symm ho) _ hb hn (hsub r hr) (by decide)
  unfold State.idle
  rw [timeout]
  rfl

theorem Fore.timeoutSub_lt (r : Fore) : r.timeoutSub < 256 := by
  unfold Fore.timeoutSub
  repeat' split
  all_goals decide

/-- A frame whose record is cached, at rest and in use takes its actions. -/
theorem lookupFound_actions {n : Nat} (k : RawKey) (hm : s.migrating p.val n = false) (hb : x.storedBad = false)
    (hi : s.idle p.val n = false) :
    lookupFound p.val n f x k s = applyActions p.val n f (releaseOp p.val f s) := by
  unfold lookupFound
  rw [if_neg (by simp [hm]), if_neg (by simp [hb]), if_neg (by simp [hi])]

theorem homeFlow_cached {k : RawKey} {n : Nat} {y : Frame} (hy : y = { x with home := { x.home with served := true } })
    (hl : s.findLine p.val k x.home.hash = some n) (hw : s.reclaimWaits p.val n = false)
    (hm : s.migrating p.val n = false) (hi : s.idle p.val n = false) (hb : y.storedBad = false) :
    homeFlow p.val f x k s =
      applyActions p.val n f (releaseOp p.val f ((s.setFrame f y).bump Obj.cacheHits p.val)) := by
  subst hy
  obtain ⟨u, hu⟩ : ∃ u, u = s.setFrame f { x with home := { x.home with served := true } } := ⟨_, rfl⟩
  have line : u.findLine p.val k x.home.hash = some n := hu ▸ hl
  have waits : u.reclaimWaits p.val n = false := hu ▸ hw
  have idle : (u.bump Obj.cacheHits p.val).idle p.val n = false := by
    rw [State.idle_bump (by decide) (by decide) (by omega) _ _ fun r _ => r.timeoutSub_lt, hu]
    exact hi
  have moving : (u.bump Obj.cacheHits p.val).migrating p.val n = false := hu ▸ hm
  unfold homeFlow probe
  dsimp only
  rw [← hu, line]
  dsimp only
  rw [if_neg (by simp [waits]), lookupFound_actions k moving hb idle]

end

/-! ### A lookup that finds nothing -/

section
variable {p : Nat} {f : FrameId} {x : Frame} {k : RawKey} {s : State}

/-- No read of the lookup is poisoned, no berth names the key's record: the lookup has missed. -/
theorem lookupData_missed (hset : x.home.setWait = false) (hl : s.findLine p k x.home.hash = none)
    (hpend : s.findPending p k = none) (ha : s.findAshore p k x.home.hash = none)
    (hc : s.candidates p x.home.pier k x.home.hash = []) (hp : s.poison p (pierOffset x.home.pier) = false) :
    lookupData p f x k s = lookupMissed p f x k (s.add Obj.extraForeReads p 0) := by
  have poison : s.lookupPoisoned p x.home.pier k x.home.hash = false := by
    simp [State.lookupPoisoned, hc, hp]
  have read : readPier p x.home.pier k x.home.hash s = (none, s.add Obj.extraForeReads p 0) := by
    simp [readPier, hc]
  unfold lookupData
  dsimp only
  rw [hl]
  dsimp only
  rw [if_neg (by simp [State.pendsHere, hpend]), ha]
  dsimp only
  rw [if_neg (by rw [hset]; simp [poison]), if_neg (by simp [hset]), read]

theorem writePending_eq (hash : Nat) : writePending p f k hash s =
    (takeWay p (setOf hash) s).2.withFlow { (takeWay p (setOf hash) s).2.flow with
      pendings := (takeWay p (setOf hash) s).2.flow.pendings ++
        [{ pipe := p, key := k.bytes, hash := hash, way := (takeWay p (setOf hash) s).1, creator := f, waiters := [] }] } :=
  rfl

/-- The stage in which a frame goes on once its PENDING line is written (R225). -/
def pendingStage (p : Nat) (x : Frame) (s : State) : Stage :=
  if s.get Obj.homeState (x.home.hash / 2 ^ 20) = 1 ∧ x.home.handedOn = false ∧ x.home.consulted = false ∧
      s.deckUp (deckOfPipe (s.get Obj.homeOldPipe (x.home.hash / 2 ^ 20))) = true
  then .consult p else .stored p

theorem pendingStage_eq (p : Nat) (x : Frame) (s : State) : pendingStage p x s =
    if s.get Obj.homeState (x.home.hash / 2 ^ 20) == 1 && !x.home.handedOn && !x.home.consulted &&
      s.deckUp (deckOfPipe (s.get Obj.homeOldPipe (x.home.hash / 2 ^ 20))) then .consult p else .stored p := by
  unfold pendingStage
  simp only [Bool.and_eq_true, beq_iff_eq, Bool.not_eq_true', and_assoc]

/-- A lookup that missed at its home, in a set with room, writes a PENDING line (R224, R225). -/
theorem lookupMissed_pends (hset : x.home.setWait = false) (hhome : s.homeOf x.home.hash = p)
    (hfull : s.setFull p (setOf x.home.hash) = false) (hp : p < 65536) (hhash : x.home.hash < 2 ^ 32) :
    ∃ u, u = writePending p f k x.home.hash (releaseOp p f (s.bump Obj.lookupMisses p)) ∧
      lookupMissed p f x k s = u.setFrame f { x with stage := pendingStage p x u } := by
  refine ⟨_, rfl, ?_⟩
  have home : (s.bump Obj.lookupMisses p).homeOf x.home.hash = p := by
    unfold State.homeOf
    rw [State.get_bump_apart _ (by decide) hp (by omega)]
    exact hhome
  have room : (s.bump Obj.lookupMisses p).setFull p (setOf x.home.hash) = false := hfull
  have first : (if x.home.setWait then s else s.bump Obj.lookupMisses p) = s.bump Obj.lookupMisses p :=
    if_neg (by simp [hset])
  unfold lookupMissed
  dsimp only
  rw [first, if_neg (not_not_intro home), if_neg (by simp [room]), pendingStage_eq]

end

theorem exec_homeLookupData {p : Pipe} {f : FrameId} {x : Frame} {k : RawKey} {s : State} (hf : s.frame f = some x)
    (hs : x.stage = .lookup p.val) (hk : x.home.key = some k) : exec (.homeLookupData p f) s =
      .next (tagOps p.val f (returnReads p.val f s).hbm.due.length (lookupData p.val f x k (returnReads p.val f s))) := by
  change execHomeLookupData p f s = _
  unfold execHomeLookupData
  rw [hf]
  dsimp only
  rw [hs, hk, show (Stage.lookup p.val == .lookup p.val) = true from beq_self_eq_true _]
  rfl

/-- Settles O24: a stateless frame and a cached record by the stage's own branches; a miss by what taking a way of the
set, the one other change, leaves. -/
theorem homeStageFindsOrPends : Obligations.HomeStageFindsOrPends := by
  unfold Obligations.HomeStageFindsOrPends
  intro p f x s hf
  refine ⟨fun hs hm hl hg hd hst => ?_, fun k n y hs hl hg hd hst hk hsteer hwhole hm hline hw hmig hidle hy hb => ?_,
    fun k h u hs hk hh hset hu hl hpend ha hc hp hhome hfull hlt hold => ?_⟩
  · have ready : s.ready f x = true := by simp [State.ready, hst]
    have free := admitFrame_stateless (p := p) (s := noteAdmitted p.val s) hf hl hg hd hst
    rw [exec_homeStageFrame hf hs hm ready, free]
  · have ready : s.ready f x = true := by simp [State.ready, Frame.unresolved, hsteer, hwhole]
    have flow := homeFlow_cached (s := noteAdmitted p.val s) (f := f) hy hline hw hmig hidle hb
    have keyed := admitFrame_flow (p := p) (s := noteAdmitted p.val s) hf hl hg hd hst hk
    rw [exec_homeStageFrame hf hs hm ready, keyed, flow]
    rfl
  · subst hh
    have hp8 := p.isLt
    obtain ⟨v, hv⟩ : ∃ v, v = u.add Obj.extraForeReads p.val 0 := ⟨_, rfl⟩
    have vget : ∀ (o : ObjRow) (i : Nat), o.apart Obj.extraForeReads = true → i < 65536 → v.get o i = u.get o i :=
      fun o i ho hi => by
        rw [hv]
        exact State.get_set_apart u ho _ (by omega) hi
    have vflow : v.flow = u.flow := by rw [hv]; rfl
    have vframes : v.frames = u.frames := by rw [hv]; rfl
    have vhome : v.homeOf x.home.hash = p.val := by
      unfold State.homeOf
      rw [vget _ _ (by decide) (by omega)]
      exact hhome
    have vfull : v.setFull p.val (setOf x.home.hash) = false := by rw [hv]; exact hfull
    obtain ⟨w, hw, hmissed⟩ := lookupMissed_pends (f := f) (k := k) hset vhome vfull (by omega) hlt
    obtain ⟨b, hb⟩ : ∃ b, b = releaseOp p.val f (v.bump Obj.lookupMisses p.val) := ⟨_, rfl⟩
    have took := takeWay_linesOnly hp8 (setOf x.home.hash) b
    rw [← hb, writePending_eq] at hw
    have wframes : w.frames = s.frames := by
      rw [hw]
      refine took.frames.trans ?_
      rw [hb, ← returnReads_frames p.val f s, ← hu, ← vframes]
      rfl
    have wget : ∀ (o : ObjRow) (i : Nat), o.apart Obj.extraForeReads = true → o.apart Obj.lookupMisses = true →
        o.apart Obj.poisoned = true → o.apart Obj.writeBacks = true → i < 65536 → w.get o i = u.get o i :=
      fun o i h1 h2 h3 h4 hi => by
        rw [hw, ← vget o i h1 hi]
        refine (took.objects o i h3 h4 hi).trans ?_
        rw [hb]
        exact State.get_bump_apart v h2 (by omega) hi
    have stage : pendingStage p.val x w = pendingStage p.val x u := by
      have e : x.home.hash / 2 ^ 20 < 65536 := by omega
      have old : u.get Obj.homeOldPipe (x.home.hash / 2 ^ 20) < 8 := hold
      unfold pendingStage State.deckUp deckOfPipe
      rw [wget _ _ (by decide) (by decide) (by decide) (by decide) e,
        wget _ _ (by decide) (by decide) (by decide) (by decide) e,
        wget _ _ (by decide) (by decide) (by decide) (by decide) (by omega)]
    have run := exec_homeLookupData hf hs hk
    rw [← hu, lookupData_missed hset hl hpend ha hc hp, ← hv, hmissed, stage] at run
    refine ⟨_, run, ⟨(takeWay p.val (setOf x.home.hash) b).1, ?_⟩, ?_, fun g hg => ?_, ?_, ?_⟩
    · change w.flow.pendings = _
      rw [hw]
      change _ ++ _ = _
      rw [took.pendings, hb, ← vflow]
      rfl
    · exact State.frame_setFrame_same ..
    · refine (State.frame_setFrame_other w _ hg).trans ?_
      rw [State.frame, wframes]
      rfl
    · change (p.val, f) ∉ w.flow.ops
      rw [hw]
      change (p.val, f) ∉ (takeWay p.val (setOf x.home.hash) b).2.flow.ops
      rw [took.ops, hb]
      simp [releaseOp]
    · change w.get Obj.lookupMisses p.val = _
      rw [hw]
      refine (took.objects _ _ (by decide) (by decide) (by omega)).trans ?_
      rw [hb, ← vget _ _ (by decide) (by omega)]
      exact State.get_bump_same ..

end Sys2Proof.Machine
end

section
/-! SUPPORT. Return steering (R271), the tail of a stored first frame (R226 to R228), and what placing a record writes. -/

namespace Sys2Proof.Machine

section
variable {p : Pipe} {f : FrameId} {x : Frame} {k : RawKey} {s u : State}

theorem exec_steeredResolve {w : Nat} (hf : s.frame f = some x) (hk : x.home.key = some k) (hs : x.stage = .home p.val)
    (hst : x.result.stateless = false) (hr : x.home.resolved = none) (hw : x.home.steer = some w)
    (hb : bitOf w 30 = false) : exec (.steeredResolve p f) s = .next (tagOps p.val f s.hbm.due.length
      (resolveFrame p.val f x k (bitsOf w 27 16) (w % 65536) s)) := by
  have mine : (x.stage == .home p.val && !x.result.stateless && x.home.resolved.isNone) = true := by
    simp [hs, hst, hr]
  change execSteeredResolve p f s = _
  unfold execSteeredResolve
  rw [hf]
  dsimp only
  rw [mine, hw, hk]
  dsimp only
  rw [if_neg (by simp [hb])]
  rfl

theorem resolveFrame_unbound {q P e : Nat} {hit : Bool} (h : readBinding p.val q P s = ((e, hit), u)) (he : natState e = 0) :
    resolveFrame p.val f x k q P s = discardAt (deckOfPipe p.val) f (u.bump Obj.natNoBinding p.val) := by
  unfold resolveFrame
  rw [h]
  exact if_pos he

theorem resolveFrame_bound {q P e : Nat} {hit : Bool} (h : readBinding p.val q P s = ((e, hit), u)) (he : natState e ≠ 0) :
    resolveFrame p.val f x k q P s = u.setFrame f { x with
      result := { x.result with vrf := (u.resolvedKey x k q e).vrf },
      home := { x.home with key := some (u.resolvedKey x k q e), hash := crc32c (u.resolvedKey x k q e).bytes,
                            resolved := some (q, P),
                            whole := !(hit && u.homeOf (crc32c (u.resolvedKey x k q e).bytes) == p.val),
                            hairpin := x.result.vrf == u.get Obj.insideVrf q && x.result.vrf != u.get Obj.outsideVrf q } } := by
  unfold resolveFrame
  rw [h]
  exact if_neg he

/-- A stored first frame that stands whole with a good tail creates its flow. -/
theorem exec_frameTailHome (hf : s.frame f = some x) (hk : x.home.key = some k) (hs : x.stage = .stored p.val)
    (hw : s.storedWhole f x = true) (hh : x.home.handTo = none) (hr : x.home.record = none) (ht : x.tail = some true) :
    exec (.frameTailHome p f) s =
      .next (tagOps p.val f s.hbm.due.length (createFlow p.val f x k s)) := by
  change execFrameTailHome p f s = _
  unfold execFrameTailHome
  rw [hf]
  dsimp only
  rw [if_neg (not_not_intro hs), if_neg (by simp [hw]), hh, hr, hk]
  dsimp only
  rw [if_neg (by simp [ht])]
  rfl

theorem createFlow_refused (hhome : s.homeOf x.home.hash = p.val) {cause : Nat} (hc : cause = s.refusal p.val x.home.hash)
    (h0 : cause ≠ 0) : createFlow p.val f x k s = refuseCreation p.val f x.home.hash cause
      (((s.pendingOf p.val f).map PendingLine.waiters).getD []) s := by
  subst hc
  unfold createFlow
  dsimp only
  rw [if_neg (not_not_intro hhome), if_pos h0]

theorem createFlow_created (hhome : s.homeOf x.home.hash = p.val) (h0 : s.refusal p.val x.home.hash = 0) {r : Fore}
    {aft : Option (List Byte)} (hset : setupFlow p.val x k s = (.record r aft, u)) :
    createFlow p.val f x k s = createRecord p.val f r aft (s.pendingOf p.val f) u := by
  unfold createFlow
  dsimp only
  rw [if_neg (not_not_intro hhome), if_neg (not_not_intro h0), hset]

end

/-! ### A record that is placed (R226) -/

/-- What placing a record makes of the state: slot, FLOWS, berth, line and aft half. -/
def recordStored (rr : Requester) (p way slot n : Nat) (r : Fore) (aft : List Byte) (s : State) : State :=
  let s := (s.withFlow { s.flow with used := s.flow.used.put (recKey p slot) 1 }).bump Obj.flows p
  let pier := s.pier p r.hash
  let s := wantBurst rr true p (pierOffset pier) (setPier p pier n (some (s.berthFor r false)) s)
  let s := setLine p slot { fore := r, dirty := true, used := s.time.ticks, way := way } s
  wantBurst rr true p (aftOffset slot) (setAft p slot aft s)

theorem placeRecord_stored {rr : Requester} {p way slot n : Nat} {r : Fore} {aft : List Byte} {s : State}
    (hs : s.freeSlot p = some slot) (hn : s.freeBerth p (s.pier p r.hash) = some n) :
    placeRecord rr p r (some aft) (some way) s =
      (some slot, recordStored rr p way slot n { r with slot := slot, anchored := false } aft s) := by
  have berth : ((s.withFlow { s.flow with used := s.flow.used.put (recKey p slot) 1 }).bump Obj.flows p).freeBerth p
      (((s.withFlow { s.flow with used := s.flow.used.put (recKey p slot) 1 }).bump Obj.flows p).pier p r.hash) =
      some n := hn
  unfold placeRecord
  rw [hs]
  dsimp only
  rw [berth]
  rfl

theorem State.pier_lt (s : State) (p hash : Nat) : s.pier p hash < 2 ^ 22 := by
  have piers : (flowPiers hash).1 < 2 ^ 22 ∧ (flowPiers hash).2 < 2 ^ 22 := by
    have one : ∀ n, hashWith n hash % 2 ^ 22 < 2 ^ 22 := fun n => Nat.mod_lt _ (by decide)
    unfold flowPiers
    dsimp only
    refine ⟨one 1, ?_⟩
    split
    · exact Nat.xor_lt_two_pow (one 2) (by decide)
    · exact one 2
  unfold State.pier
  dsimp only
  split
  · exact piers.1
  · exact piers.2

theorem recKey_ne {p slot q m : Nat} (hs : slot < 2 ^ 24) (hm : m < 2 ^ 24) (h : (q, m) ≠ (p, slot)) :
    recKey q m ≠ recKey p slot := by
  unfold recKey
  intro e
  exact h (by rw [Prod.mk.injEq]; omega)

/-- The stores of the flow table after a record is placed. -/
theorem recordStored_flow (rr : Requester) (p way slot n : Nat) (r : Fore) (aft : List Byte) (s : State) :
    (recordStored rr p way slot n r aft s).flow = { s.flow with
      used := s.flow.used.put (recKey p slot) 1
      piers := s.flow.piers.put (pierKey p (s.pier p r.hash) n) (s.berthFor r false)
      lines := s.flow.lines.put (recKey p slot) { fore := r, dirty := true, used := s.time.ticks, way := way }
      aft := NMap.set (List.replicate 64 0) s.flow.aft (recKey p slot) aft } := by
  simp only [recordStored, setAft, setLine, setPier, wantBurst_flow, clearPoison_flow, wantBurst_time, clearPoison_time]
  rfl

/-- Placing a record counts it in FLOWS. -/
theorem recordStored_get {rr : Requester} {p way slot n : Nat} {r : Fore} {aft : List Byte} {s : State} (hp : p < 8)
    (hs : slot < 2 ^ 24) : (recordStored rr p way slot n r aft s).get Obj.flows p =
      (s.get Obj.flows p + 1) % 2 ^ (8 * Obj.flows.ty.size) := by
  obtain ⟨u, hu⟩ : ∃ u, u = (s.withFlow { s.flow with used := s.flow.used.put (recKey p slot) 1 }).bump Obj.flows p :=
    ⟨_, rfl⟩
  have counted : u.get Obj.flows p = (s.get Obj.flows p + 1) % 2 ^ (8 * Obj.flows.ty.size) := by
    rw [hu, State.get_bump_same]
    rfl
  rw [← counted]
  unfold recordStored
  rw [← hu]
  dsimp only
  rw [wantBurst_get, setAft, clearPoison_get (aftBurst_lt hp hs) (by decide) (by omega), State.withFlow_get, setLine_get,
    wantBurst_get, setPier,
    clearPoison_get (pierBurst_lt hp (Nat.lt_of_lt_of_le (State.pier_lt ..) (by decide))) (by decide) (by omega)]
  rfl

/-- Settles O25: steering and creation by their commands' branches; a placed record by what its stores then hold. -/
theorem steeredFramesAndCreations : Obligations.SteeredFramesAndCreations := by
  unfold Obligations.SteeredFramesAndCreations
  refine ⟨fun p f x k s u hf hk => ⟨fun w q P e hit hs hst hr hw hb hq hP hread => ?_,
    fun hs hwhole hto hrec htail hhome => ?_⟩, fun rr p way r aft slot n s hp hslot hhash hs hn hflows haft => ?_⟩
  · subst hq hP
    have run := exec_steeredResolve hf hk hs hst hr hw hb
    refine ⟨fun he => ?_, fun he n h hn hh => ?_⟩
    · rw [run, resolveFrame_unbound hread he]
    · subst hn hh
      rw [run, resolveFrame_bound hread he]
  · have run := exec_frameTailHome hf hk hs hwhole hto hrec htail
    refine ⟨fun cause hc h0 => ?_, fun r aft h0 hset => ?_⟩
    · rw [run, createFlow_refused hhome hc h0]
    · rw [run, createFlow_created hhome h0 hset]
  · have hpier : s.pier p r.hash < 2 ^ 22 := State.pier_lt ..
    refine ⟨_, placeRecord_stored hs hn, ?_⟩
    have flow := recordStored_flow rr p way slot n { r with slot := slot, anchored := false } aft s
    have flows := recordStored_get (rr := rr) (way := way) (n := n) (r := { r with slot := slot, anchored := false })
      (aft := aft) (s := s) hp hslot
    generalize recordStored rr p way slot n { r with slot := slot, anchored := false } aft s = t at flow flows
    have used : ∀ q m, t.slotUsed q m = if recKey q m = recKey p slot then true else s.slotUsed q m := fun q m => by
      unfold State.slotUsed
      rw [flow]
      dsimp only
      rw [NMap.find_put]
      split <;> rfl
    have mine : t.slotUsed p slot = true := by rw [used, if_pos rfl]
    refine ⟨?_, ?_, mine, ?_, ?_, fun q m _ hm hne => ?_⟩
    · unfold State.fore State.line
      rw [if_neg (by simp [mine]), flow]
      dsimp only
      rw [NMap.find_put_same]
    · unfold State.aft
      rw [flow]
      exact NMap.getD_set_same ..
    · unfold State.pierBerth
      rw [flow]
      exact NMap.find_put_same ..
    · rw [flows]
      exact Nat.mod_eq_of_lt (Nat.lt_of_lt_of_le (Nat.succ_lt_succ hflows) (by decide))
    · rw [used, if_neg (recKey_ne hslot hm hne)]

end Sys2Proof.Machine
end

section
/-! SUPPORT. The column operations of translation (R267 to R269), and the walks of the flow table's engines (R229, R231,
R236). -/

namespace Sys2Proof.Machine

/-! ### Column operations -/

@[simp] theorem columnBurst_natEntry (write : Bool) (q c r n : Nat) (s : State) (q' c' r' : Nat) :
    (columnBurst write q c r n s).natEntry q' c' r' = s.natEntry q' c' r' := by
  unfold columnBurst
  split <;> rfl

@[simp] theorem columnBurst_columnLost (write : Bool) (q c r n : Nat) (s : State) (q' c' : Nat) :
    (columnBurst write q c r n s).columnLost q' c' = s.columnLost q' c' := by
  unfold columnBurst
  split <;> rfl

@[simp] theorem columnBurst_freeRow (write : Bool) (q c r n : Nat) (s : State) (q' c' : Nat) :
    (columnBurst write q c r n s).freeRow q' c' = s.freeRow q' c' := by
  unfold columnBurst
  split <;> rfl

/-- A binding of its own takes the first FREE row after the cursor (R268). -/
theorem columnAllocate_own {q hash a p c r e : Nat} {s : State} (hm : s.get Obj.mapping q ≠ 1) (hc : c = hash / 2 ^ 20)
    (hl : s.columnLost q c = false) (hr : s.freeRow q c = some r) (he : e = a * 2 ^ 32 + p * 65536 + 2 ^ 14 + 1) :
    columnAllocate q hash a p none s = (some (r * 4096 + c), raise Ev.natBound q (r * 4096 + c) (natArg e)
      (columnBurst true q c 0 (r / 8 + 1) (setCursor q c r (setNat q c r e (columnBurst false q c 0 2 s))))) := by
  have column : s.natColumn q hash a p = c := by
    unfold State.natColumn
    rw [if_neg hm, hc]
  have shared : (s.get Obj.mapping q == 1) = false := beq_eq_false_iff_ne.mpr hm
  have entry : a * 4294967296 + p * 65536 + 16384 + bit01 false * 4096 + 1 = e := by
    have unshared : bit01 false = 0 := rfl
    omega
  unfold columnAllocate
  simp [column, shared, hl, hr, entry]

theorem exec_allocate (q : Fin 4096) (h a : Word32) (port : BitVec 16) (s : State) :
    exec (.natColumnOperation (.allocate q h a port none)) s =
      .next (columnAllocate q.val h.toNat a.toNat port.toNat none s).2 := rfl

/-- A reference adds one use to a row that holds an entry (R272). -/
theorem columnReference_added {q P e : Nat} {s : State} (he : e = s.natEntry q (P % 4096) (P / 4096)) (hP : 4096 ≤ P)
    (hs : natState e ≠ 0) (hb : natSlb e = false) (hl : s.columnLost q (P % 4096) = false) (hr : natRefs e ≠ 4095) :
    (columnReference q P s).2 = columnBurst true q (P % 4096) (P / 4096) 1 (setNat q (P % 4096) (P / 4096) (e + 1)
      (columnBurst false q (P % 4096) (P / 4096) 1 s)) := by
  unfold columnReference addReference
  simp [← he, hs, hb, hl, hr, show ¬ P < 4096 by omega]

@[simp] theorem columnUpdate_columnLost (q c r : Nat) (s : State) (q' c' : Nat) :
    (columnUpdate q c r s).columnLost q' c' = s.columnLost q' c' := by
  unfold columnUpdate
  simp

/-- A release of the last use frees the row (R269). -/
theorem columnRelease_last {q P e : Nat} {s : State} (he : e = s.natEntry q (P % 4096) (P / 4096)) (hP : 4096 ≤ P)
    (hl : s.columnLost q (P % 4096) = false) (hs : natState e = 1) (hr : natRefs e ≤ 1) :
    columnRelease q P s = raise Ev.natReleased q P (natArg e) (setNat q (P % 4096) (P / 4096) 0
      (columnUpdate q (P % 4096) (P / 4096) s)) := by
  unfold columnRelease
  simp [← he, hs, hl, hr, show ¬ P < 4096 by omega]

/-- A release of another use takes one (R269). -/
theorem columnRelease_one {q P e : Nat} {s : State} (he : e = s.natEntry q (P % 4096) (P / 4096)) (hP : 4096 ≤ P)
    (hs : natState e ≠ 0) (hb : natSlb e = false) (hl : s.columnLost q (P % 4096) = false) (hr : 1 < natRefs e) :
    columnRelease q P s = setNat q (P % 4096) (P / 4096) (e - 1) (columnUpdate q (P % 4096) (P / 4096) s) := by
  unfold columnRelease
  simp [← he, hs, hb, hl, show ¬ P < 4096 by omega, show ¬ natRefs e ≤ 1 by omega, show natRefs e ≠ 0 by omega]

/-! ### Eviction -/

/-- An eviction of cause 3 takes the longest idle record of the two piers (R229). -/
theorem exec_eviction_ofPiers {p : Pipe} {s v : State} {a b target slot idle : Nat} {rest : List (Nat × Nat × Nat × Nat × Nat)}
    (he : s.flow.evictions = (p.val, 3, a, b, target) :: rest) (hv : v = s.withFlow { s.flow with evictions := rest })
    (hm : v.mostIdle p.val (v.get Obj.evictMinIdleMs) (v.pierSlots p.val a b) = some (slot, idle)) :
    exec (.eviction p) s = .next (evict p.val slot (readPiers p.val a b v)) := by
  have taken : s.withFlow { s.flow with evictions := s.flow.evictions.erase (p.val, 3, a, b, target) } = v := by
    rw [he, List.erase_cons_head, hv]
  have found : s.flow.evictions.find? (fun e => e.1 == p.val) = some (p.val, 3, a, b, target) := by
    rw [he, List.find?_cons_of_pos (by simp)]
  have chosen : pierEvict p.val a b (v.get Obj.evictMinIdleMs) v = evict p.val slot (readPiers p.val a b v) := by
    unfold pierEvict
    rw [hm]
  change execEviction p s = _
  unfold execEviction
  rw [found]
  dsimp only
  rw [taken, if_neg (by simp), if_pos rfl, chosen]

/-! ### Relocation and the sweep -/

theorem exec_relocationPass_due {p : Pipe} {s : State} (ha : s.awake = true) (hd : s.relocationDue p.val = true) :
    exec (.relocationPass p) s = .next ((s.ashore p.val).foldl (fun t e => relocate p.val e t)
      (s.withFlow { s.flow with relocatedAt := s.flow.relocatedAt.put p.val s.time.ticks })) := by
  change execRelocationPass p s = _
  unfold execRelocationPass
  rw [if_neg (by simp [ha, hd])]

/-- A sweep pass counts itself, reads the piers, visits the records and returns to the first pier (R236). -/
theorem exec_flowSweepPass_due {p : Pipe} {s u v : State} {n : Nat} (ha : s.awake = true) (hd : s.sweepDue p.val = true)
    (hn : n = s.flow.pass.getD p.val 0)
    (hu : u = s.withFlow { s.flow with sweptAt := s.flow.sweptAt.put p.val s.time.ticks,
                                       pass := NMap.set 0 s.flow.pass p.val (n + 1) })
    (hv : v = (u.sweptRecords p.val).foldl (fun t slot => sweepRecord p.val slot
      (s.get Obj.exportActivePasses != 0 && n % s.get Obj.exportActivePasses == 0) t)
      (wantBurst .scrub false p.val 0 u pierCount)) :
    exec (.flowSweepPass p) s = .next (v.set Obj.sweepPosition p.val 0) := by
  subst hn hu hv
  change execFlowSweepPass p s = _
  unfold execFlowSweepPass
  rw [if_neg (by simp [ha, hd])]
  rfl

/-! ### The end of a group flip -/

/-- What the berths and lines that a flip writes leave: the anchorage, the flips and the objects but POISONED. -/
structure BerthsOnly (s t : State) : Prop where
  anchorage : t.flow.anchorage = s.flow.anchorage
  objects : ∀ (o : ObjRow) (n : Nat), o.apart Obj.poisoned = true → n < 65536 → t.get o n = s.get o n

theorem BerthsOnly.refl (s : State) : BerthsOnly s s := ⟨rfl, fun _ _ _ _ => rfl⟩

theorem BerthsOnly.trans {s t u : State} (h : BerthsOnly s t) (k : BerthsOnly t u) : BerthsOnly s u :=
  ⟨k.anchorage.trans h.anchorage, fun o n ho hn => (k.objects o n ho hn).trans (h.objects o n ho hn)⟩

theorem BerthsOnly.foldl {α : Type} {f : State → α → State} {l : List α} (h : ∀ x ∈ l, ∀ s, BerthsOnly s (f s x))
    (s : State) : BerthsOnly s (l.foldl f s) := by
  induction l generalizing s with
  | nil => exact .refl s
  | cons x l ih =>
    exact (h x List.mem_cons_self s).trans (ih (fun y hy => h y (List.mem_cons_of_mem _ hy)) _)

/-- A key of one of a pipe's berths. -/
def BerthOfPipe (p k : Nat) : Prop := pierKey p 0 0 ≤ k ∧ k < pierKey p 0 0 + 2 ^ 24

/-- The key of a berth gives its pier and its place. -/
theorem BerthOfPipe.pierKey_eq {p k : Nat} (h : BerthOfPipe p k) :
    pierKey p ((k - pierKey p 0 0) / 4) ((k - pierKey p 0 0) % 4) = k := by
  obtain ⟨low, high⟩ := h
  unfold pierKey at *
  omega

theorem BerthOfPipe.pier_lt {p k : Nat} (h : BerthOfPipe p k) : (k - pierKey p 0 0) / 4 < 2 ^ 24 := by
  obtain ⟨low, high⟩ := h
  omega

@[simp] theorem modLine_piers (p slot : Nat) (g : Line → Line) (s : State) : (modLine p slot g s).flow.piers = s.flow.piers := by
  unfold modLine
  split <;> rfl

theorem BerthsOnly.modLine (p slot : Nat) (g : Line → Line) (s : State) : BerthsOnly s (modLine p slot g s) := by
  unfold Machine.modLine
  split
  · exact ⟨rfl, fun _ _ _ _ => rfl⟩
  · exact .refl s

/-- A berth written by a flip's last steps holds what was written, every other berth what it held. -/
theorem flipBerth_piers_find {p k : Nat} (hk : BerthOfPipe p k) (b : Option PierBerth) (s : State) (j : Nat) :
    (flipBerth p k b s).flow.piers.find j = if j = k then b else s.flow.piers.find j := by
  unfold flipBerth setPier
  simp only [wantBurst_flow, clearPoison_flow, hk.pierKey_eq]
  cases b with
  | none => exact NMap.find_del ..
  | some x => exact NMap.find_put ..

theorem BerthsOnly.flipBerth {p k : Nat} (hp : p < 8) (hk : BerthOfPipe p k) (b : Option PierBerth) (s : State) :
    BerthsOnly s (flipBerth p k b s) := by
  unfold Machine.flipBerth setPier
  refine ⟨?_, fun o n ho hn => ?_⟩
  · rw [wantBurst_flow, clearPoison_flow]
    rfl
  · rw [wantBurst_get, clearPoison_get (pierBurst_lt hp hk.pier_lt) ho hn]
    rfl

theorem BerthsOnly.dropOld {p g k : Nat} (hp : p < 8) (hk : BerthOfPipe p k) (s : State) : BerthsOnly s (dropOld p g k s) := by
  unfold Machine.dropOld
  split
  · split
    · exact .flipBerth hp hk none s
    · exact .refl s
  · exact .refl s

theorem BerthsOnly.settleNew {p k : Nat} (hp : p < 8) (hk : BerthOfPipe p k) (s : State) : BerthsOnly s (settleNew p k s) := by
  unfold Machine.settleNew
  split
  · exact (BerthsOnly.flipBerth hp hk _ s).trans (.modLine ..)
  · exact .refl s

/-- A berth whose record does not move. -/
def Settled (k : Nat) (s : State) : Prop := ∀ b, s.flow.piers.find k = some b → b.moving = false

/-- Settling a new berth leaves a settled one settled, and is settled itself. -/
theorem settled_settleNew {p k j : Nat} (hk : BerthOfPipe p k) {s : State} (h : j = k ∨ Settled j s) :
    Settled j (settleNew p k s) := by
  unfold settleNew
  intro b hb
  split at hb
  case _ x hx =>
    rw [modLine_piers, flipBerth_piers_find hk] at hb
    split at hb
    · rw [← Option.some.inj hb]
    case _ hj => exact h.resolve_left hj b hb
  case _ hx =>
    rcases h with rfl | h
    · rw [hx] at hb
      exact absurd hb nofun
    · exact h b hb

/-- Once all new berths are settled, none of them moves. -/
theorem settled_foldl {p : Nat} {l : List Nat} (hl : ∀ k ∈ l, BerthOfPipe p k) {j : Nat} {s : State}
    (h : j ∈ l ∨ Settled j s) : Settled j (l.foldl (fun s k => settleNew p k s) s) := by
  induction l generalizing s with
  | nil => exact h.resolve_left List.not_mem_nil
  | cons k l ih =>
    refine ih (fun i hi => hl i (List.mem_cons_of_mem _ hi)) ?_
    rcases h with h | h
    · rcases List.mem_cons.mp h with rfl | h
      · exact .inr (settled_settleNew (hl _ List.mem_cons_self) (.inl rfl))
      · exact .inl h
    · exact .inr (settled_settleNew (hl _ List.mem_cons_self) (.inr h))

/-- The berths that a flip has written before it ends. -/
def flipWritten (p : Nat) (x : Flip) (s : State) : State :=
  x.new.foldl (fun s k => settleNew p k s) (x.old.foldl (fun s k => dropOld p x.group k s) s)

theorem BerthsOnly.flipWritten {p : Nat} (hp : p < 8) {x : Flip} (hk : ∀ k ∈ x.old ++ x.new, BerthOfPipe p k) (s : State) :
    BerthsOnly s (flipWritten p x s) := by
  have old := BerthsOnly.foldl (f := fun s k => Machine.dropOld p x.group k s)
    (fun k h s => .dropOld hp (hk k (List.mem_append_left _ h)) s) s
  exact old.trans (.foldl (fun k h s => .settleNew hp (hk k (List.mem_append_right _ h)) s) _)

/-- A flip that ends leaves its pipe, and is counted (R231). -/
theorem finishFlip_noChecks {p : Nat} {x : Flip} (h : x.checks = []) (s : State) :
    finishFlip p x s = ((flipWritten p x s).withFlow { (flipWritten p x s).flow with
      flips := (flipWritten p x s).flow.flips.del p }).bump Obj.groupFlips p := by
  unfold finishFlip
  rw [h]
  rfl

/-- A flip whose lookups are over and whose piers are free is finished (R231). -/
theorem exec_groupFlipFinish_free {p : Pipe} {s : State} {x : Flip} (hx : s.flow.flips.find p.val = some x)
    (hr : x.readers = []) (hl : ∀ k ∈ x.old ++ x.new, s.pierLocked p.val ((k - pierKey p.val 0 0) / 4) = false)
    (ha : (finishFlip p.val x s).flow.anchorage.find (berthKey p.val x.anchor) = none) :
    exec (.groupFlipFinish p) s = .next (finishFlip p.val x s) := by
  have unlocked : ¬ (x.old ++ x.new).any (fun k => s.pierLocked p.val ((k - pierKey p.val 0 0) / 4)) = true := by
    intro h
    obtain ⟨k, hk, h⟩ := List.any_eq_true.mp h
    rw [hl k hk] at h
    exact absurd h nofun
  change execGroupFlipFinish p s = _
  unfold execGroupFlipFinish
  simp only [hx, hr]
  rw [if_neg (by simpa using unlocked)]
  simp only [ha]

/-- A finished flip is gone, no new berth of its own moves, and it is counted (R231). -/
theorem completes_groupFlipFinish {p : Pipe} {s : State} {x : Flip} (hx : s.flow.flips.find p.val = some x)
    (hr : x.readers = []) (hc : x.checks = []) (hk : ∀ k ∈ x.old ++ x.new, BerthOfPipe p.val k)
    (hl : ∀ k ∈ x.old ++ x.new, s.pierLocked p.val ((k - pierKey p.val 0 0) / 4) = false)
    (ha : s.flow.anchorage.find (berthKey p.val x.anchor) = none) :
    Completes (.groupFlipFinish p) s fun t => t.flow.flips.find p.val = none ∧
      (∀ k ∈ x.new, ∀ b, t.flow.piers.find k = some b → b.moving = false) ∧
      t.get Obj.groupFlips p.val = (s.get Obj.groupFlips p.val + 1) % 2 ^ 64 := by
  have hp : p.val < 8 := p.isLt
  have kept := BerthsOnly.flipWritten hp hk s
  have finished := finishFlip_noChecks (p := p.val) hc s
  have settled : ∀ k ∈ x.new, Settled k (flipWritten p.val x s) := fun k h =>
    settled_foldl (fun k h => hk k (List.mem_append_right _ h)) (.inl h)
  generalize flipWritten p.val x s = u at kept finished settled
  refine ⟨_, exec_groupFlipFinish_free hx hr hl ?_, ?_⟩
  · rw [finished]
    exact (congrArg (fun m => NMap.find m _) kept.anchorage).trans ha
  · rw [finished]
    refine ⟨NMap.find_del_same .., settled, ?_⟩
    rw [State.get_bump_same]
    exact congrArg (fun n => (n + 1) % 2 ^ 64) (kept.objects Obj.groupFlips p.val (by decide) (by omega))

/-- Settles O26: of the column operations each case goes through its branch, the column's bursts leaving the rows and
the losses as they were; of a flip's end, that settling each new berth settles it for good. -/
theorem columnsAndFlowEnginesRun : Obligations.ColumnsAndFlowEnginesRun := by
  unfold Obligations.ColumnsAndFlowEnginesRun
  refine ⟨fun q s => ⟨?_, ?_⟩, fun p s => ⟨?_, ?_, ?_, ?_⟩⟩
  · intro h a port c r e hm hc hl hr he
    rw [exec_allocate, columnAllocate_own hm hc hl hr he]
  · intro P e he hP hs hb hl
    exact ⟨fun hr => congrArg Host.Outcome.next (columnReference_added he hP hs hb hl hr),
      fun h1 hr => congrArg Host.Outcome.next (columnRelease_last he hP hl h1 hr),
      fun hr => congrArg Host.Outcome.next (columnRelease_one he hP hs hb hl hr)⟩
  · intro a b target rest slot idle v he _ hv hm
    exact exec_eviction_ofPiers he hv hm
  · exact exec_relocationPass_due
  · intro x hx hr hc hk hl ha
    exact completes_groupFlipFinish hx hr hc hk hl ha
  · intro ha hd
    exact ⟨_, _, _, rfl, rfl, rfl, exec_flowSweepPass_due ha hd rfl rfl rfl⟩

end Sys2Proof.Machine
end

section
/-! SUPPORT. The contexts of the landing resequencer (R333 to R339): what a context reads after one is written, and what
passing a number does where none after it is held. -/

namespace Sys2Proof.Machine

/-! ### Contexts -/

@[simp] theorem State.context_setContext_same (s : State) (k : Nat) (c : Context) : (s.setContext k c).context k = c :=
  NMap.getD_set_same ..

theorem State.context_setContext_other (s : State) {k j : Nat} (c : Context) (h : j ≠ k) :
    (s.setContext k c).context j = s.context j := NMap.getD_set_other _ _ _ h

/-- What a change of a context leaves: every other context, and the state but for its contexts. -/
structure ContextOnly (k : Nat) (s t : State) : Prop where
  others : ∀ j, j ≠ k → t.context j = s.context j
  rest : t = { s with cross := { s.cross with contexts := t.cross.contexts } }

theorem ContextOnly.setContext (k : Nat) (c : Context) (s : State) : ContextOnly k s (s.setContext k c) :=
  ⟨fun _ h => s.context_setContext_other c h, rfl⟩

theorem ContextOnly.refl (k : Nat) (s : State) : ContextOnly k s s := ⟨fun _ _ => rfl, rfl⟩

theorem ContextOnly.trans {k : Nat} {s t u : State} (h : ContextOnly k s t) (i : ContextOnly k t u) : ContextOnly k s u := by
  refine ⟨fun j hj => (i.others j hj).trans (h.others j hj), ?_⟩
  rw [i.rest, h.rest]

theorem ContextOnly.get {k : Nat} {s t : State} (h : ContextOnly k s t) (o : ObjRow) (n : Nat) : t.get o n = s.get o n := by
  rw [h.rest]
  rfl

theorem ContextOnly.frame {k : Nat} {s t : State} (h : ContextOnly k s t) (f : FrameId) : t.frame f = s.frame f := by
  rw [h.rest]
  rfl

/-- Arming the timer changes the context's timer alone. -/
theorem armContext_only (k : Nat) (s : State) : ContextOnly k s (armContext k s) := by
  unfold armContext
  dsimp only
  split
  · exact .setContext ..
  · split
    · exact .refl k s
    · exact .setContext ..

theorem armContext_idle {k : Nat} {s : State} (h : (s.context k).holds = false) :
    (armContext k s).context k = { s.context k with timer := none } := by
  unfold armContext
  simp [h]

/-- A context that holds a later number has its timer running. -/
theorem armContext_holding {k : Nat} {s : State} (h : (s.context k).holds = true) :
    ((armContext k s).context k).state = (s.context k).state ∧ ((armContext k s).context k).next = (s.context k).next ∧
      ((armContext k s).context k).timer.isSome = true := by
  unfold armContext
  simp only [h, Bool.not_true, Bool.false_eq_true, if_false]
  split
  case _ hs => exact ⟨rfl, rfl, hs⟩
  · simp

/-- Passing a number where none after it is listed advances the context by one (R334). -/
theorem advance_unheld {k : Nat} {s : State} (h : (s.context k).state = []) :
    advance k s = s.setContext k { s.context k with
      next := ((s.context k).next + 1) % 65536, owed := (s.context k).owed + 1, timer := none } := by
  unfold advance
  dsimp only
  rw [h]
  unfold passHeld
  simp

theorem Context.holds_of_held {c : Context} {n : Nat} {f : FrameId} : Context.holds { c with state := c.state.put n (.held f) } = true := by
  have listed : ∀ m : NMap SeqState, (m.put n (.held f)).any (fun e => match e.2 with | .held _ => true | .hole => false) := by
    intro m
    induction m with
    | nil => rfl
    | cons e m ih =>
      simp only [NMap.put]
      split
      · rfl
      · split
        · rfl
        · rw [List.any_cons, ih, Bool.or_true]
  exact listed c.state

/-! ### A frame head at its context -/

theorem exec_reseqHead_landed {s : State} {f : FrameId} {x : Frame} {st : Stamp} (hf : s.frame f = some x)
    (hs : x.stamp = some st) (hl : x.stage = .landed) (ht : s.ticking (deckOfPipe x.epipe) = true) :
    exec (.reseqHead f) s = .next (reseqFrame f x st s) := by
  change execReseqHead f s = _
  unfold execReseqHead
  simp only [hf, hs]
  rw [if_pos ⟨hl, ht⟩]

/-- The next number of a context is not late where nothing is listed. -/
theorem Context.late_next {c : Context} {n : Nat} (h : n = c.next) (hs : c.state = []) : c.late n = false := by
  have near : ¬ 16384 ≤ (n + 65536 - c.next) % 65536 := by
    rw [← h]
    omega
  unfold Context.late
  simp [near, hs]

theorem releaseFrame_unheld {f : FrameId} {s : State} {x : Frame} (hf : s.frame f = some x) (hh : x.heldCells = 0) :
    releaseFrame f s = s.setFrame f { x with stage := .released } := by
  unfold releaseFrame
  rw [hf]
  dsimp only
  rw [if_pos hh]
  congr 1
  cases x
  cases hh
  rfl

/-- A frame whose number is the context's next is released (R334). -/
theorem completes_reseqHead_next {s : State} {f : FrameId} {x : Frame} {st : Stamp} {c : Context} {k : Nat}
    (hf : s.frame f = some x) (hs : x.stamp = some st) (hl : x.stage = .landed)
    (ht : s.ticking (deckOfPipe x.epipe) = true) (hk : k = contextKey st.port st.redirect st.pipe st.cls)
    (hc : c = s.context k) (hn : st.seq = c.next) (he : c.state = []) (hh : x.heldCells = 0) :
    Completes (.reseqHead f) s fun t =>
      t.frame f = some { x with stage := .released } ∧ (∀ g, g ≠ f → t.frame g = s.frame g) ∧
      t.context k = { c with next := (c.next + 1) % 65536, owed := c.owed + 1, timer := none } ∧
      (∀ j, j ≠ k → t.context j = s.context j) ∧
      t = { s with frames := t.frames, cross := { s.cross with contexts := t.cross.contexts } } := by
  obtain ⟨u, hu⟩ : ∃ u, u = s.setFrame f { x with stage := .released } := ⟨_, rfl⟩
  have same : ∀ j, u.context j = s.context j := fun j => by
    rw [hu]
    rfl
  have passed := advance_unheld (k := k) (s := u) (by rw [same, ← hc, he])
  rw [same, ← hc] at passed
  have done : reseqFrame f x st s = armContext k (advance k u) := by
    unfold reseqFrame
    simp only [← hk, ← hc]
    rw [if_neg (by rw [Context.late_next hn he]; exact Bool.false_ne_true), if_pos hn, releaseFrame_unheld hf hh, hu]
  have only := armContext_only k (advance k u)
  have idle := armContext_idle (k := k) (s := advance k u) (by
    rw [passed, State.context_setContext_same]
    unfold Context.holds
    rw [show Context.state _ = [] from he]
    rfl)
  refine ⟨_, (exec_reseqHead_landed hf hs hl ht).trans (congrArg Host.Outcome.next done), ?_⟩
  rw [passed] at only idle ⊢
  rw [State.context_setContext_same] at idle
  have all := (ContextOnly.setContext k _ u).trans only
  refine ⟨(all.frame f).trans ?_, fun g hg => (all.frame g).trans ?_, idle, fun j hj => (all.others j hj).trans (same j), ?_⟩
  · rw [hu]
    exact State.frame_setFrame_same ..
  · rw [hu]
    exact State.frame_setFrame_other _ _ hg
  · have rest := all.rest
    generalize armContext k _ = t at rest ⊢
    rw [rest, hu]
    rfl

/-! ### The pool of the frames that are held -/

theorem setHold_frame (d n : Nat) (s : State) (f : FrameId) : (setHold d n s).frame f = s.frame f := by
  unfold setHold
  dsimp only
  split <;> rfl

theorem setHold_context (d n : Nat) (s : State) (k : Nat) : (setHold d n s).context k = s.context k := by
  unfold setHold
  dsimp only
  split <;> rfl

theorem setHold_get (d n : Nat) (s : State) (o : ObjRow) (i : Nat) :
    (setHold d n s).get o i = (s.set Obj.landingHoldInUse d n).get o i := by
  unfold setHold
  dsimp only
  split <;> rfl

theorem deckOfPort_lt {port : Nat} (h : port < 137) : deckOfPort port < 65536 := by
  unfold deckOfPort deckOfPipe pipeOfPort
  split <;> omega

/-- The state in which a frame has joined its context's pool (R334, R338). -/
def heldFrame (f : FrameId) (x : Frame) (st : Stamp) (k : Nat) (s : State) : State :=
  (setHold (deckOfPort st.port) (s.get Obj.landingHoldInUse (deckOfPort st.port) + frameCells x.full)
    ((s.setContext k { s.context k with state := (s.context k).state.put st.seq (.held f) }).setFrame f
      { x with stage := .held, heldCells := frameCells x.full })).bump Obj.reseqHeld st.port

theorem reseqFrame_held {s : State} {f : FrameId} {x : Frame} {st : Stamp} {k : Nat}
    (hk : k = contextKey st.port st.redirect st.pipe st.cls) (hl : (s.context k).late st.seq = false)
    (hn : st.seq ≠ (s.context k).next) (h0 : s.get Obj.landingHoldCells (deckOfPort st.port) = 0)
    (hu : s.get Obj.landingHoldInUse (deckOfPort st.port) + frameCells x.full ≤ 262144) :
    reseqFrame f x st s = armContext k (heldFrame f x st k s) := by
  subst hk
  unfold reseqFrame
  dsimp only
  rw [if_neg (by rw [hl]; exact Bool.false_ne_true), if_neg hn, if_pos (by rw [if_pos h0]; exact hu)]
  rfl

/-- A frame with a later number is held in the pool (R334, R338). -/
theorem completes_reseqHead_later {s : State} {f : FrameId} {x : Frame} {st : Stamp} {c : Context} {k : Nat}
    (hf : s.frame f = some x) (hs : x.stamp = some st) (hl : x.stage = .landed)
    (ht : s.ticking (deckOfPipe x.epipe) = true) (hk : k = contextKey st.port st.redirect st.pipe st.cls)
    (hc : c = s.context k) (hp : st.port < 137) (hlate : c.late st.seq = false) (hn : st.seq ≠ c.next)
    (h0 : s.get Obj.landingHoldCells (deckOfPort st.port) = 0)
    (hu : s.get Obj.landingHoldInUse (deckOfPort st.port) + frameCells x.full ≤ 262144) :
    Completes (.reseqHead f) s fun t =>
      t.frame f = some { x with stage := .held, heldCells := frameCells x.full } ∧
      (t.context k).state.find st.seq = some (.held f) ∧ (t.context k).next = c.next ∧ (t.context k).timer.isSome = true ∧
      t.get Obj.landingHoldInUse (deckOfPort st.port) =
        s.get Obj.landingHoldInUse (deckOfPort st.port) + frameCells x.full ∧
      t.get Obj.reseqHeld st.port = (s.get Obj.reseqHeld st.port + 1) % 2 ^ 64 := by
  subst hc
  have hd := deckOfPort_lt hp
  have context : (heldFrame f x st k s).context k =
      { s.context k with state := (s.context k).state.put st.seq (.held f) } :=
    (setHold_context ..).trans (State.context_setContext_same ..)
  have only := armContext_only k (heldFrame f x st k s)
  obtain ⟨state, next, timer⟩ := armContext_holding (k := k) (s := heldFrame f x st k s) (by
    rw [context]
    exact Context.holds_of_held)
  rw [context] at state next
  refine ⟨_, (exec_reseqHead_landed hf hs hl ht).trans (congrArg Host.Outcome.next (reseqFrame_held hk hlate hn h0 hu)),
    (only.frame f).trans ?_, ?_, next, timer, (only.get ..).trans ?_, (only.get ..).trans ?_⟩
  · exact (setHold_frame ..).trans (State.frame_setFrame_same ..)
  · rw [state]
    exact NMap.find_put_same ..
  · unfold heldFrame
    rw [State.get_bump_apart _ rfl (by omega) hd, setHold_get, State.get_set_same]
  · unfold heldFrame
    rw [State.get_bump_same, setHold_get, State.get_set_apart _ rfl _ hd (by omega)]
    rfl

/-! ### Hole notices, timeouts and credits -/

theorem takeNth_head {g : CtrlMsg → Bool} {m : CtrlMsg} (rest : List CtrlMsg) (h : g m = true) :
    takeNth g 0 (m :: rest) = some (m, rest) := by
  rw [takeNth, if_pos h, if_pos rfl]

/-- With nothing waiting for its window, opening a stream's window stamps no frame (R332). -/
theorem openWindow_none {redirect : Bool} {pipe port cls n : Nat} {s : State} (h : s.cross.waiting = []) :
    openWindow redirect pipe port cls n s = s := by
  cases n with
  | zero => rfl
  | succ n =>
    unfold openWindow
    have none_ : s.windowHead redirect pipe port cls = none := by
      unfold State.windowHead
      rw [h]
      rfl
    rw [none_]
    exact ite_self s

/-- A credit opens its stream's window (R332). -/
theorem completes_credit {s : State} {pipe : Pipe} {m : CtrlMsg} {rest : List CtrlMsg} (hc : s.cross.credits = m :: rest)
    (hp : m.stampPipe = pipe.val) (hd : m.due ≤ s.time.ticks) (hw : s.cross.waiting = []) :
    Completes (.credit pipe 0) s fun t => t.cross.credits = rest ∧
      t.outstanding (streamKey m.redirect m.stampPipe m.port m.cls) =
        s.outstanding (streamKey m.redirect m.stampPipe m.port m.cls) - m.value ∧
      (∀ j, j ≠ streamKey m.redirect m.stampPipe m.port m.cls → t.outstanding j = s.outstanding j) ∧
      t = { s with cross := { s.cross with credits := rest, outstanding := t.cross.outstanding } } := by
  have head : takeNth (fun m => m.stampPipe == pipe.val && decide (m.due ≤ s.time.ticks)) 0 s.cross.credits = some (m, rest) := by
    rw [hc]
    exact takeNth_head rest (by simp [hp, hd])
  have done : exec (.credit pipe 0) s = .next (s.withCross { s.cross with
      credits := rest,
      outstanding := NMap.modify 0 s.cross.outstanding (streamKey m.redirect m.stampPipe m.port m.cls) (· - m.value) }) := by
    change execCredit pipe 0 s = _
    unfold execCredit
    rw [head]
    exact congrArg Host.Outcome.next (openWindow_none hw)
  have credited := fun j => NMap.getD_modify 0 s.cross.outstanding (streamKey m.redirect m.stampPipe m.port m.cls)
    (· - m.value) j
  exact ⟨_, done, rfl, (credited _).trans (if_pos rfl), fun j hj => (credited j).trans (if_neg hj), rfl⟩

/-- A hole notice of the next number of its context passes it (R334). -/
theorem exec_holeNotice_next {s : State} {port : Port} {m : CtrlMsg} {rest : List CtrlMsg} {k : Nat}
    (hh : s.cross.holes = m :: rest) (hp : m.port = port.val) (hd : m.due ≤ s.time.ticks)
    (hk : k = contextKey m.port m.redirect m.stampPipe m.cls) (hv : m.value = (s.context k).next)
    (hl : (s.context k).late m.value = false) :
    exec (.holeNotice port 0) s =
      .next (armContext k (advance k ((s.withCross { s.cross with holes := rest }).bump Obj.holesReceived port.val))) := by
  have head : takeNth (fun m => m.port == port.val && decide (m.due ≤ s.time.ticks)) 0 s.cross.holes = some (m, rest) := by
    rw [hh]
    exact takeNth_head rest (by simp [hp, hd])
  have same : ((s.withCross { s.cross with holes := rest }).bump Obj.holesReceived m.port).context k = s.context k := rfl
  change execHoleNotice port 0 s = _
  unfold execHoleNotice
  rw [head]
  dsimp only
  unfold holeNotice
  dsimp only
  rw [← hk, same, if_neg (by rw [hl]; exact Bool.false_ne_true), if_pos hv, hp]

/-- A context whose timer has run skips its next number (R334). -/
theorem exec_reseqTimeout_elapsed {s : State} {port : Port} {redirect : Bool} {pipe : Pipe} {cls : Fin 16} {k t ns : Nat}
    (hk : k = contextKey port.val redirect pipe.val cls.val) (ht : (s.context k).timer = some (t, ns))
    (he : s.elapsed t ns = true) :
    exec (.reseqTimeout port redirect pipe cls) s = .next (armContext k (advance k (raise Ev.reseqSkip port.val
      (streamArg redirect pipe.val cls.val (s.context k).next)
      ((s.context k).state.filter fun e => match e.2 with | .held _ => true | .hole => false).length
      (s.bump Obj.reseqSkips port.val)))) := by
  subst hk
  change execReseqTimeout port redirect pipe cls s = _
  unfold execReseqTimeout
  simp only [ht]
  rw [if_neg (by simp [he])] <;> rfl

theorem exec_creditSend_owed {s : State} {port : Port} {redirect : Bool} {pipe : Pipe} {cls : Fin 16} {k : Nat} {n : Fin 65}
    (hk : k = contextKey port.val redirect pipe.val cls.val) (h0 : n.val ≠ 0) (ho : n.val ≤ (s.context k).owed) :
    exec (.creditSend port redirect pipe cls n) s = .next (sendCtrl (deckOfPort port.val)
      { hole := false, cls := cls.val, redirect := redirect, stampPipe := pipe.val, port := port.val, value := n.val }
      (s.setContext k { s.context k with owed := (s.context k).owed - n.val })) := by
  subst hk
  change execCreditSend port redirect pipe cls n s = _
  unfold execCreditSend
  dsimp only
  rw [if_neg (by omega)]

/-- Settles O30: a change of one context leaves the rest; with no number listed, passing one advances by one, and a
number that is put among the held ones keeps the timer running. -/
theorem contextsKeepOrder : Obligations.ContextsKeepOrder := by
  unfold Obligations.ContextsKeepOrder
  refine ⟨fun s f x st c k hf hs hl ht hk hc hp => ⟨?_, ?_, ?_⟩, fun s port redirect pipe cls k c hk hc => ⟨?_, ?_, ?_, ?_⟩⟩
  · exact fun hn he hh _ => completes_reseqHead_next hf hs hl ht hk hc hn he hh
  · intro hlate
    subst hc hk
    rw [exec_reseqHead_landed hf hs hl ht]
    unfold reseqFrame
    dsimp only
    rw [if_pos hlate]
  · exact completes_reseqHead_later hf hs hl ht hk hc hp
  · intro m rest hh hp hr hs hcls hd hv hlate
    subst hc
    exact exec_holeNotice_next hh hp hd (by rw [hk, hp, hr, hs, hcls]) hv hlate
  · intro t ns htimer he
    subst hc
    exact exec_reseqTimeout_elapsed hk htimer he
  · intro n h0 ho
    subst hc
    exact exec_creditSend_owed hk h0 ho
  · intro m rest
    exact completes_credit

end Sys2Proof.Machine
end

section
/-! SUPPORT. The queues of the traffic manager (R355 to R361): what a queue reads after one is written, and what joining a
queue and starting its head leave as they were. -/

namespace Sys2Proof.Machine

/-! ### Queues -/

@[simp] theorem State.queue_setQueue_same (s : State) (q : Nat) (x : Queue) : (s.setQueue q x).queue q = x := by
  have put : (NMap.set {} s.tm.queues q x).getD q {} = x := NMap.getD_set_same ..
  unfold State.setQueue
  dsimp only
  split <;> exact put

theorem State.queue_setQueue_other (s : State) {q r : Nat} (x : Queue) (h : r ≠ q) : (s.setQueue q x).queue r = s.queue r := by
  have kept : (NMap.set {} s.tm.queues q x).getD r {} = s.queue r := NMap.getD_set_other _ _ _ h
  unfold State.setQueue
  dsimp only
  split <;> exact kept

@[simp] theorem State.frame_setQueue (s : State) (q : Nat) (x : Queue) (f : FrameId) : (s.setQueue q x).frame f = s.frame f := by
  unfold State.setQueue
  dsimp only
  split <;> rfl

@[simp] theorem State.tmPort_setQueue (s : State) (q : Nat) (x : Queue) (p : Nat) :
    (s.setQueue q x).tmPort p = s.tmPort p := by
  unfold State.setQueue
  dsimp only
  split <;> rfl

theorem State.get_setQueue_apart (s : State) {q : Nat} (x : Queue) (hq : q < 65536) {o : ObjRow}
    (ho : o.apart Obj.queueCells = true) {n : Nat} (hn : n < 65536) : (s.setQueue q x).get o n = s.get o n := by
  have counted : ∀ u : State, (recount q u).get o n = u.get o n := fun u => State.get_set_apart u ho _ hq hn
  unfold State.setQueue
  dsimp only
  split <;> exact counted _

/-! ### A frame joins its queue -/

/-- What forming a queue's tag and waking its port leave: frames, the queues' entries, and every object but QUEUE_CELLS
and LPI_TX_NS. -/
structure QueuesKeep (s t : State) : Prop where
  frames : ∀ f, t.frame f = s.frame f
  entries : ∀ r, (t.queue r).frames = (s.queue r).frames
  objects : ∀ (o : ObjRow) (n : Nat), o.apart Obj.queueCells = true → o.apart Obj.lpiTxNs = true → n < 65536 →
    t.get o n = s.get o n

theorem QueuesKeep.refl (s : State) : QueuesKeep s s := ⟨fun _ => rfl, fun _ => rfl, fun _ _ _ _ _ => rfl⟩

theorem QueuesKeep.trans {s t u : State} (h : QueuesKeep s t) (k : QueuesKeep t u) : QueuesKeep s u :=
  ⟨fun f => (k.frames f).trans (h.frames f), fun r => (k.entries r).trans (h.entries r),
    fun o n h1 h2 h3 => (k.objects o n h1 h2 h3).trans (h.objects o n h1 h2 h3)⟩

theorem formTag_keeps {q : Nat} (hq : q < 65536) (s : State) : QueuesKeep s (formTag q s) := by
  unfold formTag
  dsimp only
  split
  · exact .refl s
  · refine ⟨fun f => State.frame_setQueue .., fun r => ?_, fun o n ho _ hn => State.get_setQueue_apart s _ hq ho hn⟩
    by_cases h : r = q
    · rw [h, State.queue_setQueue_same]
    · rw [State.queue_setQueue_other s _ h]

theorem lpiLeave_keeps {port : Nat} (hp : port < 65536) (s : State) : QueuesKeep s (lpiLeave port s) := by
  unfold lpiLeave
  dsimp only
  split
  · exact .refl s
  · exact ⟨fun _ => rfl, fun _ => rfl, fun o n _ ho hn => State.get_set_apart _ ho _ hp hn⟩

theorem lpiWake_keeps {port : Nat} (hp : port < 65536) (s : State) : QueuesKeep s (lpiWake port s) := by
  unfold lpiWake
  split
  · exact .refl s
  · exact (lpiLeave_keeps hp s).trans ⟨fun _ => rfl, fun _ => rfl, fun _ _ _ _ _ => rfl⟩

/-- The entry of a frame that joins a queue unmarked (R355). -/
def newEntry (f : FrameId) (q : Nat) (s : State) : QEntry :=
  { frame := f, cells := frameCells (s.outLength f), tick := s.time.ticks, depth := s.get Obj.queueCells q,
    buffer := s.cellsUsed (deckOfPort (q / 16)), marks := [] }

/-- The state in which a frame has joined its queue. -/
def joined (f : FrameId) (q : Nat) (s : State) : State :=
  (s.setQueue q { s.queue q with frames := (s.queue q).frames ++ [newEntry f q s] }).bump Obj.enqFrames q

/-- A frame that its queue admits joins it at the end (R355, R359). -/
theorem enqueueTo_admitted {f : FrameId} {q : Nat} {s : State} (hf : s.flushing (q / 16) = false)
    (hl : s.injectTooLong f (q / 16) = false) (ha : s.admits q (frameCells (s.outLength f)) = true)
    (he : s.get Obj.ecnMarkCells q = 0) :
    enqueueTo f q s = (.admitted, lpiWake (q / 16)
      (if (s.queue q).frames = [] then formTag q (joined f q s) else joined f q s)) := by
  have unmarked : ¬ (s.get Obj.ecnMarkCells q ≠ 0 ∧ s.get Obj.ecnMarkCells q ≤ s.get Obj.queueCells q) := fun h => h.1 he
  unfold enqueueTo
  dsimp only
  rw [if_neg (by simp [hf]), if_neg (by simp [hl]), if_neg (by simp [ha]), if_neg unmarked]
  rfl

theorem enqueueTo_refused {f : FrameId} {q : Nat} {s : State} (hf : s.flushing (q / 16) = false)
    (hl : s.injectTooLong f (q / 16) = false) (ha : s.admits q (frameCells (s.outLength f)) = false) :
    enqueueTo f q s = (.refused, s.bump Obj.admitDrops q) := by
  unfold enqueueTo
  dsimp only
  rw [if_neg (by simp [hf]), if_neg (by simp [hl]), if_pos (by simp [ha])]

/-- A released frame whose turn it is, at a port that takes it, is offered to its queue (R355). -/
theorem exec_enqueue_taken {f : FrameId} {x : Frame} {s : State} (hf : s.frame f = some x) (hs : x.stage = .released)
    (ht : x.tail ≠ some false) (hy : s.ferry x.port = false) (hb : s.releasedBefore f x = false)
    (hk : s.ticking (deckOfPort x.port) = true) (hfl : s.flushing x.port = false) :
    exec (.enqueue f) s = .next (match enqueueTo f (x.port * 16 + x.cls) s with
      | (.admitted, s) => s.modFrame f fun x => { x with stage := .queued (x.port * 16 + x.cls) }
      | (_, s) => finishFrame f s) := by
  change execEnqueue f s = _
  unfold execEnqueue
  simp only [hf]
  rw [if_neg (by simp [hs, hb, hk]), if_neg (by simp [hfl]), if_neg ht, if_neg (by simp [hy])] <;> rfl

theorem State.modFrame_eq {s : State} {f : FrameId} {x : Frame} (hf : s.frame f = some x) (g : Frame → Frame) :
    s.modFrame f g = s.setFrame f (g x) := by
  unfold State.modFrame
  rw [hf]

/-- An admitted frame is the last of its queue, and counted (R355, R359). -/
theorem completes_enqueue {f : FrameId} {x : Frame} {q : Nat} {s : State} (hf : s.frame f = some x)
    (hs : x.stage = .released) (ht : x.tail ≠ some false) (hp : x.port < 137) (hc : x.cls < 16)
    (hy : s.ferry x.port = false) (hl : s.injectTooLong f x.port = false) (hq : q = x.port * 16 + x.cls)
    (hb : s.releasedBefore f x = false) (hk : s.ticking (deckOfPort x.port) = true) (hfl : s.flushing x.port = false)
    (ha : s.admits q (frameCells (s.outLength f)) = true) (he : s.get Obj.ecnMarkCells q = 0) :
    Completes (.enqueue f) s fun t =>
      (∃ e, (t.queue q).frames = (s.queue q).frames ++ [e] ∧ e.frame = f ∧ e.tick = s.time.ticks ∧
        e.cells = frameCells (s.outLength f)) ∧
      t.frame f = some { x with stage := .queued q } ∧ (∀ g, g ≠ f → t.frame g = s.frame g) ∧
      t.get Obj.enqFrames q = (s.get Obj.enqFrames q + 1) % 2 ^ 64 ∧
      (∀ r, r ≠ q → (t.queue r).frames = (s.queue r).frames) := by
  have port : q / 16 = x.port := by omega
  have hq' : q < 65536 := by omega
  have hpq : q / 16 < 65536 := by omega
  have admitted := enqueueTo_admitted (f := f) (by rw [port]; exact hfl) (by rw [port]; exact hl) ha he
  obtain ⟨u, hu⟩ : ∃ u, u = lpiWake (q / 16)
      (if (s.queue q).frames = [] then formTag q (joined f q s) else joined f q s) := ⟨_, rfl⟩
  have kept : QueuesKeep (joined f q s) u := by
    rw [hu]
    refine QueuesKeep.trans ?_ (lpiWake_keeps hpq _)
    split
    · exact formTag_keeps hq' _
    · exact .refl _
  have frames : ∀ g, u.frame g = s.frame g := fun g => (kept.frames g).trans (State.frame_setQueue ..)
  have own : (u.queue q).frames = (s.queue q).frames ++ [newEntry f q s] := by
    refine (kept.entries q).trans ?_
    exact congrArg Queue.frames (State.queue_setQueue_same ..)
  have others : ∀ r, r ≠ q → (u.queue r).frames = (s.queue r).frames := fun r hr =>
    (kept.entries r).trans (congrArg Queue.frames (State.queue_setQueue_other s _ hr))
  have counted : u.get Obj.enqFrames q = (s.get Obj.enqFrames q + 1) % 2 ^ 64 := by
    rw [kept.objects _ _ (by decide) (by decide) hq']
    refine (State.get_bump_same ..).trans ?_
    rw [State.get_setQueue_apart s _ hq' (by decide) hq']
    rfl
  have done : exec (.enqueue f) s = .next (u.setFrame f { x with stage := .queued q }) := by
    rw [exec_enqueue_taken hf hs ht hy hb hk hfl, ← hq, admitted, ← hu]
    dsimp only
    rw [State.modFrame_eq ((frames f).trans hf), ← hq]
  exact ⟨_, done, ⟨_, own, rfl, rfl, rfl⟩, State.frame_setFrame_same .., fun g hg =>
    (State.frame_setFrame_other _ _ hg).trans (frames g), counted, others⟩

/-! ### A selection -/

/-- With no gate list in force no head is too long for its gate (R369). -/
theorem dropTooLong_ungated {port : Nat} {s : State} (h : s.operGates port = none) (c n : Nat) :
    dropTooLong port c n s = s := by
  cases n with
  | zero => rfl
  | succ n =>
    unfold dropTooLong
    rw [h]
    dsimp only
    split <;> simp_all

theorem foldl_dropTooLong_ungated {port : Nat} {s : State} (h : s.operGates port = none) (l : List Nat) :
    l.foldl (fun s c => dropTooLong port c (s.queue (port * 16 + c)).frames.length s) s = s := by
  induction l with
  | nil => rfl
  | cons c l ih =>
    rw [List.foldl_cons, dropTooLong_ungated h]
    exact ih

/-- The chosen queue's head starts where its tail is not bad and no residence limit holds (R360). -/
theorem exec_selection_starts {s : State} {port : Port} {c : Nat} {e : QEntry} {rest : List QEntry}
    (hs : s.canSelect port.val = true) (hg : s.operGates port.val = none) (hc : s.chosen port.val = some c)
    (hq : (s.queue (port.val * 16 + c)).frames = e :: rest) (hm : s.get Obj.maxResidenceNs port.val = 0)
    (ht : (s.body e.frame).bind Frame.tail ≠ some false) :
    exec (.selection port) s = .next (startTx (port.val * 16 + c) s) := by
  change execSelection port s = _
  unfold execSelection
  dsimp only
  rw [if_neg (by simp [hs]), foldl_dropTooLong_ungated hg, selectLoop, hc]
  dsimp only
  rw [hq]
  dsimp only
  rw [if_neg ht, if_neg (fun h => h.1 hm)]

/-! ### The head that starts -/

/-- What paying the shapers leaves of the queues and of the ports: their entries, tags and transmissions. -/
theorem chargeShapers_queue_same (q n : Nat) (s : State) :
    ((chargeShapers q n s).queue q).frames = (s.queue q).frames ∧ ((chargeShapers q n s).queue q).last = (s.queue q).last := by
  have put : (chargeShapers q n s).queue q = _ := NMap.getD_set_same ..
  rw [put]
  exact ⟨rfl, rfl⟩

theorem chargeShapers_queue_other {q r : Nat} (n : Nat) (s : State) (h : r ≠ q) : (chargeShapers q n s).queue r = s.queue r :=
  NMap.getD_set_other _ _ _ h

@[simp] theorem State.tmPort_setTmPort_same (s : State) (p : Nat) (x : TmPort) : (s.setTmPort p x).tmPort p = x :=
  NMap.getD_set_same ..

theorem chargeShapers_tmPort (q n : Nat) (s : State) :
    ((chargeShapers q n s).tmPort (q / 16)).sending = (s.tmPort (q / 16)).sending ∧
      ((chargeShapers q n s).tmPort (q / 16)).vtime = (s.tmPort (q / 16)).vtime := by
  have put : (chargeShapers q n s).tmPort (q / 16) = _ := State.tmPort_setTmPort_same ..
  rw [put]
  exact ⟨rfl, rfl⟩

theorem State.modFrame_tm (s : State) (f : FrameId) (g : Frame → Frame) : (s.modFrame f g).tm = s.tm := by
  unfold State.modFrame
  split <;> rfl

/-- The transmission that starts with the head of a queue (R360). -/
def startedSending (q : Nat) (e : QEntry) (s : State) : Sending :=
  { entry := some e, queue := q, start := s.time.ticks,
    end_ := s.time.ticks + ticksOfNs (s.txTime (q / 16) (s.wireLength e.frame)),
    charged := s.chargedLength (q / 16) (s.wireLength e.frame),
    before := ((s.tmPort (q / 16)).vtime, (s.queue q).last, (s.queue q).finish) }

/-- The port that the head of a queue takes: under WFQ its tag is the port's virtual time (R361). -/
def takenPort (q : Nat) (e : QEntry) (s : State) : TmPort :=
  { s.tmPort (q / 16) with
    sending := some (startedSending q e s)
    vtime := if s.get Obj.queueMode q == 0 then (s.queue q).finish else (s.tmPort (q / 16)).vtime }

/-- The queue that a started head leaves: under WFQ its tags move on (R361). -/
def leftQueue (q : Nat) (rest : List QEntry) (s : State) : Queue :=
  if s.get Obj.queueMode q == 0 then
    { s.queue q with
      frames := rest
      last := (s.queue q).finish
      finish := match rest with
        | [] => (s.queue q).finish
        | h :: _ => ((s.queue q).finish + s.wfqCost q h.frame) % 2 ^ 64 }
  else { s.queue q with frames := rest }

/-- The ports and queues after the head of a queue has started at a front port (R360). -/
theorem startTx_tm {q : Nat} {s : State} {e : QEntry} {rest : List QEntry} (hq : (s.queue q).frames = e :: rest)
    (hp : q / 16 < 128) :
    (startTx q s).tm = (chargeShapers q (s.chargedLength (q / 16) (s.wireLength e.frame))
      ((s.setTmPort (q / 16) (takenPort q e s)).setQueue q (leftQueue q rest s))).tm := by
  have peaked : ∀ (c : Prop) [Decidable c] (a b : State), a.tm = b.tm → (if c then a else b).tm = b.tm :=
    fun c _ a b h => by
      split
      · exact h
      · rfl
  unfold startTx
  dsimp only
  rw [hq]
  dsimp only
  rw [if_neg (by omega), State.modFrame_tm]
  exact peaked _ _ _ rfl

theorem leftQueue_frames (q : Nat) (rest : List QEntry) (s : State) : (leftQueue q rest s).frames = rest := by
  unfold leftQueue
  split <;> rfl

theorem leftQueue_last {q : Nat} (rest : List QEntry) {s : State} (h : s.get Obj.queueMode q = 0) :
    (leftQueue q rest s).last = (s.queue q).finish := by
  unfold leftQueue
  rw [if_pos (by simp [h])]

/-- The head that starts takes the port, and leaves its queue (R360, R361). -/
theorem startTx_head {q : Nat} {s : State} {e : QEntry} {rest : List QEntry} (hq : (s.queue q).frames = e :: rest)
    (hp : q / 16 < 128) :
    ((startTx q s).tmPort (q / 16)).sending = some (startedSending q e s) ∧ ((startTx q s).queue q).frames = rest ∧
    ((startTx q s).tmPort (q / 16)).vtime =
      (if s.get Obj.queueMode q == 0 then (s.queue q).finish else (s.tmPort (q / 16)).vtime) ∧
    ((startTx q s).queue q).last = (leftQueue q rest s).last ∧
    (∀ r, r ≠ q → (startTx q s).queue r = s.queue r) := by
  obtain ⟨u, hu, htm⟩ : ∃ u, u = (s.setTmPort (q / 16) (takenPort q e s)).setQueue q (leftQueue q rest s) ∧
      (startTx q s).tm = (chargeShapers q (s.chargedLength (q / 16) (s.wireLength e.frame)) u).tm :=
    ⟨_, rfl, startTx_tm hq hp⟩
  have queue : ∀ r, (startTx q s).queue r = (chargeShapers q (s.chargedLength (q / 16) (s.wireLength e.frame)) u).queue r :=
    fun r => congrArg (fun tm => tm.queues.getD r {}) htm
  have port : (startTx q s).tmPort (q / 16) =
      (chargeShapers q (s.chargedLength (q / 16) (s.wireLength e.frame)) u).tmPort (q / 16) :=
    congrArg (fun tm => tm.ports.getD (q / 16) {}) htm
  obtain ⟨frames, last⟩ := chargeShapers_queue_same q (s.chargedLength (q / 16) (s.wireLength e.frame)) u
  obtain ⟨sending, vtime⟩ := chargeShapers_tmPort q (s.chargedLength (q / 16) (s.wireLength e.frame)) u
  have left : u.queue q = leftQueue q rest s := by rw [hu, State.queue_setQueue_same]
  have taken : u.tmPort (q / 16) = takenPort q e s := by rw [hu, State.tmPort_setQueue, State.tmPort_setTmPort_same]
  rw [port, queue, sending, vtime, frames, last, left, taken]
  refine ⟨rfl, leftQueue_frames q rest s, rfl, rfl, fun r hr => ?_⟩
  rw [queue, chargeShapers_queue_other _ _ hr, hu, State.queue_setQueue_other _ _ hr]
  rfl

/-- Settles O32: writing a queue leaves every other queue, the frames and the objects but its cell count; a front port's
start is a write of its queue and of its port. -/
theorem framesAreEnqueuedSelectedAndStarted : Obligations.FramesAreEnqueuedSelectedAndStarted := by
  unfold Obligations.FramesAreEnqueuedSelectedAndStarted
  refine ⟨fun s => ⟨?_, ?_, ?_⟩, ?_⟩
  · intro f x q hf hs ht hp hc hy _ hl hq hb hk hfl ha he
    exact completes_enqueue hf hs ht hp hc hy hl hq hb hk hfl ha he
  · intro f x q hf hs ht hy _ _ hq _ hl hb hk hfl hfq ha
    rw [exec_enqueue_taken hf hs ht hy hb hk hfl, ← hq, enqueueTo_refused hfq hl ha]
  · intro port c e rest
    exact exec_selection_starts
  · intro s port c q e rest hq hr hp
    have hport : q / 16 = port.val := by omega
    rw [← hport] at hp ⊢
    obtain ⟨sending, frames, vtime, last, others⟩ := startTx_head hr hp
    refine ⟨_, sending, rfl, rfl, rfl, rfl, frames, fun hm => ⟨?_, ?_⟩, fun hm => ?_, others⟩
    · rw [vtime, if_pos (by simp [hm])]
    · rw [last, leftQueue_last rest hm]
    · rw [vtime, if_neg (by simp [hm])]

end Sys2Proof.Machine
end

section
/-! SUPPORT. A request in its turn, by its opcode (R51, R57 to R59): READ, READ_SEG, DESCRIBE and NOP, and the writes of
values and segments. -/

namespace Sys2Proof.Machine

/-- A request that is served as it stands is carried out in its turn. -/
theorem exec_of_turn {i : Instr} {p : Path} {q q' : Request} {s : State} (h : Turn p q s)
    (hi : exec i s = .next (serveBy p q' s)) (hq : q' = q) : exec i s = .next (carryOut p q (s.takenBy p)) := by
  rw [hi, hq, serveBy_turn h]

theorem carryOut_answered {p : Path} {q : Request} {s t : State} {r : Response} (h : serveDict p q s = (some r, t)) :
    carryOut p q s = answer p r t := by
  unfold carryOut
  rw [h]

/-- An object that may be read answers its value, and the read does what the value's rule says (R57). -/
theorem serveDict_readValue {p : Path} {q : Request} {o : ObjRow} {s : State} (ho : s.object q = .ok o) (hr : o.right ≠ .wo)
    (hl : o.level ≤ s.levelOf p q.index.toNat false) (hop : q.opcode = 1) (hd : o.ty.isDomain = false) (hn : q.length = 0)
    (hf : q.offset = 0) : serveDict p q s =
      (some (respond q St.ok (leBytes o.ty.size (readValue p q o s).1)), (readValue p q o s).2) := by
  unfold serveDict serveObject
  simp [hop, ho, shaped, permits, hr, hd, hn, hf, Nat.not_lt.mpr hl]

/-- Without a rule of its own the value is that of the copy asked for (R57, R59). -/
theorem readValue_stored {p : Path} {q : Request} {o : ObjRow} {s : State}
    (ha : readAside p q.index.toNat q.sub.toNat q.inst.toNat s = none)
    (hc : s.computed p q.index.toNat q.sub.toNat q.inst.toNat = none) :
    readValue p q o s = (if q.staged = true ∧ o.right = .rwg then s.stagedS o q.sub.toNat q.inst.toNat
      else s.getS o q.sub.toNat q.inst.toNat, s) := by
  unfold readValue
  simp only [ha, hc, Bool.and_eq_true, beq_iff_eq]

/-- A DOMAIN that may be read answers the segment asked for, and the whole length (R58). -/
theorem serveDict_readSeg {p : Path} {q : Request} {o : ObjRow} {s : State} (ho : s.object q = .ok o) (hr : o.right ≠ .wo)
    (hl : o.level ≤ s.levelOf p q.index.toNat false) (hop : q.opcode = 3) (hd : o.ty.isDomain = true)
    (hn : q.length.toNat ≤ 240) (hf : q.offset = 0) :
    serveDict p q s = (some (respond q St.ok ((s.domainOf q o).take (if q.length = 0 then 240 else q.length.toNat))
      (s.domainOf q o).length), s) := by
  unfold serveDict serveObject
  simp [hop, ho, shaped, permits, hr, hd, hn, segmentRead, hf, Nat.not_lt.mpr hl]

theorem serveDict_describe {p : Path} {q : Request} {o : ObjRow} {s : State} (ho : s.object q = .ok o) (hop : q.opcode = 5)
    (hn : q.length = 0) (hf : q.offset = 0) : serveDict p q s = (some (respond q St.ok (describeBytes o)), s) := by
  unfold serveDict
  simp [hop, ho, hn, hf]

theorem serveDict_nop {p : Path} {q : Request} {s : State} (hop : q.opcode = 6) (hn : q.length = 0) (hf : q.offset = 0) :
    serveDict p q s = (some (respond q St.ok), s) := by
  unfold serveDict
  simp [hop, hn, hf]

theorem Request.withOpcode_same {q : Request} {op : BitVec 7} (h : q.opcode = op) : { q with opcode := op } = q := by
  subst h
  rfl

/-- Settles O3: each is carried out in its turn, and its service changes nothing. -/
theorem requestsThatOnlyReadAreAnswered : Obligations.RequestsThatOnlyReadAreAnswered := by
  unfold Obligations.RequestsThatOnlyReadAreAnswered
  intro p q s turn
  refine ⟨fun o ho hr hl hf => ⟨fun hop hd hn ha hc => ?_, fun hop hd hn => ?_⟩, fun o ho hop hn hf => ?_,
    fun hop hn hf => ?_⟩
  · rw [exec_of_turn (i := .read p q) turn rfl (Request.withOpcode_same hop),
      carryOut_answered (serveDict_readValue ho hr hl hop hd hn hf), readValue_stored ha hc]
  · rw [exec_of_turn (i := .readSeg p q) turn rfl (Request.withOpcode_same hop),
      carryOut_answered (serveDict_readSeg ho hr hl hop hd hn hf)]
  · rw [exec_of_turn (i := .describe p q) turn rfl (Request.withOpcode_same hop),
      carryOut_answered (serveDict_describe ho hop hn hf)]
    rfl
  · rw [exec_of_turn (i := .nop p q) turn rfl (Request.withOpcode_same (by rw [hop]; rfl)),
      carryOut_answered (serveDict_nop hop hn hf)]

end Sys2Proof.Machine
end

section
/-! SUPPORT. WRITE and WRITE_SEG in their turn (R51, R58, R59, R62): a value outside a group is stored, a group member's
staged, and a segment joins the bytes that its session has written. -/

namespace Sys2Proof.Machine

/-- A WRITE that its object takes and whose checks pass does what the object does (R51). -/
theorem serveDict_write {p : Path} {q : Request} {o : ObjRow} {s : State} (hop : q.opcode = 2) (ho : s.object q = .ok o)
    (hd : o.ty.isDomain = false) (hn : q.length.toNat = o.ty.size) (hf : q.offset = 0) (hr : o.right ≠ .ro)
    (hl : o.level ≤ s.levelOf p q.index.toNat true)
    (hc : s.writeCheck p o q.sub.toNat q.inst.toNat (leNat q.value) = St.ok) :
    serveDict p q s = (((if o.right = .rwg then (some St.ok, stageValue p o q.sub.toNat q.inst.toNat (leNat q.value) s)
      else writeEffect p q.tag o q.sub.toNat q.inst.toNat (leNat q.value) s) : Option Nat × State).1.map (respond q),
      ((if o.right = .rwg then (some St.ok, stageValue p o q.sub.toNat q.inst.toNat (leNat q.value) s)
      else writeEffect p q.tag o q.sub.toNat q.inst.toNat (leNat q.value) s) : Option Nat × State).2) := by
  have write : writeObject p q o s = if o.right = .rwg then (some St.ok, stageValue p o q.sub.toNat q.inst.toNat (leNat q.value) s)
      else writeEffect p q.tag o q.sub.toNat q.inst.toNat (leNat q.value) s := by
    unfold writeObject
    dsimp only
    rw [if_neg (by rw [hc]; exact fun h => h rfl)]
  rw [← write]
  unfold serveDict serveObject
  simp [hop, ho, shaped, permits, hr, hd, hn, hf, Nat.not_lt.mpr hl]

/-- An object without a rule of its own takes the value, or clears the bits that are one in it (R49, R62). -/
theorem writeEffect_stored {o : ObjRow} (h : ownRule o.index = false) (p : Path) (tag : BitVec 16) (sub inst v : Nat)
    (s : State) : writeEffect p tag o sub inst v s = (some St.ok,
      if o.right = .w1c then s.setS o sub inst (clearMask (s.getS o sub inst) v) else s.setS o sub inst v) := by
  unfold ownRule at h
  simp only [Bool.or_eq_false_iff] at h
  obtain ⟨⟨control, keel⟩, listed⟩ := h
  have apart : ∀ n, o.index = n → [0x0013, 0x1204, 0x1804, 0x1805, 0x1806, 0x2121, 0x2130, 0x2152, 0x3013, 0x4800, 0x6041, 0x6043,
      0x7010, 0x8004, 0x8010, 0x8014, 0x8023, 0x8802, 0x8804, 0x9012, 0x9800].contains n = false := fun n hn => hn ▸ listed
  unfold writeEffect
  dsimp only
  rw [if_neg (by rw [control]; exact Bool.false_ne_true), if_neg (by rw [keel]; exact Bool.false_ne_true)]
  split
  iterate 21 (next h => exact absurd (apart _ h) (by decide))
  · rfl

/-- A WRITE_SEG that its object takes is a segment (R58). -/
theorem serveDict_writeSeg {p : Path} {q : Request} {o : ObjRow} {s : State} (hop : q.opcode = 4) (ho : s.object q = .ok o)
    (hd : o.ty.isDomain = true) (hn : q.length.toNat ≤ 240) (hr : o.right ≠ .ro)
    (hl : o.level ≤ s.levelOf p q.index.toNat true) :
    serveDict p q s = (some (respond q (writeSegment p q o s).1), (writeSegment p q o s).2) := by
  unfold serveDict serveObject
  simp [hop, ho, shaped, permits, hr, hd, hn, Nat.not_lt.mpr hl]

/-- A segment of a group member's DOMAIN that goes on from the last one, before it is kept or staged (R58, R69). -/
def segmentKept (p : Path) (q : Request) (o : ObjRow) (s : State) : State :=
  let key := addrKey o.index o.sub q.inst.toNat
  let whole := s.partial_ p key ++ q.value
  if q.last then s.withDict { s.dict with
    partials := s.dict.partials.del key, stagedDoms := s.dict.stagedDoms.put key whole }
  else s.withDict { s.dict with partials := s.dict.partials.put key { session := sessionId p, bytes := whole } }

/-- A segment that goes on from the last one claims the group, and is kept; the last one stages the whole (R58, R69). -/
theorem writeSegment_staged {p : Path} {q : Request} {o : ObjRow} {s : State} (hr : o.right = .rwg)
    (hb : s.busyFor p o q.inst.toNat = false) (hs : s.stagingFor p o o.sub q.inst.toNat = St.ok)
    (hf : q.offset.toNat = (s.partial_ p (addrKey o.index o.sub q.inst.toNat)).length)
    (hn : q.offset.toNat + q.value.length ≤ o.ty.size)
    (hc : q.last = true → reservedClear o.index (s.partial_ p (addrKey o.index o.sub q.inst.toNat) ++ q.value) = true) :
    writeSegment p q o s =
      (St.ok, noteStaged o.group (groupInstOf o.group o.kind q.inst.toNat) (sessionId p) (segmentKept p q o s)) := by
  have fits : ¬ (q.offset.toNat ≠ (s.partial_ p (addrKey o.index o.sub q.inst.toNat)).length ∨
      o.ty.size < (s.partial_ p (addrKey o.index o.sub q.inst.toNat) ++ q.value).length) := by
    rw [List.length_append]
    omega
  have clear : ¬ (q.last && !reservedClear o.index (s.partial_ p (addrKey o.index o.sub q.inst.toNat) ++ q.value)) = true := by
    intro h
    obtain ⟨last, unclear⟩ := Bool.and_eq_true_iff.mp h
    rw [hc last] at unclear
    exact Bool.false_ne_true unclear
  unfold writeSegment segmentKept
  dsimp only
  rw [if_neg (by rw [hb]; exact Bool.false_ne_true), if_neg (fun h => h hs), if_neg fits, if_neg clear, if_pos hr]
  split
  · unfold takeDomain
    rw [if_pos hr]
    rfl
  · rfl

/-- Settles O4: a WRITE and a WRITE_SEG whose checks pass are carried out; an object without a rule of its own stores. -/
theorem writesAndSegmentsTakeEffect : Obligations.WritesAndSegmentsTakeEffect := by
  unfold Obligations.WritesAndSegmentsTakeEffect
  refine ⟨fun p q o s turn hop ho hd hn hf hr hl hc => ?_, fun p q o s turn hop ho hd hn hr hl hb hs hf hv hres => ?_⟩
  · have served := serveDict_write hop ho hd hn hf hr hl hc
    refine ⟨fun right => ?_, fun right rule => ?_, fun right rule => ?_⟩
    · rw [exec_of_turn (i := .write p q) turn rfl (Request.withOpcode_same hop), carryOut, served, if_pos right]
      rfl
    · rw [exec_of_turn (i := .write p q) turn rfl (Request.withOpcode_same hop), carryOut, served, if_neg (by simp [right]),
        writeEffect_stored rule, if_neg (by simp [right])]
      rfl
    · rw [exec_of_turn (i := .write p q) turn rfl (Request.withOpcode_same hop), carryOut, served, if_neg (by simp [right]),
        writeEffect_stored rule, if_pos right]
      rfl
  · have served := serveDict_writeSeg hop ho hd hn (by simp [hr]) hl
    rw [writeSegment_staged hr hb hs hf hv hres] at served
    refine ⟨_, segmentKept p q o (s.takenBy p), ?_, rfl, fun last => ?_, fun last => ?_⟩
    · rw [exec_of_turn (i := .writeSeg p q) turn rfl (Request.withOpcode_same hop), carryOut_answered served]
    · unfold segmentKept
      rw [if_neg (by simp [last])]
    · unfold segmentKept
      rw [if_pos last]
      refine ⟨?_, rfl⟩
      unfold State.stagedDom NMap.getD
      rw [State.withDict_dict, NMap.find_put_same]
      rfl

end Sys2Proof.Machine
end

section
/-! SUPPORT. The control objects of a group (R68): a write of one passes the checks that its index decides, and a commit
goes from its validation to its arming (R75 to R77) or is dropped (R73). -/

namespace Sys2Proof.Machine

/-! ### Control objects by their index -/

theorem ne_zero_of_groupSize {g n : Nat} (h : groupSize g = some n) : g ≠ 0 := by
  rintro rfl
  have none_ : groupSize 0 = none := rfl
  exact absurd (none_.symm.trans h) nofun

theorem controlIndex_of_groupSize {g n : Nat} (h : groupSize g = some n) (hg : g < 256) : controlIndex (0x0200 + g) = true := by
  have pos := ne_zero_of_groupSize h
  have back : 0x0200 + g - 0x0200 = g := by omega
  unfold controlIndex
  rw [back, h]
  simp only [Option.isSome_some, Bool.and_true, Bool.and_eq_true, decide_eq_true_eq]
  omega

theorem rowOf_control {g n : Nat} (h : groupSize g = some n) (hg : g < 256) (sub : Nat) :
    rowOf (0x0200 + g) sub = controlRow g n sub := by
  have back : 0x0200 + g - 0x0200 = g := by omega
  unfold rowOf
  rw [if_pos (controlIndex_of_groupSize h hg), back, h]
  rfl

/-- No calibration object lies among the control objects. -/
theorem keelRow_control {g : Nat} (hg : g < 256) : keelRow (0x0200 + g) = none := by
  unfold keelRow
  refine List.find?_eq_none.mpr fun e he => ?_
  have high : ∀ e ∈ keelRows, 0x9000 ≤ e.1.index := by decide
  have := high e he
  simp only [beq_iff_eq]
  omega

/-- The checks on a control object's value, but for the claim of its group (R51, R68, R70). -/
theorem writeCheck_control {s : State} {p : Path} {o : ObjRow} {g sub inst v : Nat} (hg : g < 256)
    (ho : o.index = 0x0200 + g) (hb : 9 ≤ s.get Obj.bootStage ∨ p = .boot) (hs : s.stagingFor p o sub inst = St.ok)
    (hr : o.ty.inRange v = true) (hok : o.ok v = true) (hv : o.resv v = true) (hz : o.ty.reservedZero v = true) :
    s.writeCheck p o sub inst v = St.ok := by
  have perturb : perturbIndex o.index = false := by
    simp [perturbIndex]
    omega
  have load : loadIndex o.index = false := by
    simp [loadIndex]
    omega
  have agrees : s.disagrees o sub inst v = false := by
    unfold State.disagrees
    split <;> first | omega | rfl
  have locked : s.lockedFor p o inst = false := by
    unfold State.lockedFor
    rw [perturb, ho, keelRow_control hg]
    rfl
  have busy := busyFor_started (s := s) (p := p) (o := o) (inst := inst) hb (by omega) (by omega)
  unfold State.writeCheck
  simp [locked, busy, hs, load, hr, hok, hv, hz, agrees]

/-- A client's write of a control object, in its turn, does what the object does (R68). -/
theorem clientWrite_control {c : Client} {g n sub inst : Nat} {value : List Byte} {s : State} {o : ObjRow}
    (hn : groupSize g = some n) (hg : g < 256) (hi : inst < n) (hi' : inst < 65536)
    (h : ClientMay c (0x0200 + g) sub inst value o.level s) (hrow : controlRow g n sub = some o)
    (hidx : o.index = 0x0200 + g) (hkind : o.kind = .upto n) (hsub : sub < 256) (hro : o.right ≠ .ro)
    (hrwg : o.right ≠ .rwg) (hdom : o.ty.isDomain = false) (hv : value.length = o.ty.size) (hv' : value.length < 65536)
    (hs : (s.takenBy c.path).stagingFor c.path o sub inst = St.ok) (hr : o.ty.inRange (leNat value) = true)
    (hok : o.ok (leNat value) = true) (hres : o.resv (leNat value) = true) (hz : o.ty.reservedZero (leNat value) = true) :
    clientWrite c (0x0200 + g) sub inst value s =
      (match writeControl c.path c.tag g sub inst (leNat value) (s.takenBy c.path) with
       | (some st, t) => answer c.path (respond (writeReq c.tag (0x0200 + g) sub inst value) st) t
       | (none, t) => t) := by
  have ⟨_, _, booted⟩ := h
  have back : 0x0200 + g - 0x0200 = g := by omega
  have effect : writeEffect c.path c.tag o sub inst (leNat value) (s.takenBy c.path) =
      writeControl c.path c.tag g sub inst (leNat value) (s.takenBy c.path) := by
    unfold writeEffect
    dsimp only
    rw [hidx, if_pos (controlIndex_of_groupSize hn hg), back]
  have present : (s.takenBy c.path).counterLost (0x0200 + g) sub = false := by
    unfold State.counterLost
    rw [decide_eq_false (by omega)]
    rfl
  rw [clientWrite_effect h o ((rowOf_control hn hg sub).trans hrow) rfl (by omega) hsub hi' hv hv'
    (by rw [hkind]; exact decide_eq_true hi) present hro hrwg hdom
    (writeCheck_control hg hidx booted hs hr hok hres hz), effect] <;> rfl

/-! ### Commits and aborts -/

/-- The owner of a STAGED group element may commit it (R70, R75). -/
theorem stageStatus_owner {s : State} {g inst session : Nat} (h1 : (s.group g inst).state = 1)
    (ho : (s.group g inst).owner = session) (hv : (s.group g inst).validating = none) :
    s.stageStatus g inst session = St.ok := by
  unfold State.stageStatus
  simp [h1, ho, hv]

/-- The row of COMMIT (R68). -/
def commitRow (g n : Nat) : ObjRow :=
  { index := 0x0200 + g, sub := 1, kind := .upto n, ty := .u32, right := .wo, level := 2, ok := fun v => v == 1 || v == 2 }

/-- The row of ABORT (R68). -/
def abortRow (g n : Nat) : ObjRow :=
  { index := 0x0200 + g, sub := 4, kind := .upto n, ty := .bool, right := .wo, level := 2 }

/-- The owner's COMMIT of a STAGED group element begins the validation (R75). -/
theorem clientWrite_commit {c : Client} {g n inst v : Nat} {s : State} (hn : groupSize g = some n) (hg : g < 256)
    (hi : inst < n) (hi' : inst < 65536) (hv : v = 1 ∨ v = 2)
    (h1 : ((s.takenBy c.path).group g inst).state = 1)
    (ho : ((s.takenBy c.path).group g inst).owner = sessionId c.path)
    (hval : ((s.takenBy c.path).group g inst).validating = none)
    (h : ClientMay c (0x0200 + g) 1 inst (leBytes 4 v) 2 s)
    (hlead : v = 2 → ¬ timeDiff ((s.takenBy c.path).group g inst).schedTime (s.takenBy c.path).now80 <
      (s.takenBy c.path).get Obj.schedMinLeadNs) :
    clientWrite c (0x0200 + g) 1 inst (leBytes 4 v) s = (s.takenBy c.path).setGroup g inst
      { (s.takenBy c.path).group g inst with validating := some { scheduled := v = 2, path := some c.path, tag := c.tag,
                                                                   since := (s.takenBy c.path).time.ticks } } := by
  have value : leNat (leBytes 4 v) = v := leNat_leBytes_of_lt (by omega)
  have ok : (v == 1 || v == 2) = true := by simpa using hv
  have back : 0x0200 + g - 0x0200 = g := by omega
  have staging : (s.takenBy c.path).stagingFor c.path (commitRow g n) 1 inst = St.ok := by
    unfold State.stagingFor commitRow
    rw [if_neg nofun, if_pos ⟨controlIndex_of_groupSize hn hg, .inl rfl⟩]
    dsimp only
    rw [back]
    exact stageStatus_owner h1 ho hval
  have begun : beginCommit c.path c.tag g inst v (s.takenBy c.path) = (none, (s.takenBy c.path).setGroup g inst
      { (s.takenBy c.path).group g inst with validating := some { scheduled := v = 2, path := some c.path, tag := c.tag,
                                                                   since := (s.takenBy c.path).time.ticks } }) := by
    unfold beginCommit
    dsimp only
    rw [if_neg (by omega), if_neg (fun k => hlead k.1 k.2)]
  rw [clientWrite_control (o := commitRow g n) hn hg hi hi' h rfl rfl rfl (by decide) nofun nofun rfl rfl (by simp) staging rfl
    (by rw [value]; exact ok) rfl rfl, value]
  unfold writeControl
  rw [if_pos rfl, begun]

/-- An ABORT of a STAGED group element drops its staged copy (R73). -/
theorem clientWrites_abort {c : Client} {g : BitVec 8} {inst : BitVec 16} {n : Nat} {s : State}
    (hn : groupSize g.toNat = some n) (hi : inst.toNat < n) (h : ClientMay c (0x0200 + g.toNat) 4 inst.toNat [1] 2 s)
    (hval : ((s.takenBy c.path).group g.toNat inst.toNat).validating = none)
    (hrep : ((s.takenBy c.path).group g.toNat inst.toNat).replyTo = none)
    (h1 : ((s.takenBy c.path).group g.toNat inst.toNat).state = 1) :
    ClientWrites (.abort c g inst 1) c (0x0200 + g.toNat) 4 inst.toNat [1] s (cleanGroup g.toNat inst.toNat) := by
  have hg : g.toNat < 256 := g.isLt
  have staging : (s.takenBy c.path).stagingFor c.path (abortRow g.toNat n) 4 inst.toNat = St.ok := by
    unfold State.stagingFor abortRow
    rw [if_neg nofun, if_neg (fun k => by omega)]
  have aborted : abortGroup g.toNat inst.toNat 1 (s.takenBy c.path) =
      (St.ok, cleanGroup g.toNat inst.toNat (s.takenBy c.path)) := by
    unfold abortGroup
    dsimp only
    rw [if_neg (by decide), if_neg (by rw [hval]; decide), if_neg (by omega), if_neg (fun k => by omega), hrep]
  have value : leNat ([1] : List Byte) = 1 := rfl
  unfold ClientWrites
  change Host.Outcome.next (clientWrite c (0x0200 + g.toNat) 4 inst.toNat [1] s) = _
  rw [clientWrite_control (o := abortRow g.toNat n) hn hg hi inst.isLt h rfl rfl rfl (by decide) nofun nofun rfl rfl (by decide)
    staging     rfl rfl rfl rfl, value]
  unfold writeControl
  rw [if_neg (by decide), if_neg (by decide), aborted]

/-- A validation that finds nothing wrong arms the commit (R76, R77). -/
theorem exec_commitValidated_armed {g : BitVec 8} {inst : BitVec 16} {s : State} {v : Validation}
    (hv : (s.group g.toNat inst.toNat).validating = some v) (hok : s.validateGroup g.toNat inst.toNat = none)
    (ht : v.scheduled = true → 2000 < timeDiff (s.group g.toNat inst.toNat).schedTime s.now80) :
    exec (.commitValidated g inst) s = .next (armCommit g.toNat inst.toNat v s) := by
  change execCommitValidated g inst s = _
  unfold execCommitValidated
  dsimp only
  rw [hv]
  dsimp only
  rw [hok]
  dsimp only
  rw [if_neg (fun k => absurd (ht k.1) (by omega))]

/-- Settles O5: a control object's write passes the checks of its row; what then happens is one branch of the commit. -/
theorem commitsValidateArmAndAbort : Obligations.CommitsValidateArmAndAbort := by
  unfold Obligations.CommitsValidateArmAndAbort
  refine ⟨fun c g inst n s hn hi => ⟨?_, ?_⟩, fun c g inst n s hn hi h hval hrep h1 => ?_⟩
  · rintro x rfl h1 ho hval
    refine ⟨fun h => ?_, fun h lead => ?_⟩
    · exact congrArg Host.Outcome.next
        (clientWrite_commit hn g.isLt hi inst.isLt (.inl rfl) h1 ho hval h (fun k => absurd k (by decide)))
    · exact congrArg Host.Outcome.next
        (clientWrite_commit hn g.isLt hi inst.isLt (.inr rfl) h1 ho hval h (fun _ => Int.not_lt.mpr lead))
  · rintro x v rfl hv hok
    refine ⟨fun now => ?_, fun later lead => ?_⟩
    · rw [exec_commitValidated_armed hv hok (fun k => absurd (now.symm.trans k) (by decide))]
      unfold armCommit
      simp [now]
    · rw [exec_commitValidated_armed hv hok (fun _ => lead)]
      unfold armCommit
      simp [later]
  · exact clientWrites_abort hn hi h hval hrep h1

end Sys2Proof.Machine
end

section
/-! SUPPORT. What dropping a staged copy leaves (R72, R73): the members of the group element read their active values
again, and every other group element is as it was. -/

namespace Sys2Proof.Machine

/-- The address of a member of a group element names it. -/
theorem memberKey_addrKey {g inst sub i : Nat} {o : ObjRow} (ho : o ∈ groupRows g) (h1 : o.sub ≤ sub)
    (h2 : sub < o.sub + o.subs) (hb : sub < 256) (hi : i < 65536) (hg : groupInstOf g o.kind i = inst) :
    memberKey g inst (addrKey o.index sub i) = true := by
  have index : addrKey o.index sub i / 2 ^ 24 = o.index := by
    unfold addrKey
    omega
  have member : addrKey o.index sub i / 65536 % 256 = sub := by
    unfold addrKey
    omega
  have at_ : addrKey o.index sub i % 65536 = i := by
    unfold addrKey
    omega
  unfold memberKey
  rw [index, member, at_]
  exact List.any_eq_true.mpr ⟨o, ho, by simp [h1, h2, hg]⟩

/-- The dictionary once a group element's staged copy is dropped. -/
theorem dropStaged_dict (g inst : Nat) (s : State) : (dropStaged g inst s).dict =
    { s.dict with
      staged := s.dict.staged.filter fun e => !memberKey g inst e.1
      stagedDoms := s.dict.stagedDoms.filter fun e => !memberKey g inst e.1
      partials := s.dict.partials.filter fun e => !memberKey g inst e.1 } := by
  unfold dropStaged
  dsimp only
  split <;> rfl

theorem dropStaged_rest (g inst : Nat) (s : State) : dropStaged g inst s =
    { s with dict := (dropStaged g inst s).dict,
             flow := { s.flow with slbStaged := (dropStaged g inst s).flow.slbStaged } } := by
  unfold dropStaged
  dsimp only
  split <;> rfl

/-- A group element that is CLEAN again (R72, R73). -/
def cleanInst (x : GroupInst) : GroupInst :=
  { x with state := 0, owner := 0, validating := none, replyTo := none, tc := 0, passed := false }

theorem cleanGroup_eq (g inst : Nat) (s : State) : cleanGroup g inst s =
    (dropStaged g inst s).setGroup g inst (cleanInst (s.group g inst)) := by
  have same : (dropStaged g inst s).group g inst = s.group g inst := by
    unfold State.group
    rw [dropStaged_dict]
  unfold cleanGroup cleanInst
  dsimp only
  rw [same]

/-- The staged copy of a member is dropped with its group element's. -/
theorem cleanGroup_member {g inst sub i : Nat} {o : ObjRow} (s : State)
    (hm : memberKey g inst (addrKey o.index sub i) = true) :
    (cleanGroup g inst s).stagedS o sub i = (cleanGroup g inst s).getS o sub i ∧
      (sub = o.sub → (cleanGroup g inst s).stagedDom o i = (cleanGroup g inst s).getDom o i) := by
  have staged : (cleanGroup g inst s).dict.staged.find (addrKey o.index sub i) = none := by
    rw [cleanGroup_eq]
    change NMap.find (dropStaged g inst s).dict.staged _ = none
    rw [dropStaged_dict]
    exact NMap.find_filter_drop s.dict.staged (fun k => !memberKey g inst k) _ (by rw [hm]; rfl)
  refine ⟨?_, fun hs => ?_⟩
  · unfold State.stagedS NMap.getD
    rw [staged]
    rfl
  · subst hs
    have doms : (cleanGroup g inst s).dict.stagedDoms.find (addrKey o.index o.sub i) = none := by
      rw [cleanGroup_eq]
      change NMap.find (dropStaged g inst s).dict.stagedDoms _ = none
      rw [dropStaged_dict]
      exact NMap.find_filter_drop s.dict.stagedDoms (fun k => !memberKey g inst k) _ (by rw [hm]; rfl)
    unfold State.stagedDom NMap.getD
    rw [doms]
    rfl

theorem State.group_setGroup (s : State) {g inst h j : Nat} (x : GroupInst) (hi : inst < 65536) (hj : j < 65536) :
    (s.setGroup g inst x).group h j = if (h, j) = (g, inst) then x else s.group h j := by
  have key : groupKey h j = groupKey g inst ↔ (h, j) = (g, inst) := by
    rw [Prod.mk.injEq]
    unfold groupKey
    omega
  unfold State.group State.setGroup
  rw [State.withDict_dict]
  exact (NMap.getD_set ..).trans (ite_congr (propext key) (fun _ => rfl) fun _ => rfl)

/-- Every other group element is as it was. -/
theorem cleanGroup_group {g inst h j : Nat} (s : State) (hi : inst < 65536) (hj : j < 65536) :
    (cleanGroup g inst s).group h j = if (h, j) = (g, inst) then cleanInst (s.group g inst) else s.group h j := by
  rw [cleanGroup_eq, State.group_setGroup _ _ hi hj]
  congr 1
  unfold State.group
  rw [dropStaged_dict]

/-- The staged backends of a service go with its staged copy (R285). -/
theorem cleanGroup_slbStaged (inst slot : Nat) (hs : slot < 65536) (s : State) :
    (cleanGroup 0x21 inst s).flow.slbStaged.find (inst * 65536 + slot) = none := by
  rw [cleanGroup_eq]
  change NMap.find (dropStaged 0x21 inst s).flow.slbStaged _ = none
  unfold dropStaged
  dsimp only
  rw [if_pos rfl]
  exact (NMap.find_delRange ..).trans (if_pos (by omega))

/-- Settles O7: the expired copy is dropped as R73's ABORT drops it. -/
theorem idleStagingExpires : Obligations.IdleStagingExpires := by
  unfold Obligations.IdleStagingExpires
  intro g inst s h1 hv hlimit he
  have hi : inst.toNat < 65536 := inst.isLt
  have own := (cleanGroup_group (g := g.toNat) (h := g.toNat) s hi hi).trans (if_pos rfl)
  refine ⟨cleanGroup g.toNat inst.toNat s, ?_, by rw [own]; rfl, by rw [own]; rfl, ?_, ?_, ?_, ?_, ?_, ?_⟩
  · change execStageExpired g inst s = _
    unfold execStageExpired
    dsimp only
    rw [if_pos ⟨h1, by rw [hv]; rfl, hlimit, he⟩]
    rfl
  · intro o ho sub i low high hb hj hg
    exact cleanGroup_member s (memberKey_addrKey ho low high hb hj hg)
  · intro hg slot hs
    rw [hg]
    exact cleanGroup_slbStaged inst.toNat slot hs s
  · intro h j hj hne
    exact (cleanGroup_group s hi hj).trans (if_neg hne)
  · rw [cleanGroup_eq]
    change (dropStaged g.toNat inst.toNat s).dict.active = _
    rw [dropStaged_dict]
  · rw [cleanGroup_eq]
    change (dropStaged g.toNat inst.toNat s).dict.domains = _
    rw [dropStaged_dict]
  · rw [cleanGroup_eq]
    conv =>
      lhs
      rw [dropStaged_rest]
    rfl

end Sys2Proof.Machine
end

section
/-! SUPPORT. VENDOR_UNLOCK and VENDOR_LOCK in their turn (R54). -/

namespace Sys2Proof.Machine

theorem rowOf_vendorUnlock : rowOf 0x0012 0 = some Obj.vendorUnlock := rfl
theorem rowOf_vendorLock : rowOf 0x0013 0 = some Obj.vendorLock := rfl

/-- An object outside a group whose DOMAIN has no reserved bits. -/
theorem reservedClear_of_none {index : Nat} (h : reservedBits index = []) (d : List Byte) : reservedClear index d = true := by
  unfold reservedClear
  exact List.all_eq_true.mpr fun x _ => by simp [h]

/-- A DOMAIN outside a group that comes in one segment is taken at once (R58). -/
theorem writeSegment_whole {p : Path} {q : Request} {o : ObjRow} {s : State} (hr : o.right ≠ .rwg)
    (hs : controlIndex o.index = false) (hb : s.busyFor p o q.inst.toNat = false)
    (hp : s.partial_ p (addrKey o.index o.sub q.inst.toNat) = []) (hl : q.last = true) (ho : q.offset.toNat = 0)
    (hn : q.value.length ≤ o.ty.size) (hc : reservedBits o.index = []) :
    writeSegment p q o s = takeDomain p o q.inst.toNat q.value (s.withDict { s.dict with
      partials := s.dict.partials.del (addrKey o.index o.sub q.inst.toNat) }) := by
  have claim : s.stagingFor p o o.sub q.inst.toNat = St.ok := by
    unfold State.stagingFor
    rw [if_neg hr, if_neg (fun h => by rw [hs] at h; exact Bool.false_ne_true h.1)]
  have fits : ¬ (q.offset.toNat ≠ ([] : List Byte).length ∨ o.ty.size < ([] ++ q.value : List Byte).length) := by
    rw [List.nil_append, List.length_nil]
    omega
  have clear : ¬ (q.last && !reservedClear o.index ([] ++ q.value)) = true := by
    rw [reservedClear_of_none hc]
    simp
  unfold writeSegment
  dsimp only
  rw [hp, if_neg (by rw [hb]; exact Bool.false_ne_true), if_neg (fun h => h claim), if_neg fits, if_neg clear, if_neg hr,
    if_pos hl]
  rfl

/-- What a token written as one segment does: a valid one unlocks its session (R54). -/
def tokenTaken (p : Path) (token : List Byte) (s : State) : Nat × State :=
  if Config.vendorTokenValid token Config.serialNumber = true then
    (St.ok, s.withDict { s.dict with
      partials := s.dict.partials.del (addrKey 0x0012 0 0),
      vendor := (sessionId p, s.servingPilot) :: s.dict.vendor.filter fun x => x.1 != sessionId p })
  else (St.badValue, s.withDict { s.dict with partials := s.dict.partials.del (addrKey 0x0012 0 0) })

/-- A token in one segment is judged at once (R54, R58). -/
theorem writeSegment_token {p : Path} {tag : BitVec 16} {token : List Byte} {s : State} (hl : token.length ≤ 240)
    (hb : 9 ≤ s.get Obj.bootStage ∨ p = .boot) (hp : s.partial_ p (addrKey 0x0012 0 0) = []) :
    writeSegment p (segReq tag 0x0012 0 0 token) Obj.vendorUnlock s = tokenTaken p token s := by
  have size : Obj.vendorUnlock.ty.size = 4294967295 := rfl
  have whole := writeSegment_whole (p := p) (q := segReq tag 0x0012 0 0 token) (o := Obj.vendorUnlock) (s := s)
    (by decide) rfl (busyFor_started hb (by decide) (by decide)) hp rfl rfl
    (show token.length ≤ Obj.vendorUnlock.ty.size by omega) rfl
  rw [whole]
  unfold takeDomain tokenTaken
  rw [if_neg (by decide), if_pos (show Obj.vendorUnlock.index = 0x0012 from rfl)]
  by_cases hv : Config.vendorTokenValid token Config.serialNumber = true
  · rw [if_pos hv]
    exact if_pos hv
  · rw [if_neg hv]
    exact if_neg hv

/-- VENDOR_UNLOCK in its turn (R54). -/
theorem exec_vendorUnlock {c : Client} {token : List Byte} {s : State}
    (turn : Turn c.path (segReq c.tag 0x0012 0 0 token) s) (hl : token.length ≤ 240)
    (hlev : 2 ≤ (s.takenBy c.path).levelOf c.path 0x0012 true)
    (hb : 9 ≤ (s.takenBy c.path).get Obj.bootStage ∨ c.path = .boot)
    (hp : (s.takenBy c.path).partial_ c.path (addrKey 0x0012 0 0) = []) :
    exec (.vendorUnlock c token) s = .next (answer c.path
      (respond (segReq c.tag 0x0012 0 0 token) (tokenTaken c.path token (s.takenBy c.path)).1)
      (tokenTaken c.path token (s.takenBy c.path)).2) := by
  have object : (s.takenBy c.path).object (segReq c.tag 0x0012 0 0 token) = .ok Obj.vendorUnlock := by
    unfold State.object
    rw [show rowOf (segReq c.tag 0x0012 0 0 token).index.toNat (segReq c.tag 0x0012 0 0 token).sub.toNat =
      some Obj.vendorUnlock from rowOf_vendorUnlock]
    rfl
  have length : (segReq c.tag 0x0012 0 0 token).length.toNat ≤ 240 := by
    change token.length % 2 ^ 16 ≤ 240
    omega
  have served := serveDict_writeSeg (p := c.path) rfl object rfl length (by decide) hlev
  rw [writeSegment_token hl hb hp] at served
  rw [exec_of_turn (i := .vendorUnlock c token) turn rfl rfl, carryOut_answered served]

/-- Settles O8: a token is one segment of a DOMAIN, and a lock a plain write. -/
theorem vendorLevelIsUnlockedAndLocked : Obligations.VendorLevelIsUnlockedAndLocked := by
  unfold Obligations.VendorLevelIsUnlockedAndLocked
  rintro c s u rfl
  refine ⟨fun token turn hl hlev hb hp => ?_, fun may => ?_⟩
  · rw [exec_vendorUnlock turn hl hlev hb hp]
    unfold tokenTaken
    split <;> rfl
  · exact clientWrites_plain Obj.vendorLock rfl may rowOf_vendorLock rfl (by decide) (by decide) (by decide) rfl rfl
      (.inr ⟨rfl, rfl, rfl, rfl, rfl⟩) rfl

end Sys2Proof.Machine
end

section
/-! SUPPORT. The two-wire target (R64, R572, R574, R582): one lemma for each transaction and each end of its wait. -/

namespace Sys2Proof.Machine

/-- A whole request whose PEC holds is taken while none is served (R582). -/
theorem exec_twoWireRequest_taken {s : State} {bytes : List Byte} {q : Request} (ha : byteAt bytes 0 = s.twAddress * 2)
    (hs : s.tw.serving = none) (hp : pec bytes = 0) (hl : 3 ≤ bytes.length) (hc : byteAt bytes 1 = 1)
    (hq : parseRequest (bytes.drop 2).dropLast = some q) : exec (.twoWireRequest bytes) s = .next (twAccept q s) := by
  change execTwoWireRequest bytes s = _
  unfold execTwoWireRequest
  rw [if_neg (fun h => h ha), if_neg (by simp [hs]), if_neg (by omega), if_neg (fun h => h hc), hq]

/-- A request whose PEC fails is discarded and reported (R574). -/
theorem exec_twoWireRequest_failed {s : State} {bytes : List Byte} (ha : byteAt bytes 0 = s.twAddress * 2)
    (hs : s.tw.serving = none) (hp : pec bytes ≠ 0) : exec (.twoWireRequest bytes) s =
      .next (raise Ev.twoWirePec 0 (byteAt bytes 1) 0 (s.withTw { s.tw with pecFailed := true, ready := none })) := by
  change execTwoWireRequest bytes s = _
  unfold execTwoWireRequest
  rw [if_neg (fun h => h ha), if_neg (by simp [hs]), if_pos (.inl hp)]

theorem exec_twoWireResponseReady {s : State} {r : Response} (h : s.tw.answer = some r) :
    exec .twoWireResponseReady s = .next (s.withTw { s.tw with serving := none, taken := none, answer := none,
                                                               ready := some r }) := by
  change execTwoWireResponseReady s = _
  unfold execTwoWireResponseReady
  rw [h]

/-- The response that is ready is read once, its PEC after it (R64, R572). -/
theorem completes_twoWireResponse (s : State) : Completes .twoWireResponse s fun t =>
    t.tw.ready = none ∧ t.tw.pecFailed = false ∧ t.tw.out.dropLast = s.twReadyBytes ∧
      t = { s with tw := { s.tw with out := t.tw.out, ready := none, pecFailed := false } } :=
  ⟨_, rfl, rfl, rfl, List.dropLast_concat, rfl⟩

/-- A request that no Pilot has taken for 1 ms is BUSY (R64). -/
theorem exec_twoWireUnserved {s : State} {q : Request} {at_ : Nat} (hs : s.tw.serving = some (q, at_))
    (ht : s.tw.taken = none) (ha : s.tw.answer = none) (he : s.elapsed at_ 1000000 = true) :
    exec .twoWireUnserved s = .next (s.withTw { s.tw with serving := none, ready := some (respond q St.busy) }) := by
  change execTwoWireUnserved s = _
  unfold execTwoWireUnserved
  rw [hs]
  exact congrArg Host.Outcome.next (if_pos ⟨ht, ha, he⟩)

theorem exec_alertResponseRead {s : State} (h : s.twAlertN = true) : exec .alertResponseRead s = .next { s with
    tw := { s.tw with out := [BitVec.ofNat 8 (s.twAddress * 2 + (Config.free s.drawn).toNat % 2)] },
    drawn := s.drawn + 1 } := by
  change execAlertResponseRead s = _
  unfold execAlertResponseRead
  rw [if_pos h]
  rfl

/-- Settles O11: each transaction of the target goes through one branch. -/
theorem twoWireTargetHoldsOneRequest : Obligations.TwoWireTargetHoldsOneRequest := by
  unfold Obligations.TwoWireTargetHoldsOneRequest
  intro s bytes
  refine ⟨fun ha hs => ⟨fun hp hl hc q hq => ?_, fun hp => ?_⟩, fun r => exec_twoWireResponseReady, ?_,
    fun q at_ => exec_twoWireUnserved, rfl, exec_alertResponseRead⟩
  · exact exec_twoWireRequest_taken ha hs hp hl hc hq
  · exact exec_twoWireRequest_failed ha hs hp
  · obtain ⟨t, ht, ready, failed, out, rest⟩ := completes_twoWireResponse s
    exact ⟨t, ht, ready, failed, out, rest⟩

end Sys2Proof.Machine
end

section
/-! SUPPORT. The PCIe endpoint (R90, R92, R93, R559, R584): what a reset empties, when the link trains, and the bits of the
vector causes and masks. -/

namespace Sys2Proof.Machine

/-! ### Bits -/

theorem bitOf_eq_testBit (v i : Nat) : bitOf v i = v.testBit i := by
  rw [Nat.testBit_eq_decide_div_mod_eq]
  unfold bitOf
  exact Bool.beq_eq_decide_eq _ _

theorem bitOf_clearMask (v mask i : Nat) : bitOf (clearMask v mask) i = (bitOf v i && !bitOf mask i) := by
  simp only [bitOf_eq_testBit, clearMask]
  change (v ^^^ (v &&& mask)).testBit i = _
  rw [Nat.testBit_xor, Nat.testBit_and]
  cases v.testBit i <;> cases mask.testBit i <;> rfl

theorem bitOf_clearBit_same {v i : Nat} (h : bitOf v i = true) : bitOf (clearBit v i) i = false := by
  have one : (v - 2 ^ i * 1) / 2 ^ i = v / 2 ^ i - 1 := Nat.sub_mul_div ..
  unfold clearBit
  rw [if_pos h]
  unfold bitOf at h ⊢
  rw [Nat.mul_one] at one
  rw [one]
  simp only [beq_iff_eq] at h
  simp only [beq_eq_false_iff_ne]
  omega

/-- A half of VECTOR_CAUSE as written: its bits in the whole word (R93). -/
theorem bitOf_half (upper : Bool) (value : Word32) (i : Nat) :
    bitOf (if upper then value.toNat * 2 ^ 32 else value.toNat) i =
      ((decide (32 ≤ i) == upper) && bitOf value.toNat (if upper then i - 32 else i)) := by
  simp only [bitOf_eq_testBit]
  cases upper with
  | true =>
    rw [if_pos rfl, if_pos rfl, Nat.testBit_mul_two_pow]
    simp
  | false =>
    by_cases h : 32 ≤ i
    · have high : value.toNat.testBit i = false :=
        Nat.testBit_lt_two_pow (Nat.lt_of_lt_of_le value.isLt (Nat.pow_le_pow_right (by decide) h))
      simp [high]
    · simp [h]

/-! ### Resets of the endpoint -/

/-- What an endpoint reset leaves of the host's interface (R92). -/
structure EndpointClear (s t : State) : Prop where
  slots : ∀ k, t.slot k = {}
  order : t.host.order = []
  causes : t.host.vectorCause = 0
  disabled : t.host.msixEnabled = false
  pba : t.host.pba = 0
  masked : t.host.unmasked = 0
  raw : t.host.rawStatus = 0
  orphans : t.host.orphans = s.host.orphans ++ s.host.order.filterMap s.untaken
  bollards : t.host.bollards = s.host.bollards
  quay : t.host.quay = s.host.quay
  rings : t.host.rings = s.host.rings
  active : t.dict.active = s.dict.active
  frames : t.frames = s.frames
  flow : t.flow = s.flow

theorem endpointClear_endpointReset (s : State) : EndpointClear s (endpointReset s) :=
  ⟨fun _ => rfl, rfl, rfl, rfl, rfl, rfl, rfl, rfl, rfl, rfl, rfl, rfl, rfl, rfl⟩

theorem endpointClear_loseLink (s : State) : EndpointClear s (loseLink s) :=
  ⟨fun _ => rfl, rfl, rfl, rfl, rfl, rfl, rfl, rfl, rfl, rfl, rfl, rfl, rfl, rfl⟩

/-- Each of the three resets clears the endpoint; a lost link is down (R92). -/
theorem exec_pcieReset_clears (kind : PcieResetKind) (s : State) : ∃ t, exec (.pcieReset kind) s = .next t ∧
    EndpointClear s t ∧ (kind = .linkLoss → t.host.linkUp = false) ∧ (kind ≠ .linkLoss → t.host.linkUp = s.host.linkUp) := by
  cases kind with
  | functionLevel => exact ⟨_, rfl, endpointClear_endpointReset s, nofun, fun _ => rfl⟩
  | hotReset => exact ⟨_, rfl, endpointClear_endpointReset s, nofun, fun _ => rfl⟩
  | linkLoss => exact ⟨_, rfl, endpointClear_loseLink s, fun _ => rfl, fun h => absurd rfl h⟩

/-! ### The link trains -/

theorem exec_perst_high (s : State) :
    exec (.pciePerst true) s = .next (linkMayReturn (s.withHost { s.host with perstHigh := true })) := rfl

/-- PERST_N high lets a device that may train bring its link up (R559). -/
theorem exec_perst_trains {s : State} (hs : bitOf (s.get Obj.straps) 5 = false) (hh : s.boot.held = false)
    (hd : s.deckUp 0 = true) (hl : s.host.linkUp = false) :
    exec (.pciePerst true) s = .next (linkReturns (s.withHost { s.host with perstHigh := true })) := by
  have may : (s.withHost { s.host with perstHigh := true }).pcieMayTrain = true := by
    change (true && !bitOf (s.get Obj.straps) 5 && !s.boot.held && s.deckUp 0) = true
    rw [hs, hh, hd]
    rfl
  rw [exec_perst_high]
  unfold linkMayReturn
  rw [may, if_pos (by rw [State.withHost_host, hl]; rfl)]

theorem exec_perst_held {s : State} (hh : s.boot.held = true) :
    exec (.pciePerst true) s = .next (s.withHost { s.host with perstHigh := true }) := by
  have held : (s.withHost { s.host with perstHigh := true }).pcieMayTrain = false := by
    change (true && !bitOf (s.get Obj.straps) 5 && !s.boot.held && s.deckUp 0) = false
    rw [hh]
    simp
  rw [exec_perst_high]
  unfold linkMayReturn
  rw [held]
  rfl

/-- A trained link is up, at one of its rates and widths (R90). -/
theorem trainLink_host (s : State) : (trainLink s).host.linkUp = true ∧ (trainLink s).host.linkRate ∈ [1, 2, 3, 4, 5] ∧
    (trainLink s).host.linkLanes ∈ [1, 2, 4] := by
  refine ⟨rfl, ?_, ?_⟩
  · change (Config.free s.drawn).toNat % 5 + 1 ∈ [1, 2, 3, 4, 5]
    simp only [List.mem_cons, List.not_mem_nil, or_false]
    omega
  · change 2 ^ ((Config.free (s.drawn + 1)).toNat % 3) ∈ [1, 2, 4]
    have third : (Config.free (s.drawn + 1)).toNat % 3 = 0 ∨ (Config.free (s.drawn + 1)).toNat % 3 = 1 ∨
        (Config.free (s.drawn + 1)).toNat % 3 = 2 := by omega
    rcases third with h | h | h <;> rw [h] <;> decide

theorem exec_pcieLinkDown_returns {s : State} {at_ : Nat} (hm : s.pcieMayTrain = true) (hl : s.host.lostAt = some at_) :
    exec .pcieLinkDown s = .next (ringsResume (raise Ev.pcieLinkDown 0 (capAt 0xFFFFFFFF
      (((trainLink s).withHost { (trainLink s).host with lostAt := none }).sinceNs at_ / 1000)) 0
      ((trainLink s).withHost { (trainLink s).host with lostAt := none }))) := by
  have lost : (trainLink s).host.lostAt = some at_ := hl
  change execPcieLinkDown s = _
  unfold execPcieLinkDown linkReturns
  rw [if_pos ⟨hm, by rw [hl]; rfl⟩]
  dsimp only
  rw [lost]
  rfl

/-! ### Vectors -/

/-- Unmasking a vector sends its pending message (R584). -/
theorem completes_msixUnmask {s : State} {v : Fin 64} (he : s.host.msixEnabled = true) (hf : s.host.functionMask = false)
    (hp : bitOf s.host.pba v.val = true) :
    Completes (.msixUnmask v) s fun t => t.host.messages.getD v.val 0 = s.host.messages.getD v.val 0 + 1 ∧
      bitOf t.host.pba v.val = false ∧ bitOf t.host.unmasked v.val = true ∧
      t = { s with host := { s.host with unmasked := t.host.unmasked, pba := t.host.pba, messages := t.host.messages } } := by
  have sent : exec (.msixUnmask v) s = .next (s.withHost { s.host with
      unmasked := setBit s.host.unmasked v.val
      pba := clearBit s.host.pba v.val
      messages := NMap.modify 0 s.host.messages v.val (· + 1) }) :=
    congrArg Host.Outcome.next (if_pos ⟨he, hf, bitOf_setBit_same .., hp⟩)
  have one := (NMap.getD_modify 0 s.host.messages v.val (· + 1) v.val).trans (if_pos rfl)
  exact ⟨_, sent, one, bitOf_clearBit_same hp, bitOf_setBit_same .., rfl⟩

/-- Settles O12: a reset empties the host's interface; the bits of the causes and masks are those of the words written. -/
theorem endpointResetsAndVectorsClear : Obligations.EndpointResetsAndVectorsClear := by
  unfold Obligations.EndpointResetsAndVectorsClear
  refine ⟨fun s kind => ⟨?_, ?_, exec_perst_trains, exec_perst_held, ?_⟩, fun s => ⟨?_, fun v => completes_msixUnmask⟩⟩
  · obtain ⟨t, ht, clear, lost, kept⟩ := exec_pcieReset_clears kind s
    obtain ⟨slots, order, causes, disabled, pba, masked, raw, orphans, bollards, quay, rings, active, frames, flow⟩ := clear
    exact ⟨t, ht, slots, order, causes, disabled, pba, masked, raw, orphans, bollards, quay, rings, lost, kept, active,
      frames, flow⟩
  · exact ⟨_, rfl, fun _ => rfl, rfl, rfl, rfl, rfl⟩
  · intro at_ hm hl
    obtain ⟨up, rate, lanes⟩ := trainLink_host s
    exact ⟨_, rfl, up, rate, lanes, exec_pcieLinkDown_returns hm hl⟩
  · intro upper value _
    refine ⟨_, rfl, fun i _ => ?_, rfl⟩
    exact (bitOf_clearMask ..).trans (by rw [bitOf_half])

end Sys2Proof.Machine
end

section
/-! SUPPORT. The link of a front port (R127, R129, R130, R143): fault, alignment, and its declarations down and up. -/

namespace Sys2Proof.Machine

/-! ### The receive path -/

/-- A fault of the receive path goes on from the one before it (R127). -/
theorem completes_rxFaultBegin (s : State) (port : FrontPort) (cause : RxFault) :
    Completes (.rxFaultBegin port cause) s fun t =>
      t.link port.val = { s.link port.val with
        fault := some (faultCode cause, ((s.link port.val).fault.map (·.2)).getD s.time.ticks), aligned := none } ∧
      (∀ q, q ≠ port.val → t.link q = s.link q) ∧ t = { s with links := t.links } := by
  refine ⟨_, rfl, ?_, fun q hq => State.link_setLink_other _ _ hq, rfl⟩
  refine (State.link_setLink_same ..).trans ?_
  cases (s.link port.val).fault <;> rfl

/-- Alignment ends a fault, and the up debounce goes on from where it began (R127). -/
theorem completes_alignmentAcquired {s : State} {port : FrontPort} (hj : (s.link port.val).jtag = false) :
    Completes (.alignmentAcquired port) s fun t =>
      t.link port.val = { s.link port.val with
        fault := none, aligned := some ((s.link port.val).aligned.getD s.time.ticks) } ∧
      (∀ q, q ≠ port.val → t.link q = s.link q) ∧ t = { s with links := t.links } := by
  refine ⟨_, congrArg Host.Outcome.next (if_neg (by rw [hj]; exact Bool.false_ne_true)), ?_,
    fun q hq => State.link_setLink_other _ _ hq, rfl⟩
  refine (State.link_setLink_same ..).trans ?_
  cases (s.link port.val).aligned <;> rfl

/-! ### Down -/

/-- A fault that has lasted takes an UP link down (R127, R129). -/
theorem exec_linkDown_lasted {s : State} {port : FrontPort} {cause t0 : Nat} (hf : (s.link port.val).fault = some (cause, t0))
    (h2 : s.linkState port.val = 2) (he : s.elapsed t0 (s.get Obj.linkDownDebounceNs port.val) = true) :
    exec (.linkDown port) s = .next (declareDown port.val cause s) := by
  change execLinkDown port s = _
  unfold execLinkDown
  rw [hf]
  exact congrArg Host.Outcome.next (if_pos ⟨h2, he⟩)

/-- A link that goes down is reported, and flushed or held (R129, R130). -/
theorem declareDown_eq (port cause : Nat) (s : State) : ∃ u v, u = linkLost port s ∧
    v = raise Ev.linkDown port cause 0
      ((u.setLink port { u.link port with downAt := some u.time.ticks, remoteFault := true }).bump Obj.linkDowns port) ∧
    declareDown port cause s = if v.get Obj.linkHoldNs port = 0 then flushPort port 0 (v.set Obj.linkState port 4)
      else cutTransmission port (v.set Obj.linkState port 3) := by
  refine ⟨_, _, rfl, rfl, ?_⟩
  unfold declareDown
  rfl

/-- A HELD port whose hold has run out is flushed (R130). -/
theorem holdExpire_over {s : State} {port : Nat} (h3 : s.linkState port = 3)
    (he : ∀ t0, (s.link port).downAt = some t0 → s.elapsed t0 (s.get Obj.linkHoldNs port) = true) :
    holdExpire port s = flushPort port 1 (s.set Obj.linkState port 4) := by
  have ended : s.holdOver port = true := by
    unfold State.holdOver
    rw [h3]
    cases hd : (s.link port).downAt with
    | none => rfl
    | some t0 => exact he t0 hd
  unfold holdExpire
  rw [if_pos ended]

/-! ### Up -/

/-- Alignment that has lasted takes a link up (R127). -/
theorem exec_linkUp_lasted {s : State} {port : FrontPort} {t0 : Nat} (hf : (s.link port.val).fault = none)
    (ha : (s.link port.val).aligned = some t0)
    (hs : s.linkState port.val = 1 ∨ s.linkState port.val = 3 ∨ s.linkState port.val = 4)
    (hd : s.deckUp (deckOfPort port.val) = true) (hx : s.portExists port.val = true)
    (he : s.elapsed t0 (s.get Obj.linkUpDebounceNs port.val) = true) :
    exec (.linkUp port) s = .next (declareUp port.val s) := by
  change execLinkUp port s = _
  unfold execLinkUp
  dsimp only
  rw [hf, ha]
  exact congrArg Host.Outcome.next (if_pos ⟨hs, hd, hx, he⟩)

/-- The state in which a link is declared up, before it is reported (R127). -/
def linkIsUp (port : Nat) (s : State) : State :=
  ((s.set Obj.linkState port 2).set Obj.linkSpeed port (s.speed port)).setLink port
    { s.link port with downAt := none, emptySince := s.time.ticks, flushed := false, remoteFault := false }

/-- Declaring a link up changes its state and speed alone. -/
theorem linkIsUp_kept {port : Nat} (hp : port < 65536) (s : State) :
    ObjectsKept (fun i _ n => (i == Obj.linkState.index || i == Obj.linkSpeed.index) && n == port) s (linkIsUp port s) := by
  intro o sub inst hb hn hbut
  have other : ∀ x : ObjRow, (x = Obj.linkState ∨ x = Obj.linkSpeed) →
      addrKey o.index sub inst ≠ addrKey x.index x.sub port := by
    rintro x hx e
    obtain ⟨hi, -, rfl⟩ := addrKey_inj hb (by rcases hx with rfl | rfl <;> decide) hn hp e
    rcases hx with rfl | rfl <;> simp [hi] at hbut
  exact (State.getS_setS _ _ _ _ _ _ _ _ (other _ (.inr rfl))).trans (State.getS_setS _ _ _ _ _ _ _ _ (other _ (.inl rfl)))

theorem linkIsUp_get {port : Nat} (hp : port < 65536) {o : ObjRow} (h1 : o.apart Obj.linkState = true)
    (h2 : o.apart Obj.linkSpeed = true) (s : State) : (linkIsUp port s).get o port = s.get o port :=
  (State.get_set_apart _ h2 _ hp hp).trans (State.get_set_apart _ h1 _ hp hp)

theorem linkIsUp_linkState {port : Nat} (hp : port < 65536) (s : State) :
    (linkIsUp port s).get Obj.linkState port = 2 :=
  (State.get_set_apart _ (by decide) _ hp hp).trans (State.get_set_same ..)

theorem linkIsUp_linkSpeed (port : Nat) (s : State) : (linkIsUp port s).get Obj.linkSpeed port = s.speed port :=
  State.get_set_same (s.set Obj.linkState port 2) Obj.linkSpeed port (s.speed port)

theorem linkIsUp_link (port : Nat) (s : State) : (linkIsUp port s).link port =
    { s.link port with downAt := none, emptySince := s.time.ticks, flushed := false, remoteFault := false } :=
  State.link_setLink_same ..

theorem linkIsUp_speed {port : Nat} (hp : port < 65536) (s : State) : (linkIsUp port s).speed port = s.speed port := by
  have mode : (linkIsUp port s).get Obj.lanePortMode port = s.get Obj.lanePortMode port :=
    linkIsUp_get hp (by decide) (by decide) s
  unfold State.speed
  rw [mode]

/-- How long a link was down, as it is reported. -/
def downFor (port : Nat) (s : State) : Nat :=
  match (s.link port).downAt with
  | some t => if s.linkState port = 1 then 0 else s.sinceNs t
  | none => 0

/-- A link that is not HELD too long comes up; a HELD one takes up its queues again (R127, R130). -/
theorem declareUp_eq {port : Nat} (hp : port < 65536) {s : State} (hh : s.holdOver port = false) :
    declareUp port s = if s.linkState port = 3 then
        resumeHold port (raise Ev.linkUp port (s.speed port) (downFor port s) (linkIsUp port s))
      else raise Ev.linkUp port (s.speed port) (downFor port s) (linkIsUp port s) := by
  have kept : holdExpire port s = s := if_neg (by rw [hh]; exact Bool.false_ne_true)
  rw [← linkIsUp_speed hp s]
  unfold declareUp
  dsimp only
  rw [kept]
  rfl

/-- Settles O15: fault and alignment are kept in the port's link; each declaration is one branch of the model's. -/
theorem linkStateFollowsReceivePath : Obligations.LinkStateFollowsReceivePath := by
  unfold Obligations.LinkStateFollowsReceivePath
  refine ⟨?_, fun s port t0 t1 hf ha h3 hd he hup hx hu => ?_⟩
  · rintro s port l rfl
    have hp : port.val < 65536 := by omega
    refine ⟨completes_rxFaultBegin s port, ?_, completes_alignmentAcquired, ?_, ?_, ?_⟩
    · obtain ⟨t, ht, link, others, rest⟩ := completes_rxFaultBegin s port .trainingFailed
      exact ⟨t, ht, by rw [link]; rfl, by rw [link], others, rest⟩
    · intro cause t0 hf h2 he
      obtain ⟨u, v, hu, hv, down⟩ := declareDown_eq port.val cause s
      exact ⟨u, v, hu, hv, by rw [exec_linkDown_lasted hf h2 he, down]⟩
    · intro t0 hf ha hs hd hx he
      have free : s.holdOver port.val = false := by
        unfold State.holdOver
        rcases hs with h | h <;> rw [h] <;> rfl
      refine ⟨downFor port.val s, linkIsUp port.val s, ?_, linkIsUp_linkState hp s, linkIsUp_linkSpeed _ s, ?_, ?_,
        fun q hq => State.link_setLink_other _ _ hq, linkIsUp_kept hp s⟩
      · rw [exec_linkUp_lasted hf ha (hs.imp_right .inr) hd hx he, declareUp_eq hp free, if_neg (by omega)]
      · rw [linkIsUp_link]
      · rw [linkIsUp_link]
    · intro h3 he
      exact congrArg Host.Outcome.next (holdExpire_over h3 he)
  · have hp : port.val < 65536 := by omega
    have free : s.holdOver port.val = false := by
      unfold State.holdOver
      rw [h3, hd]
      exact he
    have since : downFor port.val s = s.sinceNs t1 := by
      unfold downFor
      rw [hd]
      exact if_neg (by omega)
    refine ⟨linkIsUp port.val s, ?_, linkIsUp_linkState hp s, rfl⟩
    rw [exec_linkUp_lasted hf ha (.inr (.inl h3)) hup hx hu, declareUp_eq hp free, if_pos h3, since]

end Sys2Proof.Machine
end

section
/-! SUPPORT. UCODE_LOAD at level 1: the object asks for level 2 (CONFIGURE), so the write of a session of level 1 is
answered ACCESS and loads nothing (R50, R51). -/

namespace Sys2Proof.Machine

theorem rowOf_ucodeLoad : rowOf 0x2130 0 = some Obj.ucodeLoad := rfl

theorem noteBytes_parse (port dir n : Nat) (s : State) : (noteBytes port dir n s).parse = s.parse := by
  unfold noteBytes
  dsimp only
  split <;> rfl

theorem sendAcpAnswer_parse (a : AcpPending) (r : Response) (s : State) : (sendAcpAnswer a r s).parse = s.parse := by
  unfold sendAcpAnswer
  dsimp only
  split
  · exact noteBytes_parse ..
  · exact noteBytes_parse ..
  · rfl

/-- Answering a request leaves the parse engines and their stores alone. -/
theorem answer_parse (p : Path) (r : Response) (s : State) : (answer p r s).parse = s.parse := by
  unfold answer
  split
  · dsimp only
    split <;> rfl
  · rfl
  · split
    · rfl
    · exact sendAcpAnswer_parse ..
  · dsimp only
    split
    · rfl
    · exact raise_parse _ _ _ _ _ (by decide)

/-- A write that is below its object's level leaves the parse engines and their stores alone (R50, R51). -/
theorem carryOut_low_parse {p : Path} {q : Request} {o : ObjRow} {s : State} (ho : s.object q = .ok o) (hop : q.opcode = 2)
    (hl : s.levelOf p q.index.toNat true < o.level) : (carryOut p q s).parse = s.parse := by
  have refused : serveDict p q s = (some (respond q St.access),
      raise Ev.accessDenied 0 (sessionId p) (addrKey q.index.toNat q.sub.toNat q.inst.toNat) s) := by
    unfold serveDict serveObject
    simp [hop, ho, hl]
  rw [carryOut_answered refused, answer_parse]
  exact raise_parse _ _ _ _ _ (by decide)

/-- A client of an ACP key whose level is 1, and its write of UCODE_LOAD. -/
def levelOneClient : Client := { path := .acp 0 0 0 }

/-- Its write: pipe 0, one page of 240 bytes. -/
def levelOneLoad : Request := writeReq 0 0x2130 0 0 (leBytes 8 240)

/-- A device that has started, with page 0 its own, and the write waiting in its session. -/
def levelOneState : State :=
  let s := (((State.reset.withBoot { held := false, stage := 10 }).set Obj.bootStage 0 9).set Obj.acpKeyLevel 0 1).setBollard 0 1
  s.withFabric { s.fabric with
    acp := [{ device := 0, keySlot := 0, seq := 0, request := levelOneLoad, since := 0, port := 0, key := 0 }] }

theorem levelOneClient_may : ClientMay levelOneClient 0x2130 0 (0 : Pipe).val (leBytes 8 (240 : Word64).toNat) 1 levelOneState := by
  refine ⟨⟨rfl, by decide, by decide, by decide, by decide⟩, by decide, .inl (by decide)⟩

theorem levelOne_loads_nothing (t : State) (h : exec (.ucodeLoad levelOneClient 0 240) levelOneState = .next t) :
    t.parse.jobs.find 0 = none := by
  obtain ⟨turn, -, -⟩ := levelOneClient_may
  have object : (levelOneState.takenBy levelOneClient.path).object levelOneLoad = .ok Obj.ucodeLoad := by
    unfold State.object
    rw [show rowOf levelOneLoad.index.toNat levelOneLoad.sub.toNat = some Obj.ucodeLoad from rowOf_ucodeLoad]
    rfl
  have carried : exec (.ucodeLoad levelOneClient 0 240) levelOneState =
      .next (carryOut levelOneClient.path levelOneLoad (levelOneState.takenBy levelOneClient.path)) :=
    exec_of_turn turn rfl rfl
  rw [← Host.Outcome.next.inj (carried.symm.trans h), carryOut_low_parse object rfl (by decide)]
  rfl

/-- Refutes O22: UCODE_LOAD asks for level 2 (CONFIGURE); in `levelOneState` a client of level 1 satisfies the
statement's hypotheses, its write is answered ACCESS, and no load begins. -/
theorem not_controlStoresAndClustersAreRepaired : ¬ Obligations.ControlStoresAndClustersAreRepaired := by
  unfold Obligations.ControlStoresAndClustersAreRepaired
  rintro ⟨h, -⟩
  obtain ⟨-, -, load, -⟩ := h levelOneState
  have loaded := load levelOneClient 0 240 _ rfl levelOneClient_may (by decide) (by decide) (by decide) (by decide) (by decide)
  have none_ := levelOne_loads_nothing _ loaded
  rw [answer_parse] at none_
  exact absurd none_ (by decide)

end Sys2Proof.Machine
end

section
/-! SUPPORT. Transmissions and gates of a port (R138, R140, R366 to R368, R372, R416): one lemma for each branch of the
start, the end, the gate list's change and the refresh. -/

namespace Sys2Proof.Machine

/-! ### The start of a transmission -/

theorem exec_txStartBoundary_bare {s : State} {port : Port} {t : Sending}
    (hs : (s.tmPort port.val).sending = some t) (ht : t.txTime = none) (he : t.entry = none) :
    exec (.txStartBoundary port) s = .next (s.setTmPort port.val
      { s.tmPort port.val with sending := some { t with txTime := some s.time.now } }) := by
  change execTxStartBoundary port s = _
  unfold execTxStartBoundary
  dsimp only
  rw [hs]
  dsimp only
  rw [if_neg (by simp [ht]), he]

/-- A frame that takes no measurement, correction, tag or report passes its boundary with its time alone (R416). -/
theorem passBoundary_plain {port : Nat} {t : Sending} {e : QEntry} {x y : Frame} {s : State} (hi : y.home.ioam = false)
    (hc : y.cookie = none) (hf : s.ferry port = false)
    (hp : s.corrected port y (overlays (overlays (s.outBytes e.frame) e.marks) []) = none) :
    passBoundary port t e x y s = s.setTmPort port
      { s.tmPort port with sending := some { t with txTime := some s.time.now, fills := [], tag := [] } } := by
  have measured : ioamFills port y t e (overlays (s.outBytes e.frame) e.marks) s = ([], s) := by
    unfold ioamFills
    simp [hi]
  have corrected : ptpFills port y (overlays (overlays (s.outBytes e.frame) e.marks) []) s = ([], s) := by
    unfold ptpFills
    rw [hp]
  have tagged : ferryTagOut port x y s = ([], s) := by
    unfold ferryTagOut
    simp [hf]
  unfold passBoundary injectTimestamp
  dsimp only
  rw [measured]
  dsimp only
  rw [corrected]
  dsimp only
  rw [tagged, hc]
  rfl

theorem exec_txStartBoundary_frame {s : State} {port : Port} {t : Sending} {e : QEntry} {x y : Frame}
    (hs : (s.tmPort port.val).sending = some t) (ht : t.txTime = none) (he : t.entry = some e)
    (hx : s.frame e.frame = some x) (hy : s.body e.frame = some y) (hp : port.val < 128) :
    exec (.txStartBoundary port) s = .next (passBoundary port.val t e x y s) := by
  change execTxStartBoundary port s = _
  unfold execTxStartBoundary
  dsimp only
  rw [hs]
  dsimp only
  rw [if_neg (by simp [ht]), he]
  dsimp only
  rw [hx, hy]
  exact congrArg Host.Outcome.next (if_neg (by omega))

/-! ### The end of a transmission -/

/-- A frame that is over is counted, and its pointer dropped (R140). -/
theorem exec_txEnd_frame {s : State} {port : Port} {t : Sending} {e : QEntry}
    (hs : (s.tmPort port.val).sending = some t) (he : t.entry = some e) (ho : s.txOver port.val t = true)
    (hp : port.val < 128) : exec (.txEnd port) s = .next (pfcSend port.val (dropPointer e.frame
      (endSending port.val (countSent port.val t e s)))) := by
  change execTxEnd port s = _
  unfold execTxEnd
  dsimp only
  rw [hs]
  dsimp only
  rw [if_neg (by simp [ho]), he]
  dsimp only
  rw [if_pos hp]

/-- A PFC frame that is over is counted (R138). -/
theorem exec_txEnd_pfc {s u : State} {port : Port} {t : Sending}
    (hs : (s.tmPort port.val).sending = some t) (he : t.entry = none) (ho : t.end_ ≤ s.time.ticks)
    (hu : u = (endSending port.val s).bump Obj.pfcTxFrames port.val) :
    exec (.txEnd port) s = .next (pfcSend port.val (noteBytes port.val 1 (t.bytes.length + 4)
      (u.setLink port.val { u.link port.val with out := t.bytes ++ leBytes 4 (fcs32 t.bytes) }))) := by
  subst hu
  have ended : s.txOver port.val t = true := by
    unfold State.txOver
    rw [he]
    exact decide_eq_true ho
  change execTxEnd port s = _
  unfold execTxEnd
  dsimp only
  rw [hs]
  dsimp only
  rw [if_neg (by simp [ended]), he]

/-! ### Gates -/

/-- A pending gate list takes over at its time (R367, R368). -/
theorem exec_gateConfigChanged_due {s u v : State} {port : Port} {ct cycle : Nat} {bs : List Byte}
    (hp : (s.tmPort port.val).pendingGate = some (ct, cycle, bs)) (ht : 0 ≤ timeDiff s.now80 ct)
    (hg : s.operGates port.val = none)
    (hu : u = s.setTmPort port.val { s.tmPort port.val with pendingGate := none, gateEntry := 0 })
    (hv : v = (((u.set Obj.operBaseTime port.val ct).set Obj.operCycleTimeNs port.val cycle).setDom Obj.operList
      port.val bs).set Obj.configPending port.val 0) :
    exec (.gateConfigChanged port) s =
      .next (raise Ev.gateConfigChanged port.val (s.group 0x39 port.val).generation (ct % 2 ^ 32) v) := by
  have generation : (v.group 0x39 port.val).generation = (s.group 0x39 port.val).generation := by
    rw [hv, hu]
    rfl
  rw [← generation]
  change execGateConfigChanged port s = _
  unfold execGateConfigChanged
  dsimp only
  rw [hp]
  dsimp only
  rw [if_neg (by omega), hg, hv, hu]

/-- A PFC request that stands is repeated (R372). -/
theorem exec_pfcRefresh_one {s : State} {port : FrontPort} {pr at_ : Nat} (hx : (s.link port.val).xoff = [(pr, at_)])
    (he : s.elapsed at_ (s.get Obj.pfcRefreshNs) = true)
    (hc : s.getS Obj.pfcXonCells (pr + 1) port.val ≤ s.getS Obj.ingressCells (pr + 1) port.val) :
    exec (.pfcRefresh port) s = .next (pfcSend port.val (pfcAsk port.val pr (s.get Obj.pfcQuanta) s)) := by
  have due : ([(pr, at_)].filter fun x => s.elapsed x.2 (s.get Obj.pfcRefreshNs) &&
      decide (s.getS Obj.pfcXonCells (x.1 + 1) port.val ≤ s.getS Obj.ingressCells (x.1 + 1) port.val)) = [(pr, at_)] := by
    simp [he, hc]
  change execPfcRefresh port s = _
  unfold execPfcRefresh
  dsimp only
  rw [hx, due]
  rfl

/-- Settles O33: each of the commands goes through one branch of the model. -/
theorem transmissionsAndGatesFollowTime : Obligations.TransmissionsAndGatesFollowTime := by
  unfold Obligations.TransmissionsAndGatesFollowTime
  refine ⟨fun s port t hs => ⟨exec_txStartBoundary_bare hs, ?_, fun e => exec_txEnd_frame hs, fun u => exec_txEnd_pfc hs⟩,
    fun s => ⟨fun port => rfl, ?_, ?_⟩⟩
  · intro e x y ht he hx hy hp hi hc hf hcor
    rw [exec_txStartBoundary_frame hs ht he hx hy hp, passBoundary_plain hi hc hf hcor]
  · intro port ct cycle bs u v hp ht hg hu hv
    exact exec_gateConfigChanged_due hp ht hg hu hv
  · intro port pr at_ hx he hc
    exact exec_pfcRefresh_one hx he hc

end Sys2Proof.Machine
end

section
/-! SUPPORT. Patrol, sparing and retraining of the HBM stacks (R399 to R403): one lemma for each step's branch. -/

namespace Sys2Proof.Machine

/-- Reporting an event leaves the controllers as they are. -/
theorem raise_pc {code : Nat} (hc : code < 65536) (inst a b : Nat) (s : State) (c : Nat) :
    (raise code inst a b s).pc c = s.pc c := by
  unfold State.pc
  rw [raise_hbm _ _ _ _ _ hc]

/-! ### Patrol -/

/-- The patrol reads the next burst of a pass that has begun (R399). -/
theorem exec_patrolScrub_next {s u : State} {d : Deck} {ecc : EccResult} {b : Nat} {y : Place}
    (hb : b = s.hbm.patrol.getD d.val 0) (h0 : b ≠ 0) (hy : y = s.place d.val b)
    (hl : s.pcLive (d.val * 32 + y.pc) = true)
    (hu : u = acceptBurst (d.val * 32 + y.pc) { rr := .scrub, write := false, burst := b, bank := y.bank, row := y.row,
                                                since := s.time.ticks, patrol := some ecc } s) :
    exec (.patrolScrub d ecc) s = .next
      ((u.withHbm { u.hbm with patrol := NMap.set 0 u.hbm.patrol d.val ((b + 1) % 2 ^ 28) }).set Obj.patrolPosition d.val
        ((b + 1) % 2 ^ 28 / 8192)) := by
  have due : s.patrolDue d.val = true := by
    unfold State.patrolDue
    rw [← hb, bne_iff_ne.mpr h0]
    rfl
  change execPatrolScrub d ecc s = _
  unfold execPatrolScrub
  dsimp only
  rw [← hb, ← hy, if_neg (by simp [hl, due]), if_neg h0, ← hu]

/-! ### Spares -/

/-- A spare that is free is taken (R401). -/
theorem startSpare_free {s u v : State} {c cause : Nat} (hp : s.anyPilot = true) (h0 : s.get Obj.pcState c = 0)
    (hf : bitOf (s.get Obj.spareFree (c / 32)) (c % 32 / 16) = true)
    (hu : u = ((s.set Obj.spareFree (c / 32) (clearBit (s.get Obj.spareFree (c / 32)) (c % 32 / 16))).set
      Obj.pcState c 1).set Obj.spareProgress c 0)
    (hv : v = setPc c { s.pc c with copyAt := some s.time.ticks, copied := 0, copyFrom := s.time.ticks } u) :
    startSpare c cause s = raise Ev.spareStarted c cause 0 v := by
  subst hu hv
  unfold startSpare
  dsimp only
  rw [if_neg (by simp [hp]), if_neg (by simp [hf, h0])]
  rfl

/-- A spare whose copy is done serves its pseudo-channel (R401). -/
theorem exec_spareDone_copied {s : State} {pc : Pc} {t : Nat} (h1 : s.get Obj.pcState pc.val = 1)
    (hl : s.pcLive pc.val = true) (ht : (s.pc pc.val).copyAt = some t) (hr : 16384 ≤ s.copyRows pc.val) :
    exec (.spareDone pc) s = .next (raise Ev.spareDone pc.val 0 (s.sinceNs t) (((setPc pc.val
      { s.pc pc.val with copyAt := none } ((s.set Obj.pcState pc.val 2).set Obj.spareProgress pc.val 16384)).add
        Obj.burstsRead pc.val 8388608).add Obj.burstsWritten pc.val 8388608)) := by
  have serves : (s.get Obj.pcState pc.val == 1 && s.pcLive pc.val) = true := by simp [h1, hl]
  change execSpareDone pc s = _
  unfold execSpareDone
  dsimp only
  rw [serves, ht]
  exact congrArg Host.Outcome.next (if_pos hr)

/-! ### Retraining -/

/-- A step is made while none has to wait (R403). -/
theorem exec_retrainStep_turn {s : State} {pc : Pc} {turn : Bool} (hl : s.pcLive pc.val = true)
    (hw : s.stepWaits pc.val = false) (hr : s.hbm.retraining.find (pc.val / 32) = some (pc.val % 32, turn))
    (lane : Option (BitVec 8)) (left : Nat) :
    exec (.retrainStep pc lane left) s = .next (trainStep pc.val (lane.map BitVec.toNat) left s) := by
  change execRetrainStep pc lane left s = _
  unfold execRetrainStep
  dsimp only
  rw [if_neg (by simp [hl, hw]), hr]
  exact congrArg Host.Outcome.next (if_pos rfl)

/-- A counted step of a pseudo-channel (R403). -/
def stepped (c : Nat) (s : State) : State := setPc c { s.pc c with steps := (s.pc c).steps + 1, stepAt := s.time.ticks } s

theorem trainStep_plain {c : Nat} {s : State} (h : (s.pc c).steps < 63) (left : Nat) :
    trainStep c none left s = stepped c s := by
  unfold trainStep
  dsimp only
  rw [State.pc_setPc_same]
  exact if_neg (by dsimp only; omega)

/-- A failed lane is moved to a redundant one (R403). -/
theorem trainStep_repaired {c : Nat} {s : State} (h : (s.pc c).steps < 63) (lane left : Nat) :
    trainStep c (some lane) (left + 1) s = raise Ev.laneRepaired c lane left ((stepped c s).bump Obj.lanesRepaired c) := by
  have few : ¬ 64 ≤ ((raise Ev.laneRepaired c lane left ((stepped c s).bump Obj.lanesRepaired c)).pc c).steps := by
    rw [raise_pc (by decide)]
    change ¬ 64 ≤ ((stepped c s).pc c).steps
    unfold stepped
    rw [State.pc_setPc_same]
    dsimp only
    omega
  unfold trainStep
  dsimp only
  rw [if_neg (by omega)]
  exact if_neg few

theorem trainStep_failed (c lane : Nat) (s : State) : trainStep c (some lane) 0 s = startSpare c 3 (endTrain c
    (raise Ev.retrainFailed c lane 0 ((stepped c s).bump Obj.retrainFails c))) := by
  unfold trainStep
  exact if_pos rfl

/-! ### Priorities of the requesters -/

theorem rowOf_reqPriority {n : Nat} (h1 : 1 ≤ n) (h6 : n ≤ 6) : rowOf 0x6010 n = some Obj.reqPriority := by
  obtain rfl | rfl | rfl | rfl | rfl | rfl : n = 1 ∨ n = 2 ∨ n = 3 ∨ n = 4 ∨ n = 5 ∨ n = 6 := by omega
  all_goals rfl

theorem rowOf_reqBurstLimit {n : Nat} (h1 : 1 ≤ n) (h6 : n ≤ 6) : rowOf 0x6011 n = some Obj.reqBurstLimit := by
  obtain rfl | rfl | rfl | rfl | rfl | rfl : n = 1 ∨ n = 2 ∨ n = 3 ∨ n = 4 ∨ n = 5 ∨ n = 6 := by omega
  all_goals rfl

theorem rowOf_spareRequest : rowOf 0x6041 0 = some Obj.spareRequest := rfl

/-- A priority or a burst limit is stored (R388). -/
theorem clientWrites_reqPriority {c : Client} {limit : Bool} {rr : BitVec 8} {d : Deck} {value : Byte} {s : State}
    (may : ClientMay c (if limit = true then 0x6011 else 0x6010) rr.toNat d.val [value] 2 s) (h1 : 1 ≤ rr.toNat)
    (h6 : rr.toNat ≤ 6) (hp : limit = false → value.toNat ≤ 7) (hl : limit = true → 1 ≤ value.toNat ∧ value.toNat ≤ 64) :
    ClientWrites (.reqPriorityWrite c limit rr d value) c (if limit = true then 0x6011 else 0x6010) rr.toNat d.val
      [value] s fun u => u.setS (if limit = true then Obj.reqBurstLimit else Obj.reqPriority) rr.toNat d.val value.toNat := by
  cases limit with
  | true =>
    obtain ⟨low, high⟩ := hl rfl
    refine clientWrites_plain Obj.reqBurstLimit rfl may (rowOf_reqBurstLimit h1 h6) rfl (by decide) rr.isLt (by omega)
      (decide_eq_true d.isLt) rfl (.inr ⟨rfl, ?_, rfl, rfl, rfl⟩) ?_
    · rw [leNat_singleton]
      simp [Obj.reqBurstLimit, low, high]
    · rw [leNat_singleton, writeEffect_stored (by decide)]
      rfl
  | false =>
    refine clientWrites_plain Obj.reqPriority rfl may (rowOf_reqPriority h1 h6) rfl (by decide) rr.isLt (by omega)
      (decide_eq_true d.isLt) rfl (.inr ⟨rfl, ?_, rfl, rfl, rfl⟩) ?_
    · rw [leNat_singleton]
      exact decide_eq_true (hp rfl)
    · rw [leNat_singleton, writeEffect_stored (by decide)]
      rfl

/-- Settles O35: each step goes through one branch; a lane's report leaves the step count as it was. -/
theorem patrolSparingAndRetraining : Obligations.PatrolSparingAndRetraining := by
  unfold Obligations.PatrolSparingAndRetraining
  intro s
  refine ⟨?_, fun c pc may => ?_, fun pc u v => startSpare_free, fun pc t => exec_spareDone_copied, ?_,
    fun c limit rr d value => clientWrites_reqPriority⟩
  · intro d ecc b y u hb h0 hy hl hu
    exact exec_patrolScrub_next hb h0 hy hl hu
  · exact clientWrites_plain Obj.spareRequest rfl may rowOf_spareRequest rfl (by decide) (by decide) (by omega)
      (decide_eq_true pc.isLt) rfl (.inr ⟨rfl, rfl, rfl, rfl, rfl⟩) rfl
  · intro pc turn hl hw hr hs
    have step := exec_retrainStep_turn hl hw hr
    refine ⟨(step none 0).trans (congrArg Host.Outcome.next (trainStep_plain hs 0)), fun lane => ⟨_, rfl, fun left => ?_, ?_⟩⟩
    · exact (step (some lane) (left + 1)).trans (congrArg Host.Outcome.next (trainStep_repaired hs lane.toNat left))
    · exact (step (some lane) 0).trans (congrArg Host.Outcome.next (trainStep_failed pc.val lane.toNat s))

end Sys2Proof.Machine
end

section
/-! SUPPORT. The PTP engine, its triggers and captures (R422 to R430): one lemma for each message, edge and read. -/

namespace Sys2Proof.Machine

/-! ### Messages -/

/-- The port takes part in PTP: the engine runs, out of Moor and with a Pilot. -/
theorem State.watch_of_ptpRuns {s : State} {p : Nat} (h : s.ptpRuns p = true) : s.nightWatch = false ∧ s.anyPilot = true := by
  unfold State.ptpRuns at h
  simp only [Bool.and_eq_true, Bool.not_eq_true'] at h
  exact ⟨h.2, h.1.2⟩

/-- What a message does on a port that takes part, out of Moor (R422). -/
theorem exec_ptpMessageRx_awake {s : State} {port : FrontPort} (hw : s.nightWatch = false) (m : PtpMessage) :
    exec (.ptpMessageRx port m) s = .next (match m with
      | .announce d st =>
        if !(s.ptpRuns port.val && d.toNat == s.get Obj.ptpDomain) ||
          (s.get Obj.timeSourceSuspended port.val == 1 && st.toNat == 9) then s
        else s.set Obj.ptpPortState port.val st.toNat
      | .sync d offset inc =>
        if s.ptpRuns port.val && d.toNat == s.get Obj.ptpDomain then takeOffset port.val offset inc.toNat s else s
      | .delay d mean =>
        if s.ptpRuns port.val && d.toNat == s.get Obj.ptpDomain then takeDelay port.val mean s else s) :=
  congrArg Host.Outcome.next (if_neg (by simp [hw]))

/-- A Sync of a LOCKED servo within its limit writes the increment (R423, R424). -/
theorem takeOffset_locked {s : State} {p : Nat} {offset : Int} {inc : Nat} (hp : p < 65536)
    (hs : s.get Obj.timeSourceSuspended p ≠ 1) (h9 : s.get Obj.ptpPortState p = 9) (h2 : s.get Obj.timeState = 2)
    (hl : offset.natAbs ≤ s.get Obj.stepLimitNs) :
    takeOffset p offset inc s = servoWrite inc (s.set Obj.offsetFromSourceNs 0 (ofSigned 64 offset)) := by
  have kept : ∀ (o : ObjRow) (n : Nat), o.apart Obj.offsetFromSourceNs = true → n < 65536 →
      (s.set Obj.offsetFromSourceNs 0 (ofSigned 64 offset)).get o n = s.get o n :=
    fun o n ho hn => State.get_set_apart s ho _ (by decide) hn
  unfold takeOffset
  dsimp only
  rw [kept _ _ (by decide) hp, kept _ _ (by decide) hp, kept _ _ (by decide) (by decide), kept _ _ (by decide) (by decide),
    if_neg (by omega), if_pos h2, if_neg (by omega)]

/-- A delay measurement that is no step joins the filter (R424). -/
theorem takeDelay_joins {s : State} {p : Nat} {mean : Int} {delays : List Int}
    (hs : (s.ptpPort p).suspendedAt = none) (h : s.get Obj.delayStepNs = 0 ∨ (s.ptpPort p).delays = [])
    (hd : delays = (mean :: (s.ptpPort p).delays).take 8) :
    takeDelay p mean s = (setPtpPort p { s.ptpPort p with delays := delays } s).set Obj.meanPathDelayNs p
      (ofSigned 64 (meanOf delays)) := by
  subst hd
  unfold takeDelay
  dsimp only
  rw [hs]
  dsimp only
  refine if_neg fun k => ?_
  rcases h with h | h
  · simp [h] at k
  · exact k.1 h

/-- A Sync that is due is sent before any later kind (R422). -/
theorem exec_ptpMessageTx_sync {s : State} {port : FrontPort} {n t : Nat} (hr : s.ptpRuns port.val = true)
    (hl : s.linkState port.val = 2) (h0 : s.ptpDue port.val 0 = false) (h1 : s.ptpDue port.val 1 = true)
    (hs : (s.ptpPort port.val).sent.find 1 = some (n, t)) :
    exec (.ptpMessageTx port) s = .next ((setPtpPort port.val { s.ptpPort port.val with
      sent := (s.ptpPort port.val).sent.put 1 (n + 1, s.time.ticks),
      origin := some (s.now80, s.time.now % 2 ^ 32 / 2 ^ 16) } s).bump Obj.oneStepInserted port.val) := by
  have first : [0, 1, 2].find? (fun k => s.ptpDue port.val k) = some 1 := by simp [h0, h1]
  have count : ((s.ptpPort port.val).sent.getD 1 (0, 0)).1 = n := by
    unfold NMap.getD
    rw [hs]
    rfl
  change execPtpMessageTx port s = _
  unfold execPtpMessageTx
  dsimp only
  rw [if_neg (by simp [hr, hl]), first]
  unfold sendPtp
  dsimp only
  rw [count, if_pos rfl, if_pos rfl]

theorem exec_timeSourceResumed_settled {s : State} {port : FrontPort} {t : Nat} (hr : s.ptpRuns port.val = true)
    (hs : (s.ptpPort port.val).suspendedAt = some t) (ht : t + s.get Obj.settleS * 1000000000 ≤ s.nowNs) :
    exec (.timeSourceResumed port) s = .next (endSuspension port.val s) := by
  obtain ⟨watch, pilot⟩ := State.watch_of_ptpRuns hr
  change execTimeSourceResumed port s = _
  unfold execTimeSourceResumed
  rw [hs]
  exact congrArg Host.Outcome.next (if_pos (by simp [ht, watch, pilot]))

/-! ### Triggers -/

/-- An edge in time starts its pulse and forms the next edge (R427, R428). -/
theorem exec_triggerEdge_onTime {s : State} {n : Fin 4} {t : Nat} (hn : (s.trigger n.val).next = some t)
    (ht : t ≤ s.nowNs) (hm : s.get Obj.ttMode n.val ≠ 0) (hl : (s.trigger n.val).late = false) :
    exec (.triggerEdge n) s = .next ((setTrigger n.val { s.trigger n.val with
      next := s.edgeAfter n.val t, late := false,
      pulseEnd := some (s.time.ticks + ticksOfNs (s.get Obj.ttWidthNs n.val), s.get Obj.ttActiveLow n.val == 1) } s).bump
        Obj.ttEdges n.val) := by
  change execTriggerEdge n s = _
  unfold execTriggerEdge
  dsimp only
  rw [hn]
  dsimp only
  rw [if_neg (by omega), if_neg (by rw [hl]; exact Bool.false_ne_true)]

theorem exec_triggerPulseEnd_due {s : State} {n : Fin 4} {t : Nat} {low : Bool}
    (hp : (s.trigger n.val).pulseEnd = some (t, low)) (ht : t ≤ s.time.ticks) :
    exec (.triggerPulseEnd n) s = .next (setTrigger n.val { s.trigger n.val with pulseEnd := none } s) := by
  change execTriggerPulseEnd n s = _
  unfold execTriggerPulseEnd
  dsimp only
  rw [hp]
  exact congrArg Host.Outcome.next (if_pos ht)

/-! ### Captures -/

/-- A captured edge joins its FIFO while that has room (R429). -/
theorem exec_captureEdge_joins {s : State} {n : Fin 4} {falling : Bool} {x : CaptureFifo} {e : Capture}
    (hx : x = s.captureFifo n.val) (hb : bitOf (s.get Obj.tcEdge n.val) (bit01 falling) = true) (hl : x.entries.length < 16)
    (he : e = s.captureNow x falling) :
    exec (.captureEdge n falling) s = .next (raise Ev.timeCaptured n.val (bit01 falling)
      (e.time / 2 ^ 32 % 2 ^ 32 * 2 ^ 32 + e.time % 2 ^ 32)
      ((setCapture n.val { x with entries := x.entries ++ [e], lost := false, stepsAt := s.time.steps } s).bump
        Obj.captures n.val)) := by
  change execCaptureEdge n falling s = _
  unfold execCaptureEdge
  dsimp only
  rw [← hx, ← he, if_neg (by simp [hb]), if_neg (by omega)]

theorem leBytes_leNat (bs : List Byte) : leBytes bs.length (leNat bs) = bs := by
  induction bs with
  | nil => rfl
  | cons b bs ih =>
    have low : BitVec.ofNat 8 (b.toNat + 256 * leNat bs) = b := by
      apply BitVec.eq_of_toNat_eq
      rw [BitVec.toNat_ofNat]
      omega
    have high : (b.toNat + 256 * leNat bs) / 256 = leNat bs := by omega
    rw [List.length_cons, leNat, leBytes, low, high, ih]

theorem rowOf_captureRead : rowOf 0x1851 0 = some Obj.captureRead := rfl

/-- A read of CAPTURE_READ takes the oldest entry out of its FIFO (R430). -/
theorem serveDict_captureRead {p : Path} {tag : BitVec 16} {n : Fin 4} {s : State} {e : Capture} {rest : List Capture}
    (he : (s.captureFifo n.val).entries = e :: rest) :
    serveDict p (readReq tag 0x1851 0 n.val) s = (some (respond (readReq tag 0x1851 0 n.val) St.ok (captureBytes e)),
      setCapture n.val { s.captureFifo n.val with entries := rest, overflowed := false } s) := by
  have index : (readReq tag 0x1851 0 n.val).index.toNat = 0x1851 := rfl
  have inst : (readReq tag 0x1851 0 n.val).inst.toNat = n.val := Nat.mod_eq_of_lt (by omega)
  have object : s.object (readReq tag 0x1851 0 n.val) = .ok Obj.captureRead := by
    unfold State.object
    rw [show rowOf (readReq tag 0x1851 0 n.val).index.toNat (readReq tag 0x1851 0 n.val).sub.toNat = some Obj.captureRead
      from rowOf_captureRead, inst]
    have has : Obj.captureRead.kind.has n.val = true := decide_eq_true n.isLt
    have present : s.counterLost 0x1851 0 = false := rfl
    dsimp only
    rw [has, index, show (readReq tag 0x1851 0 n.val).sub.toNat = 0 from rfl, present]
    rfl
  have taken : readCapture n.val s =
      (captureBytes e, setCapture n.val { s.captureFifo n.val with entries := rest, overflowed := false } s) := by
    unfold readCapture
    dsimp only
    rw [he]
  have value : readValue p (readReq tag 0x1851 0 n.val) Obj.captureRead s = (leNat (captureBytes e),
      setCapture n.val { s.captureFifo n.val with entries := rest, overflowed := false } s) := by
    unfold readValue
    dsimp only
    rw [index, inst]
    unfold readAside
    dsimp only
    rw [taken]
    rfl
  have length : (captureBytes e).length = Obj.captureRead.ty.size := by
    unfold captureBytes
    simp only [List.length_append, length_leBytes, List.length_cons, List.length_nil]
    rfl
  have bytes : leBytes Obj.captureRead.ty.size (leNat (captureBytes e)) = captureBytes e := by
    rw [← length, leBytes_leNat]
  rw [serveDict_readValue object (by decide) (Nat.zero_le _) rfl rfl rfl rfl, value, bytes]

/-- Settles O37: each message, edge and read goes through one branch of the engine. -/
theorem ptpEngineTriggersAndCaptures : Obligations.PtpEngineTriggersAndCaptures := by
  unfold Obligations.PtpEngineTriggersAndCaptures
  refine ⟨fun port s watch runs => ⟨?_, ?_, ?_, fun n t => exec_ptpMessageTx_sync runs, fun t => exec_timeSourceResumed_settled runs⟩,
    fun n s => ⟨fun t => exec_triggerEdge_onTime, fun t low => exec_triggerPulseEnd_due,
      fun falling x e => exec_captureEdge_joins, ?_⟩⟩
  · intro st d hd hs
    rw [exec_ptpMessageRx_awake watch]
    exact congrArg Host.Outcome.next (if_neg (by simp [runs, hd, hs]))
  · intro d offset inc hd h2 hs h9 hl
    rw [exec_ptpMessageRx_awake watch]
    exact congrArg Host.Outcome.next ((if_pos (by simp [runs, hd])).trans (takeOffset_locked (by omega) hs h9 h2 hl))
  · intro d mean delays hd hs h hdelays
    rw [exec_ptpMessageRx_awake watch]
    exact congrArg Host.Outcome.next ((if_pos (by simp [runs, hd])).trans (takeDelay_joins hs h hdelays))
  · rintro c e rest u rfl turn he
    rw [exec_of_turn (i := .captureRead c n) turn rfl rfl, carryOut_answered (serveDict_captureRead he)]

end Sys2Proof.Machine
end

section
/-! SUPPORT. Adjacencies and claims of the fabric (R447, R448, R450): what a control message's receipt leaves, and each
branch of a hello, a claim and a defence. -/

namespace Sys2Proof.Machine

/-! ### A control message is received -/

/-- What noting the bytes of a port leaves: the objects, the fabric, the time. -/
theorem noteBytes_get (port tx n : Nat) (s : State) (o : ObjRow) (i : Nat) : (noteBytes port tx n s).get o i = s.get o i := by
  unfold noteBytes
  split <;> rfl

theorem noteBytes_fabric (port tx n : Nat) (s : State) : (noteBytes port tx n s).fabric = s.fabric := by
  unfold noteBytes
  split <;> rfl

theorem noteBytes_time (port tx n : Nat) (s : State) : (noteBytes port tx n s).time = s.time := by
  unfold noteBytes
  split <;> rfl

theorem noteBytes_anyPilot (port tx n : Nat) (s : State) : (noteBytes port tx n s).anyPilot = s.anyPilot := by
  unfold State.anyPilot State.pilotUp
  simp only [noteBytes_get]

/-- A message of its kind that is authentic is taken on a port whose ferry link is up (R446). -/
theorem takeCtrl_taken {port kind : Nat} {bs : List Byte} {s : State} {c : Ctrl} (hc : parseCtrl bs = some c)
    (hu : s.ferryUp port = true) (hk : c.kind = kind) (hg : s.ctrlGood c = true) :
    takeCtrl port kind bs s = (some c, noteBytes port 0 (bs.length + 4) s) := by
  have up : (noteBytes port 0 (bs.length + 4) s).ferryUp port = true := by
    rw [← hu]
    unfold noteBytes
    split <;> rfl
  have good : (noteBytes port 0 (bs.length + 4) s).ctrlGood c = true := by
    rw [← hg]
    unfold noteBytes
    split <;> rfl
  have received : receiveCtrl port bs s = noteBytes port 0 (bs.length + 4) s := by
    unfold State.ferryUp at hu
    simp only [Bool.and_eq_true, beq_iff_eq] at hu
    exact if_pos hu.2
  unfold takeCtrl
  dsimp only
  rw [received, hc]
  dsimp only
  rw [if_neg (by simp [up, hk]), if_pos good]

/-! ### Hellos -/

theorem exec_helloTx_due {s : State} {port : FrontPort} {t : Nat} {bs : List Byte} (hu : s.ferryUp port.val = true)
    (hh : s.fabric.hellos.find port.val = some (t, bs))
    (he : s.elapsed t (s.get Obj.helloIntervalMs * 1000000) = true) :
    exec (.helloTx port) s = .next (noteBytes port.val 1 ((s.ownCtrl 1 (s.helloBody port.val)).length + 4)
      (s.withFabric { s.fabric with
        hellos := s.fabric.hellos.put port.val (s.time.ticks, s.ownCtrl 1 (s.helloBody port.val)) })) := by
  change execHelloTx port s = _
  unfold execHelloTx
  dsimp only
  rw [hh]
  exact congrArg Host.Outcome.next (if_pos ⟨hu, he⟩)

/-- The adjacency that a hello makes (R447, R448). -/
def helloAdjacency (p : Nat) (c : Ctrl) (s : State) : Adjacency :=
  { peer := c.src, peerPort := beAt c.body 0 2, lastHello := s.time.ticks, peerTx := beAt c.body 8 10, peerRx := s.now80,
    delays := if bitOf (byteAt c.body 3) 7 then (s.linkDelay c.body :: ((s.adjacency p).getD {}).delays).take 8
      else ((s.adjacency p).getD {}).delays }

/-- The state in which a hello's adjacency and delay are kept. -/
def helloKept (p : Nat) (c : Ctrl) (s : State) : State :=
  let u := s.withFabric { s.fabric with adj := s.fabric.adj.put p (helloAdjacency p c s) }
  if bitOf (byteAt c.body 3) 7 then u.set Obj.ferryLinkDelayNs p (meanOf (helloAdjacency p c s).delays).toNat else u

theorem helloKept_adjacency_same (p : Nat) (c : Ctrl) (s : State) :
    (helloKept p c s).adjacency p = some (helloAdjacency p c s) := by
  have put : (s.fabric.adj.put p (helloAdjacency p c s)).find p = some (helloAdjacency p c s) := NMap.find_put_same ..
  unfold helloKept
  dsimp only
  split <;> exact put

theorem helloKept_adjacency_other {p q : Nat} (c : Ctrl) (s : State) (h : q ≠ p) :
    (helloKept p c s).adjacency q = s.adjacency q := by
  have kept : (s.fabric.adj.put p (helloAdjacency p c s)).find q = s.fabric.adj.find q := NMap.find_put_other _ _ h
  unfold helloKept
  dsimp only
  split <;> exact kept

theorem helloKept_get {p : Nat} (hp : p < 65536) (c : Ctrl) {o : ObjRow} (ho : o.apart Obj.ferryLinkDelayNs = true)
    (s : State) : (helloKept p c s).get o p = s.get o p := by
  unfold helloKept
  dsimp only
  split
  · exact State.get_set_apart _ ho _ hp hp
  · rfl

/-- A hello is kept, and moves the adjacency (R447). -/
theorem takeHello_eq (p : Nat) (c : Ctrl) (s : State) : takeHello p c s = adjHello p c (bitOf (byteAt c.body 3) 7)
    (beAt c.body 4 2 == s.deviceId && beAt c.body 6 2 == p) (beAt c.body 0 2) (helloKept p c s) := rfl

/-- A hello that does not name this port makes the neighbour known (R447). -/
theorem adjHello_known {p : Nat} {c : Ctrl} {valid mine : Bool} {peerPort : Nat} {s : State}
    (h2 : s.get Obj.adjState p ≠ 2) (hv : (valid && mine) = false) :
    adjHello p c valid mine peerPort s = (s.set Obj.neighborId p (2 ^ 16 + c.src)).set Obj.adjState p 1 := by
  unfold adjHello
  dsimp only
  rw [if_neg h2, if_neg (by rw [hv]; exact Bool.false_ne_true)]

/-- One that names this port brings the adjacency up (R447). -/
theorem adjHello_up {p : Nat} {c : Ctrl} {valid mine : Bool} {peerPort : Nat} {s : State}
    (h2 : s.get Obj.adjState p ≠ 2) (hv : (valid && mine) = true) :
    adjHello p c valid mine peerPort s = raise Ev.neighborUp p c.src peerPort
      (lsaNeeded ((s.set Obj.neighborId p (2 ^ 16 + c.src)).set Obj.adjState p 2)) := by
  unfold adjHello
  dsimp only
  rw [if_neg h2, if_pos hv]

section
variable {port : FrontPort} {frame : List Byte} {c : Ctrl} {s : State} (hc : parseCtrl frame = some c)
  (hu : s.ferryUp port.val = true) (hg : s.ctrlGood c = true)
include hc hu hg

theorem exec_helloRx_taken (hk : c.kind = 1) (hb : c.body.length = 32) : exec (.helloRx port frame) s =
    .next (takeHello port.val c (noteBytes port.val 0 (frame.length + 4) s)) := by
  change execHelloRx port frame s = _
  unfold execHelloRx
  rw [takeCtrl_taken hc hu hk hg]
  exact congrArg Host.Outcome.next (if_pos hb)

/-- The first hello of a neighbour makes it known (R447, R448). -/
theorem completes_helloRx_known (hk : c.kind = 1) (hb : c.body.length = 32) (h2 : s.get Obj.adjState port.val ≠ 2)
    (hv : bitOf (byteAt c.body 3) 7 = false) : Completes (.helloRx port frame) s fun t =>
      t.get Obj.adjState port.val = 1 ∧ t.get Obj.neighborId port.val = 2 ^ 16 + c.src ∧
      (∃ a, t.adjacency port.val = some a ∧ a.peer = c.src ∧ a.peerPort = beAt c.body 0 2 ∧
        a.lastHello = s.time.ticks ∧ a.peerTx = beAt c.body 8 10 ∧ a.peerRx = s.now80) ∧
      (∀ q, q ≠ port.val → t.adjacency q = s.adjacency q) := by
  have hp : port.val < 65536 := by omega
  have time := noteBytes_time port.val 0 (frame.length + 4) s
  have fabric := noteBytes_fabric port.val 0 (frame.length + 4) s
  have exec := exec_helloRx_taken hc hu hg hk hb
  have was : (noteBytes port.val 0 (frame.length + 4) s).get Obj.adjState port.val ≠ 2 := by
    rw [noteBytes_get]
    exact h2
  generalize noteBytes port.val 0 (frame.length + 4) s = r at time fabric exec was
  rw [takeHello_eq, adjHello_known (by rw [helloKept_get hp c (by decide)]; exact was) (by rw [hv]; rfl)] at exec
  refine ⟨_, exec, State.get_set_same .., ?_, ⟨_, helloKept_adjacency_same .., rfl, rfl, ?_, rfl, ?_⟩, fun q hq => ?_⟩
  · rw [State.get_set_apart _ (by decide) _ hp hp, State.get_set_same]
  · exact congrArg Time.ticks time
  · exact congrArg (fun x : Time => time80OfNs (x.now / 2 ^ 32)) time
  · refine (helloKept_adjacency_other c r hq).trans ?_
    unfold State.adjacency
    rw [fabric]

/-- A hello that names this port brings the adjacency up, and the LSA is due anew (R447, R452). -/
theorem exec_helloRx_up (hk : c.kind = 1) (hb : c.body.length = 32) (h2 : s.get Obj.adjState port.val ≠ 2)
    (hv : bitOf (byteAt c.body 3) 7 = true) (hd : beAt c.body 4 2 = s.deviceId) (hport : beAt c.body 6 2 = port.val) :
    ∃ u, exec (.helloRx port frame) s = .next (raise Ev.neighborUp port.val c.src (beAt c.body 0 2) u) ∧
      u.get Obj.adjState port.val = 2 ∧ u.get Obj.neighborId port.val = 2 ^ 16 + c.src ∧
      u.fabric.lsaDue.isSome = true := by
  have hp : port.val < 65536 := by omega
  have exec := exec_helloRx_taken hc hu hg hk hb
  have get := fun o => noteBytes_get port.val 0 (frame.length + 4) s o
  generalize noteBytes port.val 0 (frame.length + 4) s = r at exec get
  have mine : (bitOf (byteAt c.body 3) 7 && (beAt c.body 4 2 == r.deviceId && beAt c.body 6 2 == port.val)) = true := by
    have id : r.deviceId = s.deviceId := get _ _
    simp [hv, hd, hport, id]
  rw [takeHello_eq, adjHello_up (by rw [helloKept_get hp c (by decide), get]; exact h2) mine] at exec
  refine ⟨_, exec, State.get_set_same .., ?_, rfl⟩
  change ((((helloKept port.val c r).set Obj.neighborId port.val (2 ^ 16 + c.src)).set Obj.adjState port.val 2).get
    Obj.neighborId port.val) = _
  rw [State.get_set_apart _ (by decide) _ hp hp, State.get_set_same]

end

/-! ### A neighbour that is silent -/

/-- An adjacency that was up ends with its report (R447). -/
theorem adjLeave_up {port why : Nat} (hp : port < 65536) {s : State} (h2 : s.get Obj.adjState port = 2) :
    ∃ u, adjLeave port why s = raise Ev.neighborDown port (s.get Obj.neighborId port % 65536) why u ∧
      u.adjacency port = none ∧ u.get Obj.adjState port = 0 ∧ u.get Obj.neighborId port = 0 ∧
      u.fabric.lsaDue = some s.time.ticks := by
  obtain ⟨v, hv⟩ : ∃ v, v = (({ s with fabric := { s.fabric with adj := s.fabric.adj.del port } } : State).set
      Obj.adjState port 0).set Obj.neighborId port 0 := ⟨_, rfl⟩
  have left : adjLeave port why s = raise Ev.neighborDown port (s.get Obj.neighborId port % 65536) why
      { v with fabric := { v.fabric with lsaDue := some v.time.ticks } } := by
    rw [hv]
    unfold adjLeave
    exact if_pos h2
  refine ⟨_, left, ?_, ?_, ?_, ?_⟩
  · rw [hv]
    exact NMap.find_del_same ..
  · change v.get Obj.adjState port = 0
    rw [hv, State.get_set_apart _ (by decide) _ hp hp, State.get_set_same]
  · change v.get Obj.neighborId port = 0
    rw [hv, State.get_set_same]
  · rw [hv]
    rfl

theorem exec_adjDead_silent {s : State} {port : FrontPort} {a : Adjacency} (ha : s.adjacency port.val = some a)
    (he : s.elapsed a.lastHello (s.get Obj.helloDeadCount * s.get Obj.helloIntervalMs * 1000000) = true) :
    exec (.adjDead port) s = .next (adjLeave port.val 1 s) := by
  change execAdjDead port s = _
  unfold execAdjDead
  dsimp only
  rw [ha]
  exact congrArg Host.Outcome.next (if_pos he)

/-! ### Claims -/

/-- A claim is re-sent, defended where it is for this device's ID, and rejects the candidate it contests (R450). -/
def claimTaken (port : Nat) (c : Ctrl) (r : State) : State :=
  let u := flood 3 c.body (some port) r
  let v := if beAt c.body 0 2 = u.deviceId then flood 4 (claimBody (beAt c.body 0 2)) none u else u
  if beAt c.body 2 16 < ownSerial then rejectClaim (beAt c.body 0 2) v else v

section
variable {port : FrontPort} {frame : List Byte} {c : Ctrl} {s : State} (hc : parseCtrl frame = some c)
  (hu : s.ferryUp port.val = true) (hg : s.ctrlGood c = true) (hp : s.anyPilot = true) (hb : c.body.length = 18)
  (ho : beAt c.body 2 16 ≠ ownSerial)
include hc hu hg hp hb ho

theorem exec_claimRx_taken (hk : c.kind = 3) : exec (.claimRx port frame) s =
    .next (claimTaken port.val c (noteBytes port.val 0 (frame.length + 4) s)) := by
  have pilot := (noteBytes_anyPilot port.val 0 (frame.length + 4) s).trans hp
  have free : ¬ (c.body.length ≠ 18 ∨ beAt c.body 2 16 = ownSerial ∨
      (!(noteBytes port.val 0 (frame.length + 4) s).anyPilot) = true) := by simp [hb, ho, pilot]
  change execClaimRx port frame s = _
  unfold execClaimRx
  rw [takeCtrl_taken hc hu hk hg]
  exact congrArg Host.Outcome.next (if_neg free)

theorem exec_defendRx_taken (hk : c.kind = 4) : exec (.defendRx port frame) s = .next (rejectClaim (beAt c.body 0 2)
    (flood 4 c.body (some port.val) (noteBytes port.val 0 (frame.length + 4) s))) := by
  have pilot := (noteBytes_anyPilot port.val 0 (frame.length + 4) s).trans hp
  have free : ¬ (c.body.length ≠ 18 ∨ beAt c.body 2 16 = ownSerial ∨
      (!(noteBytes port.val 0 (frame.length + 4) s).anyPilot) = true) := by simp [hb, ho, pilot]
  change execDefendRx port frame s = _
  unfold execDefendRx
  rw [takeCtrl_taken hc hu hk hg]
  exact congrArg Host.Outcome.next (if_neg free)

end

/-- The wait of a claim ends: nobody has rejected it, or the next candidate is claimed (R450). -/
theorem exec_claimWaitEnd {s : State} (hp : s.anyPilot = true) {id t n : Nat} {rejected : Bool}
    (hc : s.fabric.claim = some (id, t, rejected, n)) (he : s.elapsed t (s.get Obj.claimWaitMs * 1000000) = true) :
    exec .claimWaitEnd s = .next (if rejected then claimCandidate (s.nextCandidate id) (n + 1) s
      else raise Ev.deviceIdAssigned 0 id n (setActiveId id (s.withFabric { s.fabric with claim := none }))) := by
  change execClaimWaitEnd s = _
  unfold execClaimWaitEnd
  rw [hc]
  exact congrArg Host.Outcome.next (if_neg (by simp [he, hp]))

/-- Settles O38: a message that is taken leaves its receiver as it was but for the bytes noted; what it does is then one
branch. -/
theorem adjacenciesAndClaims : Obligations.AdjacenciesAndClaims := by
  unfold Obligations.AdjacenciesAndClaims
  refine ⟨fun port s => ⟨?_, ?_, ?_⟩, ?_, fun s hp => ⟨fun id t n hc he => ?_, fun id t n hc he => ?_⟩⟩
  · intro t bs hu hh he
    exact ⟨_, rfl, exec_helloTx_due hu hh he⟩
  · intro frame c hc hu hk hg hb h2
    exact ⟨completes_helloRx_known hc hu hg hk hb h2, exec_helloRx_up hc hu hg hk hb h2⟩
  · intro a ha h2 he
    obtain ⟨u, left, rest⟩ := adjLeave_up (why := 1) (show port.val < 65536 by omega) h2
    exact ⟨u, by rw [exec_adjDead_silent ha he, left], rest⟩
  · rintro port frame c s r hc hu hg hp hb ho rfl
    exact ⟨exec_claimRx_taken hc hu hg hp hb ho, exec_defendRx_taken hc hu hg hp hb ho⟩
  · rw [exec_claimWaitEnd hp hc he]
    rfl
  · rw [exec_claimWaitEnd hp hc he]
    rfl

end Sys2Proof.Machine
end

section
/-! SUPPORT. The link-state database (R451 to R453): what flooding and storing an advertisement leave, and each branch of
its receipt, origination and ageing. -/

namespace Sys2Proof.Machine

/-! ### Flooding and storing -/

/-- What sending on the fabric leaves: all but the fabric's record of what was sent and the byte counts. -/
structure OnlySent (s t : State) : Prop where
  fabric : t.fabric = { s.fabric with sent := t.fabric.sent }
  rest : t = { s with fabric := t.fabric, count := t.count }

theorem OnlySent.refl (s : State) : OnlySent s s := ⟨rfl, rfl⟩

theorem OnlySent.trans {s t u : State} (h : OnlySent s t) (k : OnlySent t u) : OnlySent s u := by
  refine ⟨?_, ?_⟩
  · rw [k.fabric, h.fabric]
  · rw [k.rest, h.rest]

theorem OnlySent.noteBytes (port tx n : Nat) (s : State) : OnlySent s (noteBytes port tx n s) := by
  unfold Machine.noteBytes
  split <;> exact ⟨rfl, rfl⟩

theorem OnlySent.sendFabric (port : Nat) (bs : List Byte) (s : State) : OnlySent s (sendFabric port bs s) :=
  OnlySent.trans (t := s.withFabric { s.fabric with sent := s.fabric.sent ++ [(port, bs)] }) ⟨rfl, rfl⟩ (.noteBytes ..)

theorem OnlySent.flood (kind : Nat) (body : List Byte) (except : Option Nat) (s : State) :
    OnlySent s (flood kind body except s) := by
  unfold Machine.flood
  dsimp only
  generalize (s.upPorts.filter fun p => some p != except) = l
  generalize s.ownCtrl kind body = bs
  induction l generalizing s with
  | nil => exact .refl s
  | cons p l ih => exact (OnlySent.sendFabric p bs s).trans (ih _)

theorem OnlySent.lsdb {s t : State} (h : OnlySent s t) : t.fabric.lsdb = s.fabric.lsdb := by
  rw [h.fabric]

theorem OnlySent.time {s t : State} (h : OnlySent s t) : t.time = s.time := by
  rw [h.rest]

theorem OnlySent.deviceId {s t : State} (h : OnlySent s t) : t.deviceId = s.deviceId := by
  rw [h.rest]
  rfl

theorem OnlySent.anyPilot {s t : State} (h : OnlySent s t) : t.anyPilot = s.anyPilot := by
  rw [h.rest]
  rfl

/-- Storing an advertisement changes the database, and when the links changed the time of the change (R452). -/
theorem storeLsa_eq (origin : Nat) (x : Lsa) (s : State) : ∃ changed, storeLsa origin x s =
    s.withFabric { s.fabric with lsdb := s.fabric.lsdb.put origin x, changedAt := changed } := by
  unfold storeLsa
  dsimp only
  cases s.fabric.lsdb.find origin with
  | none => exact ⟨_, if_neg Bool.false_ne_true⟩
  | some y =>
    dsimp only
    split
    · exact ⟨_, rfl⟩
    · exact ⟨_, rfl⟩

/-- The first advertisement of an origin is a change (R452). -/
theorem storeLsa_first {origin : Nat} {x : Lsa} {s : State} (h : s.fabric.lsdb.find origin = none) :
    storeLsa origin x s = noteChange (s.withFabric { s.fabric with lsdb := s.fabric.lsdb.put origin x }) := by
  unfold storeLsa
  dsimp only
  rw [h]
  exact if_neg Bool.false_ne_true

/-! ### Each command -/

/-- The advertisement that a body carries (R451). -/
def bodyLsa (body : List Byte) (refreshed : Nat) : Lsa :=
  { serial := beAt body 2 16, seq := beAt body 18 4, links := lsaLinks body (beAt body 22 2), refreshed := refreshed }

/-- An advertisement of an origin that the database does not hold is sent on and stored (R451, R452). -/
theorem takeLsa_first {port : Nat} {body : List Byte} {s : State} (hn : beAt body 22 2 ≠ 0xFFFF)
    (hl : 24 + 4 * beAt body 22 2 ≤ body.length) (hd : beAt body 0 2 ≠ s.deviceId)
    (hf : s.fabric.lsdb.find (beAt body 0 2) = none) : takeLsa port body s =
    storeLsa (beAt body 0 2) (bodyLsa body (flood 2 body (some port) s).time.ticks) (flood 2 body (some port) s) := by
  unfold takeLsa acceptLsa
  dsimp only
  rw [hf, if_neg (by omega), if_neg (fun h => hd h.1), if_neg (fun h => hd h.1)]
  exact (if_pos rfl).trans (if_neg hn)

theorem exec_lsaRx_taken {port : FrontPort} {frame : List Byte} {c : Ctrl} {s : State} (hc : parseCtrl frame = some c)
    (hu : s.ferryUp port.val = true) (hg : s.ctrlGood c = true) (hk : c.kind = 2) (hp : s.anyPilot = true) :
    exec (.lsaRx port frame) s = .next (takeLsa port.val c.body (noteBytes port.val 0 (frame.length + 4) s)) := by
  change execLsaRx port frame s = _
  unfold execLsaRx
  rw [takeCtrl_taken hc hu hk hg]
  exact congrArg Host.Outcome.next (if_pos ((noteBytes_anyPilot ..).trans hp))

/-- The state in which this device's next advertisement is counted (R452). -/
def lsaCounted (s : State) : State := s.withFabric { s.fabric with
  lsaSeq := (s.fabric.lsaSeq + 1) % 2 ^ 32, lsaAt := some s.time.ticks, lsaDue := none }

/-- This device's next advertisement (R451). -/
def ownLsa (s : State) : Lsa :=
  { serial := ownSerial, seq := (s.fabric.lsaSeq + 1) % 2 ^ 32, links := s.ownLinks, refreshed := s.time.ticks }

theorem exec_lsaOriginate_due {s : State} (hp : s.anyPilot = true) (hd : s.fabric.lsaDue.isSome = true)
    (h3 : s.get Obj.fabricState ≠ 3) : exec .lsaOriginate s = .next (flood 2
      (lsaBody s.deviceId ownSerial ((s.fabric.lsaSeq + 1) % 2 ^ 32) (some s.ownLinks)) none
      (storeLsa s.deviceId (ownLsa s) (lsaCounted s))) := by
  change execLsaOriginate s = _
  unfold execLsaOriginate
  dsimp only
  rw [hd, hp]
  exact congrArg Host.Outcome.next (if_neg (by simp [h3]))

theorem exec_lsaAgeOut_old {s : State} {origin : BitVec 16} {x : Lsa} (hp : s.anyPilot = true)
    (hx : s.fabric.lsdb.find origin.toNat = some x) (he : s.elapsed x.refreshed 180000000000 = true) :
    exec (.lsaAgeOut origin) s =
      .next (noteChange (s.withFabric { s.fabric with lsdb := s.fabric.lsdb.del origin.toNat })) := by
  change execLsaAgeOut origin s = _
  unfold execLsaAgeOut
  rw [hx]
  exact congrArg Host.Outcome.next (if_pos (by rw [hp, he]; rfl))

theorem exec_routeCompute_due {s : State} {t : Nat} (hp : s.anyPilot = true) (hc : s.fabric.changedAt = some t)
    (he : s.elapsed t 10000000 = true) (hn : s.fabric.computedAt = none) : exec .routeCompute s =
    .next (computeRoutes (s.withFabric { s.fabric with changedAt := none, computedAt := some s.time.ticks })) := by
  change execRouteCompute s = _
  unfold execRouteCompute
  dsimp only
  rw [hc, hn]
  exact congrArg Host.Outcome.next (if_pos (by rw [he, hp]; rfl))

/-- A first advertisement is kept under its origin, every other stays, and the change is noted (R451, R452). -/
theorem completes_lsaRx_first {port : FrontPort} {frame : List Byte} {c : Ctrl} {s : State}
    (hc : parseCtrl frame = some c) (hu : s.ferryUp port.val = true) (hg : s.ctrlGood c = true) (hk : c.kind = 2)
    (hp : s.anyPilot = true) (hn : beAt c.body 22 2 ≠ 0xFFFF) (hl : 24 + 4 * beAt c.body 22 2 ≤ c.body.length)
    (hd : beAt c.body 0 2 ≠ s.deviceId) (hf : s.fabric.lsdb.find (beAt c.body 0 2) = none) :
    Completes (.lsaRx port frame) s fun t =>
      (∃ x, t.fabric.lsdb.find (beAt c.body 0 2) = some x ∧ x.serial = beAt c.body 2 16 ∧ x.seq = beAt c.body 18 4 ∧
        x.links = lsaLinks c.body (beAt c.body 22 2) ∧ x.refreshed = s.time.ticks) ∧
      (∀ o, o ≠ beAt c.body 0 2 → t.fabric.lsdb.find o = s.fabric.lsdb.find o) ∧
      t.fabric.changedAt = some s.time.ticks ∧ t = { s with fabric := t.fabric, count := t.count } := by
  have noted := OnlySent.noteBytes port.val 0 (frame.length + 4) s
  have exec := exec_lsaRx_taken hc hu hg hk hp
  generalize noteBytes port.val 0 (frame.length + 4) s = r at noted exec
  rw [takeLsa_first hn hl (by rw [noted.deviceId]; exact hd) (by rw [noted.lsdb]; exact hf)] at exec
  have sent := noted.trans (OnlySent.flood 2 c.body (some port.val) r)
  generalize flood 2 c.body (some port.val) r = u at sent exec
  rw [storeLsa_first (by rw [sent.lsdb]; exact hf)] at exec
  refine ⟨_, exec, ⟨_, NMap.find_put_same .., rfl, rfl, rfl, congrArg Time.ticks sent.time⟩,
    fun o ho => ?_, ?_, ?_⟩
  · exact (NMap.find_put_other _ _ ho).trans (by rw [sent.lsdb])
  · exact congrArg (fun x : Time => some x.ticks) sent.time
  · rw [sent.rest]
    rfl

/-- The device's own advertisement is made, stored and sent with its next number (R451, R452). -/
theorem completes_lsaOriginate_due {s : State} (hp : s.anyPilot = true) (hd : s.fabric.lsaDue.isSome = true)
    (h3 : s.get Obj.fabricState ≠ 3) : Completes .lsaOriginate s fun t =>
      t.fabric.lsaDue = none ∧ t.fabric.lsaAt = some s.time.ticks ∧ t.fabric.lsaSeq = (s.fabric.lsaSeq + 1) % 2 ^ 32 ∧
      (∃ x, t.fabric.lsdb.find s.deviceId = some x ∧ x.serial = ownSerial ∧ x.seq = (s.fabric.lsaSeq + 1) % 2 ^ 32 ∧
        x.links = s.ownLinks) ∧
      (∀ o, o ≠ s.deviceId → t.fabric.lsdb.find o = s.fabric.lsdb.find o) ∧
      t = { s with fabric := t.fabric, count := t.count } := by
  have exec := exec_lsaOriginate_due hp hd h3
  obtain ⟨changed, stored⟩ := storeLsa_eq s.deviceId (ownLsa s) (lsaCounted s)
  rw [stored] at exec
  have sent := OnlySent.flood 2 (lsaBody s.deviceId ownSerial ((s.fabric.lsaSeq + 1) % 2 ^ 32) (some s.ownLinks)) none
    ((lsaCounted s).withFabric { (lsaCounted s).fabric with
      lsdb := (lsaCounted s).fabric.lsdb.put s.deviceId (ownLsa s), changedAt := changed })
  refine ⟨_, exec, ?_, ?_, ?_, ⟨ownLsa s, ?_, rfl, rfl, rfl⟩, fun o ho => ?_, ?_⟩
  · rw [sent.fabric]
    rfl
  · rw [sent.fabric]
    rfl
  · rw [sent.fabric]
    rfl
  · rw [sent.lsdb]
    exact NMap.find_put_same ..
  · rw [sent.lsdb]
    exact NMap.find_put_other _ _ ho
  · exact sent.rest

/-- Settles O39: sending leaves the database, storing changes one entry of it, and each command is then one branch. -/
theorem linkStateDatabaseFollowsAdvertisements : Obligations.LinkStateDatabaseFollowsAdvertisements := by
  unfold Obligations.LinkStateDatabaseFollowsAdvertisements
  refine fun s hp => ⟨?_, completes_lsaOriginate_due hp, ?_, ?_⟩
  · intro port frame c hc hu hg hk hn hl hd hf
    exact completes_lsaRx_first hc hu hg hk hp hn hl hd hf
  · intro origin x hx he
    exact ⟨_, exec_lsaAgeOut_old hp hx he, NMap.find_del_same .., fun o ho => (NMap.find_del ..).trans (if_neg ho), rfl, rfl⟩
  · intro t hc he hn
    exact exec_routeCompute_due hp hc he hn

end Sys2Proof.Machine
end
section
/-! SUPPORT. ACP requests, responses, proxy slots and grace periods (R455 to R459): each branch, and a proxied request
written as one segment. -/

namespace Sys2Proof.Machine

theorem rowOf_acpProxyRequest : rowOf 0x6870 0 = some Obj.acpProxyRequest := rfl

/-- Noting the bytes of a port changes the byte counts alone. -/
theorem noteBytes_eq (port tx n : Nat) (s : State) : ∃ noted, noteBytes port tx n s = { s with count := noted } := by
  unfold noteBytes
  split <;> exact ⟨_, rfl⟩

theorem receiveCtrl_up {port : Nat} {s : State} (h : s.linkState port = 2) (bs : List Byte) :
    receiveCtrl port bs s = noteBytes port 0 (bs.length + 4) s := if_pos h

theorem State.ferryUp_iff {s : State} {port : Nat} :
    s.ferryUp port = true ↔ s.ferry port = true ∧ s.linkState port = 2 := by
  unfold State.ferryUp
  rw [Bool.and_eq_true, beq_iff_eq]

/-! ### Requests that come from another device -/

/-- The request of a control message, as it waits for a Pilot (R457). -/
def acpWaiting (port : Nat) (c : Ctrl) (q : Request) (key : Nat) (old : Option Nat) (s : State) : AcpPending :=
  { device := c.src, keySlot := c.slot, seq := c.seq, request := q, since := s.time.ticks, port := port, edge := none,
    key := key, old := old }

/-- An authentic request of a new session waits for a Pilot while none waits (R457). -/
theorem ownAcp_first {port : Nat} {c : Ctrl} {s : State} {q : Request} {key : Nat} {old : Option Nat}
    (ha : s.authKey c = some (key, old)) (hw : s.inWindow c.ms = true) (hq : parseRequest c.body = some q)
    (hs : s.fabric.sessions = []) (hn : s.fabric.acp = []) : ∃ u : State,
    ownAcp port false c s = u.withFabric { u.fabric with acp := [acpWaiting port c q key old s] } ∧
    u.fabric.sessions = [(acpSession c.src c.slot, c.seq, s.time.ticks)] ∧
    u.get Obj.acpRequests = (s.get Obj.acpRequests + 1) % 2 ^ 64 := by
  obtain ⟨v, hv⟩ : ∃ v, v = s.withFabric { s.fabric with
    sessions := NMap.put [] (acpSession c.src c.slot) (c.seq, s.time.ticks) } := ⟨_, rfl⟩
  have waits : (v.bump Obj.acpRequests).fabric.acp = [] := by
    rw [hv]
    exact hn
  refine ⟨v.bump Obj.acpRequests, ?_, by rw [hv]; rfl, ?_⟩
  · unfold ownAcp sessionAcp acceptAcp State.sessionRoom
    rw [ha, hw]
    dsimp only
    rw [hq]
    dsimp only
    rw [hs]
    change (if 64 ≤ _ then _ else _) = _
    rw [← hv, waits]
    rfl
  · rw [State.get_bump_same, hv]
    rfl

section
variable {port : FrontPort} {frame : List Byte} {c : Ctrl} {s : State} (hc : parseCtrl frame = some c)
  (hd : c.dst = s.deviceId)
include hc hd

/-- An authentic request for this device waits for a Pilot and opens its session (R455 to R457). -/
theorem completes_acpRequest_first (hk : c.kind = 5) (hl : s.linkState port.val = 2) (hf : s.ferry port.val = true)
    (h3 : s.get Obj.fabricState ≠ 3) {q : Request} {key : Nat} {old : Option Nat} (ha : s.authKey c = some (key, old))
    (hw : s.inWindow c.ms = true) (hq : parseRequest c.body = some q) (hs : s.fabric.sessions = [])
    (hn : s.fabric.acp = []) : Completes (.acpRequest port frame) s fun t =>
      (∃ a, t.fabric.acp = [a] ∧ a.device = c.src ∧ a.keySlot = c.slot ∧ a.seq = c.seq ∧ a.request = q ∧
        a.since = s.time.ticks ∧ a.taken = none ∧ a.edge = none ∧ a.key = key) ∧
      t.fabric.sessions = [(acpSession c.src c.slot, c.seq, s.time.ticks)] ∧
      t.get Obj.acpRequests = (s.get Obj.acpRequests + 1) % 2 ^ 64 := by
  obtain ⟨noted, hr⟩ := noteBytes_eq port.val 0 (frame.length + 4) s
  obtain ⟨u, taken, sessions, count⟩ := ownAcp_first (port := port.val) (c := c) (s := { s with count := noted })
    ha hw hq hs hn
  have exec : exec (.acpRequest port frame) s = .next (ownAcp port.val false c { s with count := noted }) := by
    change execAcpRequest port frame s = _
    unfold execAcpRequest
    dsimp only
    rw [receiveCtrl_up hl, hr, hc]
    dsimp only
    rw [if_neg (fun h => h.elim (fun h => h hk) (fun h => h hl))]
    exact congrArg Host.Outcome.next ((if_pos hf).trans ((if_neg (fun h => h hd)).trans (if_neg h3)))
  rw [taken] at exec
  exact ⟨_, exec, ⟨_, rfl, rfl, rfl, rfl, rfl, rfl, rfl, rfl, rfl⟩, sessions, count⟩

/-- The response of a proxied request ends its slot (R459). -/
theorem exec_acpResponse_proxied (hk : c.kind = 6) (hu : s.ferryUp port.val = true) {j : Nat} {x : Proxy}
    (hx : s.fabric.proxies = [(j, x)]) (h1 : x.device = c.src) (h2 : x.seq = c.seq) (h3 : x.keySlot = c.slot)
    (hm : c.mac = ctrlMac x.key c.msg) : exec (.acpResponse port frame) s =
      .next ((((noteBytes port.val 0 (frame.length + 4) s).setDom Obj.acpProxyResponse j c.body).withFabric
        { s.fabric with proxies := [] }).set Obj.acpProxyState j 2) := by
  obtain ⟨noted, hr⟩ := noteBytes_eq port.val 0 (frame.length + 4) s
  have found : (s.fabric.proxies.find? fun e => e.2.device == c.src && e.2.seq == c.seq && e.2.keySlot == c.slot) =
      some (j, x) := by
    rw [hx]
    exact List.find?_cons_of_pos (by simp [h1, h2, h3])
  have gone : s.fabric.proxies.del j = [] := by
    rw [hx]
    simp [NMap.del]
  change execAcpResponse port frame s = _
  unfold execAcpResponse endProxy
  dsimp only
  rw [receiveCtrl_up (State.ferryUp_iff.mp hu).2, hr, hc]
  dsimp only
  rw [found, ← gone]
  have mine : ¬ (c.kind ≠ 6 ∨ (!s.ferryUp port.val) = true) := by simp [hk, hu]
  exact congrArg Host.Outcome.next ((if_neg mine).trans ((if_neg (fun h => h hd)).trans (if_pos hm)))

end

theorem exec_acpUnserved_late {s : State} {a : AcpPending} (ha : s.fabric.acp = [a]) (ht : a.taken = none)
    (he : s.elapsed a.since 1000000 = true) : exec (.acpUnserved 0) s =
      .next (sendAcpAnswer a (respond a.request St.busy) (s.withFabric { s.fabric with acp := [] })) := by
  have gone : ([a] : List AcpPending).filter (· != a) = [] := List.filter_cons_of_neg (by simp)
  change execAcpUnserved 0 s = _
  unfold execAcpUnserved
  rw [ha]
  dsimp only [List.getElem?_cons_zero]
  rw [gone, if_pos (by rw [ht, he]; rfl)]

/-! ### Proxied requests -/

/-- A proxied request is sent from its free slot (R459). -/
theorem writeProxy_free {j : Nat} {value : List Byte} {s : State} (h1 : s.get Obj.acpProxyState j ≠ 1)
    (hn : 24 ≤ value.length) (hs : leAt value 2 2 ≤ 255) : ∃ v, writeProxy j value s = (St.ok, v) ∧
      (∃ x, v.fabric.proxies.find j = some x ∧ x.device = leAt value 0 2 ∧ x.keySlot = leAt value 2 2) ∧
      v.get Obj.acpProxyState j = 1 := by
  unfold writeProxy
  rw [if_neg h1]
  dsimp only
  rw [if_neg (by omega)]
  refine ⟨_, rfl, ?_⟩
  split
  · rename_i p ps _
    refine ⟨⟨_, (congrArg (fun f : Fabric => f.proxies.find j) (OnlySent.sendFabric ..).fabric).trans
      (NMap.find_put_same ..), rfl, rfl⟩, ?_⟩
    · rw [State.get_congr (congrArg (fun u => u.dict.active) (OnlySent.sendFabric ..).rest)]
      exact State.get_set_same ..
  · exact ⟨⟨_, NMap.find_put_same .., rfl, rfl⟩, State.get_set_same ..⟩

/-- A proxied request in one segment (R58, R459). -/
theorem writeSegment_proxy {p : Path} {tag : BitVec 16} {j : Nat} {value : List Byte} {s : State} (hj : j < 64)
    (hl : value.length ≤ 240) (hb : 9 ≤ s.get Obj.bootStage ∨ p = .boot) (h1 : s.get Obj.acpProxyState j ≠ 1)
    (hp : s.partial_ p (addrKey 0x6870 0 j) = []) :
    writeSegment p (segReq tag 0x6870 0 j value) Obj.acpProxyRequest s = writeProxy j value (s.withDict { s.dict with
      partials := s.dict.partials.del (addrKey 0x6870 0 j) }) := by
  have inst : (segReq tag 0x6870 0 j value).inst.toNat = j := Nat.mod_eq_of_lt (by omega)
  have size : Obj.acpProxyRequest.ty.size = 264 := rfl
  have busy : s.busyFor p Obj.acpProxyRequest j = false := by
    unfold State.busyFor
    rcases hb with hb | rfl
    · simp [Nat.not_lt.mpr hb, h1, Obj.acpProxyRequest]
    · simp [h1, Obj.acpProxyRequest]
  have whole := writeSegment_whole (p := p) (q := segReq tag 0x6870 0 j value) (o := Obj.acpProxyRequest) (s := s)
    (by decide) rfl (by rw [inst]; exact busy) (by rw [inst]; exact hp) rfl rfl
    (show value.length ≤ Obj.acpProxyRequest.ty.size by omega) rfl
  rw [whole, inst]
  rfl

/-- A proxied request in its turn (R459). -/
theorem exec_acpProxyRequest {c : Client} {j : Fin 64} {value : List Byte} {s u : State} (hu : u = s.takenBy c.path)
    (turn : Turn c.path (segReq c.tag 0x6870 0 j.val value) s) (hlev : 2 ≤ u.levelOf c.path 0x6870 true)
    (hb : 9 ≤ u.get Obj.bootStage ∨ c.path = .boot) (h1 : u.get Obj.acpProxyState j.val ≠ 1)
    (hp : u.partial_ c.path (addrKey 0x6870 0 j.val) = []) (hl : value.length ≤ 240) :
    exec (.acpProxyRequest c j value) s = .next (answer c.path
      (respond (segReq c.tag 0x6870 0 j.val value) (writeProxy j.val value (u.withDict { u.dict with
        partials := u.dict.partials.del (addrKey 0x6870 0 j.val) })).1)
      (writeProxy j.val value (u.withDict { u.dict with
        partials := u.dict.partials.del (addrKey 0x6870 0 j.val) })).2) := by
  subst hu
  have inst : (segReq c.tag 0x6870 0 j.val value).inst.toNat = j.val := Nat.mod_eq_of_lt (by omega)
  have has : Obj.acpProxyRequest.kind.has j.val = true := decide_eq_true j.isLt
  have object : (s.takenBy c.path).object (segReq c.tag 0x6870 0 j.val value) = .ok Obj.acpProxyRequest := by
    unfold State.object
    rw [show rowOf (segReq c.tag 0x6870 0 j.val value).index.toNat (segReq c.tag 0x6870 0 j.val value).sub.toNat =
      some Obj.acpProxyRequest from rowOf_acpProxyRequest]
    dsimp only
    rw [inst, has]
    rfl
  have length : (segReq c.tag 0x6870 0 j.val value).length.toNat ≤ 240 := by
    change value.length % 2 ^ 16 ≤ 240
    omega
  have served := serveDict_writeSeg (p := c.path) rfl object rfl length (by decide) hlev
  rw [writeSegment_proxy j.isLt hl hb h1 hp] at served
  rw [exec_of_turn (i := .acpProxyRequest c j value) turn rfl rfl, carryOut_answered served]

/-! ### Time-outs -/

theorem exec_acpProxyTimeout_due {s : State} {j : Fin 64} {x : Proxy} (hx : s.fabric.proxies.find j.val = some x)
    (hd : x.deadline ≤ s.time.ticks) : exec (.acpProxyTimeout j) s = .next ((s.withFabric
      { s.fabric with proxies := s.fabric.proxies.del j.val }).set Obj.acpProxyState j.val 3) := by
  change execAcpProxyTimeout j s = _
  unfold execAcpProxyTimeout
  rw [hx]
  exact congrArg Host.Outcome.next (if_pos hd)

theorem exec_acpKeyGraceEnd_due {s : State} {slot : Fin 256} {g : Nat × Nat × Nat}
    (hg : s.fabric.grace.find slot.val = some g)
    (he : s.elapsed g.2.2 (s.get Obj.acpKeyGraceS * 1000000000) = true) : exec (.acpKeyGraceEnd slot) s =
    .next (s.withFabric { s.fabric with grace := s.fabric.grace.del slot.val }) := by
  change execAcpKeyGraceEnd slot s = _
  unfold execAcpKeyGraceEnd
  rw [hg]
  exact congrArg Host.Outcome.next (if_pos he)

/-- Settles O40: a request of a new session waits, a proxied one is a segment that is sent at once, and the rest is one
branch each. -/
theorem acpRequestsWaitAndAreAnswered : Obligations.AcpRequestsWaitAndAreAnswered := by
  unfold Obligations.AcpRequestsWaitAndAreAnswered
  refine fun s => ⟨?_, fun a ha ht he => exec_acpUnserved_late ha ht he, ?_, ?_,
    fun j x hx hd => exec_acpProxyTimeout_due hx hd, fun slot g hg he => exec_acpKeyGraceEnd_due hg he⟩
  · intro port frame c q key old hc hk hl hf hd h3 ha hw hq hs hn
    exact completes_acpRequest_first hc hd hk hl hf h3 ha hw hq hs hn
  · intro c j value u hu turn hlev hb h1 hp hn hl hs
    have exec := exec_acpProxyRequest hu turn hlev hb h1 hp hl
    obtain ⟨v, sent, found, state⟩ := writeProxy_free (j := j.val) (value := value) (s := u.withDict { u.dict with
      partials := u.dict.partials.del (addrKey 0x6870 0 j.val) }) h1 hn hs
    rw [sent] at exec
    exact ⟨v, found, state, exec⟩
  · intro port frame c j x hc hk hu hd hx h1 h2 h3 hm
    exact exec_acpResponse_proxied hc hd hk hu hx h1 h2 h3 hm

end Sys2Proof.Machine
end

section
/-! SUPPORT. Lost references, repeated pauses and gangways (R465, R479, R482 to R485): each branch, through the gangway's
own record. -/

namespace Sys2Proof.Machine

theorem State.gw_setGw_same (s : State) (g : Nat) (x : Gw) : (setGw g x s).gw g = x :=
  NMap.getD_set_same ..

theorem State.gw_setGw_other (s : State) {g h : Nat} (x : Gw) (hh : h ≠ g) : (setGw g x s).gw h = s.gw h :=
  NMap.getD_set_other _ _ _ hh

/-- What a write to one gangway's record leaves: every other record, and every other part of the state. -/
structure GangwayOnly (g : Nat) (s t : State) : Prop where
  other : ∀ h, h ≠ g → t.gw h = s.gw h
  rest : t = { s with sleep := { s.sleep with gangways := t.sleep.gangways } }

theorem GangwayOnly.setGw (g : Nat) (x : Gw) (s : State) : GangwayOnly g s (setGw g x s) :=
  ⟨fun _ hh => State.gw_setGw_other s x hh, rfl⟩

theorem GangwayOnly.trans {g : Nat} {s t u : State} (h : GangwayOnly g s t) (k : GangwayOnly g t u) : GangwayOnly g s u := by
  refine ⟨fun i hi => (k.other i hi).trans (h.other i hi), ?_⟩
  rw [k.rest, h.rest]

/-- The next crossing begins with what has accumulated (R482). -/
theorem startCrossing_free {g : Nat} {s : State} (h : (s.gw g).crossing = none) :
    GangwayOnly g s (startCrossing g s) ∧ ((startCrossing g s).gw g).count = 0 ∧
    ((startCrossing g s).gw g).delivered = (s.gw g).delivered ∧
    ((startCrossing g s).gw g).crossing = if (s.gw g).count = 0 then none else some (s.gw g).count := by
  unfold startCrossing
  dsimp only
  by_cases hc : (s.gw g).count = 0
  · rw [if_neg (fun k => k.2 hc), if_pos hc]
    exact ⟨⟨fun _ _ => rfl, rfl⟩, hc, rfl, h⟩
  · rw [if_pos ⟨by rw [h]; rfl, hc⟩, if_neg hc, State.gw_setGw_same]
    exact ⟨.setGw .., rfl, rfl, rfl⟩

/-- The acknowledge of a crossing delivers its count, and the accumulated count crosses next (R482). -/
theorem completes_gangwayEventAck {g : Gangway} {c : Nat} {s : State} (h0 : s.get Obj.gangwayState g.val = 0)
    (hc : (s.gw g.val).crossing = some c) : Completes (.gangwayEventAck g) s fun t =>
      (t.gw g.val).delivered = (s.gw g.val).delivered + c ∧ (t.gw g.val).count = 0 ∧
      (t.gw g.val).crossing = (if (s.gw g.val).count = 0 then none else some (s.gw g.val).count) ∧
      (∀ h, h ≠ g.val → t.gw h = s.gw h) ∧ t = { s with sleep := { s.sleep with gangways := t.sleep.gangways } } := by
  obtain ⟨u, hu⟩ : ∃ u, u = setGw g.val
    { s.gw g.val with crossing := none, delivered := (s.gw g.val).delivered + c } s := ⟨_, rfl⟩
  have record : u.gw g.val = { s.gw g.val with crossing := none, delivered := (s.gw g.val).delivered + c } := by
    rw [hu, State.gw_setGw_same]
  have exec : exec (.gangwayEventAck g) s = .next (startCrossing g.val u) := by
    change execGangwayEventAck g s = _
    unfold execGangwayEventAck
    dsimp only
    rw [h0, hc, hu]
    rfl
  obtain ⟨only, count, delivered, crossing⟩ := startCrossing_free (g := g.val) (s := u) (by rw [record])
  have all := (show GangwayOnly g.val s u by rw [hu]; exact .setGw ..).trans only
  refine ⟨_, exec, ?_, count, ?_, all.other, all.rest⟩
  · rw [delivered, record]
  · rw [crossing, record]

theorem exec_gangwayTimeout_may {g : Gangway} {silent : Bool} {handshake : Fin 3} {s : State}
    (h : s.mayTimeOut g.val handshake.val = true) : exec (.gangwayTimeout g silent handshake) s =
      .next (isolated g.val (raise Ev.gangwayTimeout g.val (bit01 silent) handshake.val
        ((s.set Obj.gangwayState g.val 4).bump Obj.gangwayTimeouts g.val))) := by
  change execGangwayTimeout g silent handshake s = _
  unfold execGangwayTimeout
  exact congrArg Host.Outcome.next (if_pos h)

/-- The reset of one side flushes what is in the gangway (R485). -/
theorem completes_gangwaySideReset {g : Gangway} {destination : Bool} {s : State} (hg : gangwayExists g.val = true)
    (h2 : s.get Obj.gangwayState g.val ≠ 2) : Completes (.gangwaySideReset g destination) s fun t =>
      t.get Obj.gangwayState g.val = 2 ∧ (t.gw g.val).fifo = 0 ∧ (t.gw g.val).count = 0 ∧ (t.gw g.val).crossing = none ∧
      (t.gw g.val).flushed = (s.gw g.val).fifo + (s.gw g.val).count + (s.gw g.val).crossing.getD 0 ∧
      (∀ h, h ≠ g.val → t.gw h = s.gw h) := by
  have hg' : g.val < 65536 := by omega
  obtain ⟨x, hx⟩ : ∃ x : Gw, x = { s.gw g.val with
    fifo := 0, count := 0, crossing := none,
    flushed := (s.gw g.val).fifo + (s.gw g.val).count + (s.gw g.val).crossing.getD 0, side := destination } := ⟨_, rfl⟩
  have exec : exec (.gangwaySideReset g destination) s = .next (((setGw g.val x s).set Obj.gangwayState g.val 2).add
      Obj.crossingFlushed g.val ((s.gw g.val).fifo + (s.gw g.val).count + (s.gw g.val).crossing.getD 0)) := by
    rw [hx]
    change execGangwaySideReset g destination s = _
    unfold execGangwaySideReset
    exact congrArg Host.Outcome.next (if_pos (by simp [hg, h2]))
  have record : (((setGw g.val x s).set Obj.gangwayState g.val 2).add Obj.crossingFlushed g.val
      ((s.gw g.val).fifo + (s.gw g.val).count + (s.gw g.val).crossing.getD 0)).gw g.val = x :=
    State.gw_setGw_same s g.val x
  refine ⟨_, exec, ?_, ?_, ?_, ?_, ?_, fun h hh => State.gw_setGw_other s x hh⟩
  · exact (State.get_set_apart _ (by decide) _ hg' hg').trans (State.get_set_same ..)
  all_goals rw [record, hx]

/-- A gangway whose reset flushed nothing runs again (R485). -/
theorem completes_gangwayResync {g : Gangway} {s : State} (h2 : s.get Obj.gangwayState g.val = 2)
    (h0 : (s.gw g.val).flushed = 0) : Completes (.gangwayResync g) s fun t => t.get Obj.gangwayState g.val = 0 ∧
      t.get Obj.resyncs g.val = (s.get Obj.resyncs g.val + 1) % 2 ^ 64 ∧ (t.gw g.val).flushed = 0 := by
  have hg : g.val < 65536 := by omega
  have exec : exec (.gangwayResync g) s = .next ((setGw g.val { s.gw g.val with flushed := 0 }
      (s.set Obj.gangwayState g.val 0)).bump Obj.resyncs g.val) := by
    change execGangwayResync g s = _
    unfold execGangwayResync
    exact congrArg Host.Outcome.next ((if_pos h2).trans (if_pos h0))
  refine ⟨_, exec, ?_, ?_, ?_⟩
  · rw [State.get_bump_apart _ (by decide) hg hg]
    exact State.get_set_same ..
  · rw [State.get_bump_same]
    exact congrArg (fun n => (n + 1) % 2 ^ 64)
      (State.get_set_apart s (o := Obj.gangwayState) (o' := Obj.resyncs) (by decide) 0 hg hg)
  · exact congrArg Gw.flushed (State.gw_setGw_same (s.set Obj.gangwayState g.val 0) g.val _)

/-! ### References and the landing buffer -/

theorem exec_refclkLost_gone {bit : Fin 10} {s : State} (h : bitOf (s.get Obj.refclkPresent) bit.val = true) :
    exec (.refclkLost bit false) s = .next (loseRef bit.val (raise Ev.refclkLost 0 bit.val 0
      (s.set Obj.refclkPresent 0 (clearBit (s.get Obj.refclkPresent) bit.val)))) := by
  change execRefclkLost bit false s = _
  unfold execRefclkLost
  exact congrArg Host.Outcome.next (if_pos (by rw [h]; nofun))

theorem exec_refclkLost_back {bit : Fin 10} {s : State} (h : bitOf (s.get Obj.refclkPresent) bit.val = false)
    (h0 : bit.val ≠ 0) : exec (.refclkLost bit true) s = .next (raise Ev.refclkLost 0 bit.val 1
      (s.set Obj.refclkPresent 0 (setBit (s.get Obj.refclkPresent) bit.val))) := by
  change execRefclkLost bit true s = _
  unfold execRefclkLost
  exact congrArg Host.Outcome.next ((if_pos (by rw [h]; nofun)).trans ((if_pos rfl).trans (if_neg h0)))

theorem exec_landingPfcRefresh_due {d : Deck} {t : Nat} {s : State} (hx : s.sleep.xoff.find d.val = some t)
    (he : s.elapsed t (s.get Obj.pfcRefreshNs) = true) : exec (.landingPfcRefresh d) s = .next (landingPfc d.val true
      (s.withSleep { s.sleep with xoff := s.sleep.xoff.put d.val s.time.ticks })) := by
  change execLandingPfcRefresh d s = _
  unfold execLandingPfcRefresh
  rw [hx]
  exact congrArg Host.Outcome.next (if_pos he)

/-- Settles O42: each command is one branch, and a gangway's is a write of its own record. -/
theorem referencesAndGangways : Obligations.ReferencesAndGangways := by
  unfold Obligations.ReferencesAndGangways
  refine fun s => ⟨fun bit h => ⟨_, rfl, exec_refclkLost_gone h⟩, fun bit h h0 => exec_refclkLost_back h h0,
    fun d t hx he => exec_landingPfcRefresh_due hx he, fun g c h0 hc => completes_gangwayEventAck h0 hc,
    fun g silent handshake h => exec_gangwayTimeout_may h, fun g destination hg h2 => completes_gangwaySideReset hg h2,
    fun g h2 h0 => completes_gangwayResync h2 h0⟩

end Sys2Proof.Machine
end

section
/-! SUPPORT. The keel store (R498, R502, R503): what the rows of its calibration values share, a write that is accepted
with its response to come, and the store that ends it. -/

namespace Sys2Proof.Machine

/-! ### The rows of the keel store -/

theorem keelRow_iff {index : Nat} {e : ObjRow × ObjRow × ObjRow} (h : keelRow index = some e) :
    e ∈ keelRows ∧ e.1.index = index := by
  have found := List.find?_some (p := fun e : ObjRow × ObjRow × ObjRow => e.1.index == index) h
  exact ⟨List.mem_of_find?_eq_some h, beq_iff_eq.mp found⟩

/-- A calibration value is an object that may be written outside a group, and that nothing else guards. -/
theorem keelRows_value : ∀ e ∈ keelRows, e.1.right ≠ .ro ∧ e.1.right ≠ .rwg ∧ e.1.ty.isDomain = false ∧
    controlIndex e.1.index = false ∧ e.1.ty.size < 65536 ∧ 0x9000 ≤ e.1.index ∧ e.1.index < 65536 ∧
    perturbIndex e.1.index = false := by
  decide

/-- A value, its writes and its origin are three objects, none of them a supply voltage. -/
theorem keelRows_apart : ∀ e ∈ keelRows, e.1.apart e.2.1 = true ∧ e.1.apart e.2.2 = true ∧ e.2.1.apart e.1 = true ∧
    e.2.1.apart e.2.2 = true ∧ e.1.apart Obj.vcoreMv = true ∧ e.2.1.apart Obj.vcoreMv = true ∧
    e.2.2.apart Obj.vcoreMv = true := by
  decide

set_option maxRecDepth 4000 in
theorem rowOf_keel {index : Nat} {e : ObjRow × ObjRow × ObjRow} (h : keelRow index = some e) :
    rowOf index 1 = some e.1 := by
  obtain ⟨mem, rfl⟩ := keelRow_iff h
  unfold keelRows at mem
  simp only [List.mem_cons, List.not_mem_nil, or_false] at mem
  rcases mem with rfl | rfl | rfl | rfl | rfl | rfl <;> rfl

theorem State.counterLost_high {s : State} {index sub : Nat} (h : 0x9000 ≤ index) : s.counterLost index sub = false := by
  unfold State.counterLost
  rw [show decide (0x8800 ≤ index ∧ index ≤ 0x8803) = false from decide_eq_false (by omega)]
  rfl

/-! ### A write that is accepted -/

/-- The checks pass only while the value has writes left (R503). -/
theorem writeCheck_unlocked {s : State} {p : Path} {o : ObjRow} {sub inst v : Nat}
    (h : s.writeCheck p o sub inst v = St.ok) : s.lockedFor p o inst = false := by
  unfold State.writeCheck at h
  cases locked : s.lockedFor p o inst with
  | false => rfl
  | true =>
    rw [if_pos locked] at h
    exact absurd h (by decide)

/-- A calibration value with writes left begins its store while none runs (R498). -/
theorem writeKeel_begins {p : Path} {tag : BitVec 16} {index inst v : Nat} {val writes origin : ObjRow} {s : State}
    (hr : keelRow index = some (val, writes, origin)) (hl : s.lockedFor p val inst = false) (hk : s.boot.keel = none) :
    writeKeel p tag index inst v s = (none, s.withBoot { s.boot with
      keel := some (KeelJob.mk (some p) tag (addrKey index 1 inst) v (s.get val inst)) }) := by
  obtain ⟨mem, idx⟩ := keelRow_iff hr
  obtain ⟨_, _, _, _, _, _, _, perturb⟩ := keelRows_value _ mem
  dsimp only at idx perturb
  unfold State.lockedFor at hl
  rw [perturb, idx, hr] at hl
  unfold writeKeel
  rw [hr]
  dsimp only
  rw [if_neg (of_decide_eq_false hl), hk]
  rfl

/-- A calibration value that is written is accepted, and its response is to come (R498). -/
theorem exec_keelWrite_begins {c : Client} {index inst : BitVec 16} {v : Word32} {val writes origin : ObjRow} {s u : State}
    (hu : u = s.takenBy c.path) (hr : keelRow index.toNat = some (val, writes, origin))
    (hi : val.kind.has inst.toNat = true) (hv : v.toNat < 256 ^ val.ty.size)
    (may : ClientMay c index.toNat 1 inst.toNat (leBytes val.ty.size v.toNat) val.level s) (hk : u.boot.keel = none)
    (hc : u.writeCheck c.path val 1 inst.toNat v.toNat = St.ok) : exec (.keelWrite c index inst v) s =
      .next (u.withBoot { u.boot with keel := some (KeelJob.mk (some c.path) c.tag
        (addrKey index.toNat 1 inst.toNat) v.toNat (u.get val inst.toNat)) }) := by
  subst hu
  obtain ⟨mem, idx⟩ := keelRow_iff hr
  obtain ⟨ro, rwg, domain, control, size, high, wide, _⟩ := keelRows_value _ mem
  dsimp only at idx ro rwg domain control size high wide
  have value : leNat (leBytes val.ty.size v.toNat) = v.toNat := leNat_leBytes_of_lt hv
  have len : (leBytes val.ty.size v.toNat).length = val.ty.size := length_leBytes ..
  have rule : writeEffect c.path c.tag val 1 inst.toNat v.toNat (s.takenBy c.path) =
      writeKeel c.path c.tag val.index inst.toNat v.toNat (s.takenBy c.path) := by
    unfold writeEffect
    dsimp only
    rw [if_neg (by rw [control]; exact Bool.false_ne_true), if_pos (by rw [idx, hr]; rfl)]
  have written := clientWrite_effect may val (rowOf_keel hr) rfl index.isLt (by decide) inst.isLt len (by rw [len]; exact size) hi
    (State.counterLost_high (idx ▸ high)) ro rwg domain (by rw [value]; exact hc)
  rw [value, rule, idx, writeKeel_begins hr (writeCheck_unlocked hc) hk] at written
  have size' : execKeelWrite c index inst v s =
      .next (clientWrite c index.toNat 1 inst.toNat (leBytes val.ty.size v.toNat) s) := by
    unfold execKeelWrite
    rw [hr]
  change execKeelWrite c index inst v s = _
  rw [size', written]

/-! ### A write that is stored -/

/-- The store of a calibration value changes the value, its writes and its origin (R498, R502). -/
theorem storeKeel_stored {j : KeelJob} {index inst : Nat} {val writes origin : ObjRow} {s : State}
    (hj : j.key = addrKey index 1 inst) (hi : inst < 65536) (hr : keelRow index = some (val, writes, origin)) :
    (storeKeel j s).get val inst = j.value ∧
    (storeKeel j s).get writes inst = (s.get writes inst + 1) % 2 ^ (8 * writes.ty.size) ∧
    (storeKeel j s).get origin inst = 0 ∧ (storeKeel j s).boot.keelQueue = s.boot.keelQueue := by
  obtain ⟨mem, _⟩ := keelRow_iff hr
  obtain ⟨vw, vo, wv, wo, vm, wm, om⟩ := keelRows_apart _ mem
  dsimp only at vw vo wv wo vm wm om
  have idx : j.key / 2 ^ 24 = index := by
    rw [hj]
    unfold addrKey
    omega
  have ins : j.key % 2 ^ 16 = inst := by
    rw [hj]
    unfold addrKey
    omega
  obtain ⟨u, hu⟩ : ∃ u, u = ((s.set val inst j.value).bump writes inst).set origin inst 0 := ⟨_, rfl⟩
  have value : u.get val inst = j.value := by
    rw [hu, State.get_set_apart _ vo _ hi hi, State.get_bump_apart _ vw hi hi, State.get_set_same]
  have count : u.get writes inst = (s.get writes inst + 1) % 2 ^ (8 * writes.ty.size) := by
    rw [hu, State.get_set_apart _ wo _ hi hi, State.get_bump_same, State.get_set_apart _ wv _ hi hi]
  have source : u.get origin inst = 0 := by
    rw [hu, State.get_set_same]
  have queue : u.boot.keelQueue = s.boot.keelQueue := by
    rw [hu]
    rfl
  unfold storeKeel
  dsimp only
  rw [idx, ins, hr]
  dsimp only
  rw [← hu]
  split
  · unfold trimOutput
    dsimp only
    rw [State.get_set_apart _ vm _ hi hi, State.get_set_apart _ wm _ hi hi, State.get_set_apart _ om _ hi hi]
    exact ⟨value, count, source, queue⟩
  · exact ⟨value, count, source, queue⟩

theorem exec_keelWritten_job {s : State} {j : KeelJob} (hj : s.boot.keel = some j) : exec .keelWritten s =
    .next (answerOpt j.path (lateResponse j.tag j.key) (raise Ev.keelWritten (j.key % 2 ^ 16) (j.key / 2 ^ 24) j.value
      ((storeKeel j s).withBoot { (storeKeel j s).boot with
        keel := (storeKeel j s).boot.keelQueue.head?, keelQueue := (storeKeel j s).boot.keelQueue.drop 1 }))) := by
  change execKeelWritten s = _
  unfold execKeelWritten
  rw [hj]

/-! ### The rollback counter -/

set_option maxRecDepth 4000 in
theorem rowOf_rollbackAdvance : rowOf 0x9012 0 = some Obj.rollbackAdvance := rfl

theorem busyFor_rollback {s : State} {p : Path} (hb : 9 ≤ s.get Obj.bootStage ∨ p = .boot) (hn : s.boot.rollback = none) :
    s.busyFor p Obj.rollbackAdvance 0 = false := by
  unfold State.busyFor
  rcases hb with hb | hb
  · simp [Nat.not_lt.mpr hb, hn, Obj.rollbackAdvance]
  · simp [hb, hn, Obj.rollbackAdvance]

/-- An advance that no image stands below is accepted (R502). -/
theorem writeRollback_begins {p : Path} {tag : BitVec 16} {v : Nat} {s : State} (hlow : s.rollback < v) (hhigh : v ≤ 64)
    (hs : v ≤ s.runningSecurity) (h0 : s.slotBelow 0 v = false) (h1 : s.slotBelow 1 v = false)
    (hn : s.boot.rollback = none) : writeRollback p tag v s = (none, s.withBoot { s.boot with
      rollback := some (KeelJob.mk (some p) tag (addrKey 0x9012 0 0) v s.rollback) }) := by
  unfold writeRollback
  rw [if_neg (by omega), if_neg (by rw [h0, h1]; simp; omega), if_neg (by rw [hn]; exact Bool.false_ne_true)]

theorem exec_rollbackAdvance_begins {c : Client} {v : Byte} {s u : State} (hu : u = s.takenBy c.path)
    (may : ClientMay c 0x9012 0 0 [v] 2 s) (hlow : u.rollback < v.toNat) (hhigh : v.toNat ≤ 64)
    (hs : v.toNat ≤ u.runningSecurity) (h0 : u.slotBelow 0 v.toNat = false) (h1 : u.slotBelow 1 v.toNat = false)
    (hn : u.boot.rollback = none) : exec (.rollbackAdvance c v) s = .next (u.withBoot { u.boot with
      rollback := some (KeelJob.mk (some c.path) c.tag (addrKey 0x9012 0 0) v.toNat u.rollback) }) := by
  subst hu
  have value : leNat [v] = v.toNat := leNat_singleton v
  have checked : (s.takenBy c.path).writeCheck c.path Obj.rollbackAdvance 0 0 (leNat [v]) = St.ok := by
    rw [value]
    exact writeCheck_plain rfl rfl (busyFor_rollback may.2.2 hn) (by decide) rfl
      (.inr ⟨rfl, decide_eq_true hhigh, rfl, rfl, rfl⟩)
  have written := clientWrite_effect may Obj.rollbackAdvance rowOf_rollbackAdvance rfl (by decide) (by decide) (by decide)
    rfl (by simp) rfl (State.counterLost_high (by decide)) (by decide) (by decide) rfl checked
  have rule : writeEffect c.path c.tag Obj.rollbackAdvance 0 0 v.toNat (s.takenBy c.path) =
      writeRollback c.path c.tag v.toNat (s.takenBy c.path) := rfl
  rw [value, rule, writeRollback_begins hlow hhigh hs h0 h1 hn] at written
  exact congrArg Host.Outcome.next written

theorem exec_rollbackAdvanced_job {s : State} {j : KeelJob} (hj : s.boot.rollback = some j) :
    exec .rollbackAdvanced s = .next (answerOpt j.path (lateResponse j.tag j.key) (raise Ev.rollbackAdvanced 0 j.old j.value
      ((s.withBoot { s.boot with rollback := none }).set Obj.rollbackCounter 0 j.value))) := by
  change execRollbackAdvanced s = _
  unfold execRollbackAdvanced
  rw [hj]

/-- Settles O46: a calibration value's row decides the checks of its write, its store is one branch, and the rollback
counter's two steps likewise. -/
theorem keelAndRollbackAreStored : Obligations.KeelAndRollbackAreStored := by
  unfold Obligations.KeelAndRollbackAreStored
  refine fun s => ⟨?_, ?_, ?_, fun j hj => exec_rollbackAdvanced_job hj⟩
  · intro c index inst v val writes origin u hu hr hi hv may hk _ hc
    exact exec_keelWrite_begins hu hr hi hv may hk hc
  · intro j index inst val writes origin hk hj hi hr
    obtain ⟨value, count, source, queue⟩ := storeKeel_stored (s := s) hj hi hr
    have idx : j.key / 2 ^ 24 = index := by
      rw [hj]
      unfold addrKey
      omega
    have ins : j.key % 2 ^ 16 = inst := by
      rw [hj]
      unfold addrKey
      omega
    have exec := exec_keelWritten_job hk
    rw [idx, ins] at exec
    exact ⟨_, exec, value, count, source, by rw [← queue]; rfl, by rw [← queue]; rfl⟩
  · intro c v u hu may hlow hhigh hs h0 h1 hn
    exact exec_rollbackAdvance_begins hu may hlow hhigh hs h0 h1 hn

end Sys2Proof.Machine
end

section
/-! SUPPORT. Restarts, retired decks and the live update (R513, R519 to R521, R527): each rule's branch. -/

namespace Sys2Proof.Machine

set_option maxRecDepth 4000 in
theorem rowOf_pilotRestart : rowOf 0x8004 0 = some Obj.pilotRestart := rfl
set_option maxRecDepth 4000 in
theorem rowOf_deckRetire : rowOf 0x8023 0 = some Obj.deckRetire := rfl
set_option maxRecDepth 4000 in
theorem rowOf_fwLoad : rowOf 0x8010 0 = some Obj.fwLoad := rfl
set_option maxRecDepth 4000 in
theorem rowOf_fwUpdateAbort : rowOf 0x8014 0 = some Obj.fwUpdateAbort := rfl

/-! ### The rules of the objects -/

/-- A restart of a held-down Pilot releases it (R513). -/
theorem restartPilot_heldDown {d : Nat} {s : State} (h : s.get Obj.pilotState d = 2) : restartPilot d 1 s =
    (St.ok, setPilot d { s.pilot d with onPurpose := true, declaredAt := s.time.ticks, booting := none }
      (s.set Obj.pilotState d 1)) := by
  unfold restartPilot
  dsimp only
  rw [if_neg (by decide), if_pos h]

/-- A restart of a running Pilot holds it (R513). -/
theorem restartPilot_running {d : Nat} {s : State} (h : s.get Obj.pilotState d = 0) :
    restartPilot d 1 s = (St.ok, holdPilot d true s) := by
  unfold restartPilot
  dsimp only
  rw [h]
  rfl

/-- A retired deck is lost while another is in service (R527). -/
theorem retireDeck_other {d e : Deck} {s : State} (he : e ≠ d) (hu : s.deckUp e.val = true) :
    retireDeck d.val 1 s = (St.ok, loseDeck d.val 5 s) := by
  have other : ((List.range 4).any fun k => k != d.val && s.deckUp k) = true :=
    List.any_eq_true.mpr ⟨e.val, List.mem_range.mpr e.isLt, by simp [hu, Fin.val_ne_of_ne he]⟩
  unfold retireDeck
  rw [if_neg (by decide), other]
  rfl

/-- A load of the device's own pages begins the update (R519). -/
theorem fwLoad_begins {v : Nat} {s : State} (h0 : s.get Obj.fwUpdateState = 0)
    (hp : ∀ d : Deck, s.get Obj.pilotState d.val ≠ 2) (hr : s.rangeOk v = true)
    (hl : v % 2 ^ 32 = imageLength (s.rangeBytes v)) : fwLoad v s =
      (St.ok, ((quayAsk .dma false (v / 2 ^ 32 % 65536 * 4096) (v % 2 ^ 32) s).set Obj.fwUpdateState 0 1).withAvail
        { s.avail with fw := (v, s.time.ticks) }) := by
  have free : ¬ (s.get Obj.fwUpdateState ≠ 0 ∨ ((List.range 4).any fun d => s.get Obj.pilotState d == 2) = true) := by
    rintro (h | h)
    · exact h h0
    · obtain ⟨d, hd, h2⟩ := List.any_eq_true.mp h
      exact hp ⟨d, List.mem_range.mp hd⟩ (beq_iff_eq.mp h2)
  have whole : ¬ ((!s.rangeOk v) = true ∨ v % 2 ^ 32 ≠ imageLength (s.rangeBytes v)) := by
    rw [hr]
    exact fun h => h.elim nofun (fun h => h hl)
  have asked := quayAsk_rest .dma false (v / 2 ^ 32 % 65536 * 4096) (v % 2 ^ 32) s
  unfold fwLoad
  rw [if_neg free, if_neg whole]
  have avail : (quayAsk .dma false (v / 2 ^ 32 % 65536 * 4096) (v % 2 ^ 32) s).avail = s.avail := by
    rw [asked]
    rfl
  have time : (quayAsk .dma false (v / 2 ^ 32 % 65536 * 4096) (v % 2 ^ 32) s).time = s.time := by
    rw [asked]
    rfl
  rw [← avail, ← time]
  rfl

/-- An abort while the image is checked ends the update (R521). -/
theorem fwAbort_checking {s : State} (h : s.get Obj.fwUpdateState = 1) : fwAbort 1 s =
    (St.ok, raise Ev.fwUpdateFailed 0 0 0xFF (passBack s.avail.fw.1 (s.set Obj.fwUpdateState 0 0))) := by
  unfold fwAbort
  rw [if_neg (by decide), h]
  rfl

/-- An abort while the Pilots are restarted reverses it (R521). -/
theorem fwAbort_rolling {s : State} (h : s.get Obj.fwUpdateState = 2) : fwAbort 1 s = (St.ok, reverseUpdate 0 0xFF s) := by
  unfold fwAbort
  rw [if_neg (by decide), h]
  rfl

theorem writeEffect_fwUpdateAbort {p : Path} {tag : BitVec 16} {v : Nat} {s : State} :
    writeEffect p tag Obj.fwUpdateAbort 0 0 v s = (some (fwAbort v s).1, (fwAbort v s).2) := rfl

theorem leNat_one : leNat [(1 : Byte)] = 1 := rfl

/-- In range a byte is read whatever the default is. -/
theorem getD_of_range {bs : List Byte} {a b : Nat} (d e : Byte) (h : a ≤ b ∧ b < a + bs.length) :
    bs.getD (b - a) d = bs.getD (b - a) e := by
  have listed : b - a < bs.length := by omega
  rw [List.getD_eq_getElem?_getD, List.getD_eq_getElem?_getD, List.getElem?_eq_getElem listed, Option.getD_some,
    Option.getD_some]

/-! ### The steps of a live update -/

theorem exec_fwCheckDone_running {s : State} (h1 : s.get Obj.fwUpdateState = 1) (hp : s.anyPilot = true) {v check : Nat}
    {b : List Byte} (hv : v = s.avail.fw.1) (hb : b = s.rangeBytes v) (hc : check = imageCheck false s.rollback b) :
    exec .fwCheckDone s = .next (if check ≠ 0 then
        raise Ev.fwUpdateFailed 0 check 0xFF (passBack v (s.set Obj.fwUpdateState 0 0))
      else updateStep ((List.range 4).foldl (fun (u : State) (d : Nat) => setPilot d { u.pilot d with current := false } u)
        (passBack v (newCopies b (s.set Obj.fwUpdateState 0 2))))) := by
  subst hc hb hv
  change execFwCheckDone s = _
  unfold execFwCheckDone
  exact congrArg Host.Outcome.next (if_neg (by simp [h1, hp]))

theorem exec_fwFlashDone_running {s : State} (h3 : s.get Obj.fwUpdateState = 3) (hv : s.power.vddio = true)
    (hp : s.anyPilot = true) : exec .fwFlashDone s = .next (updateDone (s.withHost { s.host with
      flash := putBytes 0xFF s.host.flash (slotBase (s.avail.fwSlot - 1)) s.currentCopy })) := by
  change execFwFlashDone s = _
  unfold execFwFlashDone
  exact congrArg Host.Outcome.next (if_neg (by simp [h3, hv, hp]))

theorem exec_fwRestartTimeout_late {s : State} {d : Deck} (h2 : s.get Obj.fwUpdateState = 2)
    (h1 : s.get Obj.pilotState d.val = 1) (he : s.elapsed (s.pilot d.val).declaredAt 250000000 = true) :
    exec (.fwRestartTimeout d) s = .next (reverseUpdate 8 d.val s) := by
  change execFwRestartTimeout d s = _
  unfold execFwRestartTimeout
  exact congrArg Host.Outcome.next (if_pos ⟨h2, h1, he⟩)

/-- Settles O48: a client's write passes its checks and its object's rule is one branch; each step of an update is one. -/
theorem firmwareIsManagedAndUpdated : Obligations.FirmwareIsManagedAndUpdated := by
  unfold Obligations.FirmwareIsManagedAndUpdated
  refine ⟨fun c s => ⟨?_, ?_, ?_, ?_, fun may => ⟨?_, ?_⟩⟩, fun s => ⟨?_, ?_, ?_⟩⟩
  · intro d may h2
    exact clientWrites_plain Obj.pilotRestart rfl may rowOf_pilotRestart rfl (by decide) (by decide) (by omega)
      (decide_eq_true d.isLt) rfl (.inr ⟨rfl, rfl, rfl, rfl, rfl⟩)
      (congrArg (fun r : Nat × State => (some r.1, r.2)) (restartPilot_heldDown h2))
  · intro d may h0
    exact clientWrites_plain Obj.pilotRestart rfl may rowOf_pilotRestart rfl (by decide) (by decide) (by omega)
      (decide_eq_true d.isLt) rfl (.inr ⟨rfl, rfl, rfl, rfl, rfl⟩)
      (congrArg (fun r : Nat × State => (some r.1, r.2)) (restartPilot_running h0))
  · intro d e may he hu
    exact clientWrites_plain Obj.deckRetire rfl may rowOf_deckRetire rfl (by decide) (by decide) (by omega)
      (decide_eq_true d.isLt) rfl (.inr ⟨rfl, rfl, rfl, rfl, rfl⟩)
      (congrArg (fun r : Nat × State => (some r.1, r.2)) (retireDeck_other he hu))
  · intro range may h
    obtain ⟨h0, hp, hr, hl⟩ := h _ rfl
    have value : leNat (leBytes 8 range.toNat) = range.toNat := leNat_leBytes_of_lt range.isLt
    refine clientWrites_plain Obj.fwLoad rfl may rowOf_fwLoad rfl (by decide) (by decide) (by decide) rfl
      (length_leBytes ..) (.inl rfl) ?_
    rw [value]
    exact congrArg (fun r : Nat × State => (some r.1, r.2)) (fwLoad_begins h0 hp hr hl)
  · intro h1
    refine clientWrites_plain Obj.fwUpdateAbort rfl may rowOf_fwUpdateAbort rfl (by decide) (by decide) (by decide) rfl rfl
      (.inr ⟨rfl, rfl, rfl, rfl, rfl⟩) ?_
    rw [writeEffect_fwUpdateAbort, leNat_one, fwAbort_checking h1]
  · intro h2
    refine clientWrites_plain Obj.fwUpdateAbort rfl may rowOf_fwUpdateAbort rfl (by decide) (by decide) (by decide) rfl rfl
      (.inr ⟨rfl, rfl, rfl, rfl, rfl⟩) ?_
    rw [writeEffect_fwUpdateAbort, leNat_one, fwAbort_rolling h2]
  · intro v b h1 hp hv hb check hc
    exact exec_fwCheckDone_running h1 hp hv hb hc
  · intro h3 hv hp
    exact ⟨_, exec_fwFlashDone_running h3 hv hp, rfl, fun a => (getD_putBytes ..).trans (ite_congr rfl (getD_of_range _ _) fun _ => rfl)⟩
  · intro d h2 h1 he
    exact exec_fwRestartTimeout_late h2 h1 he

end Sys2Proof.Machine
end

section
/-! SUPPORT. On-die errors and the repair of poisoned bursts (R523, R524): each branch, with its drawn values named. -/

namespace Sys2Proof.Machine

section
variable {p : Pipe} {a : SramArray} {s : State} (h : s.deckUp (deckOfPipe p.val) = true)
include h

/-- A corrected error is counted, reported and handled by its array (R523). -/
theorem exec_sramScrub_corrected : exec (.sramScrub p a .corrected) s = .next (sramFound p.val a
    (raise Ev.sramCorrected (deckOfPipe p.val) s.draw.1 s.draw.2.draw.1
      (s.draw.2.draw.2.bump Obj.sramCorrected (deckOfPipe p.val)))) := by
  change execSramScrub p a .corrected s = _
  unfold execSramScrub
  exact congrArg Host.Outcome.next ((if_neg (by simp [h])).trans (if_pos rfl))

/-- An uncorrectable error is counted, reported and handled by its array (R523). -/
theorem exec_sramScrub_uncorrectable : exec (.sramScrub p a .uncorrectable) s = .next (sramLost p.val a
    (raise Ev.sramUncorrected (deckOfPipe p.val) s.draw.1 s.draw.2.draw.1
      (s.draw.2.draw.2.bump Obj.sramUncorrected (deckOfPipe p.val)))) := by
  change execSramScrub p a .uncorrectable s = _
  unfold execSramScrub
  exact congrArg Host.Outcome.next ((if_neg (by simp [h])).trans (if_neg nofun))

end

/-- The first burst of the list that can be repaired is repaired and reported (R524). -/
theorem exec_poisonRepair_first {d : Deck} {b : Nat} {rest : List Nat} {s : State} (hd : s.deckUp d.val = true)
    (hp : s.pilotUp (s.get Obj.servingPilot d.val) = true) (hl : s.hbm.poison.getD d.val [] = b :: rest)
    (hr : s.repairable d.val (b / 2 ^ 27) (b % 2 ^ 27 * 64) = true) {lost : Nat} {u : State}
    (hu : repairBurst d.val (b / 2 ^ 27) (b % 2 ^ 27 * 64) (wantBurst .scrub true (2 * d.val + b / 2 ^ 27)
      (b % 2 ^ 27 * 64) s.draw.2) = (lost, u)) :
    exec (.poisonRepair d) s = .next (raise Ev.poisonRepaired d.val s.draw.1 (lost * 2 ^ 32 + b) u) := by
  have found : ((b :: rest).find? fun b => s.repairable d.val (b / 2 ^ 27) (b % 2 ^ 27 * 64)) = some b :=
    List.find?_cons_of_pos hr
  change execPoisonRepair d s = _
  unfold execPoisonRepair
  dsimp only
  rw [if_neg (by simp [hd, hp]), hl, found]
  dsimp only
  rw [hu]

/-- Settles O49: each outcome is one branch of the scrub, and the first burst of the list is the one repaired. -/
theorem memoryErrorsAreHandled : Obligations.MemoryErrorsAreHandled := by
  unfold Obligations.MemoryErrorsAreHandled
  refine fun s => ⟨fun p a h => ?_, fun d b rest hd hp hl hr => ?_⟩
  · exact ⟨_, _, _, rfl, exec_sramScrub_corrected h, exec_sramScrub_uncorrectable h⟩
  · exact ⟨_, _, _, rfl, exec_poisonRepair_first hd hp hl hr rfl⟩

end Sys2Proof.Machine
end

section
/-! SUPPORT. Chain-link directions and PLLs (R525 to R527): reading a direction after it is set, and each branch of a
retraining and of a relock. -/

namespace Sys2Proof.Machine

/-! ### A direction that is set -/

theorem State.setDir_cross (s : State) (d : Nat) (x : Link) :
    (s.setDir d x).cross = { s.cross with links := NMap.set {} s.cross.links d x } := by
  unfold State.setDir
  dsimp only
  split <;> rfl

theorem State.dir_setDir_same (s : State) (d : Nat) (x : Link) : (s.setDir d x).dir d = x := by
  unfold State.dir
  rw [State.setDir_cross]
  exact NMap.getD_set_same ..

theorem State.dir_setDir_other (s : State) {d j : Nat} (x : Link) (h : j ≠ d) : (s.setDir d x).dir j = s.dir j := by
  unfold State.dir
  rw [State.setDir_cross]
  exact NMap.getD_set_other _ _ _ h

/-- Setting a direction leaves every object but the counts of its waiting cells. -/
theorem State.get_setDir (s : State) {d n : Nat} (x : Link) {o : ObjRow} (hw : o.apart Obj.cellsWaiting = true)
    (hp : o.apart Obj.cellsWaitingPeak = true) (hd : d < 65536) (hn : n < 65536) :
    (s.setDir d x).get o n = s.get o n := by
  unfold State.setDir
  dsimp only
  split
  · rw [State.get_set_apart _ hp _ hd hn, State.get_set_apart _ hw _ hd hn]
    rfl
  · rw [State.get_set_apart _ hw _ hd hn]
    rfl

/-! ### Retraining -/

section
variable {k : Direction} {s : State}

/-- A direction with a cause stops: its messages are delivered, and it is to be retrained (R525). -/
theorem exec_directionRetrain_stops {cause : Nat} (h0 : s.get Obj.directionState k.val = 0)
    (hc : s.stopCause k.val = some cause) : exec (.directionRetrain k) s = .next (stopDirection k.val cause s) := by
  change execDirectionRetrain k s = _
  unfold execDirectionRetrain
  rw [h0, hc]
  rfl

/-- What a direction that comes UP has (R525). -/
theorem directionUp_retrained (h1 : s.get Obj.directionState k.val = 1) :
    (directionUp k.val s).get Obj.directionState k.val = 0 ∧ ((directionUp k.val s).dir k.val).slot = 0 ∧
    ((directionUp k.val s).dir k.val).fails = 0 ∧ (directionUp k.val s).frames = s.frames ∧
    ∀ j, j ≠ k.val → (directionUp k.val s).dir j = s.dir j := by
  obtain ⟨x, hx⟩ : ∃ x : Link, x = { s.dir k.val with
    trainFails := 0, retrying := false, slot := 0, base := 0, fails := 0 } := ⟨_, rfl⟩
  obtain ⟨v, hv⟩ : ∃ v, v = s.withAvail { s.avail with
    unlocked := s.avail.unlocked.del (dirSource k.val * 8 + 2 + k.val % 3) } := ⟨_, rfl⟩
  have up : directionUp k.val s = (v.setDir k.val x).set Obj.directionState k.val 0 := by
    unfold directionUp
    rw [hx, hv]
    exact if_neg (by rw [h1]; decide)
  have own : ((v.setDir k.val x).set Obj.directionState k.val 0).dir k.val = x := State.dir_setDir_same v k.val x
  rw [up]
  refine ⟨State.get_set_same .., ?_, ?_, ?_, fun j hj => ?_⟩
  · rw [own, hx]
  · rw [own, hx]
  · exact (State.setDir_frames v k.val x).trans (by rw [hv]; rfl)
  · exact (State.dir_setDir_other v x hj).trans (by rw [hv]; rfl)

theorem exec_directionRetrainDone_up (h1 : s.get Obj.directionState k.val = 1) :
    exec (.directionRetrainDone k true) s = .next (directionUp k.val s) := by
  change execDirectionRetrainDone k true s = _
  unfold execDirectionRetrainDone
  dsimp only
  rw [h1]
  exact congrArg Host.Outcome.next (if_pos rfl)

/-- A training that fails is counted (R525). -/
theorem exec_directionRetrainDone_again (h1 : s.get Obj.directionState k.val = 1)
    (hf : (s.dir k.val).trainFails + 1 < 3) : exec (.directionRetrainDone k false) s =
      .next (s.setDir k.val { s.dir k.val with trainFails := (s.dir k.val).trainFails + 1 }) := by
  change execDirectionRetrainDone k false s = _
  unfold execDirectionRetrainDone
  dsimp only
  rw [h1]
  exact congrArg Host.Outcome.next ((if_neg nofun).trans (if_pos hf))

/-- The third in succession makes the direction FAILED (R525). -/
theorem exec_directionRetrainDone_failed (h1 : s.get Obj.directionState k.val = 1)
    (hf : 3 ≤ (s.dir k.val).trainFails + 1) :
    exec (.directionRetrainDone k false) s = .next (failDirection k.val (s.dir k.val).cause 3 s) := by
  change execDirectionRetrainDone k false s = _
  unfold execDirectionRetrainDone
  dsimp only
  rw [h1]
  exact congrArg Host.Outcome.next ((if_neg nofun).trans (if_neg (by omega)))

/-- A FAILED direction whose frames are to be discarded is reported, and the waiting frames are discarded (R525). -/
theorem failDirection_discards {cause tries : Nat} (ha : s.get Obj.directionFailAction = 0) : ∃ u,
    failDirection k.val cause tries s = discardWaiting k.val (raise Ev.directionFailed k.val cause tries u) ∧
    u.get Obj.directionState k.val = 2 ∧ (u.dir k.val).failedAt = s.time.ticks ∧ u.frames = s.frames := by
  have hk : k.val < 65536 := by omega
  obtain ⟨x, hx⟩ : ∃ x : Link, x = { s.dir k.val with
    failedAt := s.time.ticks, retriedAt := s.time.ticks, retrying := false } := ⟨_, rfl⟩
  have action : (raise Ev.directionFailed k.val cause tries ((s.setDir k.val x).set Obj.directionState k.val 2)).get
      Obj.directionFailAction = 0 := by
    rw [raise_get _ _ _ _ _ (by decide) Obj.directionFailAction 0 (by decide) (by decide) rfl,
      State.get_set_apart _ (by decide) _ hk (by decide), State.get_setDir _ _ (by decide) (by decide) hk (by decide), ha]
  refine ⟨(s.setDir k.val x).set Obj.directionState k.val 2, ?_, State.get_set_same .., ?_, State.setDir_frames ..⟩
  · unfold failDirection
    dsimp only
    rw [← hx, if_neg (by rw [action]; decide)]
  · have own : ((s.setDir k.val x).set Obj.directionState k.val 2).dir k.val = x := State.dir_setDir_same s k.val x
    rw [own, hx]

theorem exec_directionRetry_due (h2 : s.get Obj.directionState k.val = 2) (hr : (s.dir k.val).retrying = false)
    (hp : s.anyPilot = true) (he : s.elapsed (s.dir k.val).retriedAt 10000000000 = true) :
    exec (.directionRetry k) s =
      .next (s.setDir k.val { s.dir k.val with retrying := true, retriedAt := s.time.ticks }) := by
  change execDirectionRetry k s = _
  unfold execDirectionRetry
  exact congrArg Host.Outcome.next (if_pos (by simp [h2, hr, hp, he]))

end

/-! ### PLLs -/

section
variable {d : Deck} {pll : Pll} {s : State} (hu : s.deckUp d.val = true)
include hu

/-- A PLL that unlocks is reported once; that of a core says so in its state (R526). -/
theorem exec_pllUnlock_first (ha : s.awake = true) (hn : s.avail.unlocked.find (pllKey d.val pll) = none) : ∃ u,
    exec (.pllUnlock d pll) s = .next (raise Ev.pllUnlock d.val (pllCode pll) 0 u) ∧
    u.avail.unlocked.find (pllKey d.val pll) = some s.time.ticks ∧ (pll = .core → u.get Obj.corePllState d.val = 1) ∧
    (pll ≠ .core → u.dict = s.dict) ∧ u.frames = s.frames := by
  obtain ⟨v, hv⟩ : ∃ v, v = s.withAvail { s.avail with
    unlocked := s.avail.unlocked.put (pllKey d.val pll) s.time.ticks } := ⟨_, rfl⟩
  have exec : exec (.pllUnlock d pll) s = .next (raise Ev.pllUnlock d.val (pllCode pll) 0
      (if pllCode pll = 0 then v.set Obj.corePllState d.val 1 else v)) := by
    rw [hv]
    change execPllUnlock d pll s = _
    unfold execPllUnlock
    exact congrArg Host.Outcome.next (if_neg (by simp [ha, hu, hn]))
  have noted : v.avail.unlocked.find (pllKey d.val pll) = some s.time.ticks := by
    rw [hv]
    exact NMap.find_put_same ..
  have frames : v.frames = s.frames := by rw [hv]; rfl
  refine ⟨_, exec, ?_⟩
  cases pll with
  | core => exact ⟨noted, fun _ => State.get_set_same .., fun h => absurd rfl h, frames⟩
  | hbmPhy => exact ⟨noted, nofun, fun _ => by rw [hv]; rfl, frames⟩
  | chainLink i => exact ⟨noted, nofun, fun _ => by rw [hv]; rfl, frames⟩

/-- A PLL that relocks is no longer noted; that of a core says so in its state (R526). -/
theorem completes_pllRelocked {at_ : Nat} (hf : s.avail.unlocked.find (pllKey d.val pll) = some at_) :
    Completes (.pllRelocked d pll) s fun t =>
      t.avail.unlocked.find (pllKey d.val pll) = none ∧
      (pll = .core → t.get Obj.corePllState d.val = if bitOf (s.get Obj.refclkPresent) 0 then 2 else 3) ∧
      (pll ≠ .core → t.dict = s.dict) ∧ t.frames = s.frames := by
  obtain ⟨v, hv⟩ : ∃ v, v = s.withAvail { s.avail with
    unlocked := s.avail.unlocked.del (pllKey d.val pll) } := ⟨_, rfl⟩
  have exec : exec (.pllRelocked d pll) s = .next (if pllCode pll = 0 then
      v.set Obj.corePllState d.val (if bitOf (s.get Obj.refclkPresent) 0 then 2 else 3) else v) := by
    rw [hv]
    change execPllRelocked d pll s = _
    unfold execPllRelocked
    exact congrArg Host.Outcome.next (if_pos (by simp [hu, hf]))
  have gone : v.avail.unlocked.find (pllKey d.val pll) = none := by
    rw [hv]
    exact NMap.find_del_same ..
  have frames : v.frames = s.frames := by rw [hv]; rfl
  refine ⟨_, exec, ?_⟩
  cases pll with
  | core => exact ⟨gone, fun _ => State.get_set_same .., fun h => absurd rfl h, frames⟩
  | hbmPhy => exact ⟨gone, nofun, fun _ => by rw [hv]; rfl, frames⟩
  | chainLink i => exact ⟨gone, nofun, fun _ => by rw [hv]; rfl, frames⟩

end

/-- A PLL of a core or an HBM PHY that does not relock loses its deck (R526). -/
theorem exec_pllRelockTimeout_late {d : Deck} {pll : Pll} {s : State} {at_ : Nat}
    (hf : s.avail.unlocked.find (pllKey d.val pll) = some at_) (h2 : pllCode pll ≠ 2)
    (he : s.elapsed at_ 100000 = true) : exec (.pllRelockTimeout d pll) s = .next (loseDeck d.val 2 s) := by
  change execPllRelockTimeout d pll s = _
  unfold execPllRelockTimeout
  rw [hf]
  cases pll with
  | core => exact congrArg Host.Outcome.next (if_pos he)
  | hbmPhy => exact congrArg Host.Outcome.next (if_pos he)
  | chainLink i => exact absurd rfl h2

/-- Settles O50: each command is one branch, and what a direction has after it is read back from its record. -/
theorem directionsAndPllsRecoverOrFail : Obligations.DirectionsAndPllsRecoverOrFail := by
  unfold Obligations.DirectionsAndPllsRecoverOrFail
  constructor
  · rintro k x s rfl
    refine ⟨fun cause h0 hc => exec_directionRetrain_stops h0 hc, fun h1 => ⟨?_, fun hf => ?_, fun hf ha => ?_⟩,
      fun h2 hr hp he => exec_directionRetry_due h2 hr hp he⟩
    · exact ⟨_, exec_directionRetrainDone_up h1, directionUp_retrained h1⟩
    · exact exec_directionRetrainDone_again h1 hf
    · obtain ⟨u, failed, rest⟩ := failDirection_discards (k := k) (cause := (s.dir k.val).cause) (tries := 3) ha
      exact ⟨u, by rw [exec_directionRetrainDone_failed h1 hf, failed], rest⟩
  · intro d pll s hu
    exact ⟨fun ha hn => exec_pllUnlock_first hu ha hn, fun at_ hf =>
      ⟨completes_pllRelocked hu hf, fun h2 he => exec_pllRelockTimeout_late hf h2 he⟩⟩

end Sys2Proof.Machine
end

section
/-! SUPPORT. The test lock (R543, R544): a challenge is drawn by its read, its value unlocks, and locking lists no
perturbation. -/

namespace Sys2Proof.Machine

set_option maxRecDepth 4000 in
theorem rowOf_testUnlock : rowOf 0x9800 0 = some Obj.testUnlock := rfl
set_option maxRecDepth 4000 in
theorem rowOf_testChallenge : rowOf 0x9801 0 = some Obj.testChallenge := rfl

/-! ### The challenge -/

/-- A drawn challenge is a word other than 0, kept for its session (R543). -/
theorem drawChallenge_eq (session : Nat) (s : State) : ∃ n v, drawChallenge session s = (n, v) ∧ n ≠ 0 ∧ n < 2 ^ 32 ∧
    v.count.challenge = some (n, session, s.time.ticks) ∧
    v = { s with count := v.count, drawn := s.drawn + 1, dict := { s.dict with active := v.dict.active } } := by
  refine ⟨s.draw.1 % (2 ^ 32 - 1) + 1, _, rfl, Nat.succ_ne_zero _, ?_, rfl, rfl⟩
  have := Nat.mod_lt s.draw.1 (show 0 < 2 ^ 32 - 1 by decide)
  omega

/-- A read of TEST_CHALLENGE draws it (R543). -/
theorem serveDict_testChallenge {p : Path} {tag : BitVec 16} {s : State} (hl : 3 ≤ s.levelOf p 0x9801 false) :
    serveDict p (readReq tag 0x9801 0 0) s =
      (some (respond (readReq tag 0x9801 0 0) St.ok (leBytes 4 (drawChallenge (sessionId p) s).1)),
        (drawChallenge (sessionId p) s).2) := by
  have object : s.object (readReq tag 0x9801 0 0) = .ok Obj.testChallenge := by
    unfold State.object
    rw [show rowOf (readReq tag 0x9801 0 0).index.toNat (readReq tag 0x9801 0 0).sub.toNat = some Obj.testChallenge
      from rowOf_testChallenge]
    rfl
  have value : readValue p (readReq tag 0x9801 0 0) Obj.testChallenge s = drawChallenge (sessionId p) s := rfl
  rw [serveDict_readValue object (by decide) hl rfl rfl rfl rfl, value]
  rfl

/-! ### The unlock -/

/-- The state unlocked for a session (R543). -/
def testUnlocked (session : Nat) (s : State) : State :=
  raise Ev.testUnlocked 0 session (s.get Obj.testMaxS) ((s.withCount (Count.mk s.count.windowAt s.count.windowNs
    s.count.windows s.count.bytes s.count.history s.count.completed none session s.time.ticks)).set Obj.testState 0 1)

/-- The value of the session's challenge unlocks within its time (R543). -/
theorem writeUnlock_challenge {session v at_ : Nat} {s : State} (hv : v ≠ 0)
    (hc : s.count.challenge = some (v, session, at_)) (he : s.elapsed at_ 10000000001 = false) :
    writeUnlock session v s = (St.ok, testUnlocked session s) := by
  unfold writeUnlock
  dsimp only
  rw [hc]
  dsimp only
  rw [if_neg (fun h => hv h.1), if_pos (by rw [he]; simp)]
  rfl

theorem writeEffect_testUnlock {p : Path} {tag : BitVec 16} {v : Nat} {s : State} :
    writeEffect p tag Obj.testUnlock 0 0 v s = (some (writeUnlock (sessionId p) v s).1, (writeUnlock (sessionId p) v s).2) :=
  rfl

/-! ### The lock -/

theorem State.set_dflt_active {s : State} {o : ObjRow} {inst v : Nat} (h : o.dflt o.sub inst = v) :
    (s.set o inst v).dict.active = s.dict.active.del (addrKey o.index o.sub inst) :=
  if_pos h.symm

/-- Objects that are set to their default of 0 are no longer listed, and nothing new is. -/
theorem mem_active_cleared {l : List (ObjRow × Nat)} (hl : ∀ x ∈ l, x.1.dflt x.1.sub x.2 = 0) {s : State} {e : Nat × Nat}
    (he : e ∈ (l.foldl (fun s (x : ObjRow × Nat) => s.set x.1 x.2 0) s).dict.active) :
    e ∈ s.dict.active ∧ ∀ x ∈ l, e.1 ≠ addrKey x.1.index x.1.sub x.2 := by
  induction l generalizing s with
  | nil => exact ⟨he, nofun⟩
  | cons x l ih =>
    obtain ⟨mem, apart⟩ := ih (fun y hy => hl y (List.mem_cons_of_mem _ hy)) he
    rw [State.set_dflt_active (hl x List.mem_cons_self), NMap.del_eq_filter] at mem
    obtain ⟨kept, other⟩ := List.mem_filter.mp mem
    refine ⟨kept, fun y hy => ?_⟩
    rcases List.mem_cons.mp hy with rfl | hy
    · simpa using other
    · exact apart y hy

theorem foldl_set_count (l : List (ObjRow × Nat)) (s : State) :
    (l.foldl (fun s (x : ObjRow × Nat) => s.set x.1 x.2 0) s).count = s.count := by
  induction l generalizing s with
  | nil => rfl
  | cons x l ih => exact ih _

theorem perturbObjects_dflt : ∀ o ∈ perturbObjects, ∀ i, o.dflt o.sub i = 0 := by
  unfold perturbObjects
  simp only [List.mem_cons, List.not_mem_nil, or_false, forall_eq_or_imp, forall_eq]
  exact ⟨fun _ => rfl, fun _ => rfl, fun _ => rfl, fun _ => rfl, fun _ => rfl⟩

/-- The perturbations that are listed, as an object and an element (R544). -/
def State.perturbed (s : State) : List (ObjRow × Nat) :=
  perturbObjects.flatMap fun o => (s.listed o).map fun i => (o, i)

theorem State.mem_perturbed {s : State} {x : ObjRow × Nat} (h : x ∈ s.perturbed) : x.1 ∈ perturbObjects := by
  obtain ⟨o, ho, hx⟩ := List.mem_flatMap.mp h
  obtain ⟨i, -, rfl⟩ := List.mem_map.mp hx
  exact ho

/-- An entry in the range of an object is the entry of one of its elements. -/
theorem addrKey_of_range {index sub k : Nat} (h : addrKey index sub 0 ≤ k ∧ k < addrKey index sub 0 + 65536) :
    addrKey index sub (k % 65536) = k := by
  unfold addrKey at h ⊢
  omega

/-- The state that is locked, before its report (R544). -/
def testCleared (s : State) : State :=
  let v := s.perturbed.foldl (fun s (x : ObjRow × Nat) => s.set x.1 x.2 0) s
  (v.withCount { v.count with challenge := none }).set Obj.testState 0 0

theorem lockTest_eq (cause : Nat) (s : State) :
    lockTest cause s = raise Ev.testLocked 0 cause s.perturbed.length (testCleared s) := rfl

theorem testCleared_count (s : State) : (testCleared s).count = { s.count with challenge := none } := by
  rw [← foldl_set_count s.perturbed s]
  rfl

/-- A lock leaves no perturbation listed (R544). -/
theorem testCleared_perturb (s : State) {o : ObjRow} (ho : o ∈ perturbObjects) :
    (testCleared s).dict.active.inRange (addrKey o.index o.sub 0) 65536 = [] := by
  refine List.filter_eq_nil_iff.mpr fun e he hr => ?_
  simp only [Bool.and_eq_true, decide_eq_true_eq] at hr
  have cleared : (testCleared s).dict.active = NMap.del
      (s.perturbed.foldl (fun s (x : ObjRow × Nat) => s.set x.1 x.2 0) s).dict.active (addrKey 0x9802 0 0) :=
    State.set_dflt_active (o := Obj.testState) rfl
  rw [cleared, NMap.del_eq_filter] at he
  obtain ⟨mem, apart⟩ := mem_active_cleared (fun x hx => perturbObjects_dflt x.1 (State.mem_perturbed hx) x.2)
    (List.mem_filter.mp he).1
  have listed : e.1 % 65536 ∈ s.listed o :=
    List.mem_map.mpr ⟨e, List.mem_filter.mpr ⟨mem, by simpa using hr⟩, rfl⟩
  exact apart (o, e.1 % 65536) (List.mem_flatMap.mpr ⟨o, ho, List.mem_map.mpr ⟨_, listed, rfl⟩⟩) (addrKey_of_range hr).symm

theorem exec_testLocked_owner {s : State} (h1 : s.get Obj.testState = 1) (ho : s.ownerAtVendor = false) :
    exec .testLocked s = .next (lockTest 2 s) := by
  change execTestLocked s = _
  unfold execTestLocked
  rw [if_neg (fun h => h h1), ho]
  exact congrArg Host.Outcome.next (if_pos rfl)

theorem exec_testLocked_time {s : State} (h1 : s.get Obj.testState = 1) (ho : s.ownerAtVendor = true)
    (he : s.elapsed s.count.unlockedAt (s.get Obj.testMaxS * 1000000000) = true) :
    exec .testLocked s = .next (lockTest 3 s) := by
  change execTestLocked s = _
  unfold execTestLocked
  rw [if_neg (fun h => h h1), ho, he]
  exact congrArg Host.Outcome.next ((if_neg nofun).trans (if_pos rfl))

/-- Settles O52: the challenge is drawn aside by its read, and a lock sets every listed perturbation to its default. -/
theorem testObjectsAreUnlockedByChallenge : Obligations.TestObjectsAreUnlockedByChallenge := by
  unfold Obligations.TestObjectsAreUnlockedByChallenge
  rintro c s u rfl
  refine ⟨fun turn hl => ?_, fun w at_ may hw hc he => ?_, fun h1 h => ?_⟩
  · obtain ⟨n, v, drawn, pos, wide, kept, rest⟩ := drawChallenge_eq (sessionId c.path) (s.takenBy c.path)
    refine ⟨n, v, pos, wide, kept, rest, ?_⟩
    rw [exec_of_turn (i := .testChallenge c) turn rfl rfl, carryOut_answered (serveDict_testChallenge hl), drawn]
  · have value : leNat (leBytes 4 w.toNat) = w.toNat := leNat_leBytes_of_lt w.isLt
    have nonzero : w.toNat ≠ 0 := fun h => hw (BitVec.eq_of_toNat_eq h)
    refine clientWrites_plain Obj.testUnlock rfl may rowOf_testUnlock rfl (by decide) (by decide) (by decide) rfl
      (length_leBytes ..) (.inr ⟨rfl, rfl, rfl, rfl, rfl⟩) ?_
    rw [writeEffect_testUnlock, value, writeUnlock_challenge nonzero hc he]
    rfl
  · cases ho : s.ownerAtVendor with
    | false =>
      exact ⟨2, _, testCleared s, exec_testLocked_owner h1 ho, State.get_set_same .., testCleared_count s, fun _ => rfl,
        nofun, fun o hm _ => testCleared_perturb s hm⟩
    | true =>
      have late := h.resolve_left (by rw [ho]; nofun)
      exact ⟨3, _, testCleared s, exec_testLocked_time h1 ho late, State.get_set_same .., testCleared_count s, nofun,
        fun _ => rfl, fun o hm _ => testCleared_perturb s hm⟩

end Sys2Proof.Machine
end
